-- ==== Sys2Proof/Word.lean ====
section
/-! DEFINITION. Word types of the module: a register is 32 bits wide (R9); a tag VALUE and a
timestamp are 64 bits wide (R79). -/

namespace Sys2Proof

/-- A register word (R9). -/
abbrev Word := BitVec 32

/-- A tag VALUE, a tag timestamp or any other 64-bit quantity (R7, R79). -/
abbrev DWord := BitVec 64

/-- One byte of a layout the manual gives in bytes (R5). -/
abbrev Byte := BitVec 8

end Sys2Proof
end

