-- ==== Sys2Proof/Syntax.lean ====
section
/-! DEFINITION. The commands of the module (one constructor of Instr per row of the opcode table) and
the data they carry. A command is what reaches the module from outside: a request, a frame, a register
access, an edge on a pin, or the end of a time the manual gives. What only the outside can know (a
measured value, the partner's frame, the content of a key) is an operand. -/

namespace Sys2Proof

/-- Module states of R1. -/
inductive Mode where
  | off | starting | standby | active | halt | terminus
  deriving DecidableEq, Repr

/-- The state a reported code stands for; 0x0 and 0x6 to 0xF are never reported, and a report that holds one is corrupt (R2). -/
def modeOfCode : Nat → Option Mode
  | 1 => some .starting
  | 2 => some .standby
  | 3 => some .active
  | 4 => some .halt
  | 5 => some .terminus
  | _ => none

/-- Slots of a pair carrier (R18). -/
inductive Slot where
  | a | b
  deriving DecidableEq, Repr

/-- The four origins of a register access (R411). -/
inductive Origin where
  | lane (n : Nat)
  | mgmt (core : Nat)
  | plant (session : Nat)
  | svc (session : Nat)
  deriving DecidableEq, Repr

/-- Client roles of R383. -/
inductive ClientRole where
  | operator | engineer | service
  deriving DecidableEq, Repr

/-- Tag types of R80, in code order from 0x01. -/
inductive TagType where
  | bool | int8 | int16 | int32 | int64 | uint8 | uint16 | uint32 | uint64
  | real32 | real64 | duration | timestamp | enum16 | bits64 | char8 | unitaddr
  deriving DecidableEq, Repr

/-- The one writer a declared tag has (R90): a task, or an input source written at the freezes of the owning task; after an exchange
retired its writer, none, with the task whose freezes still deliver work for it (R145, R158). -/
inductive TagWriter where
  | task (t : Nat)
  | input (owner : Nat)
  | unwritten (owner : Nat)
  deriving DecidableEq, Repr

/-- What the tag dictionary declares for an index (R76). -/
structure TagDecl where
  type : TagType
  owner : Nat
  writer : TagWriter
  retentive : Bool
  writable : Bool
  initial : DWord
  initQuality : BitVec 16
  enum : List Nat
  hasEnum : Bool
  /-- A management status input (R85). -/
  mgmt : Bool
  deriving DecidableEq, Repr

/-- Who receives a message kind at a unit (R101, R102). -/
inductive Route where
  | task (t : Nat)
  | member (t : Nat) (unit : Nat)
  | roleHolder (t : Nat) (role : Nat)
  deriving DecidableEq, Repr

/-- A port of a unit (R101): a typed set of tag bindings of its own, or a member's port exported under the group's name. -/
inductive UnitPort where
  | own (type : Nat) (bindings : List Nat)
  | exported (unit port : Nat)
  deriving DecidableEq, Repr

/-- A unit of the unit tree section (R99 to R103). The root may stand in the list as unit 0, its own parent. -/
structure UnitDecl where
  parent : Nat
  initRole : Nat
  ports : List (Nat × UnitPort)
  kinds : List (Nat × Route)
  aliases : List Nat
  deriving DecidableEq, Repr

/-- A program constant (R141). -/
structure ConstDecl where
  type : TagType
  task : Nat
  changeable : Bool
  value : DWord
  lo : DWord
  hi : DWord
  deriving DecidableEq, Repr

/-- Kinds of program state object that R72 and R154 treat apart. -/
inductive ObjKind where
  | timer | counter | edge | rate | other
  deriving DecidableEq, Repr

/-- A program state object as the program section declares it (R153): instance path, type signature, preset and initial state; presetConst is the
constant that carries its preset (R144), expiryOut the state that its main output takes at expiry (R154), outTag the tag its output goes to (R72). -/
structure ObjDecl where
  sig : DWord
  task : Nat
  kind : ObjKind
  preset : Nat
  presetConst : Option Nat
  firstCycleEdge : Bool
  expiryOut : Bool
  outTag : Option Nat
  initial : List DWord
  deriving DecidableEq, Repr

/-- A task of the timetable section (R115, R134); blocks gives the lane of each block, in execution order; barriers the blocks of other lanes
that a block waits for (R121). -/
structure TaskCfg where
  periodQ : Nat
  phaseQ : Nat
  budgetPct : Nat
  aligned : Bool
  deliveryLimit : Nat
  lanes : List Nat
  admittedPm : Nat
  blocks : List Nat
  barriers : List (Nat × List Nat)
  deriving DecidableEq, Repr

/-- A term of a trip equation (R257). -/
structure Term where
  kind : Nat
  invert : Bool
  index : Nat
  deriving DecidableEq, Repr

/-- A trip equation of the signal box section (R256). -/
structure EqCfg where
  terms : List Term
  k : Nat
  latch : Bool
  armed : Bool
  pickupUs : Nat
  dropoutMs : Nat
  outCh : Option Nat
  pub : Option (Nat × Nat)
  deriving DecidableEq, Repr

/-- Trip output configuration (R268). -/
structure TripCfg where
  shared : Bool
  deEnergise : Bool
  merged : Bool
  failTrip : Bool
  deriving DecidableEq, Repr

/-- Analogue comparator settings (R261, R262); thresholds are signed fast codes. -/
structure AcmpCfg where
  threshold : Int
  hyst : Nat
  failValue : Bool
  deriving DecidableEq, Repr

/-- Sampled-value comparator settings (R263). -/
structure SvcCfg where
  sub : Nat
  chan : Nat
  rms : Bool
  count : Nat
  threshold : Nat
  hyst : Nat
  failValue : Bool
  deriving DecidableEq, Repr

/-- GOOSE bit slot settings (R264). -/
structure GbitCfg where
  sub : Nat
  member : Nat
  failValue : Bool
  deriving DecidableEq, Repr

/-- Channel modes of R276. -/
inductive ChanMode where
  | unused | di | dout | ao | ci | vi
  deriving DecidableEq, Repr

/-- Safe value kinds of R291. -/
inductive SafeKind where
  | deEnergise | holdLast | preset
  deriving DecidableEq, Repr

/-- Characteristics of R305 to R307; parameters are binary64 words. -/
inductive Characteristic where
  | none
  | linear (x0 x1 e0 e1 : DWord)
  | squareRoot (x0 x1 e0 e1 cutoff : DWord)
  | table (points : List (DWord × DWord))
  deriving DecidableEq, Repr

/-- A channel of the channel and characteristics sections (R276, R279 to R310). -/
structure ChanCfg where
  mode : ChanMode
  type3 : Bool
  pulsed : Bool
  interval : Nat
  debounce : Nat
  limit : Nat
  bipolar : Bool
  loopPower : Bool
  liveZero : Bool
  safeKind : SafeKind
  safeOn : Bool
  safeUa : Nat
  inputTag : Option Nat
  commandTag : Option Nat
  readbackTag : Option Nat
  readbackMaTag : Option Nat
  characteristic : Characteristic
  tagSourceFast : Bool
  fastQueue : Bool
  calSubstitute : Option DWord
  deriving DecidableEq, Repr

/-- A mapping of one channel of a sampled-value stream to a tag (R371): REAL32 scale where given, INT32 otherwise. -/
structure SvMap where
  chan : Nat
  tag : Nat
  scale : Option DWord
  deriving DecidableEq, Repr

/-- A sampled-value subscription (R369). -/
structure SvSub where
  dest : Nat
  appid : Nat
  svId : Nat
  confRev : Nat
  entries : Nat
  rate : Nat
  localSync : Bool
  holdMs : Nat
  maps : List SvMap
  deriving DecidableEq, Repr

/-- A GOOSE subscription (R372); each map gives member, tag and the member carrying its Quality. -/
structure GooseSub where
  appid : Nat
  gocbRef : Nat
  datSet : Nat
  confRev : Nat
  entries : Nat
  holdMs : Nat
  maps : List (Nat × Nat × Option Nat)
  deriving DecidableEq, Repr

/-- A member of a GOOSE publication (R374). -/
inductive PubMember where
  | tag (t : Nat)
  | equation (e : Nat)
  deriving DecidableEq, Repr

/-- A GOOSE publication (R374, R375). -/
structure PubCfg where
  members : List PubMember
  tMaxMs : Nat
  deriving DecidableEq, Repr

/-- Process bus, plant bus and service port section (KIND 0x0008). -/
structure NetCfg where
  hsr : Bool
  svSubs : List (Nat × SvSub)
  gooseSubs : List (Nat × GooseSub)
  pubs : List (Nat × PubCfg)
  ptpDomain : Nat
  ptpBoundary : Bool
  /-- Peer-to-peer delay, else delay request and response (R358). -/
  ptpPeer : Bool
  deriving DecidableEq, Repr

/-- A CAN receive mapping (R400). -/
structure CanMap where
  ident : Nat
  mask : Nat
  byteOff : Nat
  bitOff : Nat
  bitLen : Nat
  tag : Nat
  scale : DWord
  holdMs : Nat
  deriving DecidableEq, Repr

/-- One port of the CAN section (R393, R403). -/
structure CanCfg where
  nomRate : Nat
  dataRate : Nat
  nomSp : Nat
  dataSp : Nat
  txTimeoutMs : Nat
  maps : List CanMap
  deriving DecidableEq, Repr

/-- What a definition says of one of its channels or tags, for the channel table (R337): unit, engineering value per code and at code 0 as binary32, and the
name's 16 bytes; gain and offset of a universal channel follow from its characteristic instead. -/
structure ChanLabel where
  unit : Nat
  gain : Word
  offset : Word
  name : List Byte
  deriving DecidableEq, Repr

/-- A record definition (R321), its name, and the labels of its channels and then its tags. -/
structure DefCfg where
  sv : Bool
  rate : Nat
  channels : List (Nat × Nat)
  tags : List Nat
  pre : Nat
  post : Nat
  extendMax : Nat
  reduceN : Nat
  reduceCount : Nat
  tagEntries : Nat
  segsPerRecord : Nat
  gapMs : Nat
  allotMib : Nat
  armed : Bool
  name : List Byte
  labels : List ChanLabel
  deriving DecidableEq, Repr

/-- A configured trigger (R325): kind 1 to 4; edge 0 rising, 1 falling, 2 either; level and hysteresis as written in the registers. -/
structure TrigCfg where
  kind : Nat
  source : Nat
  edge : Nat
  level : Word
  hyst : Word
  defMask : Nat
  deriving DecidableEq, Repr

/-- Pair policy section (R505): its fields as their bytes stand, in range or not. -/
structure PairPolicy where
  acceptUnpartnered : Nat
  clientWindow : Nat
  expiryS : Nat
  snapshotS : Nat
  retainH : Nat
  /-- One mask per platform, P0 first. -/
  critical : List Nat
  deriving DecidableEq, Repr

/-- Start policy section (R54): RESTART_MODE and PARTNER_WINDOW as they stand, in range or not. -/
structure StartPolicy where
  restartMode : Nat
  partnerWindow : Nat
  deriving DecidableEq, Repr

/-- A period source of R298. -/
inductive PeriodSource where
  | sv (sub chan : Nat)
  | channel (c : Nat)
  deriving DecidableEq, Repr

/-- A section entry of the image header (R53): CRC is the value the entry holds. -/
structure Section where
  kind : Nat
  offset : Nat
  length : Nat
  crc : Word
  deriving DecidableEq, Repr

/-- An X.509 certificate with a P-384 key (R55): the bytes its issuer signed, the public key they hold, and the issuer's ECDSA signature. The
standard's own encoding of these is not the manual's (assumption 7). -/
structure Cert where
  signed : List Byte
  key : Nat × Nat
  sig : Nat × Nat
  deriving DecidableEq, Repr

/-- A configuration image (R52, R53, R55): the header fields, the bytes after the header up to IMAGE_LEN, the signature block, and what the sections
say. The workbench's section encodings are not in the manual, so a section's meaning stands beside its bytes (assumption 7). -/
structure Image where
  magic : Word
  format : Nat
  headerLen : Nat
  imageLen : Nat
  sectionCount : Nat
  projectId : DWord
  revision : Nat
  variant : Nat
  pairId : Nat
  buildTime : DWord
  sigOffset : Nat
  sigLen : Nat
  sections : List Section
  headerCrc : Word
  body : List Byte
  /-- The configuration digest (R55). -/
  digest : Nat
  projectCert : Cert
  ownerCert : Cert
  sig : Nat × Nat
  tasks : List (Nat × TaskCfg)
  spares : Nat
  tags : List (Nat × TagDecl)
  units : List (Nat × UnitDecl)
  roles : List (Nat × Bool)
  constants : List (Nat × ConstDecl)
  objects : List (Nat × ObjDecl)
  equations : List (Nat × EqCfg)
  trips : List (Nat × TripCfg)
  acmps : List (Nat × AcmpCfg)
  svcs : List (Nat × SvcCfg)
  gbits : List (Nat × GbitCfg)
  channels : List (Nat × ChanCfg)
  mains60 : Bool
  primary : Option PeriodSource
  secondary : Option PeriodSource
  net : NetCfg
  can : List (Nat × CanCfg)
  defs : List (Nat × DefCfg)
  triggers : List (Nat × TrigCfg)
  policy : PairPolicy
  start : StartPolicy
  deriving DecidableEq, Repr

/-- What a slot key answers (R50, R51): the fields of its header, slot record and pair record with the check each ends in, and the two image
copies. Names are 64 bytes as a number, first byte least significant. -/
structure SlotKey where
  magic : Word
  format : Nat
  serial : DWord
  keyCrc : Word
  slotCode : Nat
  carrierCode : Nat
  carrierSerial : DWord
  slotName : Nat
  slotCrc : Word
  pairId : Nat
  projectId : DWord
  pairName : Nat
  pairCrc : Word
  copy1 : Option Image
  copy2 : Option Image
  deriving DecidableEq, Repr

/-- Structures of persistent memory that a cut write leaves torn or an uncorrectable word damages (R192, R218): a journal ring slot, the state word of
the waybill in a slot, a release mark slot of a task, a snapshot slot, a power-loss record slot, a client checkpoint slot, a fault ring slot, a slot of
the oscillator model or the mileage record, a coefficient slot, a firmware slot of a region, a region's activation record, a siding, and a copy of the
certificate chain. -/
inductive MramSite where
  | slot (n : Nat)
  | stateWord (n : Nat)
  | mark (task n : Nat)
  | snapshot (k : Nat)
  | powerLoss (k : Nat)
  | checkpoint (k : Nat)
  | fault (k : Nat)
  | oscillator (k : Nat)
  | mileage (k : Nat)
  | coefficient (k : Nat)
  | firmware (region slot : Nat)
  | activation (region : Nat)
  | siding (k : Nat)
  | chain (k : Nat)
  deriving DecidableEq, Repr

/-- What the sequence of R61 meets in steps 1 to 9: supply readings in mV, straps, the key, structures of persistent memory whose words the start finds
uncorrectable (R192), lanes that fail the built-in test, and whether the tag store is unreadable. -/
structure StartInput where
  mod1Mv : Nat
  mod2Mv : Nat
  fld1Mv : Nat
  fld2Mv : Nat
  slotB : Bool
  split : Bool
  key : Option SlotKey
  unreadable : List MramSite
  badLanes : List Nat
  tagStoreFault : Bool
  deriving DecidableEq, Repr

/-- HELLO frame content (R61 step 10, R224); STATE is the module state code. lastClosed is none for a stale standby copy or a module without a
cycle. The images are those the coupling brings with it under R58, and the time is the one R355 uses. -/
structure Hello where
  state : Nat
  pairId : Nat
  projectId : DWord
  digest : Nat
  revision : Nat
  keyRevision : Nat
  keyAccepted : Bool
  anchor : Option Nat
  cycles : List (Nat × Nat)
  lastClosed : Option Nat
  staleCopy : Bool
  jrnHead : Nat
  atStep10 : Bool
  image : Option Image
  keyImage : Option Image
  timeSec : Nat
  timeNs : Nat
  session : Nat
  deriving DecidableEq, Repr

/-- The eleven kinds of work with their bodies (R199, R386). -/
inductive Work where
  | tagWrite (tag : Nat) (type : TagType) (qualityGiven : Bool) (quality : BitVec 16) (value : DWord)
  | forceSet (tag : Nat) (type : TagType) (qualityGiven : Bool) (quality : BitVec 16) (value : DWord)
  | forceRelease (tag : Nat)
  | forceReleaseAll
  | unitMessage (unit epoch kind : Nat) (roleIndependent : Bool) (payload : List Byte)
  | roleAssign (unit role : Nat)
  | constantChange (digest task : Nat) (pairs : List (Nat × DWord))
  | exchangeRequest (digest : Nat) (unpartneredOk clearOverlay sbxRestructure : Bool)
  | exchangeAbandon (digest : Nat)
  | restart (scope : Nat) (cold : Bool)
  | roleExchange
  deriving DecidableEq, Repr

/-- A program state object's present state: its type signature, for a timer elapsed nanoseconds and whether it runs, for a counter the count, for an
edge detector the previous value; DONE and the main output; fresh: it has no history yet (R72). -/
structure ObjState where
  sig : DWord
  running : Bool
  acc : Nat
  preset : Nat
  done : Bool
  out : Bool
  fresh : Bool
  words : List DWord
  deriving DecidableEq, Repr

/-- A CAN transmit request (R402). -/
structure CanReq where
  handle : Nat
  ident : Nat
  extended : Bool
  fdf : Bool
  brs : Bool
  rtr : Bool
  dlc : Nat
  data : List Byte
  deriving DecidableEq, Repr

/-- What a store of a program block is (R165): a tag write, a message, a role block, a posted waybill, a register write,
a state object, or a CAN request or cancel (R402, R405). wide: the value is a REAL32 result at higher precision, given as binary64 (R82). -/
inductive Store where
  | tag (tag : Nat) (type : TagType) (quality : BitVec 16) (value : DWord) (wide : Bool)
  | message (sender unit epoch kind : Nat) (roleIndependent : Bool) (payload : List Byte)
  | role (unit role : Nat)
  | post (sender : Nat) (work : Work)
  | reg (addr : Nat) (value : Word)
  | object (path : Nat) (state : ObjState)
  | canSend (port : Nat) (req : CanReq)
  | canCancel (port handle : Nat)
  deriving DecidableEq, Repr

/-- What one copy presents at a checkpoint (R170): the register-file writes it retired and the stores it made (address, byte mask, data), each in its order, and for a
background test vector its gate request words; at a checkpoint of a block the gate itself holds those. -/
structure CopyReport where
  regWrites : List (Nat × DWord)
  stores : List (Nat × Nat × DWord)
  gates : List DWord
  deriving DecidableEq, Repr

/-- Causes of a checkpoint (R169). -/
inductive CkptCause where
  | blockEnd | interval | storeFull | gateFull
  deriving DecidableEq, Repr

/-- What a lane copy asks of its protection unit (R435, R442): a region word of the points set, an arm, a swap, or an access to check, with address, length and
kind (0 load, 1 store, 2 fetch). -/
inductive LaneOp where
  | region (region word : Nat) (value : Word)
  | arm
  | swap
  | access (addr len kind : Nat)
  deriving DecidableEq, Repr

/-- A checkpoint of a lane: the reports of both copies, what the stores of copy A mean, what each copy asked of its protection unit in the interval, in its order,
and the lead seen. -/
structure Checkpoint where
  lane : Nat
  cause : CkptCause
  block : Nat
  unit : Nat
  copyA : CopyReport
  copyB : CopyReport
  effects : List Store
  opsA : List LaneOp
  opsB : List LaneOp
  lead : Nat
  deriving DecidableEq, Repr

/-- Where an ECC error lies (R175, R192): in persistent memory a structure, or an address of R193. -/
inductive EccSite where
  | laneLocal (lane : Nat)
  | shared (word : Nat)
  | mram (site : MramSite)
  | mramWord (addr : Nat)
  deriving DecidableEq, Repr

/-- One finding of the scrubber (R176). -/
structure EccFinding where
  site : EccSite
  correctable : Bool
  deriving DecidableEq, Repr

/-- One run of a background test vector (R183): what each copy presents, and what the vector asks for. -/
structure VectorRun where
  copyA : CopyReport
  copyB : CopyReport
  known : CopyReport
  deriving DecidableEq, Repr

/-- The header of a coupling frame (R223). -/
structure FrameHdr where
  kind : Nat
  first : Bool
  last : Bool
  stale : Bool
  linkSeq : Nat
  ack : Nat
  session : Nat
  state : Nat
  slotB : Bool
  task : Option Nat
  chunk : Nat
  chunks : Nat
  cycle : Nat
  closeSeq : Nat
  jrnHead : Nat
  pairTag : Nat
  deriving DecidableEq, Repr

/-- A coupling message as received (R223, R225): header, payload bytes and check of its one frame, or of the last frame of a message of several, whose
others have been received before it. What the message says is a further operand of its command (assumption 132). -/
structure LinkHdr where
  hdr : FrameHdr
  payload : List Byte
  crc : Word
  deriving DecidableEq, Repr

/-- A message whose frame names nothing: no header of the coupling is like it (R223). -/
def LinkHdr.blank : LinkHdr :=
  { hdr := { kind := 0, first := false, last := false, stale := false, linkSeq := 0, ack := 0, session := 0, state := 0, slotB := false, task := none, chunk := 0,
             chunks := 0, cycle := 0, closeSeq := 0, jrnHead := 0, pairTag := 0 }
    payload := []
    crc := 0#32 }

/-- What a RESYNC_REQ frame says (R234, R235): it asks for all of the state, asks again for one page, or is the answer to a request. -/
inductive ResyncAsk where
  | all
  | page (number : Nat)
  | reply
  deriving DecidableEq, Repr

/-- A trigger condition as it is met (R325, R328): the trigger; for a comparator's edge, the fine part of its instant in steps of 250 ps and its direction. -/
structure TrigSeen where
  trigger : Nat
  fine : Fin 32
  rising : Bool
  deriving DecidableEq, Repr

/-- What an access covers: its address and its width in bytes (R9, R10). -/
structure AccessSpan where
  addr : Nat
  width : Nat
  deriving DecidableEq, Repr

/-- STATUS frame content (R224, R357, R377). -/
structure StatusFrame where
  ready : Bool
  testMode : Bool
  lockedOnPtp : Bool
  /-- The sender's main counter as the frame's first byte entered the coupling, and as the latest STATUS frame reached it, in ns (R357). -/
  sentNs : Nat
  arrivedNs : Option Nat
  deriving DecidableEq, Repr

/-- A full tag of 32 bytes (R79). -/
structure Tag where
  value : DWord
  ts : DWord
  quality : BitVec 16
  source : Nat
  flags : BitVec 8
  writer : Nat
  change : Nat
  type : Nat
  deriving DecidableEq, Repr

/-- A force in place on a tag (R95, R98): value, quality and the underlying tag. -/
structure Force where
  value : DWord
  quality : BitVec 16
  unsync : Bool
  orphan : Bool
  under : Tag
  deriving DecidableEq, Repr

/-- A unit message (R110, R111): the sender's unit address, or the writer id of R85 for an outside sender. -/
structure UnitMsg where
  sender : Nat
  senderEpoch : Nat
  writer : Nat
  senderTask : Nat
  unit : Nat
  epoch : Nat
  kind : Nat
  roleIndependent : Bool
  payload : List Byte
  deriving DecidableEq, Repr

/-- Unit state: role, epoch and the instant of the last role change in nanoseconds (R104 to R107). -/
structure UnitState where
  role : Nat
  epoch : Nat
  lastChange : Option Nat
  deriving DecidableEq, Repr

/-- State word codes of R198. -/
inductive WbState where
  | localOnly | mirrored | unpartnered | expired | resubmitted
  deriving DecidableEq, Repr

/-- Where a waybill came from (R196 ORIGIN). -/
inductive WbOrigin where
  | plant | service | program
  deriving DecidableEq, Repr

/-- A waybill with its continuations (R196, R197). -/
structure Waybill where
  seq : Nat
  carried : Bool
  origin : WbOrigin
  work : Work
  target : Option Nat
  unpartnered : Bool
  cont : Nat
  waybillSeq : Nat
  clientId : Nat
  clientSeq : Nat
  state : WbState
  /-- The halves of the state word do not match (R198); it then reads as LOCAL. -/
  wordBad : Bool
  acceptTime : DWord
  deriving DecidableEq, Repr

/-- A completion entry (R200). result is its RESULT field. -/
structure Completion where
  seq : Nat
  status : Nat
  task : Option Nat
  waybillSeq : Nat
  clientId : Nat
  clientSeq : Nat
  cycle : Nat
  result : Nat
  deriving DecidableEq, Repr

/-- A journal entry (R196, R197, R200): a waybill, one of its continuations with its index from 1 and its part of the body, or a completion. -/
inductive Entry where
  | waybill (w : Waybill)
  | cont (seq waybillSeq index : Nat) (body : List Byte)
  | completion (c : Completion)
  deriving DecidableEq, Repr

/-- Delta records of R227. -/
inductive DeltaRec where
  | tag (index : Nat) (t : Tag)
  | data (path : Nat) (o : ObjState)
  | sbx (addr : Nat) (value : Word)
  | canRequest (port : Nat) (task : Nat) (req : CanReq)
  | canOutcome (task handle : Nat)
  | returnsTaken (task count : Nat)
  | output (channel : Nat) (value : Nat)
  | force (tag : Nat) (f : Option Force)
  | role (unit : Nat) (st : UnitState)
  | message (task : Nat) (m : UnitMsg)
  | messageTaken (task : Nat) (count : Nat)
  | messageGone (task : Nat) (m : UnitMsg)
  | returnEntry (task kind code detail ref : Nat)
  | waybill (w : Waybill)
  | completion (c : Completion)
  | overlay (index : Nat) (value : DWord)
  | mark (cycle watermark highSeq : Nat)
  | carry (crc : Word)
  | supply (channel mv : Nat)
  | pub (p stNum sqNum : Nat)
  deriving DecidableEq, Repr

/-- A whole DELTA message (R227 to R229): the END record holds the record count and the CRC-32C over all preceding records. -/
structure DeltaMsg where
  task : Nat
  cycle : Nat
  closeSeq : Nat
  crc : Word
  count : Nat
  carryCrc : Option Word
  records : List DeltaRec
  deriving DecidableEq, Repr

/-- Restart record (R71, R75). -/
structure RestartRec where
  cold : Bool
  clientId : Nat
  clientSeq : Nat
  used : Bool
  deriving DecidableEq, Repr

/-- Exchange announcement (R148 step 4, R150): switch quantum and, for each task, switch quantum and switch cycle number. -/
structure Announcement where
  qs : Nat
  switches : List (Nat × Nat × Nat)
  deriving DecidableEq, Repr

/-- An accepted sequence in a client's window (R204): the WAYBILL_SEQ it was accepted under, and the work itself, with which a resubmission is compared. -/
structure Accepted where
  seq : Nat
  waybillSeq : Nat
  work : Work
  deriving DecidableEq, Repr

/-- Per-client state (R204 to R206): highest accepted sequence, last activity in operating minutes, and the accepted sequences of the window. -/
structure ClientState where
  high : Nat
  lastMinute : Nat
  window : List Accepted
  deriving DecidableEq, Repr

/-- The control set of a resynchronisation (R235). -/
structure ControlSet where
  forces : List (Nat × Force)
  units : List (Nat × UnitState)
  overlay : List (Nat × DWord)
  queued : List (Nat × List UnitMsg)
  cycles : List (Nat × Nat)
  watermarks : List (Nat × Nat)
  openEntries : List (Nat × Waybill)
  clients : List (Nat × ClientState)
  retired : List (Nat × Nat)
  floor : Nat
  closeSeq : Nat
  /-- JRN_HEAD of the frame. -/
  head : Nat
  deriving DecidableEq, Repr

/-- A page of the state image (R235, R236): its number, its stamp, and the tags, objects and signal box settings (instance data, R274) it holds. Its last
frame carries the page number and the check. -/
structure Page where
  number : Nat
  stamp : Nat
  tags : List (Nat × Tag)
  objects : List (Nat × ObjState)
  sbx : List (Nat × Word)
  deriving DecidableEq, Repr

/-- Ports of the module front (R19, R366). -/
inductive Port where
  | pba | pbb | pla | plb | svc
  deriving DecidableEq, Repr

/-- What a port's stamp points give for a frame (R361): the MAC layer's uncorrected stamp in units of 2^-16 ns since the epoch, whether the coding
sublayer moved between the delimiter and that point, and the stamp at the medium boundary in whole ns. -/
structure PortStamp where
  mac : Nat
  uncertain : Bool
  boundary : Nat
  deriving DecidableEq, Repr

/-- The port at which a frame of the plant bus arrives, and whether its PRP trailer names the other LAN (R367). -/
structure PlantArrival where
  port : Port
  wrongLan : Bool
  deriving DecidableEq, Repr

/-- PRP or HSR identity of a received frame (R367). -/
structure FrameId where
  port : Port
  src : Nat
  seq : Nat
  wrongLan : Bool
  stamp : PortStamp
  deriving DecidableEq, Repr

/-- One channel value of an ASDU (R369): value, validity (0 good, 1 invalid, 3 questionable) and test flag. -/
structure SvSample where
  value : Int
  validity : Nat
  test : Bool
  deriving DecidableEq, Repr

/-- One ASDU (R369, R370). -/
structure Asdu where
  smpCnt : Nat
  smpSynch : Nat
  samples : List SvSample
  deriving DecidableEq, Repr

/-- A sampled-value frame (R369). -/
structure SvFrame where
  id : FrameId
  dest : Nat
  appid : Nat
  svId : Nat
  confRev : Nat
  entries : Nat
  asdus : List Asdu
  deriving DecidableEq, Repr

/-- A GOOSE message (R372, R373); a member is a value with its quality class good or not. -/
structure GooseMsg where
  id : FrameId
  appid : Nat
  gocbRef : Nat
  datSet : Nat
  confRev : Nat
  entries : Nat
  ndsCom : Bool
  stNum : Nat
  sqNum : Nat
  tal : Nat
  test : Bool
  eventTime : DWord
  members : List (DWord × BitVec 16)
  deriving DecidableEq, Repr

/-- A grandmaster's dataset as Announce carries it (R359). -/
structure GmSet where
  identity : Nat
  clockClass : Nat
  priority1 : Nat
  priority2 : Nat
  utcOffset : Int
  deriving DecidableEq, Repr

/-- A PTP message (R358): instants in ns since the epoch of the PTP timescale, corrections in 2^-16 ns. -/
inductive PtpBody where
  | announce (gm : GmSet)
  | sync (seq : Nat) (twoStep : Bool) (origin : Nat) (corr : Int)
  | followUp (seq origin : Nat) (corr : Int)
  | delayReq (seq : Nat)
  | delayResp (seq receipt : Nat) (corr : Int)
  | pdelayReq (seq : Nat)
  | pdelayResp (seq receipt : Nat) (corr : Int)
  | pdelayFollowUp (seq origin : Nat) (corr : Int)
  deriving DecidableEq, Repr

/-- A received PTP message: its port, its domain, whether the best master clock algorithm holds the port in the slave state, and its stamps. -/
structure PtpMsg where
  port : Port
  domain : Nat
  slave : Bool
  stamp : PortStamp
  body : PtpBody
  deriving DecidableEq, Repr

/-- A CAN frame on the bus (R396, R397). -/
structure CanFrame where
  ident : Nat
  extended : Bool
  rtr : Bool
  fdf : Bool
  brs : Bool
  esi : Bool
  dlc : Nat
  data : List Byte
  deriving DecidableEq, Repr

/-- How a transmit attempt ends on the bus (R403). -/
inductive CanEnd where
  | sent | lostArbitration | error
  deriving DecidableEq, Repr

/-- A request of the Derent Plant Protocol as it arrives (R380): its header's fields, its payload and its check value. LEN is the payload's length. -/
structure Req where
  magic : Word
  version : Nat
  kind : Nat
  session : Nat
  reqId : Nat
  reply : Nat
  detail : Nat
  payload : List Byte
  crc : Word
  deriving DecidableEq, Repr

/-- The certificates that a client presents (R378, R383): its own, which names a role or none, and its owner's. -/
structure ClientChain where
  role : Option ClientRole
  leaf : Cert
  owner : Cert
  deriving DecidableEq, Repr

/-- Files of R392. -/
inductive FileName where
  | imagePending
  | update (region : Nat)
  | recordsIndex
  | record (id : Nat) (comtrade : Bool)
  /-- COMTRADE_ALIGNED (R345): segments of records, by record and index, and the reference instant if the request names one; R392 gives it no name (assumption 126). -/
  | aligned (segments : List (Nat × Nat)) (t0 : Option Nat)
  | exchangeReport (k : Nat)
  | faults
  | mileage
  deriving DecidableEq, Repr

/-- A firmware image: the bytes of its file (R452 to R454), and what the certificate in it says, which is X.509 (assumption 7): the certificate, and
whether it carries the firmware-signing key usage. -/
structure FwImage where
  bytes : List Byte
  cert : Cert
  signingUse : Bool
  deriving DecidableEq, Repr

/-- What a written file turns out to be at its close (R392). -/
inductive FileContent where
  | image (i : Image)
  | firmware (f : FwImage)
  deriving DecidableEq, Repr

/-- One converter's fast sample (R300): channel and raw modulator code as a binary64 word. -/
structure RawSample where
  channel : Nat
  raw : DWord
  deriving DecidableEq, Repr

/-- What a localisation run reads back of a channel (R293): terminal voltage, stage or burden current, adaptive supply. -/
structure Readback where
  channel : Nat
  voltMv : Int
  currUa : Nat
  supplyMv : Nat
  deriving DecidableEq, Repr

/-- What a platform's turntable converter and the channel in visit measure over a window (R312 to R315): the raw codes of both where both integrate the input,
the coefficients that the reference measurements give, and whether the turntable converter's own references pass. -/
structure TtMeasure where
  platform : Nat
  ownRaw : DWord
  ttRaw : DWord
  newOffset : DWord
  newGain : DWord
  selfCheck : Bool
  deriving DecidableEq, Repr

/-- An access of a management core (R433 to R436). -/
structure MemAccess where
  unit : Nat
  addr : Nat
  len : Nat
  kind : Nat
  deriving DecidableEq, Repr

/-- The commands, one per row of the opcode table, in its order. -/
inductive Instr where
  -- carrier, supplies and standby domain
  | seatedMade
  | insertionStart (i : StartInput)
  | seatedBreak
  | cellLow
  | countLost
  | modSupplyLost (input : Fin 2) (mv : Nat)
  | fieldSupplyLost (input : Fin 2) (mv : Nat)
  | fieldFuseTrip (input : Fin 2) (ma : Nat)
  | fieldFuseReclose (input : Fin 2)
  | cageOverload (port : Port)
  | holdupEntered
  | powerLossRecord
  | holdupRailsDown
  | supplyReturnRestart (i : StartInput)
  | leverOpened
  | reservoirHealthTest (healthPct holdupMs : Nat)
  | claimKeeperRefresh
  | claimKeeperRelease
  | claimStuckHigh
  | claimStuckLow
  -- start-up
  | couplingHello (h : Hello)
  | partnerWindowExpiry
  | startHoldRetry (i : StartInput)
  | startEnterActive
  -- cyclic execution and lanes
  | taskFreeze (task : Fin 8)
  | gatedRead (lane : Fin 16) (copy : Fin 2) (request : DWord) (sample : DWord)
  | barrierRelease (lane : Fin 16)
  | checkpoint (c : Checkpoint)
  | reexecutionCompare (c : Checkpoint)
  | spareTakeover (lane : Fin 16)
  | eccError (f : EccFinding)
  | scrubPass (findings : List EccFinding)
  | bistVisit (lane : Fin 16) (first second : VectorRun)
  | closureRelease (task : Fin 8)
  | alignedRelease (task : Fin 8)
  | overrunWatchdog (task : Fin 8) (lane : Fin 16)
  | paceWindow (paces : List (Nat × Nat × Nat))
  | clearMax (origin : Origin) (task : Fin 8)
  | cmpInject (origin : Origin) (lane : Fin 16) (copy : Fin 2) (repeated arm : Bool)
  | faultSelect (origin : Origin) (index : Fin 64)
  -- program exchange
  | exchangeLoaded
  | mapAck (f : LinkHdr × Word)
  | announce (f : LinkHdr × Announcement)
  | announceAck (h : LinkHdr := LinkHdr.blank)
  | exchangeComplete
  | sbxExchangeRestart
  -- journal
  | submit (r : Req) (clientSeq : Nat) (work : Work)
  | mirrorAck (f : LinkHdr × Nat)
  | mirrorTimeout (seq : Nat)
  | unconfirmedExpiry (seq : Nat)
  | clientCheckpoint
  | clientEviction (clientId : Nat)
  | snapshotCapture
  -- coupling
  | couplingDown (cause : Fin 3)
  | deltaAckTimeout (task : Fin 8) (staleSeen : Bool)
  | couplingRetrain (session : Nat) (locked : Bool)
  | frameResend
  | idle (received : Option LinkHdr)
  | status (h : LinkHdr) (f : StatusFrame)
  | delta (h : LinkHdr) (d : DeltaMsg)
  | deltaAck (h : LinkHdr) (task : Fin 8) (cycle closeSeq : Nat) (crc : Word)
  | mirror (h : LinkHdr) (entries : List Entry)
  | image (h : LinkHdr) (i : Image) (forExchange : Bool)
  | doubtWindowEnd
  | standbyLinkWaitEnd
  | resyncReq (h : LinkHdr) (ask : ResyncAsk)
  | resyncPage (h : LinkHdr) (p : Page)
  | resyncControl (h : LinkHdr) (c : ControlSet)
  | resyncDone (h : LinkHdr) (closeSeq : Nat)
  | heldRecordExpiry (page : Nat)
  -- claim, takeover, hand-over and restart
  | partnerClaimDropped
  | standbyReady
  | takeoverClaim
  | claimConfirmed
  | partnerClaimAsserted
  | claimContest
  | partnerAbsentTimeout
  | handover (h : LinkHdr) (qh : Nat)
  | handoverAck (h : LinkHdr)
  | handoverQuantum
  | handoverCancel
  | handoverFailTimeout
  | restartReq (h : LinkHdr) (r : RestartRec)
  | restartAck (h : LinkHdr)
  | restartAckTimeout
  | restartGo (h : LinkHdr) (cancel : Bool)
  | moduleRestart (i : StartInput)
  | claimFibreSample (dark1 dark2 : Bool)
  -- signal box
  | sbxPass (levels : List (Nat × Int)) (flips : List (Nat × Nat)) (timerFault : List Nat)
  | pickupExpiry (equation : Fin 512)
  | dropoutExpiry (equation : Fin 512)
  | latchReset (origin : Origin) (equation : Fin 512)
  | sbxEvalFault (evaluator : Fin 3)
  | acmpDisagree (comparator : Fin 192)
  | svcmpFail (comparator : Fin 256)
  -- universal channels
  | diInputEdge (channel : Fin 96) (level : Bool)
  | diDebounceExpiry (channel : Fin 96)
  | diSampleWindow (channel : Fin 96) (steady level : Bool)
  | doLimitEnter (channel : Fin 96)
  | doLimitClear (channel : Fin 96)
  | doThermalEnter (channel : Fin 96)
  | doThermalRetry (channel : Fin 96)
  | doLockedRelease (channel : Fin 96)
  | adaptiveSupplyStep (channel : Fin 96) (loopMv : Nat)
  | compliance (channel : Fin 96) (achievedUa : Nat)
  | openLoop (channel : Fin 96) (achievedUa : Nat)
  | liveZeroLost (channel : Fin 96)
  | commonFaultSet (platform : Fin 8) (readbacks : List Readback)
  | commonFaultCleared (platform : Fin 8) (readbacks : List Readback)
  | locate (origin : Origin) (platform : Fin 8)
  | localisationRepeat (platform : Fin 8) (readbacks : List Readback)
  -- conversion
  | converterPeriodBoundary (results : List RawSample) (tt : List TtMeasure)
  | fastSample (samples : List RawSample)
  | periodMeasurement (secondary : Bool) (periodNs amplitudePct : Nat) (qualityGood : Bool)
  | periodNominal
  | qpop (origin : Origin)
  | calStart (origin : Origin) (channel : Fin 96)
  | takeZero (origin : Origin) (channel : Fin 96)
  | takeSpan (origin : Origin) (channel : Fin 96)
  | calTakeDone
  | commit (origin : Origin) (channel : Fin 96)
  | calEnd (origin : Origin) (channel : Fin 96)
  | abort (origin : Origin) (channel : Fin 96)
  | calTimeout
  | turntableVisitStart (platform : Fin 8)
  | testReq (origin : Origin) (channel : Fin 96)
  | coefficientBatchWrite
  -- disturbance acquisition
  | acqTrigger (e : TrigSeen)
  | acqTrig (origin : Origin) (defMask : BitVec 16)
  | segmentClose (definition : Fin 16)
  | rearm (definition : Fin 16)
  | recordGapClose (definition : Fin 16)
  | close (origin : Origin) (definition : Fin 16)
  | recordCommit
  | recordIndexRebuild
  -- time base
  | incCommit (origin : Origin) (intNs : Byte)
  | stepGo (origin : Origin) (fraction : BitVec 16)
  | timeLatch (origin : Origin)
  | timeServo (origin : Origin) (quality source : Fin 4) (port : Fin 8) (errNs : BitVec 16)
  | holdoverExpired
  | holdoverSteer (temp : Int)
  | ptpMessage (m : PtpMsg)
  | standbyCounterCopy
  | oscillatorSample (temp : Int)
  | oscillatorModelWrite
  -- networks
  | svFrame (f : SvFrame)
  | svHoldExpiry (subscription : Fin 512)
  | gooseMessage (m : GooseMsg)
  | gooseExpiry (subscription : Fin 1024)
  | gooseHoldExpiry (subscription : Fin 1024)
  | gooseDeferredSend (publication : Fin 256)
  | gooseRetransmit (publication : Fin 256)
  | supervisionFrame
  | linkDown (port : Port)
  | testMode (origin : Origin) (on : Bool)
  | pairAddressRepeat
  -- Derent Plant Protocol
  | openSession (r : Req) (connection : Nat) (pairAddress : Bool) (clientId : Nat) (events : Bool)
  | closeSession (r : Req)
  | keepalive (r : Req)
  | sessionTimeout (session : Nat)
  | query (r : Req) (clientSeq : Nat)
  | tagRead (r : Req) (tags : List Nat)
  | subscribe (r : Req) (minIntervalMs : Nat) (tags : List Nat)
  | unsubscribe (r : Req) (subscription : Nat)
  | resend (r : Req) (subscription : Nat)
  | notify (subscription : Nat)
  | event (base offset : Nat) (bit : Fin 16)
  | regRead (r : Req) (addr count : Nat)
  | regWrite (r : Req) (addr : Nat) (words : List Word)
  | fileOpen (r : Req) (name : FileName) (write : Bool)
  | fileRead (r : Req) (handle offset : Nat)
  | fileWrite (r : Req) (handle offset : Nat) (data : List Byte)
  | fileClose (r : Req) (handle : Nat) (crc : Word) (content : Option FileContent)
  -- field bus
  | canFrameReceived (port : Fin 2) (f : CanFrame) (sofTick : Nat)
  | canTxEnd (port : Fin 2) (outcome : CanEnd) (handle : Nat) (sofTick : Nat)
  | canTxTimeout (port : Fin 2) (handle : Nat)
  | canCancel (port : Fin 2) (handle : Nat)
  | canBusOff (port : Fin 2)
  | busOffRecovered (port : Fin 2)
  | canMappingHoldExpiry (port : Fin 2) (mapping : Nat) (twice : Bool)
  | rxpop (origin : Origin) (port : Fin 2)
  -- registers
  | registerWrite (origin : Origin) (addr : Nat) (value : Word)
  | misalignedAccess (origin : Origin) (span : AccessSpan) (write : Bool)
  | eventRegisterClear (origin : Origin) (addr : Nat) (value : Word)
  | multiwordMode (origin : Origin) (block : Fin 27) (on : Bool)
  | multiwordLowRead (origin : Origin) (addr : Nat)
  -- protection and management
  | mpuRegionWrite (origin : Origin) (unit : Fin 36) (set : Fin 2) (region : Fin 16) (word : Fin 3) (value : Word)
  | arm (origin : Origin) (unit : Fin 36)
  | swap (origin : Origin) (unit : Fin 36)
  | swapAck (unit : Fin 36)
  | protectionException (a : MemAccess)
  | impreciseNotice (a : MemAccess) (set : Fin 2)
  | release (origin : Origin)
  | mgmtWatchdogRestart
  | loadWindow (busyPct : Fin 101)
  -- update, trust and attestation
  | verifyComplete (session : Fin 2) (unreadable : Bool)
  | activate (origin : Origin) (session : Fin 2) (unreadable : Bool)
  | imageTakesEffect (session : Fin 2)
  | confirm (origin : Origin) (session : Fin 2)
  | fallback (origin : Origin) (session : Fin 2)
  | updateAbort (origin : Origin) (session : Fin 2)
  | anchorClear (origin : Origin) (session : Fin 2)
  | leaveTerminus (origin : Origin) (i : StartInput)
  | attestGo (origin : Origin)
  | reportSigned (randomiser : Nat)
  | nextTreeBuilt
  -- front panel and mileage
  | panelRefresh
  | pixelShift
  | contrastUpdate (temp : Int)
  | labelUpdateStart
  | labelUpdateEnd
  | redraw (origin : Origin)
  | operatingMinute
  | mileageSample (values : List (Nat × Int))
  | milSel (origin : Origin) (series : Byte) (live : Bool)
  -- rows added later to the table
  | syncInterval
  | dtlsHandshake (arrival : PlantArrival) (client : Option ClientChain)
  | canFrameError (port : Fin 2) (tec recv : Nat)
  | handoverClaimWaitEnd
  | canErrRead
  | mgmtRestartEnd
  deriving DecidableEq, Repr

end Sys2Proof
end

