-- ==== Sys2Proof/Decode.lean ====
section
/-! DEFINITION. The table spells no command by bits: commands reach the module as frames, register accesses and edges, and no row
of the opcode table gives one. -/

namespace Sys2Proof

/-- The command that a word spells by the table's bits: no row of the table gives bits, so no word spells one. -/
def decodeTableWord (_nbits _w : Nat) : Option Instr := none

end Sys2Proof
end

