-- ==== Sys2Proof/Config.lean ====
section
/-! DEFINITION. What the manual leaves open: free values (constants with no body, so that nothing
can be proved of the value they take) and the figures an implementation fixes. -/

namespace Sys2Proof.Config

/-- A value the manual leaves open, the n-th the machine has met (assumption 4). -/
opaque freeValue : Nat → DWord

/-- Which of two or more allowed orders or outcomes comes about where the manual gives none (assumption 4). -/
opaque freeChoice : Nat → Bool

/-- Stepping of the Idrin die, ID_MODULE DIE_STEP; the manual says only 'from 0x01' (assumption 5). -/
opaque dieStepping : Byte

/-- Byte i of a file that presents some content in a text format of another standard, IEEE C37.111 (R345, assumption 6). -/
opaque textByte (content : List Nat) (i : Nat) : Byte

/-- What a live measurement no command delivers shows: by bank key of its field and tick (assumption 11). -/
opaque measured : Nat → Nat → Word

/-- Bytes of a file in such a format. -/
opaque textLength (content : List Nat) : Nat

/-- CRC-32C of a structure whose byte layout the manual does not give, as a function of its content (assumption 8). -/
opaque layoutCrc : List Nat → Word

/-- What a port's stamp points give for the n-th frame that the module sends: MAC stamp in 2^-16 ns, whether uncertain, boundary stamp in ns (R361). -/
opaque sendStamp : Nat → Nat × Bool × Nat

/-- Leap seconds between the PTP timescale and UTC while no grandmaster has told them (R6). -/
opaque leapSeconds : Nat

/-- Front-end delay of a channel found at the factory, in 2^-32 ns (R328). -/
opaque frontEndDelay : Nat → Nat

/-- Identifier, seed and randomisers of the trees of the module's HSS key, and the signature of its identity key over a SHA-384 value: what the
crypto engine makes of its secrets (R469, R473). -/
opaque hssId : Nat → Nat
opaque hssSeed : Nat → Nat
opaque hssRandom : Nat → Nat → Nat
opaque identitySign : Nat → Nat × Nat

end Sys2Proof.Config
end

