-- ==== Sys2Proof/Machine/State.lean ====
section
/-! DEFINITION. The state of one module, as plain data: every register field (the bank), every quantity the
manual gives the module that is no register field or is wider than one (the records), the persistent
memory, what the module has sent, and the queue of waiting commands. -/

namespace Sys2Proof.Machine

/-- A sparse table: keys strictly rising, no entry that equals what an unlisted key reads as. -/
abbrev Tab (α : Type) := List (Nat × α)

/-- Instants of the main counter (R7, R347): seconds below 2^48, nanoseconds below 10^9, and a 32-bit fraction of a nanosecond
whose high 16 bits show in registers, stamps and records. -/
structure Stamp where
  sec : Nat
  ns : Nat
  frac : Nat
  deriving DecidableEq, Repr

/-- Seating, supplies and the hold-up sequence (R16 to R46). -/
structure Carrier where
  seated : Bool
  leverOpen : Bool
  slotB : Bool
  split : Bool
  mod1Mv : Nat
  mod2Mv : Nat
  fld1Mv : Nat
  fld2Mv : Nat
  fuse1Open : Bool
  fuse2Open : Bool
  fuse1Tries : List Nat
  fuse2Tries : List Nat
  cagesOff : List Port
  resFull : Bool
  holdup : Bool
  shed : Bool
  recordWritten : Bool
  deriving DecidableEq, Repr

/-- The standby domain (R42, R49): it outlives every reset and every time without power. -/
structure Standby where
  sec : Nat
  frac : Nat
  /-- Part of a standby tick elapsed, in units of 1/10^9 of it (assumption 2): the model's own field. -/
  acc : Nat
  unplugged : Bool
  cellLow : Bool
  countLost : Bool
  seq : Nat
  stopped : Bool
  deriving DecidableEq, Repr

/-- Facts fixed at manufacture (R425, ID_MODULE, ID_SERIAL). -/
structure Fixed where
  serial : DWord
  variantF : Bool
  /-- The vendor roots for firmware, a P-384 key and an LMS key of 56 bytes (R454), and the service root (R467), in ROM. -/
  vendorKey : Nat × Nat
  vendorLms : List Byte
  serviceKey : Nat × Nat
  deriving DecidableEq, Repr

/-- What a start has established (R58, R61, R62). -/
structure Start where
  step : Nat
  key : Option SlotKey
  keyImage : Option Image
  running : Option Image
  timetableLoaded : Bool
  platformsUp : Bool
  imageChosen : Bool
  path11a : Bool
  path11b : Bool
  warm : Bool
  warmRefused : Bool
  /-- The start came from OFF, and has not yet counted as a power cycle (R487). -/
  fromOff : Bool
  /-- The restart kind step 6 found: asked for cold (R66). -/
  wantCold : Option Bool
  /-- The image MRAM held before this start chose one (R67). -/
  prior : Option Image
  /-- The digest of an exchange that step 6 found LOADED and abandoned (R161). -/
  exchangeLost : Option Nat
  /-- The announcement of an exchange that step 6 found COMMITTED, with the image it replaces (R161). -/
  exchangeDone : Option (Image × Announcement)
  startTick : Nat
  deriving DecidableEq, Repr

/-- Claim lines and claim state as this module drives and reads them (R26 to R28, R238 to R253). -/
structure Claim where
  drive : Bool
  own : Bool
  partner : Bool
  confirmed : Bool
  taking : Bool
  releasing : Bool
  forHandover : Bool
  stuck : Bool
  partnerAbsent : Bool
  droppedAt : Option Nat
  refreshed : Nat
  deriving DecidableEq, Repr

/-- A delta record held during resynchronisation (R236). -/
structure HeldRec where
  page : Option Nat
  closeSeq : Nat
  rcd : DeltaRec
  deriving DecidableEq, Repr

/-- The coupling and the pair (R221 to R254). -/
structure Pair where
  linkUp : Bool
  trained : List Nat
  session : Nat
  /-- LINK_SEQ of the next frame expected and of the next frame sent, and the last ACK_LINK_SEQ received (R225). -/
  rxNext : Nat
  txNext : Nat
  peerAck : Nat
  doubt : Bool
  copyCurrent : Bool
  stale : Bool
  partnerCurrent : Bool
  partnerMode : Option Mode
  partnerReady : Bool
  partnerTest : Bool
  partnerOnPtp : Bool
  partnerHello : Option Hello
  resync : Bool
  resyncSending : Bool
  /-- A request that waits until an exchange is complete (R160). -/
  resyncAsked : Bool
  /-- A cycle was in flight at the hand-over quantum (R252). -/
  inFlight : Bool
  pages : Nat
  controlSet : Bool
  heldRecs : List HeldRec
  captureSeq : Nat
  pagesHeld : List Nat
  /-- Shared-memory words at which an uncorrectable error has been met (R175). -/
  unreadable : List Nat
  closeSeq : Nat
  ackedSeq : Nat
  awaitingDelta : List Nat
  statuses : List Completion
  handoverQ : Option Nat
  handoverAcked : Bool
  handoverWait : Bool
  restartWait : Option (Waybill × Bool × Bool)
  /-- A restart is due (R71 steps 4 to 6); true: once the partner module holds the claim or counts as absent. -/
  restartGoDue : Option Bool
  restartAcked : Bool
  disagree : Nat
  /-- Main counter in ns as this module's latest STATUS frame was sent, and as the partner module's latest arrived (R357). -/
  statusSent : Option Nat
  statusArrived : Option Nat
  pairAddr : Bool
  /-- When the pair address was taken, and how often it has been announced again (R379). -/
  pairSince : Nat
  pairRepeats : Nat
  sbxRestartDue : Bool
  /-- Times EXCHANGE_MAP_MISMATCH was raised (R148 step 3); no register holds that event (assumption 43). -/
  mapMismatches : Nat
  /-- Closures omit the delta transfer now; UNPARTNERED_CLOSE is raised at the first (R126). -/
  unpartneredRun : Bool
  deriving DecidableEq, Repr

/-- What a task has delivered in its present cycle (R120, R122, R210): the waybill, and its fixed status and result. -/
structure Delivery where
  waybill : Waybill
  status : Nat
  result : Nat
  later : Bool
  deriving DecidableEq, Repr

/-- Writes of a cycle to the tag store, in their order (R92). -/
inductive TagOp where
  | write (tag : Nat) (value : DWord) (quality : BitVec 16) (ts : DWord) (source writer : Nat) (unsync : Bool)
  | forceSet (tag : Nat) (value : DWord) (quality : BitVec 16) (ts : DWord) (unsync : Bool)
  | forceRelease (tag : Nat)
  deriving DecidableEq, Repr

/-- Phases of a task cycle (R120 to R123). idle: no cycle; awaitDelta: delta sent, acknowledgement awaited; ready: steps 1 and 2 ended. -/
inductive Phase where
  | idle | execute | awaitDelta | ready
  deriving DecidableEq, Repr

/-- Entries a task finds in its inbound queue (R104, R111, R113, R207): what returned, its code and detail. -/
structure ReturnEntry where
  kind : Nat
  code : Nat
  detail : Nat
  ref : Nat
  deriving DecidableEq, Repr

/-- What the input gate commits of a CAN port at a freeze (R399): the newest SEQ, and a latch of the tick counter and the main counter, with the increment
in force. -/
structure CanLatch where
  port : Nat
  seq : Nat
  tick : Nat
  counter : Stamp
  inc : Nat
  deriving DecidableEq, Repr

/-- One task (R115 to R125). -/
structure Task where
  cycle : Nat
  phase : Phase
  freezeAt : Stamp
  /-- The elapsed time of the main counter at the freeze, which software steps leave out (R136). -/
  freezeRan : Nat
  /-- The tag store as the freeze found it: other tasks' tags as at their last closures (R93, R120). -/
  seen : Tab Tag
  /-- Messages delivered at the freeze, each with the unit that takes it after routing (R102). -/
  handed : List (Nat × UnitMsg)
  /-- What role blocks of the cycle returned (R104, R105, R107). -/
  roleReturns : List ReturnEntry
  released : Nat
  lastClosed : Nat
  watermark : Nat
  /-- Blocks of the cycle that have compared clean at their end. -/
  blocksDone : List Nat
  deliveries : List Delivery
  tagOps : List TagOp
  /-- Role changes accepted in the cycle: unit, role, freeze instant in ns (R105 to R107). -/
  roleOps : List (Nat × Nat × Nat)
  msgOps : List UnitMsg
  /-- Register writes of blocks: lane, address, value (R411). -/
  regOps : List (Nat × Nat × Word)
  /-- Stores that checkpoints of the open cycle have committed, in their order: lane, block, unit, store (R164, R165). -/
  commits : List (Nat × Nat × Nat × Store)
  postOps : List (Nat × Work)
  wbOps : List Waybill
  canOps : List Store
  objOps : List (Nat × ObjState)
  /-- Constants delivered in the cycle (R142). -/
  ovlOps : List (Nat × DWord)
  /-- Return entries for other tasks, entered when the cycle closes (R113). -/
  retOps : List (Nat × ReturnEntry)
  /-- Refused program writes: block, tag, reason (R81). -/
  refusedOps : List (Nat × Nat × Nat)
  /-- Queued messages that the cycle closes without delivery, with the task that held them (R157). -/
  goneOps : List (Nat × UnitMsg)
  inbox : List UnitMsg
  taken : List UnitMsg
  returns : List ReturnEntry
  nextReturns : List ReturnEntry
  /-- Outcomes awaiting the next freeze: handle, outcome, start-of-frame tick, CANCEL_LATE; canArea: those of the last freeze (R404). canSeen: what the freeze
  committed of each port. -/
  canOutcomes : List (Nat × Nat × Nat × Bool)
  canArea : List (Nat × Nat × Nat × Bool)
  canSeen : List CanLatch
  deferredRoles : List (Nat × Nat × Nat)
  /-- Submissions deferred by the doubt window (R231): unit, CLIENT_SEQ, work. -/
  deferredPosts : List (Nat × Nat × Work)
  closeSeq : Nat
  deltaCrc : Word
  switched : Bool
  shownLimit : Nat
  /-- The quantum of the last freeze, plus 1; 0 before the first. -/
  frozenQ : Nat
  /-- When closure step 2 of the open cycle ended. -/
  step2At : Stamp
  /-- The check over the carried state, in the switch cycle (R154). -/
  carryCrc : Option Word
  deriving DecidableEq, Repr

/-- A gate log entry (R173, R174): the request word and the committed value. -/
structure GateEntry where
  request : DWord
  value : DWord
  deriving DecidableEq, Repr

/-- A mismatch that waits for its re-execution (R177): DIFF bits, the kind of its cause, and when and at which checkpoint it was found. -/
structure Mismatch where
  diff : Nat
  kind : Nat
  time : DWord
  ckpt : Nat
  deriving DecidableEq, Repr

/-- One execution lane (R163 to R187). -/
structure Lane where
  task : Option Nat
  retired : Bool
  worn : Bool
  bad : Bool
  block : Option Nat
  ckpt : Nat
  /-- The checkpoint shadow of each copy (R171); at every command boundary the copy's register file is what its shadow holds. -/
  shadowA : List (Nat × DWord)
  shadowB : List (Nat × DWord)
  waiting : Bool
  mismatch : Option Mismatch
  gateLog : List GateEntry
  /-- What each copy has read through the gate in the interval: request word and the value returned (R173). -/
  gotA : List (DWord × DWord)
  gotB : List (DWord × DWord)
  inject : Option (Nat × Bool)
  recovered : List Nat
  /-- FLAKY_LIMIT mismatches have been recovered within 10 s (R179). -/
  flakyDue : Bool
  /-- The retired lanes whose block in progress this spare restarts, until that block has compared clean (R181). -/
  restartOn : List Nat
  /-- The lane of the timetable whose blocks this lane takes, when not its own (R130, R180). -/
  asLane : Option Nat
  /-- A spare that has not yet left its self-test (R180). -/
  starting : Bool
  /-- Retired at the next block end (R176). -/
  dueRetire : Bool
  /-- The counter's running time at the previous checkpoint, or at the end of a wait since: the interval's lane time counts from it (R169). -/
  since : Nat
  deriving DecidableEq, Repr

/-- A fault record (R187). -/
structure FaultRec where
  kind : Nat
  lane : Nat
  task : Nat
  outcome : Nat
  block : Nat
  cycle : Nat
  time : DWord
  diff : Nat
  spare : Nat
  ckpt : Nat
  deriving DecidableEq, Repr

/-- Progress of a program exchange (R148, R161). -/
inductive Progress where
  | none | loaded | committed | complete
  deriving DecidableEq, Repr

/-- An exchange report (R159): its header, and its records by kind with the content the manual gives each. -/
structure Report where
  oldRevision : Nat
  newRevision : Nat
  oldDigest : Nat
  newDigest : Nat
  qs : Nat
  switches : List (Nat × Nat × Nat)
  lastSwitch : DWord
  partnered : Bool
  /-- Instance path and type signature. -/
  newInstance : List (Nat × DWord)
  /-- Instance path and old type signature. -/
  dropped : List (Nat × DWord)
  /-- Instance path, old and new signature. -/
  signatureChanged : List (Nat × DWord × DWord)
  /-- Timer or counter path, elapsed or count, new preset. -/
  expired : List (Nat × Nat × Nat)
  /-- Tag index, force value and quality. -/
  orphanForce : List (Nat × DWord × BitVec 16)
  forceDropped : List Nat
  noLongerOrphan : List Nat
  /-- Constant index, overlay value, new image value. -/
  constantKept : List (Nat × DWord × DWord)
  constantDiscarded : List Nat
  /-- Tag index and type code. -/
  tagAdded : List (Nat × Nat)
  tagRemoved : List (Nat × Nat)
  /-- Unit id and epoch. -/
  unitAdded : List (Nat × Nat)
  unitRemoved : List (Nat × Nat)
  /-- Waybill sequence and closing status. -/
  workClosed : List (Nat × Nat)
  deriving DecidableEq, Repr

/-- A program exchange in hand (R147 to R162). -/
structure Exchange where
  progress : Progress
  image : Option Image
  shadow : Option Image
  waybill : Option Waybill
  unpartneredOk : Bool
  clearOverlay : Bool
  restructure : Bool
  mapCrc : Word
  sent : Bool
  announcement : Option Announcement
  /-- For the report: timers and counters that expired on carry, work closed under R157, and the time of the last switch. -/
  expired : List (Nat × Nat × Nat)
  closed : List (Nat × Nat)
  lastSwitch : DWord
  /-- Committed without the partner module (R149, R160). -/
  alone : Bool
  /-- Qs has passed: the tags and units that the image adds exist (R151). -/
  mixed : Bool
  /-- Program messages for removed tasks, closed at Qs, that no cycle has returned yet (R157). -/
  gone : List (Nat × UnitMsg)
  /-- The report as of the last switch. -/
  report : Option Report
  deriving DecidableEq, Repr

/-- Control state of the pair held in working memory: tag store, forces, units, overlay, state objects (R76 to R114, R143). -/
structure Control where
  tags : Tab Tag
  forces : Tab Force
  units : Tab UnitState
  overlay : Tab DWord
  objects : Tab ObjState
  pubs : Tab (Nat × Nat)
  image : Tab Nat
  supplies : Tab Nat
  sbx : Tab Word
  deriving DecidableEq, Repr

/-- What a snapshot or power-loss record holds (R216, R217). -/
structure Saved where
  /-- Format of a snapshot (R465). -/
  format : Nat
  whole : Bool
  time : DWord
  digest : Nat
  /-- The image whose objects ctl holds: a power-loss record laid over a snapshot keeps the snapshot's (R67). -/
  objDigest : Nat
  /-- The types of the constants in the overlay (R155). -/
  constTypes : List (Nat × TagType)
  ctl : Control
  /-- Queued messages of each task. -/
  queues : Tab (List UnitMsg)
  cycles : Tab Nat
  watermarks : Tab Nat
  closeSeq : Nat
  /-- The journal position: SEQ of the newest entry at the capture (R66). -/
  jrnPos : Nat
  inc : Nat
  progress : Progress
  deriving DecidableEq, Repr

/-- A client checkpoint (R206): the SEQ up to which it is complete, the client table, and whether its check verifies. -/
structure ClientCheckpoint where
  seq : Nat
  clients : Tab ClientState
  whole : Bool
  /-- Format (R465). -/
  format : Nat
  deriving DecidableEq, Repr

/-- A release mark (R215): cycle number, delivery watermark, highest SEQ. -/
structure Mark where
  cycle : Nat
  watermark : Nat
  high : Nat
  deriving DecidableEq, Repr

/-- A client waiting for the outcome of a submission between steps 2 and 5 of R202. -/
structure Waiter where
  waybillSeq : Nat
  session : Nat
  reqId : Nat
  old : Option Nat
  deriving DecidableEq, Repr

/-- The journal engine's working state (R188 to R214). -/
structure Journal where
  head : Nat
  waiters : List Waiter
  clients : Tab ClientState
  rateSecond : Nat
  rateCount : Nat
  deriving DecidableEq, Repr

/-- A slot of the oscillator model area (R193, R364). -/
structure OscSlot where
  bins : Tab (Nat × Int)
  samples : Nat
  qualified : Bool
  generation : Nat
  format : Nat
  whole : Bool
  deriving DecidableEq, Repr

/-- A copy of the module's certificate chain in the attestation area, and whether its CRC-32C matches (R469). -/
structure ChainCopy where
  certs : List Cert
  whole : Bool
  deriving DecidableEq, Repr

/-- Persistent memory (R193): what every stop leaves. -/
structure Mram where
  pairServed : Option Nat
  anchor : Option Nat
  clearPending : Bool
  anchorEpoch : Nat
  haltReason : Nat
  haltValid : Bool
  haltCount : Nat
  haltMinute : Nat
  overrun : Option (Nat × Nat × Nat × Nat)
  restart : Option RestartRec
  lastHolder : Bool
  progress : Progress
  announcement : Option Announcement
  labelDirty : Bool
  labelGeneration : Nat
  retireCounts : Tab Nat
  ring : Tab Entry
  checkpoints : Tab ClientCheckpoint
  ckptNext : Nat
  /-- Release marks whose check verifies, by 8,192 × task + slot (R193, R215). -/
  marks : Tab Mark
  /-- The next slot of each task. -/
  markSlots : Tab Nat
  snap0 : Option Saved
  snap1 : Option Saved
  plrs : Tab Saved
  plrNext : Nat
  running : Option Image
  pending : Option Image
  reports : List Report
  retiredIds : List (Nat × Nat)
  floor : Nat
  faultRing : List FaultRec
  faultsWritten : Nat
  /-- The two slots of the oscillator model (R193). -/
  osc : Tab OscSlot
  opMinutes : Nat
  powerCycles : Nat
  bootCount : Nat
  slotName : Nat
  pairName : Nat
  /-- When each area of R194 was last written, in standby counter units of 1/32,768 s, which no stop loses. -/
  calWrittenAt : Option Nat
  imageWrittenAt : Option Nat
  runningWrittenAt : Option Nat
  fwWrittenAt : Option Nat
  /-- The two copies of the certificate chain: device, manufacturing CA, device root (R469). -/
  chains : Tab ChainCopy
  deriving DecidableEq, Repr

/-- State of one equation in one evaluator (R259): condition, result, latch, and the instants in microseconds since which the condition holds its value. -/
structure EqState where
  cond : Bool
  result : Bool
  latched : Bool
  trueSince : Option Nat
  falseSince : Option Nat
  deriving DecidableEq, Repr

/-- State of an analogue comparator (R261, R262). -/
structure AcmpState where
  state : Bool
  failed : Bool
  contradictions : Nat
  deriving DecidableEq, Repr

/-- State of a sampled-value comparator (R263). -/
structure SvcState where
  state : Bool
  failed : Bool
  overRun : Nat
  missing : Nat
  goodRun : Nat
  window : List Int
  deriving DecidableEq, Repr

/-- State of a GOOSE bit slot (R264). -/
structure GbitState where
  state : Bool
  failed : Bool
  deriving DecidableEq, Repr

/-- The signal box section that a box runs: the structure and settings of its equations, trips, comparators and bit slots. -/
structure BoxCfg where
  equations : List (Nat × EqCfg)
  trips : List (Nat × TripCfg)
  acmps : List (Nat × AcmpCfg)
  svcs : List (Nat × SvcCfg)
  gbits : List (Nat × GbitCfg)
  deriving DecidableEq, Repr

/-- The signal box (R256 to R275). table is what the box runs, which a signal box exchange changes only at its restart (R162); eval0 to eval2 hold the timer and latch state of the three evaluators. -/
structure Sbox where
  running : Bool
  evalOk : List Nat
  outvoted : List Nat
  voteLost : Bool
  eval0 : Tab EqState
  eval1 : Tab EqState
  eval2 : Tab EqState
  voted : Tab EqState
  dispute : List Nat
  resets : List Nat
  table : BoxCfg
  acmp : Tab AcmpState
  svc : Tab SvcState
  gbit : Tab GbitState
  deriving DecidableEq, Repr

/-- Output states of R282. -/
inductive DoState where
  | off | on | limit | thermal | locked
  deriving DecidableEq, Repr

/-- One universal channel (R276 to R295). Times are tick counter values. -/
structure Chan where
  /-- The settings still in force of a channel that changes at its next period boundary (R277). -/
  changeFrom : Option ChanCfg
  changing : Bool
  doState : DoState
  cmdOn : Bool
  cmdUa : Nat
  hasReleased : Bool
  lastOn : Bool
  lastUa : Nat
  driven : Bool
  safe : Bool
  limitSince : Option Nat
  lastLimit : Option Nat
  /-- Tick at which LIMIT had last been held for 1 ms or more. -/
  lastHeld : Option Nat
  /-- On after a retry from THERMAL that has shown no current yet (R282). -/
  retrying : Bool
  thermals : List Nat
  supplyMv : Nat
  /-- The level the adaptive supply is regulated to, and the tick since which the measured supply lies more than 0.5 V from it (R284, R292). -/
  levelMv : Nat
  offSince : Option Nat
  loopMv : Nat
  learned : Bool
  currUa : Nat
  voltMv : Int
  /-- The readback was taken under the present command (R293 uses none older than 250 µs). -/
  rbFresh : Bool
  /-- Instant of the last readback (R508). -/
  rbTs : Option DWord
  rbUnsync : Bool
  compliance : Bool
  openLoop : Bool
  liveZeroLost : Bool
  filtered : Bool
  stateDi : Bool
  edgeTs : DWord
  /-- edgeTs was taken while the timebase quality was uncertain (R86). -/
  edgeUnsync : Bool
  debouncing : Bool
  kind : Nat
  /-- Period boundaries passed in LOCKED with the command off, up to 2 (R282). -/
  offPeriods : Nat
  goodPeriods : Nat
  cutoff : Bool
  deriving DecidableEq, Repr

/-- A result queue entry (R302). -/
structure QEntry where
  channel : Nat
  kind : Nat
  flags : Nat
  variant : Nat
  value : Int
  time : DWord
  /-- The measured quantity itself as binary64; no part of the 16-byte entry. -/
  x : DWord
  unsync : Bool
  deriving DecidableEq, Repr

/-- Coefficients (R309, R318): binary64 offset and gain with their generation. -/
structure Coef where
  offset : DWord
  gain : DWord
  generation : Nat
  deriving DecidableEq, Repr

/-- A coefficient record whose check verifies (R319, R320): its coefficients, the instant and junction temperature of its writing, and for a system record Vzero,
Vspan, Mzero and Mspan as binary32. -/
structure CoefRec where
  coef : Coef
  time : DWord
  temp : Nat
  applied : List Nat
  deriving DecidableEq, Repr

/-- States of a system calibration (CNV_CAL_STATUS). -/
inductive CalPhase where
  | idle | waitingVisit | started | taking | zeroTaken | spanTaken | committed
  deriving DecidableEq, Repr

/-- System calibration (R310, R311): pending command, phase, the results averaged so far, and the means taken. -/
structure Cal where
  phase : CalPhase
  channel : Nat
  pending : Option (Nat × Nat)
  takingSpan : Bool
  takes : List DWord
  mZero : DWord
  vZero : DWord
  mSpan : DWord
  vSpan : DWord
  /-- Tick at which the last command acted. -/
  lastAt : Nat
  deriving DecidableEq, Repr

/-- A turntable converter (R312 to R317). -/
structure Turntable where
  faulty : Bool
  window : Nat
  channel : Nat
  priority : Bool
  /-- Windows left of the self-check; 0: none running. -/
  checkLeft : Nat
  suspect : Option Nat
  next : Nat
  queue : List Nat
  oldCoef : Option Coef
  rotationStart : Nat
  deriving DecidableEq, Repr

/-- One period source (R298, R299). -/
structure PeriodState where
  accepted : Option Nat
  candidates : List Nat
  lost : Bool
  deriving DecidableEq, Repr

/-- Conversion (R296 to R320). results holds the latest entry of each channel and kind. -/
structure Conv where
  periodNs : Nat
  pendingNs : Option Nat
  src : Nat
  primary : PeriodState
  secondary : PeriodState
  queue : List QEntry
  /-- The last 4,096 entries that entered the queue, for the monitor (R304). -/
  copy : List QEntry
  entered : Nat
  monitor : Nat
  lostBefore : List (Nat × Nat)
  results : Tab QEntry
  coefs : Tab Coef
  /-- The records of the calibration area by format, converter, variant, kind and slot (R318). -/
  records : Tab CoefRec
  adopted : List Nat
  cal : Cal
  tts : Tab Turntable
  /-- Tick of the last completed visit of each channel. -/
  visited : Tab Nat
  deriving DecidableEq, Repr

/-- One sample of a frame (R322): its code or dataset value, 0 where missing, and whether it is unflagged. -/
structure FrameSample where
  value : Int
  good : Bool
  deriving DecidableEq, Repr

/-- A frame (R322): its instant, a sample of every channel, and the flag words of an SV definition. -/
structure Frame where
  time : Stamp
  samples : List FrameSample
  flags : List Nat
  deriving DecidableEq, Repr

/-- A trigger that acts (R325, R327): its number (0xFF for PROGRAM and MANUAL), its kind and its instant. -/
structure TrigEvent where
  trigger : Nat
  kind : Nat
  time : Stamp
  deriving DecidableEq, Repr

/-- A segment (R331, R338). -/
structure Segment where
  trigger : TrigEvent
  raw : List Frame
  reduced : List (Frame × Frame)
  interval : List Frame
  rawLimit : Nat
  rawNeed : Nat
  redNeed : Nat
  retriggers : List Stamp
  retrigCount : Nat
  extended : Bool
  cut : Bool
  preShort : Bool
  tagEntries : List (Nat × Tag)
  tagsCut : Bool
  stepped : Bool
  quality : Nat
  /-- The servo's bound on its error in ns as the segment opened (R345). -/
  errNs : Nat
  /-- Which free value stands for TRIG_SAMPLE where no frame lies at or before the trigger. -/
  freeId : Nat
  deriving DecidableEq, Repr

/-- An entry of a record's channel table (R337). -/
structure ChanEntry where
  kind : Nat
  unit : Nat
  source : Nat
  tag : Nat
  gain : Word
  offset : Word
  name : List Byte
  /-- A BOOL tag. -/
  bit : Bool
  deriving DecidableEq, Repr

/-- A record (R335, R336). -/
structure Record where
  id : Nat
  definition : Nat
  openTime : Stamp
  digest : Nat
  segments : List Segment
  lost : Nat
  closeReason : Nat
  /-- The settings in force at its opening, and its channel table (R336, R337). -/
  cfg : DefCfg
  table : List ChanEntry
  serial : DWord
  slotB : Bool
  deriving DecidableEq, Repr

/-- Samples of one count, by subscription (R322). -/
structure SvPart where
  cnt : Nat
  time : Stamp
  got : List (Nat × List SvSample)
  deriving DecidableEq, Repr

/-- A record definition at work (R331 to R335). -/
structure DefState where
  /-- The settings in force; none: not declared, or waiting to change (R335). -/
  cfg : Option DefCfg
  armed : Bool
  ring : List Frame
  /-- Values that tag sources ceased to show since the ring's first frame, and when (R331). -/
  tagLog : List (Stamp × Nat × Tag)
  /-- The sample count whose frame is being put together from an SV definition's subscriptions (R322). -/
  part : Option SvPart
  seg : Option Segment
  record : Option Record
  /-- Triggers held for the re-arm (R332, R333). -/
  held : List TrigEvent
  rearming : Bool
  /-- The close reason that ends the record after the segment in progress (R335). -/
  closing : Option Nat
  /-- A changed definition waits until its allotment holds no uncommitted segment (R335). -/
  rearmAfterCommit : Bool
  deriving DecidableEq, Repr

/-- A record in the record area (R340 to R342). -/
structure StoredRec where
  rcd : Record
  firstBlock : Nat
  blocks : Nat
  opened : Bool
  deriving DecidableEq, Repr

/-- What a trigger sees of its source (R326). -/
structure TrigState where
  /-- Direction of the last numeric crossing while not re-armed: true rising. -/
  crossed : Option Bool
  /-- The last good sample of an SV_LEVEL trigger, where the one after it may cross (R329). -/
  last : Option (Int × Stamp)
  /-- Conditions met whose trigger has not yet acted: instant, rising or falling. -/
  due : List (Stamp × Bool)
  deriving DecidableEq, Repr

/-- The disturbance recorder (R321 to R346). -/
structure Recorder where
  running : Bool
  indexReady : Bool
  defs : Tab DefState
  toCommit : List Record
  stored : List StoredRec
  blockSeq : Nat
  /-- Blocks written: the second counted now, its count, and the count of the second before. -/
  blkSecond : Nat
  blkCount : Nat
  blkLast : Nat
  nextId : Nat
  openSecond : Nat
  openCount : Nat
  trigs : Tab TrigState
  /-- Last edge that the time-to-digital converter measured, by comparator (R328). -/
  edges : Tab Stamp
  /-- Tick since which the oldest closed record is being written (R340). -/
  commitFrom : Nat
  /-- Trigger levels and hystereses in effect that were written, by register address. -/
  written : Tab Word
  /-- Records listed LOST: an opened note only (R342). -/
  lostIds : List Nat
  deriving DecidableEq, Repr

/-- A PTP port at work (R354, R358): consecutive measurements within 1 µs, whether it is in the slave state, the Sync waiting for its Follow_Up
(sequence, arrival, correction), the measured path delay, the request in flight (sequence, departure) and its first answer (arrival, receipt and correction). Instants in 2^-16 ns. -/
structure PtpPort where
  good : Nat
  slave : Bool
  sync : Option (Nat × Nat × Int)
  delay : Int
  /-- The last offset without the path delay. -/
  skew : Int
  request : Option (Nat × Nat)
  answer : Option (Nat × Int)
  deriving DecidableEq, Repr

/-- A receive descriptor or transmit report (R361, R362): the stamp in 2^-16 ns, STAMP_SRC (1: boundary stamp), and the 32-bit stamp of dense mode. -/
structure FrameReport where
  stamp : Nat
  src : Nat
  short : Option Nat
  deriving DecidableEq, Repr

/-- The timebase island and the servo's model (R347 to R365). -/
structure TimeBase where
  counter : Stamp
  inc : Nat
  tick : Nat
  /-- Increments counted, in 2^-32 ns: the main counter's own running time, without software steps (R136). -/
  ran : Nat
  quality : Nat
  source : Nat
  port : Nat
  holdoverSince : Option Nat
  slewNs : Int
  lastQuantum : Nat
  lockedOnce : Bool
  /-- PTP ports, by code (R358). -/
  ports : Tab PtpPort
  /-- The dataset of the grandmaster followed last, and what it says of UTC. -/
  gm : Option GmSet
  leap : Option Int
  bins : Tab (Nat × Int)
  lockedSamples : Nat
  qualified : Bool
  lastLockedInc : Nat
  announcing : Nat
  seededFrom : Nat
  sbyCopied : Option Nat
  deriving DecidableEq, Repr

/-- A sampled-value subscription at work (R369 to R371). -/
structure SvState where
  state : Nat
  last : Option Nat
  samples : List SvSample
  good : List SvSample
  ts : DWord
  unsync : Bool
  expired : Bool
  /-- Tick at which the last good sample was taken. -/
  goodAt : Nat
  deriving DecidableEq, Repr

/-- A GOOSE subscription at work (R372, R373). -/
structure GooseState where
  state : Nat
  stNum : Nat
  sqNum : Nat
  tal : Nat
  arrived : Nat
  members : List (DWord × BitVec 16)
  ts : DWord
  unsync : Bool
  holdOver : Bool
  /-- Tick of its expiry. -/
  expiredAt : Nat
  deriving DecidableEq, Repr

/-- A publication at work (R374 to R376). -/
structure PubState where
  stNum : Nat
  sqNum : Nat
  intervalMs : Nat
  lastNew : Option Nat
  deferred : Bool
  values : List (DWord × BitVec 16)
  deriving DecidableEq, Repr

/-- Reply of the Derent Plant Protocol: code and detail of R384 and the payload as a list of numbers. -/
structure Reply where
  kind : Nat
  code : Nat
  detail : Nat
  body : List Byte
  deriving DecidableEq, Repr

/-- An open file of a session (R392). -/
structure OpenFile where
  handle : Nat
  name : FileName
  write : Bool
  /-- What has been written, in ascending order. -/
  data : List Byte
  deriving DecidableEq, Repr

/-- A DTLS connection (R378) and the role of its client's certificate. -/
structure Handshake where
  port : Port
  role : Option ClientRole
  deriving DecidableEq, Repr

/-- A session (R381 to R383). -/
structure Session where
  port : Port
  clientId : Nat
  role : ClientRole
  events : Bool
  replies : List (Nat × Reply)
  files : List OpenFile
  eventSecond : Nat
  eventCount : Nat
  eventDropped : Nat
  /-- Opened at the pair address (R379), and the tick of its client's last message (R382). -/
  viaPair : Bool
  lastHeard : Nat
  deriving DecidableEq, Repr

/-- A tag subscription (R389): each tag with the CHANGE last notified. -/
structure Subscription where
  session : Nat
  minMs : Nat
  tags : List (Nat × Nat)
  seq : Nat
  /-- Tick of the last batch (R389). -/
  sentAt : Option Nat
  deriving DecidableEq, Repr

/-- Networks and the Derent Plant Protocol (R366 to R392). -/
structure Net where
  up : List Port
  /-- Identities of frames passed within the discard window of R367, each with its tick. -/
  seen : List (Nat × Nat)
  sv : Tab SvState
  goose : Tab GooseState
  pubs : Tab PubState
  testMode : Bool
  sessions : Tab Session
  subs : Tab Subscription
  nextSession : Nat
  nextSub : Nat
  nextHandle : Nat
  /-- Connections, in the order they were made. -/
  handshakes : List Handshake
  ptpSeq : Nat
  /-- Last receive descriptor and last transmit report, by port code, and frames stamped at sending (R361). -/
  rx : Tab FrameReport
  tx : Tab FrameReport
  sentFrames : Nat
  deriving DecidableEq, Repr

/-- A receive ring entry (R397). -/
structure CanEntry where
  seq : Nat
  tick : Nat
  frame : CanFrame
  own : Bool
  unsync : Bool
  deriving DecidableEq, Repr

/-- A transmit request the port holds (R402, R403). -/
structure CanHeld where
  task : Nat
  req : CanReq
  started : Bool
  cancelLate : Bool
  /-- When it reached the port. -/
  since : Nat
  deriving DecidableEq, Repr

/-- A CAN port (R393 to R408). errState 0 active, 1 passive, 2 bus-off; the port's mode follows the module state (R395). expired holds
the mappings past HOLD, or past twice HOLD. -/
structure CanPort where
  errState : Nat
  tec : Nat
  rxErr : Nat
  seq : Nat
  ring : List CanEntry
  monitor : Nat
  held : List CanHeld
  copied : List (Nat × CanReq)
  expired : List (Nat × Bool)
  perSecond : Nat
  second : Nat
  deriving DecidableEq, Repr

/-- A protection region (R432). -/
structure Region where
  base : Nat
  size : Nat
  en : Bool
  read : Bool
  write : Bool
  exec : Bool
  deriving DecidableEq, Repr

/-- A protection unit (R430 to R441). regions is keyed 16 × set + region. -/
structure Unit36 where
  active : Nat
  armed : Bool
  swapPending : Bool
  armStatus : Nat
  armRegion : Nat
  regions : Tab Region
  deriving DecidableEq, Repr

/-- Protection units, the notice latch and the management processor (R430 to R448). -/
structure Mpu where
  units : Tab Unit36
  noticeHeld : Bool
  highWindows : Nat
  lowWindows : Nat
  restarting : Bool
  mgmtRestarts : List Nat
  deriving DecidableEq, Repr

/-- Activation record of a firmware region (R450) and the images its two slots hold. -/
structure RegionRec where
  activeSlot : Nat
  prevUsable : Bool
  trial : Bool
  waiting : Bool
  attempts : Nat
  rollbackMin : Nat
  slot0 : Option FwImage
  slot1 : Option FwImage
  /-- The slots with a block whose words are uncorrectable, and whether the record's halves match (R450). -/
  spoilt : List Nat
  bad : Bool
  /-- When the active image took effect, and until when the effect runs (R460, R463). -/
  effectTick : Option Nat
  effectEnd : Nat
  deriving DecidableEq, Repr

/-- An update session slot (R456, R457). -/
structure UpdSession where
  region : Nat
  state : Nat
  siding : Option FwImage
  /-- The siding has uncorrectable words. -/
  spoilt : Bool
  opened : Bool
  deriving DecidableEq, Repr

/-- Firmware update and attestation (R449 to R476). -/
structure Update where
  regions : Tab RegionRec
  sessions : Tab UpdSession
  lastOpen : Option Nat
  leaf : Nat
  limit : Nat
  reportSeq : Nat
  words : List Word
  signing : Bool
  signedSecond : Nat
  signedCount : Nat
  /-- The bottom trees whose upper nodes and top-level signature stand in the attestation area (R476). -/
  trees : List Nat
  deriving DecidableEq, Repr

/-- An image of the bistable label (R481, R486): serial, names, state, last halt reason with its operating hour, versions of MGMT and LANE, generation, and
whether its update ran to its end. -/
structure LabelImage where
  serial : DWord
  slotName : Nat
  pairName : Nat
  mode : Mode
  reason : Nat
  hours : Nat
  mgmt : Nat
  lane : Nat
  generation : Nat
  complete : Bool
  deriving DecidableEq, Repr

/-- Front panel (R477 to R486). shiftPos is the position of the 4 × 4 pixel cycle. -/
structure Panel where
  on : Bool
  frozen : Bool
  shiftPos : Nat
  driveMv : Nat
  temp : Int
  labelBusy : Bool
  labelHeld : Bool
  redrawDirty : Bool
  lastStart : Option Nat
  shown : List Nat
  label : Option LabelImage
  deriving DecidableEq, Repr

/-- A mileage series (R488, R489). -/
structure Series where
  samples : Nat
  dropped : Nat
  sampled : Bool
  min : Int
  minAt : Nat
  max : Int
  maxAt : Nat
  bins : Tab Nat
  partly : Bool
  deriving DecidableEq, Repr

/-- CAN error extremes (R489, series 0x34 and 0x35). -/
structure CanExt where
  tecMax : Nat
  tecAt : Nat
  recMax : Nat
  recAt : Nat
  busOff : Nat
  busOffAt : Nat
  passive : Nat
  deriving DecidableEq, Repr

/-- What the mileage recorder counts over the module's life and a start resumes from a slot (R490). -/
structure MilTotals where
  series : Tab Series
  holdupEntries : Nat
  halts : Nat
  tookControl : Nat
  mgmtRestarts : Nat
  switchOns : Tab Nat
  can0 : CanExt
  can1 : CanExt
  deriving DecidableEq, Repr

/-- A slot of the mileage area (R489, R490): WRITE_SEQ, the format, the 40 records, the totals that they hold, and whether all of them verify. -/
structure MilSlot where
  seq : Nat
  format : Nat
  records : Tab (List Word)
  totals : MilTotals
  whole : Bool
  deriving DecidableEq, Repr

/-- The mileage recorder (R487 to R491). -/
structure Mileage where
  now : MilTotals
  /-- Samples not yet folded: series, value, operating minute (R488, R491). -/
  unfolded : List (Nat × Int × Nat)
  writeSeq : Nat
  /-- The two slots of the mileage area. -/
  slots : Tab MilSlot
  deriving DecidableEq, Repr

/-- What the module sends (R224, R358, R367, R375, R379, R381, R402). -/
inductive Msg where
  | hello (h : Hello)
  | idle
  | status (f : StatusFrame) (notReady : List Nat) (lanes : List (Nat × Option Nat))
  | resent (fromSeq count : Nat)
  | delta (d : DeltaMsg)
  | deltaAck (task cycle closeSeq : Nat) (crc : Word)
  | mirror (entries : List Entry)
  | mirrorAck (seq : Nat)
  | image (digest : Nat) (forExchange : Bool)
  | mapAck (crc : Word)
  | announce (a : Announcement)
  | announceAck
  | resyncReq (page : Option Nat)
  | resyncAnswer
  | resyncPage (n : Nat)
  | resyncControl (c : ControlSet)
  | resyncDone (closeSeq : Nat)
  | handover (qh : Nat)
  | handoverAck
  | restartReq (r : RestartRec)
  | restartAck
  | restartGo (cancel : Bool)
  | reply (session reqId : Nat) (r : Reply)
  | completion (session : Nat) (c : Completion)
  | notify (session subscription seq : Nat) (tags : List (Nat × Option Tag))
  | event (session base offset bit seq : Nat) (time : DWord) (dropped : Nat)
  | closed (session : Nat)
  | goose (p stNum sqNum tal : Nat) (test : Bool) (values : List (DWord × BitVec 16))
  | pairAddress
  | supervision
  | ptp (port : Port) (body : PtpBody)
  | can (port : Nat) (req : CanReq)
  /-- The identity certificate chain that the module presents (R378, R469). -/
  | certificates (chain : List Cert)
  | panelFrame (lines : List Nat)
  /-- A message on the coupling: the header of its frame, or of its last frame (R223). -/
  | frame (h : FrameHdr) (m : Msg)
  deriving DecidableEq, Repr

/-- The state of the module. -/
structure State where
  /-- Commands waiting, first in, first out. -/
  pending : List Instr
  /-- Module state of R1. -/
  mode : Mode
  /-- Register fields with no other home: key 32 × address + low bit, unlisted fields read 0. -/
  bank : Tab Nat
  /-- Buffered writes not yet in effect (R414), by register address. -/
  heldWrites : Tab Word
  /-- Multi-word shadows (R421): reader, address of the high word, value. -/
  shadows : List (Origin × Nat × Word)
  carrier : Carrier
  standby : Standby
  fixed : Fixed
  start : Start
  claim : Claim
  pair : Pair
  tasks : Tab Task
  lanes : Tab Lane
  ctl : Control
  jrn : Journal
  exch : Exchange
  mram : Mram
  sbox : Sbox
  chans : Tab Chan
  conv : Conv
  acq : Recorder
  time : TimeBase
  net : Net
  can0 : CanPort
  can1 : CanPort
  mpu : Mpu
  upd : Update
  panel : Panel
  mil : Mileage
  /-- What the module has sent, oldest first. -/
  outbox : List Msg
  /-- Index of the next free value (assumption 4): the model's own field. -/
  freeCount : Nat
  deriving DecidableEq, Repr

/-! The machine right after reset: a factory-new module, unseated and without power (mode OFF). Every record has its reset
value here; assumption 1 says which of these the manual gives and which are the model's choice. -/

def Stamp.zero : Stamp := ⟨0, 0, 0⟩

def Tag.zero : Tag := ⟨0#64, 0#64, 0#16, 0, 0#8, 0, 0, 0⟩

def Carrier.reset : Carrier :=
  { seated := false, leverOpen := false, slotB := false, split := false, mod1Mv := 0, mod2Mv := 0, fld1Mv := 0, fld2Mv := 0,
    fuse1Open := false, fuse2Open := false, fuse1Tries := [], fuse2Tries := [], cagesOff := [],
    resFull := false, holdup := false, shed := false, recordWritten := false }

def Standby.reset : Standby :=
  { sec := 0, frac := 0, acc := 0, unplugged := true, cellLow := false, countLost := false, seq := 1, stopped := false }

/-- The manual gives no serial number and no root key (assumption 1): zero, a key that verifies nothing. -/
def Fixed.reset : Fixed := { serial := 0#64, variantF := true, vendorKey := (0, 0), vendorLms := List.replicate 56 0#8, serviceKey := (0, 0) }

def Start.reset : Start :=
  { step := 0, key := none, keyImage := none, running := none, timetableLoaded := false, platformsUp := false,
    imageChosen := false, path11a := false, path11b := false, warm := false, warmRefused := false, fromOff := false, wantCold := none, prior := none, exchangeLost := none, exchangeDone := none, startTick := 0 }

def Claim.reset : Claim :=
  { drive := false, own := false, partner := false, confirmed := false, taking := false, releasing := false,
    forHandover := false, stuck := false, partnerAbsent := false, droppedAt := none, refreshed := 0 }

def Pair.reset : Pair :=
  { linkUp := false, trained := [], session := 0, rxNext := 0, txNext := 0, peerAck := 0xFFFFFFFF, doubt := false, copyCurrent := false,
    stale := false, partnerCurrent := false, partnerMode := none, partnerReady := false, partnerTest := false,
    partnerOnPtp := false, partnerHello := none, resync := false, resyncSending := false, resyncAsked := false, inFlight := false, pages := 0, controlSet := false,
    heldRecs := [], captureSeq := 0, pagesHeld := [], unreadable := [], closeSeq := 0, ackedSeq := 0,
    awaitingDelta := [], statuses := [], handoverQ := none, handoverAcked := false, handoverWait := false, restartWait := none,
    restartGoDue := none, restartAcked := false, disagree := 0, statusSent := none, statusArrived := none, pairAddr := false, pairSince := 0, pairRepeats := 0, sbxRestartDue := false, mapMismatches := 0, unpartneredRun := false }

def Task.reset : Task :=
  { cycle := 0, phase := .idle, freezeAt := Stamp.zero, freezeRan := 0, seen := [], handed := [], roleReturns := [], released := 0, lastClosed := 0, watermark := 0, blocksDone := [],
    deliveries := [], tagOps := [], roleOps := [], msgOps := [], regOps := [], commits := [],
    postOps := [], wbOps := [], canOps := [], objOps := [], ovlOps := [], retOps := [], refusedOps := [], goneOps := [], inbox := [], taken := [], returns := [],
    nextReturns := [], canOutcomes := [], canArea := [], canSeen := [], deferredRoles := [], deferredPosts := [], closeSeq := 0, deltaCrc := 0#32,
    switched := false, shownLimit := 0, frozenQ := 0, step2At := Stamp.zero, carryCrc := none }

def Lane.reset : Lane :=
  { task := none, retired := false, worn := false, bad := false, block := none, ckpt := 0, shadowA := [], shadowB := [], waiting := false,
    mismatch := none, gateLog := [], gotA := [], gotB := [], inject := none, recovered := [], flakyDue := false, restartOn := [], asLane := none,
    starting := false, dueRetire := false, since := 0 }

def Control.reset : Control :=
  { tags := [], forces := [], units := [], overlay := [], objects := [], pubs := [], image := [], supplies := [],
    sbx := [] }

def Journal.reset : Journal :=
  { head := 0, waiters := [], clients := [], rateSecond := 0, rateCount := 0 }

def Exchange.reset : Exchange :=
  { progress := .none, image := none, shadow := none, waybill := none, unpartneredOk := false, clearOverlay := false,
    restructure := false, mapCrc := 0#32, sent := false, announcement := none, expired := [], closed := [], lastSwitch := 0#64,
    alone := false, mixed := false, gone := [], report := none }

/-- The chain a module leaves the factory with; the manual gives none of its bytes (assumption 1). -/
def ChainCopy.factory : ChainCopy := { certs := List.replicate 3 ⟨[], (0, 0), (0, 0)⟩, whole := true }

def Mram.reset : Mram :=
  { pairServed := none, anchor := none, clearPending := false, anchorEpoch := 0, haltReason := 0, haltValid := false,
    haltCount := 0, haltMinute := 0, overrun := none, restart := none, lastHolder := false, progress := .none,
    announcement := none, labelDirty := false, labelGeneration := 0, retireCounts := [], ring := [], checkpoints := [],
    ckptNext := 0, marks := [], markSlots := [], snap0 := none, snap1 := none, plrs := [], plrNext := 0, running := none,
    pending := none, reports := [], retiredIds := [], floor := 0, faultRing := [], faultsWritten := 0, osc := [], chains := [(0, ChainCopy.factory), (1, ChainCopy.factory)], opMinutes := 0,
    powerCycles := 0, bootCount := 0, slotName := 0, pairName := 0, calWrittenAt := none, imageWrittenAt := none,
    runningWrittenAt := none, fwWrittenAt := none }

def EqState.reset : EqState :=
  { cond := false, result := false, latched := false, trueSince := none, falseSince := none }

def AcmpState.reset : AcmpState := { state := false, failed := false, contradictions := 0 }

def SvcState.reset : SvcState :=
  { state := false, failed := false, overRun := 0, missing := 0, goodRun := 0, window := [] }

def GbitState.reset : GbitState := { state := false, failed := false }

def Sbox.reset : Sbox :=
  { running := false, evalOk := [], outvoted := [], voteLost := false, eval0 := [], eval1 := [], eval2 := [], voted := [],
    dispute := [], resets := [], table := ⟨[], [], [], [], []⟩, acmp := [], svc := [], gbit := [] }

def Chan.reset : Chan :=
  { changeFrom := none, changing := false, doState := .off, cmdOn := false, cmdUa := 0, hasReleased := false, lastOn := false, lastUa := 0,
    driven := false, safe := false, limitSince := none, lastLimit := none, lastHeld := none, retrying := false, thermals := [], supplyMv := 0, levelMv := 0, offSince := none, loopMv := 0,
    learned := false, currUa := 0, voltMv := 0, rbFresh := false, rbTs := none, rbUnsync := false, compliance := false, openLoop := false, liveZeroLost := false,
    filtered := false, stateDi := false, edgeTs := 0#64, edgeUnsync := false, debouncing := false, kind := 0, offPeriods := 0, goodPeriods := 0,
    cutoff := false }

def Coef.reset : Coef := { offset := 0#64, gain := 0x3FF0000000000000#64, generation := 0 }

def Cal.reset : Cal :=
  { phase := .idle, channel := 0, pending := none, takingSpan := false, takes := [], mZero := 0#64, vZero := 0#64,
    mSpan := 0#64, vSpan := 0#64, lastAt := 0 }

def Turntable.reset : Turntable :=
  { faulty := false, window := 0, channel := 0, priority := false, checkLeft := 0, suspect := none, next := 0, queue := [], oldCoef := none,
    rotationStart := 0 }

def PeriodState.reset : PeriodState := { accepted := none, candidates := [], lost := true }

def Conv.reset : Conv :=
  { periodNs := 20000000, pendingNs := none, src := 0, primary := PeriodState.reset, secondary := PeriodState.reset,
    queue := [], copy := [], entered := 0, monitor := 0, lostBefore := [], results := [], coefs := [], records := [], adopted := [],
    cal := Cal.reset, tts := [], visited := [] }

def DefState.reset : DefState :=
  { cfg := none, armed := false, ring := [], tagLog := [], part := none, seg := none, record := none, held := [], rearming := false, closing := none,
    rearmAfterCommit := false }

def TrigState.reset : TrigState := { crossed := none, last := none, due := [] }

def Recorder.reset : Recorder :=
  { running := false, indexReady := false, defs := [], toCommit := [], stored := [], blockSeq := 0, blkSecond := 0, blkCount := 0, blkLast := 0, nextId := 1,
    openSecond := 0, openCount := 0, trigs := [], edges := [], commitFrom := 0, written := [], lostIds := [] }

def TimeBase.reset : TimeBase :=
  { counter := Stamp.zero, inc := 8 * 2 ^ 32, tick := 0, ran := 0, quality := 3, source := 0, port := 7, holdoverSince := none,
    slewNs := 0, lastQuantum := 0, lockedOnce := false, ports := [], gm := none, leap := none, bins := [], lockedSamples := 0, qualified := false,
    lastLockedInc := 8 * 2 ^ 32, announcing := 0, seededFrom := 0, sbyCopied := none }

def SvState.reset : SvState := { state := 0, last := none, samples := [], good := [], ts := 0#64, unsync := false, expired := false, goodAt := 0 }

def GooseState.reset : GooseState :=
  { state := 0, stNum := 0, sqNum := 0, tal := 0, arrived := 0, members := [], ts := 0#64, unsync := false,
    holdOver := false, expiredAt := 0 }

def PubState.reset : PubState :=
  { stNum := 0, sqNum := 0, intervalMs := 0, lastNew := none, deferred := false, values := [] }

def Net.reset : Net :=
  { up := [], seen := [], sv := [], goose := [], pubs := [], testMode := false, sessions := [], subs := [], nextSession := 1,
    nextSub := 1, nextHandle := 1, handshakes := [], ptpSeq := 0, rx := [], tx := [], sentFrames := 0 }

def CanPort.reset : CanPort :=
  { errState := 0, tec := 0, rxErr := 0, seq := 0, ring := [], monitor := 0, held := [], copied := [],
    expired := [], perSecond := 0, second := 0 }

def Region.reset : Region := { base := 0, size := 8, en := false, read := false, write := false, exec := false }

def Unit36.reset : Unit36 :=
  { active := 0, armed := false, swapPending := false, armStatus := 0, armRegion := 0, regions := [] }

def Mpu.reset : Mpu :=
  { units := [], noticeHeld := false, highWindows := 0, lowWindows := 0, restarting := false, mgmtRestarts := [] }

def RegionRec.reset : RegionRec :=
  { activeSlot := 0, prevUsable := false, trial := false, waiting := false, attempts := 0, rollbackMin := 0, slot0 := none,
    slot1 := none, spoilt := [], bad := false, effectTick := none, effectEnd := 0 }

/-- The image a region leaves the factory with (assumption 1). -/
def FwImage.factory (r : Nat) : FwImage :=
  let crc : List Byte := match r with
    | 0 => [0x45#8, 0x34#8, 0x19#8, 0x01#8]
    | 1 => [0x99#8, 0x31#8, 0x11#8, 0x41#8]
    | 2 => [0xFD#8, 0x3F#8, 0x09#8, 0x81#8]
    | 3 => [0x21#8, 0x3A#8, 0x01#8, 0xC1#8]
    | 4 => [0xC4#8, 0x55#8, 0xD5#8, 0x04#8]
    | _ => [0x18#8, 0x50#8, 0xDD#8, 0x44#8]
  let zeros (n : Nat) : List Byte := List.replicate n 0#8
  let header := [0x44#8, 0x46#8, 0x57#8, 0x4D#8, 1#8, 0#8, BitVec.ofNat 8 r, 3#8, 0#8, 0#8, 0#8, 1#8, 1#8, 0#8, 0#8, 0#8] ++ zeros 32 ++ [0x78#8, 0x0B#8, 0#8, 0#8] ++ zeros 456 ++ crc
  { bytes := header ++ zeros 4092 ++ [0x6E#8, 0x58#8, 0x32#8, 0xA7#8] ++ zeros 2936, cert := ⟨[], (0, 0), (0, 0)⟩, signingUse := false }

def UpdSession.reset : UpdSession := { region := 7, state := 0, siding := none, spoilt := false, opened := false }

def Update.reset : Update :=
  { regions := (List.range 6).map (fun r => (r, { RegionRec.reset with slot0 := some (FwImage.factory r) })), sessions := [], lastOpen := none, leaf := 0, limit := 0, reportSeq := 0, words := [], signing := false,
    signedSecond := 0, signedCount := 0, trees := [0] }

def Panel.reset : Panel :=
  { on := false, frozen := false, shiftPos := 0, driveMv := 0, temp := 0, labelBusy := false, labelHeld := false,
    redrawDirty := false, lastStart := none, shown := [], label := none }

def Series.reset : Series :=
  { samples := 0, dropped := 0, sampled := false, min := 0, minAt := 0, max := 0, maxAt := 0, bins := [], partly := false }

def CanExt.reset : CanExt :=
  { tecMax := 0, tecAt := 0, recMax := 0, recAt := 0, busOff := 0, busOffAt := 0, passive := 0 }

def MilTotals.reset : MilTotals :=
  { series := [], holdupEntries := 0, halts := 0, tookControl := 0, mgmtRestarts := 0, switchOns := [], can0 := CanExt.reset, can1 := CanExt.reset }

def Mileage.reset : Mileage := { now := MilTotals.reset, unfolded := [], writeSeq := 0, slots := [] }

/-- The register fields whose Reset column is not 0 and that the bank holds, by key. -/
def State.resetBank : Tab Nat :=
  [((0x10004 * 32 + 1), 1), ((0x10048 * 32), 3), ((0x10048 * 32 + 4), 7), ((0x10048 * 32 + 16), 0xFFFF), ((0x20004 * 32 + 8), 0x50), ((0x20010 * 32), 0xFFFF),
   ((0x30004 * 32 + 8), 0x10)]
  ++ [((0x18000C * 32), 0xA), ((0x18000C * 32 + 4), 1), ((0x1A0014 * 32 + 16), 0x64)]

/-- The machine right after reset: OFF, unseated, factory-new. -/
def State.reset : State :=
  { pending := [], mode := .off, bank := State.resetBank, heldWrites := [], shadows := [], carrier := Carrier.reset,
    standby := Standby.reset, fixed := Fixed.reset, start := Start.reset, claim := Claim.reset, pair := Pair.reset, tasks := [],
    lanes := [], ctl := Control.reset, jrn := Journal.reset, exch := Exchange.reset, mram := Mram.reset, sbox := Sbox.reset,
    chans := [], conv := Conv.reset, acq := Recorder.reset, time := TimeBase.reset, net := Net.reset, can0 := CanPort.reset,
    can1 := CanPort.reset, mpu := Mpu.reset, upd := Update.reset, panel := Panel.reset, mil := Mileage.reset, outbox := [],
    freeCount := 0 }

/-- No command of the table stops the module in a fault: the type has one constructor, raised by nobody (safe). -/
inductive Fault where
  /-- Never raised: every failure the manual describes is an effect on the state. Safe. -/
  | none
  deriving DecidableEq, Repr

/-- Reasons to have no meaning for a command. -/
inductive Refusal where
  /-- Raised by exec for a command whose meaning is not written yet. Safe: the run stops. -/
  | notModelled (mnemonic : String)
  deriving DecidableEq, Repr

end Sys2Proof.Machine
end

