-- ==== Sys2Proof/Machine/Tab.lean ====
section
/-! DEFINITION. Operations on sparse tables (keys strictly rising, no entry equal to what an unlisted key reads as), and the
small helpers on lists, numbers and instants that every family uses. -/

namespace Sys2Proof.Machine

/-- The entry of key i. -/
def Tab.get? {α : Type} : Tab α → Nat → Option α
  | [], _ => none
  | (k, v) :: t, i => if k = i then some v else Tab.get? t i

/-- The entry of key i, or d. -/
def Tab.getD {α : Type} (t : Tab α) (i : Nat) (d : α) : α := (Tab.get? t i).getD d

/-- t with entry v at key i. -/
def Tab.set {α : Type} : Tab α → Nat → α → Tab α
  | [], i, v => [(i, v)]
  | (k, w) :: t, i, v =>
    if i < k then (i, v) :: (k, w) :: t
    else if i = k then (i, v) :: t
    else (k, w) :: Tab.set t i v

/-- t without key i. -/
def Tab.erase {α : Type} (t : Tab α) (i : Nat) : Tab α := t.filter (fun e => e.1 != i)

/-- t with v at key i; a value equal to the default d is not listed. -/
def Tab.put {α : Type} [DecidableEq α] (d : α) (t : Tab α) (i : Nat) (v : α) : Tab α :=
  if v = d then Tab.erase t i else Tab.set t i v

/-- t with f applied to the entry of key i (the default d if none is listed). -/
def Tab.update {α : Type} [DecidableEq α] (d : α) (t : Tab α) (i : Nat) (f : α → α) : Tab α :=
  Tab.put d t i (f (Tab.getD t i d))

/-- The keys of t. -/
def Tab.keys {α : Type} (t : Tab α) : List Nat := t.map (·.1)

/-- Keys strictly rising. -/
def Tab.sorted {α : Type} : Tab α → Bool
  | [] => true
  | [_] => true
  | (a, _) :: (b, y) :: t => decide (a < b) && Tab.sorted ((b, y) :: t)

/-- Canonical form of a table whose unlisted keys read as d. -/
def Tab.wf {α : Type} [DecidableEq α] (d : α) (t : Tab α) : Bool := Tab.sorted t && t.all (fun e => decide (e.2 ≠ d))

/-- Every entry of the association list put into a table, first entry of a key winning. -/
def Tab.ofList {α : Type} (l : List (Nat × α)) : Tab α := l.foldr (fun e t => Tab.set t e.1 e.2) []

/-- Look a key up in an association list of the image. -/
def findKey {α : Type} (l : List (Nat × α)) (i : Nat) : Option α := Tab.get? l i

/-- The last n elements of a list. -/
def lastN {α : Type} (n : Nat) (l : List α) : List α := l.drop (l.length - n)

/-- Add to a list unless present. -/
def addOnce {α : Type} [DecidableEq α] (a : α) (l : List α) : List α := if a ∈ l then l else l ++ [a]

/-- Apply f for each element of a list in order. -/
def forEach {α σ : Type} (l : List α) (f : α → σ → σ) (s : σ) : σ := l.foldl (fun s a => f a s) s

/-- Apply f n times at most while it answers a next value (fuel-bounded repetition). -/
def iter {σ : Type} (f : σ → Option σ) : Nat → σ → σ
  | 0, s => s
  | n + 1, s => match f s with
    | some s' => iter f n s'
    | none => s

/-- Saturating increment of a w-bit counter. -/
def satInc (w n : Nat) : Nat := if n + 1 < 2 ^ w then n + 1 else 2 ^ w - 1

/-- Saturating narrowing to w bits. -/
def satTo (w n : Nat) : Nat := if n < 2 ^ w then n else 2 ^ w - 1

/-- Two's complement of an integer in w bits. -/
def twos (w : Nat) (i : Int) : Nat := (i % (2 ^ w : Int)).toNat

/-- The integer that the low w bits of n stand for in two's complement. -/
def signed (w n : Nat) : Int :=
  let m := n % 2 ^ w
  if m < 2 ^ (w - 1) then (m : Int) else (m : Int) - (2 ^ w : Int)

/-- Clamp an integer into a closed range. -/
def clampI (lo hi x : Int) : Int := if x < lo then lo else if hi < x then hi else x

/-- Bits lo to lo + w - 1 of n. -/
def bitsOf (n lo w : Nat) : Nat := n / 2 ^ lo % 2 ^ w

/-- A one-bit field. -/
def b2n (b : Bool) : Nat := if b then 1 else 0

/-- Nanoseconds of an instant since second 0. -/
def Stamp.nsTotal (t : Stamp) : Nat := t.sec * 1000000000 + t.ns

/-- An instant in fractions of 2^-32 ns. -/
def Stamp.fine (t : Stamp) : Nat := t.nsTotal * 2 ^ 32 + t.frac

/-- The instant that a number of 2^-32 ns fractions stands for; seconds wrap at 2^48. -/
def Stamp.ofFine (n : Nat) : Stamp :=
  let ns := n / 2 ^ 32
  ⟨ns / 1000000000 % 2 ^ 48, ns % 1000000000, n % 2 ^ 32⟩

/-- The tag timestamp of an instant (R7, R88), truncated: 36 bits of seconds, 28 bits of 2^-28 s. -/
def Stamp.tagTs (t : Stamp) : DWord :=
  BitVec.ofNat 64 ((t.sec % 2 ^ 36) * 2 ^ 28 + (t.ns * 65536 + t.frac / 65536) * 2 ^ 28 / (1000000000 * 65536))

/-- The quantum an instant lies in: quanta of 250 µs since second 0 (R115). -/
def Stamp.quantum (t : Stamp) : Nat := t.nsTotal / 250000

end Sys2Proof.Machine
end

