-- ==== Sys2Proof/Machine/Crc.lean ====
section
/-! DEFINITION. CRC-32C with the parameters of R8: polynomial 0x1EDC_6F41, input and output reflected, initial value and final
exclusive-or 0xFFFF_FFFF. -/

namespace Sys2Proof.Machine

/-- One bit of the reflected division; 0x82F6_3B78 is the polynomial of R8 with its bits in reverse order. -/
def crcBit (c : Word) : Word := if c.getLsbD 0 then (c >>> 1) ^^^ 0x82F63B78#32 else c >>> 1

/-- One byte enters the check. -/
def crcByte (c : Word) (b : Byte) : Word := (crcBit ∘ crcBit ∘ crcBit ∘ crcBit ∘ crcBit ∘ crcBit ∘ crcBit ∘ crcBit) (c ^^^ b.setWidth 32)

/-- The check value of a byte sequence (R8). -/
def crc32c (l : List Byte) : Word := l.foldl crcByte 0xFFFFFFFF#32 ^^^ 0xFFFFFFFF#32

/-- n as k bytes, least significant first (R5). -/
def leBytes : Nat → Nat → List Byte
  | 0, _ => []
  | k + 1, n => BitVec.ofNat 8 n :: leBytes k (n / 256)

/-- n as k bytes, most significant first. -/
def beBytes (k n : Nat) : List Byte := (leBytes k n).reverse

/-- A SHA-384 value as its 48 bytes, in the order of the hash. -/
def hashBytes (n : Nat) : List Byte := beBytes 48 n

/-- The number that bytes stand for, least significant first (R5). -/
def leNat : List Byte → Nat
  | [] => 0
  | b :: t => b.toNat + 256 * leNat t

/-- The 32-bit words of a byte sequence, last word padded with zeros. -/
def leWords : Nat → List Byte → List Word
  | 0, _ => []
  | n + 1, l => BitVec.ofNat 32 (leNat (l.take 4)) :: leWords n (l.drop 4)

end Sys2Proof.Machine
end

