-- ==== Sys2Proof/Machine/Crypto.lean ====
section
/-! DEFINITION. The published functions the manual names for images, certificates and reports: SHA-384 (R55, R57), SHA-256 (R474, R476) and
verification of an ECDSA P-384 signature (R55, R455). All arithmetic is on natural numbers. -/

namespace Sys2Proof.Machine

/-! The SHA-2 family (FIPS 180-4). A word has w bits. -/

/-- The eight working words. -/
structure Sha where
  a : Nat
  b : Nat
  c : Nat
  d : Nat
  e : Nat
  f : Nat
  g : Nat
  h : Nat
  deriving DecidableEq, Repr

/-- Rotation of a w-bit word to the right. -/
def rotr (w n x : Nat) : Nat := (x >>> n ||| x <<< (w - n)) % 2 ^ w

/-- Complement of a w-bit word. -/
def notw (w x : Nat) : Nat := 2 ^ w - 1 - x

/-- The functions that differ between the two word sizes: rotations of the big and small sigma functions. -/
structure ShaKind where
  w : Nat
  s0 : Nat × Nat × Nat
  s1 : Nat × Nat × Nat
  m0 : Nat × Nat × Nat
  m1 : Nat × Nat × Nat
  k : List Nat

def bigSigma (w : Nat) (r : Nat × Nat × Nat) (x : Nat) : Nat := rotr w r.1 x ^^^ rotr w r.2.1 x ^^^ rotr w r.2.2 x

def smallSigma (w : Nat) (r : Nat × Nat × Nat) (x : Nat) : Nat := rotr w r.1 x ^^^ rotr w r.2.1 x ^^^ x >>> r.2.2

/-- One round with its constant and schedule word. -/
def shaRound (q : ShaKind) (x : Sha) (kw : Nat × Nat) : Sha :=
  let t1 := x.h + bigSigma q.w q.s1 x.e + ((x.e &&& x.f) ^^^ (notw q.w x.e &&& x.g)) + kw.1 + kw.2
  let t2 := bigSigma q.w q.s0 x.a + ((x.a &&& x.b) ^^^ (x.a &&& x.c) ^^^ (x.b &&& x.c))
  ⟨(t1 + t2) % 2 ^ q.w, x.a, x.b, x.c, (x.d + t1) % 2 ^ q.w, x.e, x.f, x.g⟩

/-- The message schedule, newest word first. -/
def shaExtend (q : ShaKind) : Nat → List Nat → List Nat
  | 0, l => l
  | n + 1, l => shaExtend q n (((smallSigma q.w q.m1 (l.getD 1 0) + l.getD 6 0 + smallSigma q.w q.m0 (l.getD 14 0) + l.getD 15 0) % 2 ^ q.w) :: l)

/-- A number from bytes, most significant first. -/
def beNat (l : List Byte) : Nat := l.foldl (fun n b => n * 256 + b.toNat) 0

/-- The first n words of a block. -/
def beWords (k : Nat) : Nat → List Byte → List Nat
  | 0, _ => []
  | n + 1, l => beNat (l.take k) :: beWords k n (l.drop k)

/-- One block of 16 words enters the hash. -/
def shaBlock (q : ShaKind) (x : Sha) (block : List Byte) : Sha :=
  let ws := (shaExtend q (q.k.length - 16) (beWords (q.w / 8) 16 block).reverse).reverse
  let y := (q.k.zip ws).foldl (shaRound q) x
  let m := 2 ^ q.w
  ⟨(x.a + y.a) % m, (x.b + y.b) % m, (x.c + y.c) % m, (x.d + y.d) % m, (x.e + y.e) % m, (x.f + y.f) % m, (x.g + y.g) % m, (x.h + y.h) % m⟩

/-- The padded message: a 1 bit, zeros, and the length in bits. -/
def shaPad (w : Nat) (l : List Byte) : List Byte :=
  let block := 2 * w
  let lenBytes := w / 4
  let used := (l.length + 1 + lenBytes) % block
  l ++ (0x80#8 :: List.replicate (if used = 0 then 0 else block - used) 0#8) ++ beBytes lenBytes (8 * l.length)

/-- Every block of a padded message, n blocks. -/
def shaBlocks (q : ShaKind) : Nat → Sha → List Byte → Sha
  | 0, x, _ => x
  | n + 1, x, l => shaBlocks q n (shaBlock q x (l.take (2 * q.w))) (l.drop (2 * q.w))

def shaRun (q : ShaKind) (x : Sha) (l : List Byte) : Sha := let p := shaPad q.w l; shaBlocks q (p.length / (2 * q.w)) x p

def sha512K : List Nat :=
  [0x428a2f98d728ae22, 0x7137449123ef65cd, 0xb5c0fbcfec4d3b2f, 0xe9b5dba58189dbbc]
  ++ [0x3956c25bf348b538, 0x59f111f1b605d019, 0x923f82a4af194f9b, 0xab1c5ed5da6d8118]
  ++ [0xd807aa98a3030242, 0x12835b0145706fbe, 0x243185be4ee4b28c, 0x550c7dc3d5ffb4e2]
  ++ [0x72be5d74f27b896f, 0x80deb1fe3b1696b1, 0x9bdc06a725c71235, 0xc19bf174cf692694]
  ++ [0xe49b69c19ef14ad2, 0xefbe4786384f25e3, 0x0fc19dc68b8cd5b5, 0x240ca1cc77ac9c65]
  ++ [0x2de92c6f592b0275, 0x4a7484aa6ea6e483, 0x5cb0a9dcbd41fbd4, 0x76f988da831153b5]
  ++ [0x983e5152ee66dfab, 0xa831c66d2db43210, 0xb00327c898fb213f, 0xbf597fc7beef0ee4]
  ++ [0xc6e00bf33da88fc2, 0xd5a79147930aa725, 0x06ca6351e003826f, 0x142929670a0e6e70]
  ++ [0x27b70a8546d22ffc, 0x2e1b21385c26c926, 0x4d2c6dfc5ac42aed, 0x53380d139d95b3df]
  ++ [0x650a73548baf63de, 0x766a0abb3c77b2a8, 0x81c2c92e47edaee6, 0x92722c851482353b]
  ++ [0xa2bfe8a14cf10364, 0xa81a664bbc423001, 0xc24b8b70d0f89791, 0xc76c51a30654be30]
  ++ [0xd192e819d6ef5218, 0xd69906245565a910, 0xf40e35855771202a, 0x106aa07032bbd1b8]
  ++ [0x19a4c116b8d2d0c8, 0x1e376c085141ab53, 0x2748774cdf8eeb99, 0x34b0bcb5e19b48a8]
  ++ [0x391c0cb3c5c95a63, 0x4ed8aa4ae3418acb, 0x5b9cca4f7763e373, 0x682e6ff3d6b2b8a3]
  ++ [0x748f82ee5defb2fc, 0x78a5636f43172f60, 0x84c87814a1f0ab72, 0x8cc702081a6439ec]
  ++ [0x90befffa23631e28, 0xa4506cebde82bde9, 0xbef9a3f7b2c67915, 0xc67178f2e372532b]
  ++ [0xca273eceea26619c, 0xd186b8c721c0c207, 0xeada7dd6cde0eb1e, 0xf57d4f7fee6ed178]
  ++ [0x06f067aa72176fba, 0x0a637dc5a2c898a6, 0x113f9804bef90dae, 0x1b710b35131c471b]
  ++ [0x28db77f523047d84, 0x32caab7b40c72493, 0x3c9ebe0a15c9bebc, 0x431d67c49c100d4c]
  ++ [0x4cc5d4becb3e42b6, 0x597f299cfc657e2a, 0x5fcb6fab3ad6faec, 0x6c44198c4a475817]

def sha256K : List Nat :=
  [0x428a2f98, 0x71374491, 0xb5c0fbcf, 0xe9b5dba5, 0x3956c25b, 0x59f111f1, 0x923f82a4, 0xab1c5ed5]
  ++ [0xd807aa98, 0x12835b01, 0x243185be, 0x550c7dc3, 0x72be5d74, 0x80deb1fe, 0x9bdc06a7, 0xc19bf174]
  ++ [0xe49b69c1, 0xefbe4786, 0x0fc19dc6, 0x240ca1cc, 0x2de92c6f, 0x4a7484aa, 0x5cb0a9dc, 0x76f988da]
  ++ [0x983e5152, 0xa831c66d, 0xb00327c8, 0xbf597fc7, 0xc6e00bf3, 0xd5a79147, 0x06ca6351, 0x14292967]
  ++ [0x27b70a85, 0x2e1b2138, 0x4d2c6dfc, 0x53380d13, 0x650a7354, 0x766a0abb, 0x81c2c92e, 0x92722c85]
  ++ [0xa2bfe8a1, 0xa81a664b, 0xc24b8b70, 0xc76c51a3, 0xd192e819, 0xd6990624, 0xf40e3585, 0x106aa070]
  ++ [0x19a4c116, 0x1e376c08, 0x2748774c, 0x34b0bcb5, 0x391c0cb3, 0x4ed8aa4a, 0x5b9cca4f, 0x682e6ff3]
  ++ [0x748f82ee, 0x78a5636f, 0x84c87814, 0x8cc70208, 0x90befffa, 0xa4506ceb, 0xbef9a3f7, 0xc67178f2]

def sha384Kind : ShaKind := ⟨64, (28, 34, 39), (14, 18, 41), (1, 8, 7), (19, 61, 6), sha512K⟩

def sha256Kind : ShaKind := ⟨32, (2, 13, 22), (6, 11, 25), (7, 18, 3), (17, 19, 10), sha256K⟩

def sha384Init : Sha := ⟨0xcbbb9d5dc1059ed8, 0x629a292a367cd507, 0x9159015a3070dd17, 0x152fecd8f70e5939, 0x67332667ffc00b31, 0x8eb44a8768581511, 0xdb0c2e0d64f98fa7, 0x47b5481dbefa4fa4⟩

def sha256Init : Sha := ⟨0x6a09e667, 0xbb67ae85, 0x3c6ef372, 0xa54ff53a, 0x510e527f, 0x9b05688c, 0x1f83d9ab, 0x5be0cd19⟩

/-- SHA-384 as a number, first byte most significant. -/
def sha384 (l : List Byte) : Nat :=
  let x := shaRun sha384Kind sha384Init l
  [x.a, x.b, x.c, x.d, x.e, x.f].foldl (fun n v => n * 2 ^ 64 + v) 0

/-- SHA-256 as a number, first byte most significant. -/
def sha256 (l : List Byte) : Nat :=
  let x := shaRun sha256Kind sha256Init l
  [x.a, x.b, x.c, x.d, x.e, x.f, x.g, x.h].foldl (fun n v => n * 2 ^ 32 + v) 0

/-! ECDSA over P-384 (FIPS 186-5), in Jacobian coordinates; Z = 0 is the point at infinity. -/

def p384P : Nat := 2 ^ 384 - 2 ^ 128 - 2 ^ 96 + 2 ^ 32 - 1
def p384N : Nat := 0xffffffffffffffffffffffffffffffffffffffffffffffffc7634d81f4372ddf581a0db248b0a77aecec196accc52973
def p384B : Nat := 0xb3312fa7e23ee7e4988e056be3f82d19181d9c6efe8141120314088f5013875ac656398d8a2ed19d2a85c8edd3ec2aef
def p384G : Nat × Nat := (0xaa87ca22be8b05378eb1c71ef320ad746e1d3b628ba79b9859f741e082542a385502f25dbf55296c3a545e3872760ab7, 0x3617de4a96262c6f5d9e98bf9292dc29f8f41dbd289a147ce9da3113b5f0b8c00a60b1ce1d7e819d7a431d7c90ea0e5f)

structure EcPoint where
  x : Nat
  y : Nat
  z : Nat
  deriving DecidableEq, Repr

def EcPoint.zero : EcPoint := ⟨1, 1, 0⟩

/-- a - b modulo p. -/
def subP (a b : Nat) : Nat := (a + (p384P - b % p384P)) % p384P

def ecDouble (q : EcPoint) : EcPoint :=
  if q.z = 0 ∨ q.y = 0 then EcPoint.zero
  else
    let delta := q.z * q.z % p384P
    let gamma := q.y * q.y % p384P
    let beta := q.x * gamma % p384P
    let alpha := 3 * (subP q.x delta * (q.x + delta)) % p384P
    let x := subP (alpha * alpha) (8 * beta)
    ⟨x, subP (alpha * subP (4 * beta) x) (8 * gamma * gamma), 2 * q.y * q.z % p384P⟩

def ecAdd (q r : EcPoint) : EcPoint :=
  if q.z = 0 then r
  else if r.z = 0 then q
  else
    let zz1 := q.z * q.z % p384P
    let zz2 := r.z * r.z % p384P
    let u1 := q.x * zz2 % p384P
    let u2 := r.x * zz1 % p384P
    let s1 := q.y * (zz2 * r.z % p384P) % p384P
    let s2 := r.y * (zz1 * q.z % p384P) % p384P
    if u1 = u2 then (if s1 = s2 then ecDouble q else EcPoint.zero)
    else
      let h := subP u2 u1
      let k := subP s2 s1
      let hh := h * h % p384P
      let hhh := hh * h % p384P
      let v := u1 * hh % p384P
      let x := subP (subP (k * k) hhh) (2 * v)
      ⟨x, subP (k * subP v x) (s1 * hhh), q.z * r.z * h % p384P⟩

/-- n times a point, bits from the least significant, at most the first k of them. -/
def ecMul : Nat → Nat → EcPoint → EcPoint
  | 0, _, _ => EcPoint.zero
  | k + 1, n, q => if n = 0 then EcPoint.zero else (if n % 2 = 1 then ecAdd q (ecMul k (n / 2) (ecDouble q)) else ecMul k (n / 2) (ecDouble q))

/-- b to the power e modulo m, at most k bits of e. -/
def powMod (m : Nat) : Nat → Nat → Nat → Nat
  | 0, _, _ => 1 % m
  | k + 1, b, e => if e = 0 then 1 % m else (if e % 2 = 1 then b * powMod m k (b * b % m) (e / 2) % m else powMod m k (b * b % m) (e / 2))

/-- A point of the curve. -/
def onP384 (x y : Nat) : Bool :=
  decide (x < p384P) && decide (y < p384P) && decide (y * y % p384P = (x * x * x + (p384P - 3) * x + p384B) % p384P)

/-- An ECDSA P-384 signature (r, s) over a SHA-384 value verifies under the public key (x, y). -/
def ecdsaVerify (key : Nat × Nat) (hash : Nat) (sig : Nat × Nat) : Bool :=
  onP384 key.1 key.2 && decide (0 < sig.1) && decide (sig.1 < p384N) && decide (0 < sig.2) && decide (sig.2 < p384N) &&
    (let w := powMod p384N 384 sig.2 (p384N - 2)
     let r := ecAdd (ecMul 384 (hash * w % p384N) ⟨p384G.1, p384G.2, 1⟩) (ecMul 384 (sig.1 * w % p384N) ⟨key.1, key.2, 1⟩)
     let zz := r.z * r.z % p384P
     decide (r.z ≠ 0) && (decide (r.x = sig.1 * zz % p384P) || (decide (sig.1 + p384N < p384P) && decide (r.x = (sig.1 + p384N) * zz % p384P))))

end Sys2Proof.Machine
end

