-- ==== Sys2Proof/Machine/Layout.lean ====
section
/-! DEFINITION. Structures as bytes, little-endian (R5): tags (R79), unit addresses (R108), work bodies (R386), journal entries (R196 to R200),
release marks (R215), fault records (R187), the records of a delta (R227) and the header of a coupling frame (R223). -/

namespace Sys2Proof.Machine

/-- n zero bytes. -/
def zeros (n : Nat) : List Byte := List.replicate n 0#8

/-- l padded with 0 to n bytes. -/
def padTo (n : Nat) (l : List Byte) : List Byte := l ++ zeros (n - l.length)

/-- Flags as the bits of a byte, first flag in bit 0. -/
def flagByte (l : List Bool) : Nat := l.foldr (fun b n => 2 * n + (if b then 1 else 0)) 0

/-- Every type of R80's table. -/
def tagTypes : List TagType :=
  [.bool, .int8, .int16, .int32, .int64, .uint8, .uint16, .uint32, .uint64, .real32, .real64, .duration, .timestamp, .enum16, .bits64, .char8, .unitaddr]

/-- TYPE code of R80. -/
def typeCode : TagType → Nat
  | .bool => 1
  | .int8 => 2
  | .int16 => 3
  | .int32 => 4
  | .int64 => 5
  | .uint8 => 6
  | .uint16 => 7
  | .uint32 => 8
  | .uint64 => 9
  | .real32 => 10
  | .real64 => 11
  | .duration => 12
  | .timestamp => 13
  | .enum16 => 14
  | .bits64 => 15
  | .char8 => 16
  | .unitaddr => 17

/-- A tag's 32 bytes (R79). -/
def tagBytes (g : Tag) : List Byte :=
  leBytes 8 g.value.toNat ++ leBytes 8 g.ts.toNat ++ leBytes 2 g.quality.toNat ++ leBytes 1 g.source ++ leBytes 1 g.flags.toNat ++ leBytes 4 g.writer
    ++ leBytes 4 g.change ++ leBytes 1 g.type ++ zeros 3

/-- A unit address: unit id in bits 31:0, role epoch in bits 63:32 (R108). -/
def unitAddress (unit epoch : Nat) : DWord := BitVec.ofNat 64 (unit % 2 ^ 32 + epoch % 2 ^ 32 * 2 ^ 32)

/-- The unit id of a unit address. -/
def addressUnit (a : DWord) : Nat := a.toNat % 2 ^ 32

/-- The role epoch of a unit address. -/
def addressEpoch (a : DWord) : Nat := a.toNat / 2 ^ 32

/-- WORK code of R199. -/
def workCode : Work → Nat
  | .tagWrite .. => 1
  | .forceSet .. => 2
  | .forceRelease _ => 3
  | .forceReleaseAll => 4
  | .unitMessage .. => 5
  | .roleAssign .. => 6
  | .constantChange .. => 7
  | .exchangeRequest .. => 8
  | .exchangeAbandon _ => 9
  | .restart .. => 10
  | .roleExchange => 11

/-- The body of a work (R386). -/
def workBody : Work → List Byte
  | .tagWrite tag type given quality value =>
    leBytes 4 tag ++ leBytes 1 (typeCode type) ++ leBytes 1 (flagByte [given]) ++ leBytes 2 quality.toNat ++ leBytes 8 value.toNat
  | .forceSet tag type given quality value =>
    leBytes 4 tag ++ leBytes 1 (typeCode type) ++ leBytes 1 (flagByte [given]) ++ leBytes 2 quality.toNat ++ leBytes 8 value.toNat
  | .forceRelease tag => leBytes 4 tag
  | .forceReleaseAll => []
  | .unitMessage unit epoch kind free payload =>
    leBytes 8 (unitAddress unit epoch).toNat ++ leBytes 2 kind ++ leBytes 1 (flagByte [free]) ++ leBytes 1 payload.length ++ payload
  | .roleAssign unit role => leBytes 4 unit ++ leBytes 2 role ++ zeros 2
  | .constantChange digest task pairs =>
    hashBytes digest ++ leBytes 1 task ++ zeros 1 ++ leBytes 2 pairs.length ++ pairs.flatMap (fun p => leBytes 4 p.1 ++ leBytes 8 p.2.toNat)
  | .exchangeRequest digest alone clear restructure => hashBytes digest ++ leBytes 4 (flagByte [alone, clear, restructure])
  | .exchangeAbandon digest => hashBytes digest
  | .restart scope cold => leBytes 1 scope ++ leBytes 1 (flagByte [cold])
  | .roleExchange => []

/-- ORIGIN codes of R196. -/
def originCode : WbOrigin → Nat
  | .plant => 0
  | .service => 1
  | .program => 2

/-- State word codes of R198. -/
def wbCode : WbState → Nat
  | .localOnly => 1
  | .mirrored => 2
  | .unpartnered => 3
  | .expired => 4
  | .resubmitted => 5

/-- The state word: a code and its bitwise complement (R198). -/
def stateWord (x : WbState) : DWord := BitVec.ofNat 64 (wbCode x + (2 ^ 32 - 1 - wbCode x) * 2 ^ 32)

/-- What a state word reads as; halves that do not match, or an unknown code, read as LOCAL (R198). -/
def readStateWord (w : DWord) : WbState :=
  let code := w.toNat % 2 ^ 32
  if w.toNat / 2 ^ 32 ≠ 2 ^ 32 - 1 - code then .localOnly
  else if code = 2 then .mirrored
  else if code = 3 then .unpartnered
  else if code = 4 then .expired
  else if code = 5 then .resubmitted
  else .localOnly

/-- A journal entry of 128 bytes from its bytes 0x00 to 0x27, its state word and its bytes 0x30 to 0x7B: the check leaves the state word out. -/
def entryOfParts (head : List Byte) (word : DWord) (tail : List Byte) : List Byte :=
  let head := padTo 0x28 head
  let tail := padTo 0x4C tail
  head ++ leBytes 8 word.toNat ++ tail ++ leBytes 4 (crc32c (head ++ tail)).toNat

/-- A waybill entry (R196). -/
def waybillBytes (w : Waybill) : List Byte :=
  entryOfParts
    (leBytes 8 w.seq ++ leBytes 1 (if w.carried then 4 else 1) ++ leBytes 1 (originCode w.origin) ++ leBytes 2 (workCode w.work)
      ++ leBytes 1 (w.target.getD 0xFF) ++ leBytes 1 (flagByte [w.unpartnered]) ++ leBytes 1 w.cont ++ zeros 1 ++ leBytes 8 w.waybillSeq
      ++ leBytes 8 w.clientId ++ leBytes 8 w.clientSeq)
    (if w.wordBad then 0#64 else stateWord w.state) (leBytes 8 w.acceptTime.toNat ++ (workBody w.work).take 68)

/-- Continuation entry k, from 1 (R197). -/
def contBytes (w : Waybill) (k : Nat) : List Byte :=
  let body := padTo 0x7C (leBytes 8 (w.seq + k) ++ leBytes 1 2 ++ leBytes 1 k ++ zeros 6 ++ leBytes 8 w.waybillSeq
    ++ ((workBody w.work).drop (68 + 100 * (k - 1))).take 100)
  body ++ leBytes 4 (crc32c body).toNat

/-- A completion entry (R200). -/
def completionBytes (c : Completion) : List Byte :=
  entryOfParts
    (leBytes 8 c.seq ++ leBytes 1 3 ++ zeros 1 ++ leBytes 2 c.status ++ leBytes 1 (c.task.getD 0xFF) ++ zeros 3 ++ leBytes 8 c.waybillSeq
      ++ leBytes 8 c.clientId ++ leBytes 8 c.clientSeq)
    0#64 (leBytes 8 c.cycle ++ leBytes 64 c.result)

/-- A journal entry with its continuations. -/
def entryBytes : Entry → List Byte
  | .waybill w => waybillBytes w ++ (List.range w.cont).flatMap (fun k => contBytes w (k + 1))
  | .cont seq waybillSeq index body =>
    let b := padTo 0x7C (leBytes 8 seq ++ leBytes 1 2 ++ leBytes 1 index ++ zeros 6 ++ leBytes 8 waybillSeq ++ body)
    b ++ leBytes 4 (crc32c b).toNat
  | .completion c => completionBytes c

/-- A release mark of 32 bytes (R215): task, cycle number, delivery watermark, highest SEQ, CRC-32C. The task takes the four bytes that R215 leaves it. -/
def markBytes (task cycle watermark high : Nat) : List Byte :=
  let body := leBytes 4 task ++ leBytes 8 cycle ++ leBytes 8 watermark ++ leBytes 8 high
  body ++ leBytes 4 (crc32c body).toNat

/-- The 256-bit window map of a client (R206): bit k stands for sequence H − k. -/
def windowMap (c : ClientState) : Nat := (List.range 256).foldl (fun n k => if c.window.any (fun a => decide (a.seq + k = c.high)) then n + 2 ^ k else n) 0

/-- A client checkpoint (R206). R206 gives the fields and the closing CRC-32C, not their widths (assumption 8). -/
def checkpointBytes (seq : Nat) (clients : List (Nat × ClientState)) : List Byte :=
  let body := leBytes 8 seq ++ leBytes 4 clients.length
    ++ clients.flatMap (fun e => leBytes 8 e.1 ++ leBytes 8 e.2.high ++ leBytes 4 e.2.lastMinute ++ leBytes 32 (windowMap e.2))
  body ++ leBytes 4 (crc32c body).toNat

/-- A program state object as instance data: R227 gives length and bytes, not the layout of the state (assumption 8). -/
def objBytes (o : ObjState) : List Byte :=
  leBytes 8 o.sig.toNat ++ leBytes 1 (flagByte [o.running, o.done, o.out, o.fresh]) ++ zeros 3 ++ leBytes 8 o.acc ++ leBytes 8 o.preset
    ++ o.words.flatMap (fun w => leBytes 8 w.toNat)

/-- A unit message (R110). -/
def messageBytes (m : UnitMsg) : List Byte :=
  leBytes 8 (unitAddress m.sender m.senderEpoch).toNat ++ leBytes 4 m.writer ++ leBytes 8 (unitAddress m.unit m.epoch).toNat ++ leBytes 2 m.kind
    ++ leBytes 1 (flagByte [m.roleIndependent]) ++ leBytes 1 m.payload.length ++ m.payload

/-- A CAN transmit request (R402). -/
def canReqBytes (q : CanReq) : List Byte :=
  leBytes 2 q.handle ++ leBytes 4 q.ident ++ leBytes 1 (flagByte [q.extended, q.fdf, q.brs, q.rtr]) ++ leBytes 1 q.dlc ++ q.data

/-- KIND of a delta record (R227). What has no kind of its own there travels as instance data. -/
def recKind : DeltaRec → Nat
  | .tag .. => 1
  | .output .. => 3
  | .force .. => 4
  | .role .. => 5
  | .message .. => 6
  | .waybill _ => 7
  | .completion _ => 8
  | .overlay .. => 9
  | .mark .. => 0xA
  | .carry _ => 0xB
  | .supply .. => 0xC
  | .data .. => 2
  | .sbx .. => 2
  | .canRequest .. => 2
  | .canOutcome .. => 2
  | .returnsTaken .. => 2
  | .messageTaken .. => 2
  | .messageGone .. => 2
  | .returnEntry .. => 2
  | .pub .. => 2

/-- Body of a delta record; widths that R227 leaves open are those of the things themselves (assumption 8). -/
def recBody : DeltaRec → List Byte
  | .tag i g => leBytes 4 i ++ tagBytes g
  | .data p o => let b := objBytes o; leBytes 4 p ++ leBytes 4 b.length ++ b
  | .sbx a v => leBytes 4 a ++ leBytes 4 4 ++ leBytes 4 v.toNat
  | .canRequest p t q => leBytes 1 p ++ leBytes 1 t ++ canReqBytes q
  | .canOutcome t h => leBytes 1 t ++ leBytes 2 h
  | .returnsTaken t n => leBytes 1 t ++ leBytes 4 n
  | .output c v => leBytes 4 c ++ leBytes 4 v
  | .force t none => leBytes 4 t
  | .force t (some f) => leBytes 4 t ++ leBytes 8 f.value.toNat ++ leBytes 2 f.quality.toNat ++ leBytes 1 (flagByte [f.orphan, f.unsync]) ++ zeros 1 ++ tagBytes f.under
  | .role u x => leBytes 4 u ++ leBytes 2 x.role ++ zeros 2 ++ leBytes 4 x.epoch
  | .message t m => leBytes 1 t ++ messageBytes m
  | .messageTaken t n => leBytes 1 t ++ leBytes 4 n
  | .messageGone t m => leBytes 1 t ++ messageBytes m
  | .returnEntry t k c d q => leBytes 1 t ++ leBytes 1 k ++ leBytes 2 c ++ leBytes 4 d ++ leBytes 8 q
  | .waybill w => entryBytes (.waybill w)
  | .completion c => completionBytes c
  | .overlay i v => leBytes 4 i ++ leBytes 8 v.toNat
  | .mark c w h => leBytes 8 c ++ leBytes 8 w ++ leBytes 8 h
  | .carry c => leBytes 4 c.toNat
  | .supply c mv => leBytes 4 c ++ leBytes 4 mv
  | .pub p st sq => leBytes 4 p ++ leBytes 4 st ++ leBytes 4 sq

/-- A record: KIND, FLAGS 0, LEN of the body, and the body padded to a multiple of 4 (R227). -/
def recBytes (r : DeltaRec) : List Byte :=
  let b := recBody r
  leBytes 1 (recKind r) ++ zeros 1 ++ leBytes 2 b.length ++ padTo ((b.length + 3) / 4 * 4) b

/-- Every record of a delta but END. -/
def deltaBytes (l : List DeltaRec) : List Byte := l.flatMap recBytes

/-- The check of a delta: CRC-32C over all its records but END (R227). -/
def deltaCrc (l : List DeltaRec) : Word := crc32c (deltaBytes l)

/-- KIND codes of coupling frames (R224). -/
def frameKinds : List Nat := [0x00, 0x01, 0x02, 0x10, 0x11, 0x20, 0x21, 0x30, 0x31, 0x32, 0x33, 0x40, 0x41, 0x42, 0x43, 0x50, 0x51, 0x52, 0x53, 0x54]

/-- Priority class of a kind (R224). -/
def frameClass (kind : Nat) : Nat :=
  if kind = 0x10 then 1 else if kind = 0x20 then 2 else if kind = 0x30 ∨ kind = 0x41 ∨ kind = 0x42 then 3 else 0

/-- The 60-byte header of a coupling frame (R223). -/
def headerBytes (h : FrameHdr) (len : Nat) : List Byte :=
  leBytes 1 h.kind ++ leBytes 1 (flagByte [h.first, h.last, h.stale]) ++ leBytes 2 len ++ leBytes 4 h.linkSeq ++ leBytes 4 h.ack ++ leBytes 4 h.session
    ++ leBytes 1 h.state ++ leBytes 1 (flagByte [h.slotB]) ++ leBytes 1 (h.task.getD 0xFF) ++ zeros 1 ++ leBytes 2 h.chunk ++ leBytes 2 h.chunks
    ++ leBytes 8 h.cycle ++ leBytes 8 h.closeSeq ++ leBytes 8 h.jrnHead ++ leBytes 8 h.pairTag ++ zeros 4

/-- A frame with its check. -/
def sealFrame (h : FrameHdr) (payload : List Byte) : LinkHdr := ⟨h, payload, crc32c (headerBytes h payload.length ++ payload)⟩

/-- The 64 KiB of a page (R235): 2,048 tags of 32 bytes, or a part of the live program bank, whose layout is taken as that of the delta's records
(assumption 8). -/
def pageBytes (p : Page) : List Byte :=
  if p.number < 512 then (List.range 2048).flatMap (fun i => tagBytes ((findKey p.tags (2048 * p.number + i)).getD Tag.zero))
  else padTo 65536 (p.objects.flatMap (fun o => recBytes (.data o.1 o.2)) ++ p.sbx.flatMap (fun x => recBytes (.sbx x.1 x.2)))

/-- The last frame of a page: the page number and a CRC-32C over the page (R235). -/
def pageTail (p : Page) : List Byte := leBytes 4 p.number ++ leBytes 4 (crc32c (pageBytes p)).toNat

/-- The check of a received frame verifies: CRC-32C over header and payload (R223). -/
def frameCrcOk (f : LinkHdr) : Bool := decide (f.crc = crc32c (headerBytes f.hdr f.payload.length ++ f.payload))

/-! Messages of the Derent Plant Protocol (R380). -/

/-- Header of a message before its CRC. -/
def dppHead (magic version kind len session reqId reply detail : Nat) : List Byte :=
  leBytes 4 magic ++ leBytes 1 version ++ leBytes 1 kind ++ leBytes 2 len ++ leBytes 4 session ++ leBytes 4 reqId ++ leBytes 2 reply ++ leBytes 2 detail ++ zeros 8

/-- The check value of a message: over its header and its payload. -/
def dppCrc (magic version kind session reqId reply detail : Nat) (payload : List Byte) : Word :=
  crc32c (dppHead magic version kind payload.length session reqId reply detail ++ payload)

/-- A whole message that the module sends. -/
def dppMessage (kind session reqId reply detail : Nat) (payload : List Byte) : List Byte :=
  dppHead 0x50445244 1 kind payload.length session reqId reply detail ++ leBytes 4 (dppCrc 0x50445244 1 kind session reqId reply detail payload).toNat ++ payload

/-- A received message of one kind that is not discarded: MAGIC, VERSION and CRC stand, and its length is within bounds (R378, R380). -/
def dppOk (kind : Nat) (r : Req) : Bool :=
  decide (r.magic = 0x50445244#32) && decide (r.version = 1) && decide (r.kind = kind) && decide (r.payload.length ≤ 1152)
    && decide (r.crc = dppCrc r.magic.toNat r.version r.kind r.session r.reqId r.reply r.detail r.payload)

/-- A request with its check value. -/
def sealReq (kind session reqId : Nat) (payload : List Byte) : Req :=
  { magic := 0x50445244#32, version := 1, kind := kind, session := session, reqId := reqId, reply := 0, detail := 0, payload := payload,
    crc := dppCrc 0x50445244 1 kind session reqId 0 0 payload }

end Sys2Proof.Machine
end

