-- ==== Sys2Proof/Machine/KeyImage.lean ====
section
/-! DEFINITION. The slot key and the configuration image as bytes (R50 to R56): areas, records, the image header, sections, check values,
digest and signatures. -/

namespace Sys2Proof.Machine

/-! The slot key (R50, R51). -/

/-- An area of the key: offset and size in bytes. -/
structure KeyArea where
  offset : Nat
  size : Nat
  deriving DecidableEq, Repr

def keyHeaderArea : KeyArea := ⟨0, 4096⟩
def slotRecordArea : KeyArea := ⟨0x1000, 256⟩
def pairRecordArea : KeyArea := ⟨0x2000, 256⟩
def reservedArea : KeyArea := ⟨0x3000, 1012 * 1024⟩
def imageCopy1Area : KeyArea := ⟨0x100000, 65024 * 1024⟩
def imageCopy2Area : KeyArea := ⟨0x4080000, 65024 * 1024⟩

/-- An area whose listed bytes are l: every other byte before its check value is 0 (R51). -/
def keyArea (a : KeyArea) (l : List Byte) : List Byte := l ++ zeros (a.size - 4 - l.length)

/-- The key header before KEY_CRC. -/
def keyHeaderBytes (k : SlotKey) : List Byte :=
  keyArea keyHeaderArea (leBytes 4 k.magic.toNat ++ leBytes 2 k.format ++ zeros 2 ++ leBytes 8 k.serial.toNat)

/-- The slot record before SLOT_CRC. -/
def slotRecordBytes (k : SlotKey) : List Byte :=
  keyArea slotRecordArea (leBytes 1 k.slotCode ++ leBytes 1 k.carrierCode ++ zeros 6 ++ leBytes 8 k.carrierSerial.toNat ++ leBytes 64 k.slotName)

/-- The pair record before PAIR_CRC. -/
def pairRecordBytes (k : SlotKey) : List Byte :=
  keyArea pairRecordArea (leBytes 16 k.pairId ++ leBytes 8 k.projectId.toNat ++ zeros 8 ++ leBytes 64 k.pairName)

def keyCrcOk (k : SlotKey) : Bool := decide (k.keyCrc = crc32c (keyHeaderBytes k))
def slotCrcOk (k : SlotKey) : Bool := decide (k.slotCrc = crc32c (slotRecordBytes k))
def pairCrcOk (k : SlotKey) : Bool := decide (k.pairCrc = crc32c (pairRecordBytes k))

/-! The configuration image (R52, R53). -/

/-- One of the 27 section entries. -/
def sectionBytes (x : Section) : List Byte := leBytes 2 x.kind ++ zeros 2 ++ leBytes 4 x.offset ++ leBytes 4 x.length ++ leBytes 4 x.crc.toNat

/-- Bytes 0x000 to 0x1FB of the header. -/
def imageHeaderBytes (i : Image) : List Byte :=
  let table := i.sections.flatMap sectionBytes
  leBytes 4 i.magic.toNat ++ leBytes 2 i.format ++ leBytes 2 i.headerLen ++ leBytes 4 i.imageLen ++ leBytes 2 i.sectionCount ++ zeros 2
    ++ leBytes 8 i.projectId.toNat ++ leBytes 4 i.revision ++ leBytes 1 i.variant ++ zeros 3 ++ leBytes 16 i.pairId ++ leBytes 8 i.buildTime.toNat
    ++ leBytes 4 i.sigOffset ++ leBytes 4 i.sigLen ++ table ++ zeros (432 - table.length) ++ zeros 12

/-- The image as it lies in a copy of the key. -/
def imageBytes (i : Image) : List Byte := imageHeaderBytes i ++ leBytes 4 i.headerCrc.toNat ++ i.body

/-- The bytes of a section. -/
def sectionData (i : Image) (x : Section) : List Byte := (i.body.drop (x.offset - 0x200)).take x.length

/-- Two byte ranges, each an offset and a length, share no byte. -/
def apart (a b : Nat × Nat) : Bool := decide (a.1 + a.2 ≤ b.1) || decide (b.1 + b.2 ≤ a.1)

/-- No two ranges of a list share a byte. -/
def allApart : List (Nat × Nat) → Bool
  | [] => true
  | a :: l => l.all (apart a) && allApart l

/-- The section table agrees with R53: entries counted, offsets multiples of 64, nothing overlapping the header, the signature block or another
section, all within IMAGE_LEN (R56). -/
def sectionTableOk (i : Image) : Bool :=
  decide (1 ≤ i.sectionCount) && decide (i.sectionCount ≤ 27) && decide (i.sectionCount = i.sections.length) && decide (i.sigOffset % 4 = 0)
    && i.sections.all (fun x => decide (x.offset % 64 = 0) && decide (x.offset + x.length ≤ i.imageLen)) && decide (i.sigOffset + i.sigLen ≤ i.imageLen)
    && allApart ((0, 0x200) :: (i.sigOffset, i.sigLen) :: i.sections.map (fun x => (x.offset, x.length)))

/-- The section kinds every image holds (R53). -/
def requiredKinds : List Nat := [1, 2, 3, 4, 5, 6, 7, 8, 0xB, 0xC]

/-- Length of a section, 0 where the image has none of the kind. -/
def sectionLen (i : Image) (kind : Nat) : Nat := match i.sections.find? (fun x => decide (x.kind = kind)) with | some x => x.length | none => 0

/-- The configuration digest: SHA-384 over bytes 0 to SIG_OFFSET − 1 (R55). -/
def imageDigest (i : Image) : Nat := sha384 ((imageBytes i).take i.sigOffset)

/-- The SHA-384 hash of a P-384 public key in the encoding of OWNER_KEY, an uncompressed SEC1 point (R470, R471). -/
def keyHash (key : Nat × Nat) : Nat := sha384 (0x04#8 :: beBytes 48 key.1 ++ beBytes 48 key.2)

/-- A certificate's signature verifies under an issuer's key. -/
def certOk (issuer : Nat × Nat) (c : Cert) : Bool := ecdsaVerify issuer (sha384 c.signed) c.sig

/-- The checks of R56 on the bytes of an image: layout, check values, sections, digest and signatures. -/
def imageFileOk (i : Image) : Bool :=
  decide (i.magic = 0x49435244#32) && decide (i.format = 1) && decide (i.headerLen = 0x200) && decide (i.imageLen ≤ imageCopy1Area.size)
    && sectionTableOk i && decide (i.headerCrc = crc32c (imageHeaderBytes i)) && i.sections.all (fun x => decide (x.crc = crc32c (sectionData i x)))
    && requiredKinds.all (fun k => i.sections.any (fun x => decide (x.kind = k))) && decide (i.digest = imageDigest i)
    && ecdsaVerify i.projectCert.key i.digest i.sig && certOk i.ownerCert.key i.projectCert

end Sys2Proof.Machine
end

