-- ==== Sys2Proof/Machine/Lms.lean ====
section
/-! DEFINITION. The hash-based signatures the manual takes from RFC 8554: LMS_SHA256_M32_H20 with LMOTS_SHA256_N32_W4 (R454, R473), their
verification, and the two-level HSS signature whose secrets stay in the crypto engine. -/

namespace Sys2Proof.Machine

/-- SHA-256 as 32 bytes. -/
def sha256Bytes (l : List Byte) : List Byte := beBytes 32 (sha256 l)

/-- Type codes of RFC 8554: LMS with SHA-256, 32 bytes, height 20; LM-OTS with SHA-256, 32 bytes, w 4. -/
def lmsType : Nat := 8
def otsType : Nat := 3

/-- Height of a tree, and hash chains of a one-time signature. -/
def lmsHeight : Nat := 20
def otsChains : Nat := 67

/-- A leaf of a tree: the tree's identifier of 16 bytes, and the leaf's number. -/
structure LmsLeaf where
  id : List Byte
  q : Nat
  deriving DecidableEq, Repr

/-- The bytes with which every hash about a leaf begins. -/
def LmsLeaf.head (a : LmsLeaf) : List Byte := a.id ++ beBytes 4 a.q

/-- Half-bytes of a byte sequence, the high one first. -/
def nibbles (l : List Byte) : List Nat := l.flatMap (fun b => [b.toNat / 16, b.toNat % 16])

/-- The 67 digits that a hash signs: its half-bytes, then those of their checksum. -/
def otsDigits (hash : List Byte) : List Nat :=
  let d := nibbles hash
  d ++ (nibbles (beBytes 2 ((d.map (fun x => 15 - x)).foldl (· + ·) 0 * 16))).take 3

/-- The hash of a message that a leaf signs, with its randomiser. -/
def otsHash (a : LmsLeaf) (random message : List Byte) : List Byte := sha256Bytes (a.head ++ beBytes 2 0x8181 ++ random ++ message)

/-- n steps of chain i from position j. -/
def otsChain (a : LmsLeaf) (i : Nat) : Nat → Nat → List Byte → List Byte
  | 0, _, x => x
  | n + 1, j, x => otsChain a i n (j + 1) (sha256Bytes (a.head ++ beBytes 2 i ++ beBytes 1 j ++ x))

/-- The public value of a one-time key from the ends of its chains. -/
def otsPublic (a : LmsLeaf) (ends : List (List Byte)) : List Byte := sha256Bytes (a.head ++ beBytes 2 0x8080 ++ ends.flatten)

/-- l cut into n parts of 32 bytes. -/
def parts32 : Nat → List Byte → List (List Byte)
  | 0, _ => []
  | n + 1, l => l.take 32 :: parts32 n (l.drop 32)

/-- A leaf's node, and an inner node from its two children. -/
def lmsLeafNode (id : List Byte) (node : Nat) (key : List Byte) : List Byte := sha256Bytes (id ++ beBytes 4 node ++ beBytes 2 0x8282 ++ key)
def lmsInner (id : List Byte) (node : Nat) (left right : List Byte) : List Byte := sha256Bytes (id ++ beBytes 4 node ++ beBytes 2 0x8383 ++ left ++ right)

/-- The root that a node and its path lead to. -/
def lmsClimb (id : List Byte) : Nat → List Byte → List (List Byte) → List Byte
  | _, x, [] => x
  | node, x, p :: path => lmsClimb id (node / 2) (if node % 2 = 1 then lmsInner id (node / 2) p x else lmsInner id (node / 2) x p) path

/-- An LMS signature of 2,828 bytes over a message verifies under a public key of 56 bytes. -/
def lmsVerify (key message sig : List Byte) : Bool :=
  let id := (key.drop 8).take 16
  let q := beNat (sig.take 4)
  let a : LmsLeaf := ⟨id, q⟩
  let random := (sig.drop 8).take 32
  let ends := ((otsDigits (otsHash a random message)).zip (parts32 otsChains (sig.drop 40))).zipIdx.map (fun e => otsChain a e.2 (15 - e.1.1) e.1.1 e.1.2)
  let node := 2 ^ lmsHeight + q
  decide (key.length = 56) && decide (sig.length = 2828) && decide (beNat (key.take 4) = lmsType) && decide (beNat ((key.drop 4).take 4) = otsType)
    && decide (beNat ((sig.drop 4).take 4) = otsType) && decide (beNat ((sig.drop 2184).take 4) = lmsType) && decide (q < 2 ^ lmsHeight)
    && decide (lmsClimb id node (lmsLeafNode id node (otsPublic a ends)) (parts32 lmsHeight (sig.drop 2188)) = key.drop 24)

/-! The module's HSS key (R473). Tree 0 is the top tree, tree t + 1 the bottom tree of top leaf t; a seed and a randomiser stay in the die. -/

/-- A tree's identifier and its seed, which the crypto engine derives from its fused secret. -/
def hssId (tree : Nat) : List Byte := beBytes 16 (Config.hssId tree)
def hssSeed (tree : Nat) : List Byte := beBytes 32 (Config.hssSeed tree)

/-- The start of chain i of a leaf (RFC 8554, Appendix A). -/
def otsSecret (tree q i : Nat) : List Byte := sha256Bytes (hssId tree ++ beBytes 4 q ++ beBytes 2 i ++ [0xFF#8] ++ hssSeed tree)

/-- The public value of a leaf's one-time key. -/
def otsOwn (tree q : Nat) : List Byte :=
  let a : LmsLeaf := ⟨hssId tree, q⟩
  otsPublic a ((List.range otsChains).map (fun i => otsChain a i 15 0 (otsSecret tree q i)))

/-- Node r at a height above the leaves of a tree, r counted from the left. -/
def hssNode (tree : Nat) : Nat → Nat → List Byte
  | 0, r => lmsLeafNode (hssId tree) (2 ^ lmsHeight + r) (otsOwn tree r)
  | k + 1, r => lmsInner (hssId tree) (2 ^ (lmsHeight - (k + 1)) + r) (hssNode tree k (2 * r)) (hssNode tree k (2 * r + 1))

/-- A tree's public key of 56 bytes. -/
def hssTreeKey (tree : Nat) : List Byte := beBytes 4 lmsType ++ beBytes 4 otsType ++ hssId tree ++ hssNode tree lmsHeight 0

/-- The LMS signature of a leaf of a tree, with its randomiser. -/
def hssTreeSign (tree q : Nat) (random message : List Byte) : List Byte :=
  let a : LmsLeaf := ⟨hssId tree, q⟩
  let body := (otsDigits (otsHash a random message)).zipIdx.flatMap (fun e => otsChain a e.2 e.1 0 (otsSecret tree q e.2))
  let path := (List.range lmsHeight).flatMap (fun k => hssNode tree k ((q / 2 ^ k) ^^^ 1))
  beBytes 4 q ++ beBytes 4 otsType ++ random ++ body ++ beBytes 4 lmsType ++ path

/-- The HSS signature of leaf q over a message (R473): one signed public key, the top leaf's signature over the bottom tree's key, that key, and the bottom leaf's
signature. The top leaf's randomiser depends on the key and the leaf alone; the bottom leaf's is drawn for the signature. -/
def hssSign (q : Nat) (random message : List Byte) : List Byte :=
  let top := q / 2 ^ lmsHeight
  let key := hssTreeKey (top + 1)
  beBytes 4 1 ++ hssTreeSign 0 top (beBytes 32 (Config.hssRandom 0 top)) key ++ key ++ hssTreeSign (top + 1) (q % 2 ^ lmsHeight) random message

end Sys2Proof.Machine
end

