-- ==== Sys2Proof/Machine/Firmware.lean ====
section
/-! DEFINITION. Firmware images as the loader reads them (R449, R452 to R455). -/

namespace Sys2Proof

open Sys2Proof.Machine

/-- The number that n bytes of an image at an offset stand for. -/
def FwImage.num (f : FwImage) (off n : Nat) : Nat := leNat ((f.bytes.drop off).take n)

/-! Header fields (R452). -/

def FwImage.magic (f : FwImage) : Nat := f.num 0 4
def FwImage.format (f : FwImage) : Nat := f.num 4 2
def FwImage.region (f : FwImage) : Nat := f.num 6 1
def FwImage.variants (f : FwImage) : Nat := f.num 7 1
def FwImage.version (f : FwImage) : Nat := f.num 8 4
def FwImage.blocks (f : FwImage) : Nat := f.num 0xC 4
def FwImage.minLoader (f : FwImage) : Nat := f.num 0x10 4
def FwImage.rollback (f : FwImage) : Nat := f.num 0x14 2
def FwImage.sigLen (f : FwImage) : Nat := f.num 0x30 4
def FwImage.headerCrc (f : FwImage) : Nat := f.num 0x1FC 4

/-- FORMATS: the pairs in use, each a structure code and a format code. -/
def FwImage.formats (f : FwImage) : List (Nat × Nat) :=
  ((List.range 8).map (fun k => (f.num (0x20 + 2 * k) 1, f.num (0x21 + 2 * k) 1))).filter (fun e => decide (e.1 ≠ 0))

/-- Header and blocks (R453). -/
def FwImage.body (f : FwImage) : List Byte := f.bytes.take (512 + 4096 * f.blocks)

/-- The image digest D. -/
def FwImage.digest (f : FwImage) : Nat := sha384 f.body

/-- Every block's check value (R453). -/
def FwImage.blocksOk (f : FwImage) : Bool :=
  (List.range f.blocks).all (fun k =>
    let block := (f.bytes.drop (512 + 4096 * k)).take 4096
    decide (block.length = 4096) && decide (crc32c (block.take 4092) = BitVec.ofNat 32 (leNat (block.drop 4092))))

/-! The signature block (R454). -/

def FwImage.sigBlock (f : FwImage) : List Byte := f.bytes.drop (512 + 4096 * f.blocks)
def FwImage.sigMagic (f : FwImage) : Nat := leNat (f.sigBlock.take 4)
def FwImage.certLen (f : FwImage) : Nat := leNat ((f.sigBlock.drop 4).take 2)
def FwImage.ecdsaSig (f : FwImage) : Nat × Nat := (beNat ((f.sigBlock.drop 8).take 48), beNat ((f.sigBlock.drop 0x38).take 48))
def FwImage.lmsSig (f : FwImage) : List Byte := (f.sigBlock.drop 0x68).take 2828
def FwImage.certBytes (f : FwImage) : List Byte := (f.sigBlock.drop 0xB74).take f.certLen

/-- The certificate is the one its bytes spell: what is signed lies inside them, after the outer header. -/
def FwImage.certSpelled (f : FwImage) : Bool := decide (f.cert.signed ≠ []) && decide ((f.certBytes.drop 4).take f.cert.signed.length = f.cert.signed)

/-- The lengths of the signature block agree, and the file ends with it (assumption 129). -/
def FwImage.lengthsOk (f : FwImage) : Bool :=
  decide (f.sigMagic = 0x47535746) && decide (1 ≤ f.certLen) && decide (f.certLen ≤ 2048) && decide (f.sigLen = (0xB74 + f.certLen + 3) / 4 * 4)
    && decide (f.bytes.length = 512 + 4096 * f.blocks + f.sigLen)

/-- The first row of R455's table; fixed and foreign give the structures of FORMATS that belong to no region and to another one. -/
def FwImage.headerOk (f : FwImage) (region : Nat) (foreign : Nat → Bool) : Bool :=
  decide (f.magic = 0x4D574644) && decide (f.format = 1) && decide (f.region = region) && decide (1 ≤ f.blocks)
    && decide (crc32c (f.bytes.take 0x1FC) = BitVec.ofNat 32 f.headerCrc) && f.lengthsOk && f.formats.all (fun e => !foreign e.1)

end Sys2Proof
end

