-- ==== Sys2Proof/Machine/Flt.lean ====
section
/-! DEFINITION. IEEE 754 binary32 and binary64 arithmetic, rounding to nearest, ties to even, as the conversion chain
(R305 to R308), the scaled mappings (R371, R400) and the bounds of constants (R141) use it. -/

namespace Sys2Proof.Machine

/-- A floating-point datum taken apart: value (-1)^neg × m × 2^e. -/
inductive Flt where
  | nan
  | inf (neg : Bool)
  | fin (neg : Bool) (m : Nat) (e : Int)
  deriving DecidableEq, Repr

/-- Take apart a format of mb mantissa bits and eb exponent bits. -/
def Flt.decode (mb eb n : Nat) : Flt :=
  let neg := n / 2 ^ (mb + eb) % 2 = 1
  let ex := n / 2 ^ mb % 2 ^ eb
  let f := n % 2 ^ mb
  let bias : Int := 2 ^ (eb - 1) - 1
  if ex = 2 ^ eb - 1 then (if f = 0 then .inf (decide neg) else .nan)
  else if ex = 0 then .fin (decide neg) f (1 - bias - mb)
  else .fin (decide neg) (2 ^ mb + f) ((ex : Int) - bias - mb)

/-- num/den × 2^e as an exact quotient with all powers of two on one side. -/
def scaleUp (num den : Nat) (e : Int) : Nat × Nat :=
  if 0 ≤ e then (num * 2 ^ e.toNat, den) else (num, den * 2 ^ (-e).toNat)

/-- Round num/den to nearest, ties to even. -/
def roundDiv (num den : Nat) : Nat :=
  let q := num / den
  let r := num % den
  if den < 2 * r then q + 1 else if den = 2 * r then q + q % 2 else q

/-- The datum nearest to (-1)^neg × num/den, in a format of mb mantissa and eb exponent bits. -/
def Flt.encode (mb eb : Nat) (neg : Bool) (num den : Nat) : Nat :=
  let s := if neg then 2 ^ (mb + eb) else 0
  if num = 0 then s
  else
    let bias : Int := 2 ^ (eb - 1) - 1
    let k : Int := (Nat.log2 num : Int) - (Nat.log2 den : Int)
    let lt : Bool := let (a, b) := scaleUp num den (-k); decide (a < b)
    let ex : Int := if lt then k - 1 else k
    let emin : Int := 1 - bias
    let e0 : Int := if ex < emin then emin else ex
    let (a, b) := scaleUp num den (-(e0 - mb))
    let q := roundDiv a b
    let field : Nat := if q < 2 ^ mb then q else (e0 - emin).toNat * 2 ^ mb + q
    if (2 ^ eb - 1) * 2 ^ mb ≤ field then s + (2 ^ eb - 1) * 2 ^ mb else s + field

/-- Encode a datum. -/
def Flt.pack (mb eb : Nat) : Flt → Nat
  | .nan => (2 ^ eb - 1) * 2 ^ mb + 2 ^ (mb - 1)
  | .inf neg => (if neg then 2 ^ (mb + eb) else 0) + (2 ^ eb - 1) * 2 ^ mb
  | .fin neg m e => let (a, b) := scaleUp m 1 e; Flt.encode mb eb neg a b

/-- The signed rational (numerator, denominator) of a finite datum. -/
def Flt.rat : Flt → Int × Nat
  | .fin neg m e => let (a, b) := scaleUp m 1 e; (if neg then -(a : Int) else (a : Int), b)
  | _ => (0, 1)

/-- Encode a signed rational as binary64. -/
def f64OfRat (n : Int) (d : Nat) : DWord := BitVec.ofNat 64 (Flt.encode 52 11 (decide (n < 0)) n.natAbs d)

def f64 (w : DWord) : Flt := Flt.decode 52 11 w.toNat
def f32 (w : Nat) : Flt := Flt.decode 23 8 w

def Flt.isFinite : Flt → Bool
  | .fin _ _ _ => true
  | _ => false

def Flt.isNan : Flt → Bool
  | .nan => true
  | _ => false

/-- A binary64 operation on two data: exact on rationals and rounded once; a non-finite operand or a zero divisor yields NaN
here, and the caller treats a non-finite result as its rule says. -/
def f64Bin (op : (Int × Nat) → (Int × Nat) → Option (Int × Nat)) (a b : DWord) : DWord :=
  match f64 a, f64 b with
  | .fin na ma ea, .fin nb mb eb =>
    match op (Flt.rat (.fin na ma ea)) (Flt.rat (.fin nb mb eb)) with
    | some (n, d) => f64OfRat n d
    | none => BitVec.ofNat 64 (Flt.pack 52 11 .nan)
  | _, _ => BitVec.ofNat 64 (Flt.pack 52 11 .nan)

def f64Add : DWord → DWord → DWord := f64Bin (fun a b => some (a.1 * b.2 + b.1 * a.2, a.2 * b.2))
def f64Sub : DWord → DWord → DWord := f64Bin (fun a b => some (a.1 * b.2 - b.1 * a.2, a.2 * b.2))
def f64Mul : DWord → DWord → DWord := f64Bin (fun a b => some (a.1 * b.1, a.2 * b.2))
def f64Div (a b : DWord) : DWord :=
  let q := f64Bin (fun a b => if b.1 = 0 then none else some (if b.1 < 0 then -(a.1 * b.2) else a.1 * b.2, a.2 * b.1.natAbs)) a b
  match f64 a, f64 b with
  | .fin na ma _, .fin nb 0 _ => if ma = 0 then q else BitVec.ofNat 64 (Flt.pack 52 11 (.inf (na != nb)))
  | _, _ => q

/-- Integer square root, one result bit a step. -/
def isqrtGo : Nat → Nat → Nat → Nat
  | 0, _, r => r
  | k + 1, n, r => let c := r + 2 ^ k; if c * c ≤ n then isqrtGo k n c else isqrtGo k n r

/-- floor of the square root of n. -/
def isqrt (n : Nat) : Nat := isqrtGo (Nat.log2 n / 2 + 1) n 0

/-- binary64 square root; a negative or non-finite operand yields NaN. -/
def f64Sqrt (a : DWord) : DWord :=
  match f64 a with
  | .fin false m e =>
    let (m', e') := if e % 2 = 0 then (m, e) else (2 * m, e - 1)
    let n := m' * 2 ^ 128
    let r := isqrt n
    let (num, den) := scaleUp (2 * r + (if r * r = n then 0 else 1)) 1 (e' / 2 - 65)
    BitVec.ofNat 64 (Flt.encode 52 11 false num den)
  | .fin true 0 _ => a
  | _ => BitVec.ofNat 64 (Flt.pack 52 11 .nan)

/-- Order of two binary64 data; none where one is NaN. Infinities order outside every finite datum. -/
def fltLt : Flt → Flt → Bool
  | .nan, _ => false
  | _, .nan => false
  | .inf na, .inf nb => na && !nb
  | .inf na, _ => na
  | _, .inf nb => !nb
  | a, b => let x := Flt.rat a; let y := Flt.rat b; decide (x.1 * y.2 < y.1 * x.2)

def f64Lt (a b : DWord) : Bool := fltLt (f64 a) (f64 b)
def f64Le (a b : DWord) : Bool := !(f64 a).isNan && !(f64 b).isNan && !f64Lt b a
def f64IsFinite (a : DWord) : Bool := (f64 a).isFinite
def f64Neg (a : DWord) : DWord := a ^^^ 0x8000000000000000#64
def f64Abs (a : DWord) : DWord := a &&& 0x7FFFFFFFFFFFFFFF#64

/-- An integer as binary64. -/
def f64OfInt (n : Int) : DWord := f64OfRat n 1

/-- A binary64 datum as the nearest binary32 datum. -/
def f32OfF64 (a : DWord) : Nat := Flt.pack 23 8 (f64 a)

/-- A binary32 datum as binary64. -/
def f64OfF32 (n : Nat) : DWord := BitVec.ofNat 64 (Flt.pack 52 11 (f32 n))

/-- The integer nearest to a finite binary64 datum, ties to even; 0 for a non-finite one. -/
def f64ToInt (a : DWord) : Int :=
  let (n, d) := (f64 a).rat
  if n < 0 then -(roundDiv n.natAbs d : Int) else (roundDiv n.natAbs d : Int)

end Sys2Proof.Machine
end

