-- ==== Sys2Proof/Machine/Fields.lean ====
section
/-! DEFINITION. Register fields and event bits as data: where a field lies in the register window (R9) and which bit of which
event register an event sets (R417). -/

namespace Sys2Proof.Machine

/-- A register field: byte address of its register, lowest bit, width. -/
structure Fld where
  addr : Nat
  lo : Nat
  w : Nat
  deriving DecidableEq, Repr

/-- An event bit: byte address of its event register, bit. -/
structure EvBit where
  addr : Nat
  bit : Nat
  deriving DecidableEq, Repr

/-- Access codes of R12 (SQC registers are treated whole). -/
inductive Acc where
  | ro | rw | rwb | wo | sqc
  deriving DecidableEq, Repr

/-- The key of a field in the bank. -/
def Fld.key (f : Fld) : Nat := 32 * f.addr + f.lo

end Sys2Proof.Machine
end

