-- ==== Sys2Proof/Machine/RegFields.lean ====
section
/-! DEFINITION. The register fields and event bits the meanings name, at the addresses, bits and widths of the register chapters:
Reg.R_F is field F of register R, Ev.B_F the event bit F of block B. An indexed register takes its indexes as arguments. -/

namespace Sys2Proof.Machine

def Ev.PWR_MOD1_LOST : EvBit := ⟨0x1A0004, 0⟩
def Ev.PWR_MOD2_LOST : EvBit := ⟨0x1A0004, 1⟩
def Ev.PWR_FLD1_LOST : EvBit := ⟨0x1A0004, 2⟩
def Ev.PWR_FLD2_LOST : EvBit := ⟨0x1A0004, 3⟩
def Ev.PWR_FLD1_OVERLOAD : EvBit := ⟨0x1A0004, 4⟩
def Ev.PWR_FLD2_OVERLOAD : EvBit := ⟨0x1A0004, 5⟩
def Ev.PWR_HOLDUP_ENTERED : EvBit := ⟨0x1A0004, 6⟩
def Ev.PWR_LEVER_OPENED : EvBit := ⟨0x1A0004, 7⟩
def Ev.PWR_RES_WEAK : EvBit := ⟨0x1A0004, 8⟩
def Reg.PWR_RESERVOIR_RES_MV : Fld := ⟨0x1A0014, 0, 16⟩
def Reg.PWR_RESERVOIR_RES_HEALTH : Fld := ⟨0x1A0014, 16, 8⟩
def Reg.PWR_RESERVOIR_HOLDUP_MS : Fld := ⟨0x1A0014, 24, 8⟩
def Reg.PWR_DISS_DISS_CW : Fld := ⟨0x1A0018, 0, 16⟩
def Reg.EXEC_STATUS_LANES_RETIRED : Fld := ⟨0x20000, 8, 5⟩
def Reg.EXEC_CTRL_LOAD_ALARM_PCT : Fld := ⟨0x20004, 8, 7⟩
def Ev.EXEC_LOAD_HIGH : EvBit := ⟨0x20008, 0⟩
def Ev.EXEC_PACE_LOW : EvBit := ⟨0x20008, 1⟩
def Ev.EXEC_PACE_BELOW_GUARANTEE : EvBit := ⟨0x20008, 2⟩
def Ev.EXEC_LANE_MIGRATED : EvBit := ⟨0x20008, 3⟩
def Ev.EXEC_SPARE_LOST : EvBit := ⟨0x20008, 4⟩
def Ev.EXEC_DELIVERY_DEFERRED : EvBit := ⟨0x20008, 5⟩
def Ev.EXEC_UNPARTNERED_CLOSE : EvBit := ⟨0x20008, 6⟩
def Ev.EXEC_OVERRUN : EvBit := ⟨0x20008, 7⟩
def Ev.EXEC_SLEW_STARTED : EvBit := ⟨0x20008, 8⟩
def Ev.EXEC_PROGRAM_FAULT : EvBit := ⟨0x20008, 9⟩
def Reg.EXEC_PACE_PACE_NOW : Fld := ⟨0x2000C, 0, 16⟩
def Reg.EXEC_PACE_MARGIN_PCT : Fld := ⟨0x2000C, 16, 16⟩
def Reg.EXEC_PACE_MIN_PACE_MIN : Fld := ⟨0x20010, 0, 16⟩
def Reg.EXEC_PACE_MIN_LANE : Fld := ⟨0x20010, 16, 4⟩
def Reg.EXEC_PACE_MIN_COPY : Fld := ⟨0x20010, 20, 1⟩
def Reg.EXEC_PROG_FAULT_TASK : Fld := ⟨0x20020, 0, 3⟩
def Reg.EXEC_PROG_FAULT_VALID : Fld := ⟨0x20020, 3, 1⟩
def Reg.EXEC_PROG_FAULT_REASON : Fld := ⟨0x20020, 4, 2⟩
def Reg.EXEC_PROG_FAULT_TAG : Fld := ⟨0x20020, 8, 20⟩
def Reg.EXEC_PROG_BLOCK_BLOCK : Fld := ⟨0x20024, 0, 32⟩
def Reg.EXEC_PROG_COUNT_COUNT : Fld := ⟨0x20028, 0, 32⟩
def Reg.EXEC_TASK_LOAD_LAST_PM (i : Nat) : Fld := ⟨0x20114 + 0x40 * i, 0, 10⟩
def Reg.EXEC_TASK_LOAD_MAX_PM (i : Nat) : Fld := ⟨0x20114 + 0x40 * i, 16, 10⟩
def Reg.EXEC_TASK_DEFER_DEFERRED (i : Nat) : Fld := ⟨0x2011C + 0x40 * i, 0, 16⟩
def Reg.CMP_CTRL_FLAKY_LIMIT : Fld := ⟨0x30004, 8, 7⟩
def Ev.CMP_ROLLBACK : EvBit := ⟨0x30008, 0⟩
def Ev.CMP_LANE_RETIRED : EvBit := ⟨0x30008, 1⟩
def Ev.CMP_GATE_DIVERGE : EvBit := ⟨0x30008, 2⟩
def Ev.CMP_PROT_ONE_COPY : EvBit := ⟨0x30008, 3⟩
def Ev.CMP_ECC_CORRECTED : EvBit := ⟨0x30008, 4⟩
def Ev.CMP_ECC_LANE_UNCORR : EvBit := ⟨0x30008, 5⟩
def Ev.CMP_ECC_SHARED_UNCORR : EvBit := ⟨0x30008, 6⟩
def Ev.CMP_INJECT_DONE : EvBit := ⟨0x30008, 7⟩
def Reg.CMP_ROLLBACKS_COUNT : Fld := ⟨0x3000C, 0, 32⟩
def Reg.CMP_ECC_COUNT_SHARED : Fld := ⟨0x30010, 0, 16⟩
def Reg.CMP_ECC_COUNT_LOCAL : Fld := ⟨0x30010, 16, 16⟩
def Reg.CMP_FAULT_SEL_INDEX : Fld := ⟨0x30020, 0, 6⟩
def Reg.CMP_FAULT_Wn_WORD (n : Nat) : Fld := ⟨0x30024 + 0x4 * n, 0, 32⟩
def Reg.CMP_LANE_STAT_ECC_LOCAL (n : Nat) : Fld := ⟨0x30100 + 0x10 * n, 16, 16⟩
def Reg.CMP_LANE_LAG_LEAD_MAX (n : Nat) : Fld := ⟨0x30104 + 0x10 * n, 0, 13⟩
def Reg.CMP_LANE_LAG_GATE_MAX (n : Nat) : Fld := ⟨0x30104 + 0x10 * n, 16, 9⟩
def Reg.JRN_STATUS_ABRUPT : Fld := ⟨0x40000, 4, 1⟩
def Ev.JRN_MIRROR_TIMEOUT : EvBit := ⟨0x40008, 0⟩
def Ev.JRN_UNPARTNERED_ACCEPTED : EvBit := ⟨0x40008, 1⟩
def Ev.JRN_UNCONFIRMED_FOUND : EvBit := ⟨0x40008, 2⟩
def Ev.JRN_UNCONFIRMED_EXPIRED : EvBit := ⟨0x40008, 3⟩
def Ev.JRN_OUTCOME_UNRECORDED : EvBit := ⟨0x40008, 4⟩
def Ev.JRN_RING_NEAR_FULL : EvBit := ⟨0x40008, 5⟩
def Ev.JRN_RING_FULL : EvBit := ⟨0x40008, 6⟩
def Ev.JRN_CHECKPOINT_TORN : EvBit := ⟨0x40008, 7⟩
def Ev.JRN_SNAPSHOT_TORN : EvBit := ⟨0x40008, 8⟩
def Ev.JRN_STATE_WORD_BAD : EvBit := ⟨0x40008, 9⟩
def Reg.JRN_RATE_LAST_S : Fld := ⟨0x40028, 0, 16⟩
def Reg.JRN_RATE_MAX_S : Fld := ⟨0x40028, 16, 16⟩
def Ev.CPL_COUPLING_DOWN : EvBit := ⟨0x50008, 0⟩
def Ev.CPL_COUPLING_UP : EvBit := ⟨0x50008, 1⟩
def Ev.CPL_PARTNER_LOST : EvBit := ⟨0x50008, 2⟩
def Ev.CPL_PARTNER_JOINED : EvBit := ⟨0x50008, 3⟩
def Ev.CPL_COPY_STALE : EvBit := ⟨0x50008, 4⟩
def Ev.CPL_RESYNC_DONE : EvBit := ⟨0x50008, 5⟩
def Ev.CPL_TOOK_CONTROL : EvBit := ⟨0x50008, 6⟩
def Ev.CPL_GAVE_CONTROL : EvBit := ⟨0x50008, 7⟩
def Ev.CPL_CLAIM_CONTEST : EvBit := ⟨0x50008, 8⟩
def Ev.CPL_CLAIM_STUCK_HIGH : EvBit := ⟨0x50008, 9⟩
def Ev.CPL_CLAIM_STUCK_LOW : EvBit := ⟨0x50008, 10⟩
def Ev.CPL_CLAIM_FIBRE_DARK : EvBit := ⟨0x50008, 11⟩
def Ev.CPL_ROLE_EXCHANGE_FAILED : EvBit := ⟨0x50008, 12⟩
def Ev.CPL_DELTA_BAD : EvBit := ⟨0x50008, 13⟩
def Reg.CPL_CLAIM_LINK_FIBRE1_DARK : Fld := ⟨0x50010, 0, 1⟩
def Reg.CPL_CLAIM_LINK_FIBRE2_DARK : Fld := ⟨0x50010, 1, 1⟩
def Reg.CPL_CLAIM_LINK_VALID : Fld := ⟨0x50010, 2, 1⟩
def Reg.CPL_RESYNC_COUNT : Fld := ⟨0x50020, 16, 16⟩
def Reg.CPL_LINK_ERR_CRC_ERR : Fld := ⟨0x50024, 0, 16⟩
def Reg.CPL_LINK_ERR_RESENT : Fld := ⟨0x50024, 16, 16⟩
def Reg.CPL_HANDOFF_TAKE_US : Fld := ⟨0x50028, 0, 24⟩
def Reg.CPL_HANDOFF_KIND : Fld := ⟨0x50028, 24, 1⟩
def Reg.CPL_HANDOFF_VALID : Fld := ⟨0x50028, 25, 1⟩
def Ev.SBX_TRIP : EvBit := ⟨0x60008, 0⟩
def Ev.SBX_SBX_TRANSIENT : EvBit := ⟨0x60008, 1⟩
def Ev.SBX_SBX_EVAL_FAULT : EvBit := ⟨0x60008, 2⟩
def Ev.SBX_SBX_VOTE_LOST : EvBit := ⟨0x60008, 3⟩
def Ev.SBX_ACMP_DISAGREE : EvBit := ⟨0x60008, 4⟩
def Ev.SBX_SVCMP_FAIL : EvBit := ⟨0x60008, 5⟩
def Ev.SBX_GBIT_FAIL : EvBit := ⟨0x60008, 6⟩
def Reg.SBX_PASS_LAST_NS : Fld := ⟨0x6000C, 0, 16⟩
def Reg.SBX_PASS_MAX_NS : Fld := ⟨0x6000C, 16, 16⟩
def Reg.SBX_TRIPS_COUNT : Fld := ⟨0x60010, 0, 32⟩
def Reg.CH_STATUS_COMMON_FAULT (p : Nat) : Fld := ⟨0x80000 + 0x10000 * p, 0, 1⟩
def Reg.CH_STATUS_UNLOCATED (p : Nat) : Fld := ⟨0x80000 + 0x10000 * p, 3, 1⟩
def Reg.CH_STATUS_CLASS_INTERNAL (p : Nat) : Fld := ⟨0x80000 + 0x10000 * p, 4, 1⟩
def Reg.CH_STATUS_CLASS_SUPPLY (p : Nat) : Fld := ⟨0x80000 + 0x10000 * p, 5, 1⟩
def Reg.CH_STATUS_CLASS_FIELD (p : Nat) : Fld := ⟨0x80000 + 0x10000 * p, 6, 1⟩
def Reg.CH_STATUS_CRITICAL (p : Nat) : Fld := ⟨0x80000 + 0x10000 * p, 7, 1⟩
def Ev.CH_COMMON_FAULT_SET (p : Nat) : EvBit := ⟨0x80008 + 0x10000 * p, 0⟩
def Ev.CH_COMMON_FAULT_CLEARED (p : Nat) : EvBit := ⟨0x80008 + 0x10000 * p, 1⟩
def Ev.CH_FAULT_LOCATED (p : Nat) : EvBit := ⟨0x80008 + 0x10000 * p, 2⟩
def Ev.CH_FAULT_UNLOCATED (p : Nat) : EvBit := ⟨0x80008 + 0x10000 * p, 3⟩
def Ev.CH_THERMAL_SHUTDOWN (p : Nat) : EvBit := ⟨0x80008 + 0x10000 * p, 4⟩
def Ev.CH_OUTPUT_LOCKED (p : Nat) : EvBit := ⟨0x80008 + 0x10000 * p, 5⟩
def Ev.CH_COMPLIANCE (p : Nat) : EvBit := ⟨0x80008 + 0x10000 * p, 6⟩
def Ev.CH_OPEN_LOOP (p : Nat) : EvBit := ⟨0x80008 + 0x10000 * p, 7⟩
def Ev.CH_LIVE_ZERO_LOST (p : Nat) : EvBit := ⟨0x80008 + 0x10000 * p, 8⟩
def Ev.CH_MODE_CHANGED (p : Nat) : EvBit := ⟨0x80008 + 0x10000 * p, 9⟩
def Reg.CH_FAULT_MAP_LOCATED (p : Nat) : Fld := ⟨0x8000C + 0x10000 * p, 0, 12⟩
def Reg.CH_FAULT_MAP_SHORTFALL (p : Nat) : Fld := ⟨0x8000C + 0x10000 * p, 16, 12⟩
def Reg.CH_FIELD_I_FIELD_MA (p : Nat) : Fld := ⟨0x80010 + 0x10000 * p, 0, 16⟩
def Reg.CH_FAULT_KIND (p : Nat) (c : Nat) : Fld := ⟨0x8010C + 0x10000 * p + 0x20 * c, 0, 4⟩
def Reg.CH_FAULT_CLASS (p : Nat) (c : Nat) : Fld := ⟨0x8010C + 0x10000 * p + 0x20 * c, 4, 2⟩
def Reg.CH_SWITCHES_COUNT (p : Nat) (c : Nat) : Fld := ⟨0x8011C + 0x10000 * p + 0x20 * c, 0, 32⟩
def Reg.CNV_STATUS_TT_FAULT : Fld := ⟨0x100000, 8, 8⟩
def Ev.CNV_PERIOD_SOURCE_LOST : EvBit := ⟨0x100008, 0⟩
def Ev.CNV_PERIOD_NOMINAL : EvBit := ⟨0x100008, 1⟩
def Ev.CNV_QUEUE_OVERRUN : EvBit := ⟨0x100008, 2⟩
def Ev.CNV_TT_FAULT : EvBit := ⟨0x100008, 3⟩
def Ev.CNV_CONVERTER_FAULT : EvBit := ⟨0x100008, 4⟩
def Ev.CNV_CAL_DONE : EvBit := ⟨0x100008, 5⟩
def Ev.CNV_CAL_FAILED : EvBit := ⟨0x100008, 6⟩
def Reg.CNV_QUEUE_MAX : Fld := ⟨0x100010, 16, 13⟩
def Reg.CNV_Q_Wn_WORD (n : Nat) : Fld := ⟨0x100014 + 0x4 * n, 0, 32⟩
def Reg.CNV_QCOUNT_OVERRUNS : Fld := ⟨0x100024, 0, 16⟩
def Reg.CNV_QCOUNT_MON_SKIPPED : Fld := ⟨0x100024, 16, 16⟩
def Reg.CNV_CAL_STATUS_RESULT : Fld := ⟨0x100034, 12, 4⟩
def Reg.CNV_CAL_ZERO_VAL_VZERO : Fld := ⟨0x100038, 0, 32⟩
def Reg.CNV_CAL_SPAN_VAL_VSPAN : Fld := ⟨0x10003C, 0, 32⟩
def Reg.CNV_TEST_STATUS_CHANNEL : Fld := ⟨0x100044, 0, 7⟩
def Reg.CNV_TEST_STATUS_STATUS : Fld := ⟨0x100044, 8, 4⟩
def Reg.CNV_TT_ROTATION_S (p : Nat) : Fld := ⟨0x100100 + 0x10 * p, 16, 8⟩
def Reg.CNV_CH_VISIT_VERDICT (n : Nat) : Fld := ⟨0x101004 + 0x20 * n, 0, 3⟩
def Reg.CNV_CH_VISIT_PRIORITY (n : Nat) : Fld := ⟨0x101004 + 0x20 * n, 3, 1⟩
def Reg.CNV_CH_DRIFT_OFFSET_PPM (n : Nat) : Fld := ⟨0x101008 + 0x20 * n, 0, 16⟩
def Reg.CNV_CH_DRIFT_GAIN_PPM (n : Nat) : Fld := ⟨0x101008 + 0x20 * n, 16, 16⟩
def Ev.ACQ_RECORD_OPENED : EvBit := ⟨0x110008, 0⟩
def Ev.ACQ_RECORD_COMMITTED : EvBit := ⟨0x110008, 1⟩
def Ev.ACQ_TRIGGER_LOST : EvBit := ⟨0x110008, 2⟩
def Ev.ACQ_RECORD_LOST : EvBit := ⟨0x110008, 3⟩
def Ev.ACQ_RECORD_OVERWRITTEN : EvBit := ⟨0x110008, 4⟩
def Ev.ACQ_SEGMENT_GAP : EvBit := ⟨0x110008, 5⟩
def Reg.ACQ_LOST_TRIGGERS : Fld := ⟨0x110028, 0, 16⟩
def Reg.ACQ_LOST_RECORDS : Fld := ⟨0x110028, 16, 16⟩
def Reg.ACQ_DEF_COUNT_TAKEN (d : Nat) : Fld := ⟨0x110118 + 0x20 * d, 0, 16⟩
def Reg.ACQ_DEF_COUNT_LOST (d : Nat) : Fld := ⟨0x110118 + 0x20 * d, 16, 16⟩
def Reg.TIME_CTRL_SERVO_EN : Fld := ⟨0x10004, 1, 1⟩
def Ev.TIME_LOCKED : EvBit := ⟨0x10008, 0⟩
def Ev.TIME_LOCK_LOST : EvBit := ⟨0x10008, 1⟩
def Ev.TIME_HOLDOVER_EXPIRED : EvBit := ⟨0x10008, 2⟩
def Ev.TIME_STEPPED : EvBit := ⟨0x10008, 3⟩
def Ev.TIME_INC_REFUSED : EvBit := ⟨0x10008, 4⟩
def Ev.TIME_PAIR_TIME_DISAGREE : EvBit := ⟨0x10008, 5⟩
def Ev.TIME_MODEL_QUALIFIED : EvBit := ⟨0x10008, 6⟩
def Ev.TIME_PORT_CHANGED : EvBit := ⟨0x10008, 7⟩
def Reg.TIME_OSC_TEMP : Fld := ⟨0x1000C, 0, 16⟩
def Reg.TIME_INC_LO_INC_FRAC : Fld := ⟨0x10010, 0, 32⟩
def Reg.TIME_STEP_LO_STEP_LO : Fld := ⟨0x10018, 0, 32⟩
def Reg.TIME_STEP_HI_STEP_HI : Fld := ⟨0x1001C, 0, 32⟩
def Reg.TIME_SNAP_n_WORD (n : Nat) : Fld := ⟨0x10028 + 0x4 * n, 0, 32⟩
def Reg.TIME_SERVO_QUALITY : Fld := ⟨0x10048, 0, 2⟩
def Reg.TIME_SERVO_SOURCE : Fld := ⟨0x10048, 2, 2⟩
def Reg.TIME_SERVO_PTP_PORT : Fld := ⟨0x10048, 4, 3⟩
def Reg.TIME_SERVO_ERR_NS : Fld := ⟨0x10048, 16, 16⟩
def Reg.TIME_STEPS_COUNT : Fld := ⟨0x1004C, 0, 16⟩
def Ev.PBUS_SV_LOST : EvBit := ⟨0x120008, 0⟩
def Ev.PBUS_SV_MISMATCH : EvBit := ⟨0x120008, 1⟩
def Ev.PBUS_GOOSE_LOST : EvBit := ⟨0x120008, 2⟩
def Ev.PBUS_GOOSE_MISMATCH : EvBit := ⟨0x120008, 3⟩
def Ev.PBUS_LINK_DOWN : EvBit := ⟨0x120008, 4⟩
def Ev.PBUS_RING_BROKEN : EvBit := ⟨0x120008, 5⟩
def Ev.PBUS_PRP_WRONG_LAN : EvBit := ⟨0x120008, 6⟩
def Ev.PBUS_MODE_MISMATCH : EvBit := ⟨0x120008, 7⟩
def Reg.PBUS_PORT_ERR_WRONG_LAN (n : Nat) : Fld := ⟨0x120010 + 0x4 * n, 16, 16⟩
def Reg.PBUS_SV_STAT_MISSED (s : Nat) : Fld := ⟨0x120100 + 0x4 * s, 16, 16⟩
def Ev.PLNT_SESSION_OPENED : EvBit := ⟨0x130008, 0⟩
def Ev.PLNT_SESSION_REFUSED : EvBit := ⟨0x130008, 1⟩
def Ev.PLNT_AUTH_FAILED : EvBit := ⟨0x130008, 2⟩
def Ev.PLNT_LINK_DOWN : EvBit := ⟨0x130008, 3⟩
def Ev.PLNT_PRP_WRONG_LAN : EvBit := ⟨0x130008, 4⟩
def Ev.PLNT_PAIR_ADDR_TAKEN : EvBit := ⟨0x130008, 5⟩
def Reg.PLNT_REFUSED_BUSY : Fld := ⟨0x13000C, 0, 16⟩
def Reg.PLNT_REFUSED_NOT_ACTIVE : Fld := ⟨0x13000C, 16, 16⟩
def Ev.CAN_BUS_OFF (port : Nat) : EvBit := ⟨0x140008 + 0x10000 * port, 0⟩
def Ev.CAN_BUS_OFF_RECOVERED (port : Nat) : EvBit := ⟨0x140008 + 0x10000 * port, 1⟩
def Ev.CAN_ERROR_PASSIVE (port : Nat) : EvBit := ⟨0x140008 + 0x10000 * port, 2⟩
def Ev.CAN_RX_OVERWRITTEN (port : Nat) : EvBit := ⟨0x140008 + 0x10000 * port, 3⟩
def Ev.CAN_TX_FAILED (port : Nat) : EvBit := ⟨0x140008 + 0x10000 * port, 4⟩
def Reg.CAN_ERR_BUSOFF_COUNT (port : Nat) : Fld := ⟨0x14000C + 0x10000 * port, 24, 8⟩
def Reg.CAN_COUNTS_RX_PER_S (port : Nat) : Fld := ⟨0x140020 + 0x10000 * port, 0, 16⟩
def Reg.CAN_COUNTS_MON_SKIPPED (port : Nat) : Fld := ⟨0x140020 + 0x10000 * port, 16, 16⟩
def Reg.CAN_TX_COUNTS_SENT (port : Nat) : Fld := ⟨0x140024 + 0x10000 * port, 0, 16⟩
def Reg.CAN_TX_COUNTS_FAILED (port : Nat) : Fld := ⟨0x140024 + 0x10000 * port, 16, 16⟩
def Reg.CAN_RX_Wn_WORD (port : Nat) (n : Nat) : Fld := ⟨0x140040 + 0x10000 * port + 0x4 * n, 0, 32⟩
def Ev.ID_ACCESS_REFUSED : EvBit := ⟨0x8, 0⟩
def Ev.ID_WRITE_REFUSED : EvBit := ⟨0x8, 1⟩
def Ev.ID_START_HELD : EvBit := ⟨0x8, 2⟩
def Ev.ID_START_NOTICE : EvBit := ⟨0x8, 3⟩
def Reg.ID_START_HOLD : Fld := ⟨0xC, 0, 8⟩
def Reg.ID_START_NOTICES : Fld := ⟨0xC, 8, 7⟩
def Reg.ID_START_ATTEMPTS : Fld := ⟨0xC, 16, 16⟩
def Reg.ID_REFUSED_SHAPE : Fld := ⟨0x18, 0, 16⟩
def Reg.ID_REFUSED_ORIGIN : Fld := ⟨0x18, 16, 16⟩
def Reg.ID_REFUSED_ADDR_ADDR : Fld := ⟨0x1C, 0, 21⟩
def Reg.ID_REFUSED_ADDR_OUTSIDE : Fld := ⟨0x1C, 21, 1⟩
def Reg.ID_REFUSED_ADDR_SRC : Fld := ⟨0x1C, 22, 2⟩
def Reg.ID_REFUSED_ADDR_KIND : Fld := ⟨0x1C, 24, 1⟩
def Reg.ID_REFUSED_ADDR_WRITE : Fld := ⟨0x1C, 25, 1⟩
def Reg.ID_REFUSED_ADDR_VALID : Fld := ⟨0x1C, 26, 1⟩
def Reg.MPU_STATUS_SHED_LEVEL : Fld := ⟨0x160000, 0, 3⟩
def Reg.MPU_STATUS_LOAD_PCT : Fld := ⟨0x160000, 8, 7⟩
def Ev.MPU_PROT_FAULT_MGMT : EvBit := ⟨0x160008, 0⟩
def Ev.MPU_IMPRECISE_NOTICE : EvBit := ⟨0x160008, 1⟩
def Ev.MPU_LANE_PROT_FAULT : EvBit := ⟨0x160008, 2⟩
def Ev.MPU_ARM_FAILED : EvBit := ⟨0x160008, 3⟩
def Ev.MPU_ACTIVE_WRITE : EvBit := ⟨0x160008, 4⟩
def Ev.MPU_SHED_CHANGED : EvBit := ⟨0x160008, 5⟩
def Ev.MPU_MGMT_RESTARTED : EvBit := ⟨0x160008, 6⟩
def Reg.MPU_LOAD_MAX_PCT : Fld := ⟨0x16000C, 0, 7⟩
def Reg.MPU_LOAD_MAX_LEVEL : Fld := ⟨0x16000C, 8, 3⟩
def Reg.MPU_LOAD_BUSY_REPLIES : Fld := ⟨0x16000C, 16, 16⟩
def Reg.MPU_NOTICE_ADDR_LO_ADDR_LO : Fld := ⟨0x160010, 0, 32⟩
def Reg.MPU_NOTICE_ADDR_HI_ADDR_HI : Fld := ⟨0x160014, 0, 8⟩
def Reg.MPU_NOTICE_INFO_UNIT : Fld := ⟨0x160018, 0, 6⟩
def Reg.MPU_NOTICE_INFO_SET : Fld := ⟨0x160018, 6, 1⟩
def Reg.MPU_NOTICE_INFO_REGION : Fld := ⟨0x160018, 8, 4⟩
def Reg.MPU_NOTICE_INFO_LOST_NOTICES : Fld := ⟨0x160018, 16, 15⟩
def Reg.MPU_UNIT_STAT_REFUSED (u : Nat) : Fld := ⟨0x161000 + 0x400 * u, 16, 16⟩
def Ev.UPD_VERIFIED : EvBit := ⟨0x170008, 0⟩
def Ev.UPD_VERIFY_FAILED : EvBit := ⟨0x170008, 1⟩
def Ev.UPD_ACTIVATED : EvBit := ⟨0x170008, 2⟩
def Ev.UPD_CONFIRMED : EvBit := ⟨0x170008, 3⟩
def Ev.UPD_FALLBACK : EvBit := ⟨0x170008, 4⟩
def Ev.UPD_FALLBACK_AUTO : EvBit := ⟨0x170008, 5⟩
def Ev.UPD_ANCHOR_CLEAR_ACCEPTED : EvBit := ⟨0x170008, 6⟩
def Ev.UPD_REPORT_READY : EvBit := ⟨0x170008, 7⟩
def Reg.UPD_CMD_STATUS_LAST_CMD : Fld := ⟨0x170010, 0, 4⟩
def Reg.UPD_CMD_STATUS_RESULT : Fld := ⟨0x170010, 4, 4⟩
def Reg.UPD_CMD_STATUS_COUNT : Fld := ⟨0x170010, 16, 16⟩
def Reg.UPD_SESSION_PROGRESS (n : Nat) : Fld := ⟨0x170014 + 0x4 * n, 16, 16⟩
def Reg.UPD_TOKEN_Wn_WORD (n : Nat) : Fld := ⟨0x170100 + 0x4 * n, 0, 32⟩
def Reg.UPD_ATT_NONCE_Wn_WORD (n : Nat) : Fld := ⟨0x170200 + 0x4 * n, 0, 32⟩
def Reg.UPD_ATT_STATUS_STATE : Fld := ⟨0x170224, 0, 3⟩
def Reg.UPD_ATT_STATUS_REPORT_SEQ : Fld := ⟨0x170224, 16, 16⟩
def Ev.FP_LABEL_UPDATED : EvBit := ⟨0x180008, 0⟩
def Ev.FP_LABEL_REDRAWN : EvBit := ⟨0x180008, 1⟩
def Ev.FP_LABEL_CUT : EvBit := ⟨0x180008, 2⟩
def Reg.FP_PANEL_CFG_BRIGHTNESS : Fld := ⟨0x18000C, 0, 4⟩
def Reg.FP_PANEL_CFG_SHIFT_EN : Fld := ⟨0x18000C, 4, 1⟩
def Reg.FP_LABEL_UPDATES : Fld := ⟨0x180014, 16, 16⟩
def Ev.MIL_HOUR_WRITTEN : EvBit := ⟨0x190008, 0⟩
def Ev.MIL_SLOT_TORN : EvBit := ⟨0x190008, 1⟩
def Ev.MIL_SAMPLES_DROPPED : EvBit := ⟨0x190008, 2⟩
def Reg.MIL_SEL_SERIES : Fld := ⟨0x190018, 0, 8⟩
def Reg.MIL_SEL_LIVE : Fld := ⟨0x190018, 8, 1⟩
def Reg.MIL_REC_Wn_WORD (n : Nat) : Fld := ⟨0x190100 + 0x4 * n, 0, 32⟩

end Sys2Proof.Machine
end

