-- ==== Sys2Proof/Machine/Ops.lean ====
section
/-! DEFINITION. The named operations every family uses: reading and writing register fields, raising events, sending, time,
free values, and the records of tasks, lanes and channels. -/

namespace Sys2Proof.Machine

/-! Register fields in the bank. -/

/-- The value of a field held in the bank. -/
def State.get (s : State) (f : Fld) : Nat := Tab.getD s.bank f.key 0

/-- Set a field of the bank, narrowed to its width. -/
def State.put (s : State) (f : Fld) (v : Nat) : State := { s with bank := Tab.put 0 s.bank f.key (v % 2 ^ f.w) }

/-- Advance a saturating count. -/
def State.inc (s : State) (f : Fld) : State := s.put f (satInc f.w (s.get f))

/-- Add to a saturating count. -/
def State.addSat (s : State) (f : Fld) (n : Nat) : State := s.put f (satTo f.w (s.get f + n))

/-- Raise a field to v if it stands below (a highest-value field). -/
def State.atLeast (s : State) (f : Fld) (v : Nat) : State := if s.get f < v then s.put f (satTo f.w v) else s

/-! Time. Commands take no time; an instant is what the main counter shows (assumption 3). -/

/-- The main counter. -/
def State.now (s : State) : Stamp := s.time.counter

/-- The main counter as a tag timestamp (R7, R88). -/
def State.ts (s : State) : DWord := s.time.counter.tagTs

/-- TIME_UNSYNC of a stamp taken now (R86). -/
def State.unsync (s : State) : Bool := decide (s.time.quality = 3)

/-- Ticks of 8 ns in a number of microseconds (TIME_TICK counts at 125 MHz). -/
def ticksOfUs (n : Nat) : Nat := n * 125

def ticksOfMs (n : Nat) : Nat := n * 125000

/-- Fast sample k of a second refers to k/9,600 s after the second's mark (R300): the last such instant up to now. -/
def State.fastInstant (s : State) : Stamp :=
  let k := (s.now.ns * 9600) / 1000000000
  ⟨s.now.sec, k * 1000000000 / 9600, k * 1000000000 * 2 ^ 32 / 9600 % 2 ^ 32⟩

/-- Whole seconds since the tick counter's start, for limits per second. -/
def State.second (s : State) : Nat := s.time.tick / 125000000

/-- The standby counter in units of 1/32,768 s (R42). -/
def State.sbyNow (s : State) : Nat := s.standby.sec * 32768 + s.standby.frac

/-- An area of R194 was written within the last 10 s. -/
def State.recent10 (s : State) (t : Option Nat) : Bool := t.any (fun t => decide (t ≤ s.sbyNow) && decide (s.sbyNow < t + 10 * 32768))

/-! Sending. -/

/-- Append a message to what the module has sent. -/
def State.send (s : State) (m : Msg) : State := { s with outbox := s.outbox ++ [m] }

/-- Code of a module state (R1); OFF reports none and shows the Reset column of EXEC_STATUS. -/
def modeCode : Mode → Nat
  | .off => 1
  | .starting => 1
  | .standby => 2
  | .active => 3
  | .halt => 4
  | .terminus => 5

/-- PAIR_TAG of this module's pair: bytes 0 to 7 of PAIR_ID (R223). -/
def State.pairTag (s : State) : Nat := (s.mram.pairServed.getD 0) % 2 ^ 64

/-- KIND of a message sent on the coupling (R224). -/
def frameKindOf : Msg → Nat
  | .hello _ => 0x01
  | .status .. => 0x02
  | .delta _ => 0x10
  | .deltaAck .. => 0x11
  | .mirror _ => 0x20
  | .mirrorAck _ => 0x21
  | .image .. => 0x30
  | .mapAck _ => 0x31
  | .announce _ => 0x32
  | .announceAck => 0x33
  | .resyncReq _ => 0x40
  | .resyncAnswer => 0x40
  | .resyncPage _ => 0x41
  | .resyncControl _ => 0x42
  | .resyncDone _ => 0x43
  | .handover _ => 0x50
  | .handoverAck => 0x51
  | .restartReq _ => 0x52
  | .restartAck => 0x53
  | .restartGo _ => 0x54
  | _ => 0x00

/-- TASK, CYCLE and CLOSE_SEQ of a message that names a task (R228). -/
def frameTask : Msg → Option (Nat × Nat × Nat)
  | .delta d => some (d.task, d.cycle, d.closeSeq)
  | .deltaAck t c q _ => some (t, c, q)
  | _ => none

/-- The header of a message of n frames sent now: that of its last frame (R223). -/
def State.headerFor (s : State) (n : Nat) (m : Msg) : FrameHdr :=
  { kind := frameKindOf m, first := decide (n = 1), last := true, stale := s.pair.stale, linkSeq := (s.pair.txNext + n - 1) % 2 ^ 32,
    ack := (s.pair.rxNext + 0xFFFFFFFF) % 2 ^ 32, session := s.pair.session, state := modeCode s.mode, slotB := s.carrier.slotB,
    task := (frameTask m).map (·.1), chunk := n - 1, chunks := n, cycle := (match frameTask m with | some t => t.2.1 | none => 0),
    closeSeq := (match frameTask m with | some t => t.2.2 | none => s.pair.closeSeq), jrnHead := s.jrn.head, pairTag := s.pairTag }

/-- Send a message of n frames on the coupling: LINK_SEQ advances by 1 per frame (R225). -/
def State.sendFrames (s : State) (n : Nat) (m : Msg) : State :=
  { s.send (.frame (s.headerFor n m) m) with pair := { s.pair with txNext := (s.pair.txNext + n) % 2 ^ 32 } }

/-- Send a message of one frame on the coupling. -/
def State.sendFrame (s : State) (m : Msg) : State := s.sendFrames 1 m

/-- Frames a message of that many bytes takes: its frames are full but for the last (R222, R223; assumption 8). -/
def framesFor (bytes : Nat) : Nat := max 1 ((bytes + 4095) / 4096)

/-- Mirror entries to the partner module (R202, R210). -/
def State.sendMirror (s : State) (l : List Entry) : State := s.sendFrames (framesFor (l.flatMap entryBytes).length) (.mirror l)

/-- Send a delta (R228 step 1): its records and the END record. -/
def State.sendDelta (s : State) (d : DeltaMsg) : State := s.sendFrames (framesFor ((deltaBytes d.records).length + 12)) (.delta d)

/-- EVENT messages of R390 for one session: at most 200 a second, and a count of those dropped goes with the next. -/
def eventTo (base offset bit seq : Nat) (k : Nat) (x : Session) (s : State) : State :=
  if !x.events then s
  else
    let x := if x.eventSecond = s.second then x else { x with eventSecond := s.second, eventCount := 0 }
    if x.eventCount < 200 then
      { s.send (.event k base offset bit seq s.ts x.eventDropped) with
        net := { s.net with sessions := Tab.set s.net.sessions k { x with eventCount := x.eventCount + 1, eventDropped := 0 } } }
    else { s with net := { s.net with sessions := Tab.set s.net.sessions k { x with eventDropped := x.eventDropped + 1 } } }

/-- Base address of the block of an address: the signal box spans two (R428). -/
def blockBase (addr : Nat) : Nat := let b := addr / 0x10000 * 0x10000; if b = 0x70000 then 0x60000 else b

/-- Next value of a sequence number: after 0xFFFF it continues at 0x0001 (R417). -/
def nextSeq (q : Nat) : Nat := if 0xFFFF ≤ q then 1 else q + 1

/-- An event (R417): its bit is set, SEQ advances, recurrences included, and EVENT messages go out (R390, assumption 10). -/
def State.raise (s : State) (e : EvBit) : State :=
  let q := nextSeq (s.get ⟨e.addr, 16, 16⟩)
  let s := (s.put ⟨e.addr, e.bit, 1⟩ 1).put ⟨e.addr, 16, 16⟩ q
  forEach s.net.sessions (fun x s => eventTo (blockBase e.addr) (e.addr - blockBase e.addr) e.bit q x.1 x.2 s) s

/-- Raise an event if a condition holds. -/
def State.raiseIf (s : State) (c : Bool) (e : EvBit) : State := if c then s.raise e else s

/-- Clear an event register under R418: only bits 31:16 of the written word count, and a match clears every event bit. -/
def State.clearEvents (s : State) (addr : Nat) (value : Word) : State :=
  if value.toNat / 2 ^ 16 = s.get ⟨addr, 16, 16⟩ then
    { s with bank := s.bank.filter (fun e => !(decide (32 * addr ≤ e.1) && decide (e.1 < 32 * addr + 16))) }
  else s

/-! Free values (assumption 4). -/

/-- A fresh free value and the state that has used it. -/
def State.free (s : State) : DWord × State := (Config.freeValue s.freeCount, { s with freeCount := s.freeCount + 1 })

/-- A fresh free choice. -/
def State.choice (s : State) : Bool × State := (Config.freeChoice s.freeCount, { s with freeCount := s.freeCount + 1 })

/-! Formats of persistent structures (R464, R465). -/

/-- A firmware region (R449, R450). -/
def State.fwRegion (s : State) (r : Nat) : RegionRec := Tab.getD s.upd.regions r RegionRec.reset

/-- No effect of a firmware image is running in a region (R460). -/
def State.effectOver (s : State) (r : Nat) : Bool := decide ((s.fwRegion r).effectEnd ≤ s.time.tick)

def slotImage (x : RegionRec) (slot : Nat) : Option FwImage := if slot = 0 then x.slot0 else x.slot1

/-- The active image of a region, its previous one, and the one in effect (R450, R461). -/
def activeFw (x : RegionRec) : Option FwImage := slotImage x x.activeSlot
def prevFw (x : RegionRec) : Option FwImage := slotImage x (1 - x.activeSlot)
def runningFw (x : RegionRec) : Option FwImage := if x.waiting then prevFw x else activeFw x

/-- The region whose firmware writes a structure of R465; none for a fixed format. -/
def structRegion (code : Nat) : Option Nat := if code = 1 then some 2 else if 2 ≤ code ∧ code ≤ 4 then some 1 else if code = 5 then some 5 else none

/-- The format in which an image writes a structure: 0x01 where it names none (assumption 119). -/
def fmtIn (f : Option FwImage) (k : Nat) : Nat := match f with | some f => (findKey f.formats k).getD 1 | none => 1

/-- The region whose firmware writes a structure. -/
def State.fmtRegion (s : State) (k : Nat) : RegionRec := s.fwRegion ((structRegion k).getD 0)

/-- The format in which the firmware in effect writes a structure. -/
def State.fmt (s : State) (k : Nat) : Nat := fmtIn (runningFw (s.fmtRegion k)) k

/-- The old format that is written as well while a new one is on trial. -/
def State.fmtOld (s : State) (k : Nat) : Option Nat :=
  let x := s.fmtRegion k
  if x.trial && !x.waiting && decide (fmtIn (prevFw x) k ≠ fmtIn (activeFw x) k) then some (fmtIn (prevFw x) k) else none

/-- The format of a write into a slot: while a new one is on trial even slots take it and odd ones the old (R465). -/
def State.fmtAt (s : State) (k slot : Nat) : Nat := if slot % 2 = 0 then s.fmt k else (s.fmtOld k).getD (s.fmt k)

/-- Firmware reads its own format of a structure and every older one (R464). -/
def State.reads (s : State) (k fmt : Nat) : Bool := decide (fmt ≤ s.fmt k)

/-! Records. -/

def State.task (s : State) (i : Nat) : Task := Tab.getD s.tasks i Task.reset
def State.setTask (s : State) (i : Nat) (t : Task) : State := { s with tasks := Tab.put Task.reset s.tasks i t }
def State.lane (s : State) (i : Nat) : Lane := Tab.getD s.lanes i Lane.reset
def State.setLane (s : State) (i : Nat) (l : Lane) : State := { s with lanes := Tab.put Lane.reset s.lanes i l }
def State.chan (s : State) (i : Nat) : Chan := Tab.getD s.chans i Chan.reset
def State.setChan (s : State) (i : Nat) (c : Chan) : State := { s with chans := Tab.put Chan.reset s.chans i c }

/-- The running image. -/
def State.img (s : State) : Option Image := s.start.running

/-- A list of the running image, empty while no image runs. -/
def State.cfgList {α : Type} (s : State) (f : Image → List α) : List α := match s.img with | some i => f i | none => []

def State.taskCfg (s : State) (i : Nat) : Option TaskCfg := findKey (s.cfgList (·.tasks)) i

/-- The settings of channels that change at their next period boundary, still in force (R277). -/
def State.changingFrom (s : State) : List (Nat × ChanCfg) := s.chans.filterMap (fun (e : Nat × Chan) => e.2.changeFrom.map (fun c => (e.1, c)))

/-- The channels and their settings in force. -/
def State.channels (s : State) : List (Nat × ChanCfg) :=
  s.changingFrom ++ (s.cfgList (·.channels)).filter (fun e => (findKey s.changingFrom e.1).isNone)

def State.chanCfg (s : State) (i : Nat) : Option ChanCfg := findKey s.channels i
def State.tagDecl (s : State) (i : Nat) : Option TagDecl := findKey (s.cfgList (·.tags)) i
def State.chanMode (s : State) (i : Nat) : ChanMode := match s.chanCfg i with | some c => c.mode | none => .unused

/-- The digest of the running image, 0 while none runs. -/
def State.digest (s : State) : Nat := match s.img with | some i => i.digest | none => 0

/-- The signal box section of an image. -/
def boxOf (i : Image) : BoxCfg := ⟨i.equations, i.trips, i.acmps, i.svcs, i.gbits⟩

/-- Pair policy of the running image; the defaults of R505 while none runs. -/
def State.policy (s : State) : PairPolicy := match s.img with | some i => i.policy | none => ⟨0, 256, 60, 10, 168, List.replicate 8 0⟩

/-- The pair policy accepts work while the partner module is absent (R203, R505). -/
def State.acceptsUnpartnered (s : State) : Bool := decide (s.policy.acceptUnpartnered = 1)

/-- Powered: every state but OFF. -/
def State.powered (s : State) : Bool := decide (s.mode ≠ .off)

/-- Ticks of one period of T0 (R115). -/
def State.t0Ticks (s : State) : Nat := match s.taskCfg 0 with | some c => c.periodQ * 31250 | none => 0

/-- A lane is healthy: neither retired nor failed at its built-in test. -/
def State.laneOk (s : State) (n : Nat) : Bool := !(s.lane n).retired && !(s.lane n).bad

/-- Healthy lanes. -/
def State.healthy (s : State) : List Nat := (List.range 16).filter (fun n => s.laneOk n)

/-- Lanes the timetable assigns to tasks. -/
def State.assigned (s : State) : Nat := (s.cfgList (·.tasks)).foldl (fun n c => n + c.2.lanes.length) 0

/-- Free spares: healthy lanes that serve no task (R129). -/
def State.freeSpares (s : State) : List Nat := s.healthy.filter (fun n => (s.lane n).task.isNone)

/-- Lanes serving task i now, a migrated spare included. -/
def State.taskLanes (s : State) (i : Nat) : List Nat := (List.range 16).filter (fun n => decide ((s.lane n).task = some i))

/-- Partner module in STANDBY or ACTIVE on a coupling that is up. -/
def State.partnerThere (s : State) : Bool :=
  s.pair.linkUp && (decide (s.pair.partnerMode = some .standby) || decide (s.pair.partnerMode = some .active))

/-- Partnered closes (R126, R233): the partner module is there and its copy is current. -/
def State.partnered (s : State) : Bool := s.partnerThere && s.pair.partnerCurrent

/-- A register field that only changes from outside the command table (a live measurement) reads a free value (assumption 11). -/
def State.measured (s : State) (f : Fld) : Nat := (Config.measured f.key s.time.tick).toNat % 2 ^ f.w

/-- Code of a PTP port; the service port, which is none, has 4 for its stamps. -/
def portCode : Port → Nat
  | .pba => 0
  | .pbb => 1
  | .pla => 2
  | .plb => 3
  | .svc => 4

/-! Stamps (R361 to R363), in units of 2^-16 ns. -/

/-- Latency between medium and MAC stamp point, ingress and egress, in 0.1 ns (R361). -/
def portLatency : Port → Nat × Nat
  | .pba => (624, 512)
  | .pbb => (624, 512)
  | .pla => (2240, 1760)
  | .plb => (2240, 1760)
  | .svc => (3680, 2960)

/-- The stamp of a received frame: the MAC stamp less the ingress latency, or, where that is uncertain, the boundary stamp. -/
def ingressStamp (p : Port) (x : PortStamp) : Nat × Nat :=
  if x.uncertain then (x.boundary * 65536, 1) else ((x.mac * 10 - (portLatency p).1 * 65536) / 10, 0)

/-- The stamp of a sent frame: the MAC stamp plus the egress latency, or the boundary stamp. -/
def egressStamp (p : Port) (x : PortStamp) : Nat × Nat :=
  if x.uncertain then (x.boundary * 65536, 1) else ((x.mac * 10 + (portLatency p).2 * 65536) / 10, 0)

/-- A frame leaves a port: its transmit report (R361). -/
def reportSent (p : Port) (s : State) : State :=
  let x := Config.sendStamp s.net.sentFrames
  let t := egressStamp p ⟨x.1, x.2.1, x.2.2⟩
  { s with net := { s.net with tx := Tab.set s.net.tx (portCode p) ⟨t.1, t.2, none⟩, sentFrames := s.net.sentFrames + 1 } }

/-- A frame leaves on one port. -/
def sendOn (p : Port) (m : Msg) (s : State) : State := (reportSent p s).send m

/-- A frame leaves on every port of a list that has its link. -/
def sendPorts (l : List Port) (m : Msg) (s : State) : State := (forEach (l.filter (fun p => decide (p ∈ s.net.up))) reportSent s).send m

/-! Numbers of tags, and what other blocks tell the recorder's triggers. -/

/-- The number a tag's value stands for, as binary64; bit patterns, characters and addresses have none. -/
def tagNumber (t : TagType) (v : DWord) : Option DWord :=
  match t with
  | .bool => some (f64OfInt (v.toNat % 256))
  | .int8 => some (f64OfInt v.toInt)
  | .int16 => some (f64OfInt v.toInt)
  | .int32 => some (f64OfInt v.toInt)
  | .int64 => some (f64OfInt v.toInt)
  | .duration => some (f64OfInt v.toInt)
  | .uint8 => some (f64OfInt v.toNat)
  | .uint16 => some (f64OfInt v.toNat)
  | .uint32 => some (f64OfInt v.toNat)
  | .uint64 => some (f64OfInt v.toNat)
  | .enum16 => some (f64OfInt v.toNat)
  | .real32 => some (f64OfF32 (v.toNat % 2 ^ 32))
  | .real64 => some v
  | _ => none

/-- The dictionary declares the tag BOOL. -/
def State.isBoolTag (s : State) (t : Nat) : Bool := match s.tagDecl t with | some d => decide (d.type = .bool) | none => false

/-- The recorder runs in STANDBY, ACTIVE and HALT, and in STARTING from step 9 (R324); hold-up refuses triggers (R343). -/
def State.acqRuns (s : State) : Bool := s.acq.running && s.powered && decide (s.mode ≠ .terminus) && !s.carrier.holdup

def State.trig (s : State) (t : Nat) : TrigState := Tab.getD s.acq.trigs t TrigState.reset
def State.setTrig (s : State) (t : Nat) (x : TrigState) : State := { s with acq := { s.acq with trigs := Tab.put TrigState.reset s.acq.trigs t x } }

/-- The condition of a trigger is met (R325): it acts with this instant; a numeric one then waits for its re-arm (R326). -/
def condMet (t : Nat) (at_ : Stamp) (rising numeric : Bool) (s : State) : State :=
  let x := s.trig t
  s.setTrig t { x with due := x.due ++ [(at_, rising)], crossed := if numeric then some rising else none }

/-- Does a trigger's edge setting take this direction. -/
def edgeTaken (c : TrigCfg) (rising : Bool) : Bool := decide (c.edge = 2) || (decide (c.edge = 0) && rising) || (decide (c.edge = 1) && !rising)

end Sys2Proof.Machine
end

