-- ==== Sys2Proof/Machine/CanPort.lean ====
section
/-! DEFINITION. What the CAN ports do for programs and for the claim (R395, R398 to R406): the port's mode, the outcomes of requests,
requests and cancels reaching the port, and the value a receive mapping takes from the ring. -/

namespace Sys2Proof.Machine

def State.canPort (s : State) (p : Nat) : CanPort := if p = 0 then s.can0 else s.can1
def State.setCanPort (s : State) (p : Nat) (x : CanPort) : State := if p = 0 then { s with can0 := x } else { s with can1 := x }

def State.canCfg (s : State) (p : Nat) : Option CanCfg := findKey (s.cfgList (·.can)) p

/-- Mode of a port (R395): 0 off bus, 1 restricted operation, 2 normal. It leaves normal mode once a frame it is sending has ended. Without the
CAN section a port stays off the bus (R393). -/
def State.canMode (s : State) (p : Nat) : Nat :=
  if (s.canCfg p).isNone || !s.start.platformsUp || decide (s.mode = .off) || decide (s.mode = .terminus) then 0
  else if (s.claim.drive && s.claim.confirmed) || ((s.canPort p).held.head?).any (·.started) then 2
  else 1

/-- An outcome of a request (R403, R404): it goes to the request area of its task at that task's next freeze. -/
def canOutcome (p task handle outcome sof : Nat) (late : Bool) (s : State) : State :=
  let t := s.task task
  let s := s.setTask task { t with canOutcomes := t.canOutcomes ++ [(handle, outcome, sof, late)] }
  if outcome = 0 then s.inc (Reg.CAN_TX_COUNTS_SENT p)
  else if outcome = 3 then s
  else (s.inc (Reg.CAN_TX_COUNTS_FAILED p)).raise (Ev.CAN_TX_FAILED p)

/-- Every held request ends with an outcome, but for one already on the bus where that is kept. The start-of-frame stamp of one on the bus is a free value,
since no command brings it (assumption 4). -/
def canEndWaiting (p outcome : Nat) (keepStarted : Bool) (s : State) : State :=
  let x := s.canPort p
  let ends := x.held.filter (fun h => !(keepStarted && h.started))
  let s := s.setCanPort p { x with held := x.held.filter (fun h => keepStarted && h.started) }
  forEach ends (fun h s =>
    let sof := if h.started then s.free else (0#64, s)
    canOutcome p h.task h.req.handle outcome sof.1.toNat h.cancelLate sof.2) s

/-- Whether the foremost request has driven its start of frame when something reaches the port: only the bus knows, so a free choice
marks it (assumption 17). -/
def canMaybeStart (p : Nat) (s : State) : State :=
  match (s.canPort p).held with
  | [] => s
  | h :: rest =>
    if h.started then s
    else
      let (b, s) := s.choice
      s.setCanPort p { s.canPort p with held := { h with started := b } :: rest }

/-- The claim is deasserted (R406): requests not started end NOT_CLAIMED; a frame on the bus completes. -/
def canUnclaim (s : State) : State := forEach [0, 1] (fun p s => canEndWaiting p 7 true (canMaybeStart p s)) s

/-- A request reaches its port at closure step 3 (R402, R407). -/
def canSubmit (p task : Nat) (r : CanReq) (s : State) : State :=
  let x := s.canPort p
  if x.errState = 2 then canOutcome p task r.handle 4 0 false s
  else if 64 ≤ x.held.length then canOutcome p task r.handle 6 0 false s
  else (s.setCanPort p { x with held := x.held ++ [⟨task, r, false, false, s.time.tick⟩] }).send (.can p r)

/-- A cancel reaches its port (R405): a waiting request ends CANCELLED; one whose start of frame is driven is marked CANCEL_LATE. -/
def canCancelAt (p handle : Nat) (s : State) : State :=
  let x := s.canPort p
  match x.held.find? (fun h => decide (h.req.handle = handle)) with
  | none => s
  | some h =>
    if h.started then s.setCanPort p { x with held := x.held.map (fun g => if g = h then { g with cancelLate := true } else g) }
    else canOutcome p h.task handle 3 0 false (s.setCanPort p { x with held := x.held.erase h })

/-- Requests and cancels of one closure, in store order (R402, R405). -/
def canStores (task : Nat) (l : List Store) (s : State) : State :=
  forEach l (fun o s =>
    match o with
    | .canSend p r => canSubmit p task r s
    | .canCancel p h => canCancelAt p h s
    | _ => s) (forEach [0, 1] canMaybeStart s)

/-- The request area at a freeze (R404, R406): outcomes in the order they arose, then UNKNOWN for requests of a partner module's copy
that carry none. -/
def canFreeze (task : Nat) (s : State) : State :=
  let unknown (p : Nat) : List (Nat × Nat × Nat × Bool) := ((s.canPort p).copied.filter (fun e => decide (e.1 = task))).map (fun e => (e.2.handle, 8, 0, false))
  let t := s.task task
  let latch (p : Nat) : CanLatch := ⟨p, (s.canPort p).seq, s.time.tick, s.now, s.time.inc⟩
  let s := s.setTask task { t with canArea := t.canOutcomes ++ unknown 0 ++ unknown 1, canOutcomes := [], canSeen := [latch 0, latch 1] }
  let failed (p : Nat) (s : State) : State := forEach (unknown p) (fun _ s => (s.inc (Reg.CAN_TX_COUNTS_FAILED p)).raise (Ev.CAN_TX_FAILED p)) s
  forEach [0, 1] (fun p s =>
    let s := failed p s
    s.setCanPort p { s.canPort p with copied := (s.canPort p).copied.filter (fun e => decide (e.1 ≠ task)) }) s

/-! Receiving. -/

/-- LEN of a DLC (ISO 11898-1): above 8 the FD lengths. -/
def dlcLen (fdf : Bool) (dlc : Nat) : Nat :=
  if dlc ≤ 8 then dlc
  else if !fdf then 8
  else if dlc = 9 then 12 else if dlc = 10 then 16 else if dlc = 11 then 20 else if dlc = 12 then 24 else if dlc = 13 then 32
  else if dlc = 14 then 48 else 64

/-- A frame enters the receive ring (R396, R398): SEQ advances and the oldest entry of a full ring is overwritten. -/
def canReceive (p : Nat) (f : CanFrame) (own : Bool) (sof : Nat) (s : State) : State :=
  let x := s.canPort p
  let maps := match s.canCfg p with | some c => c.maps | none => []
  let hit := ((List.range maps.length).filter (fun i => match maps[i]? with
    | some m => decide (m.mask &&& f.ident = m.mask &&& m.ident)
    | none => false))
  let s := if x.second = s.second then s else s.put (Reg.CAN_COUNTS_RX_PER_S p) (if x.second + 1 = s.second then satTo 16 x.perSecond else 0)
  s.setCanPort p { x with seq := x.seq + 1, ring := lastN 4096 (x.ring ++ [⟨x.seq + 1, sof, f, own, s.unsync⟩]),
                          expired := x.expired.filter (fun e => decide (e.1 ∉ hit)),
                          perSecond := if x.second = s.second then x.perSecond + 1 else 1, second := s.second }

/-- Bits of a frame's data from a byte and bit offset, least significant first. -/
def canBits (f : CanFrame) (m : CanMap) : Nat := leNat f.data / 2 ^ (8 * m.byteOff + m.bitOff) % 2 ^ m.bitLen

/-- The newest ring entry up to the committed SEQ that matches a mapping (R400), by its identifier alone (assumption 120). -/
def canNewest (x : CanPort) (upTo : Nat) (m : CanMap) : Option CanEntry :=
  (x.ring.filter (fun e => decide (e.seq ≤ upTo) && decide (m.mask &&& e.frame.ident = m.mask &&& m.ident))).getLast?

/-- A start-of-frame stamp in the main counter (R401), by the latch that the freeze committed. -/
def CanLatch.instant (l : CanLatch) (sof : Nat) : DWord :=
  let t : Int := (l.counter.fine : Int) + ((sof : Int) - (l.tick : Int)) * (l.inc : Int)
  (Stamp.ofFine t.toNat).tagTs

end Sys2Proof.Machine
end

