-- ==== Sys2Proof/Machine/Outputs.lean ====
section
/-! DEFINITION. What the module drives: GOOSE publications (R374 to R376), discrete and current outputs with their safe values,
hold and trip states (R1, R247, R248, R268 to R270, R291), and the entry to HALT (R4, R241). -/

namespace Sys2Proof.Machine

/-! Signal box settings (R273, R274): instance data keyed by register address, from the image until written. -/

/-- SBX_EQ_STATE of equation e holds ARMED in bit 0 (R273). -/
def eqStateAddr (e : Nat) : Nat := 0x7000C + 0x80 * e
def eqDelayAddr (e : Nat) : Nat := 0x70008 + 0x80 * e
def acmpThrAddr (c : Nat) : Nat := 0x62000 + 8 * c
def svcThrAddr (c : Nat) : Nat := 0x63004 + 0x10 * c
def svcHystAddr (c : Nat) : Nat := 0x63008 + 0x10 * c

def State.eqCfg (s : State) (e : Nat) : Option EqCfg := findKey s.sbox.table.equations e

/-- An equation with no terms is unused (R256). -/
def eqUsed (c : EqCfg) : Bool := decide (c.terms ≠ [])

def State.eqArmed (s : State) (e : Nat) : Bool :=
  match Tab.get? s.ctl.sbx (eqStateAddr e) with
  | some w => w.getLsbD 0
  | none => match s.eqCfg e with | some c => c.armed | none => false

def State.eqPickupUs (s : State) (e : Nat) : Nat :=
  match Tab.get? s.ctl.sbx (eqDelayAddr e) with
  | some w => w.toNat % 2 ^ 16
  | none => match s.eqCfg e with | some c => c.pickupUs | none => 0

def State.eqDropoutMs (s : State) (e : Nat) : Nat :=
  match Tab.get? s.ctl.sbx (eqDelayAddr e) with
  | some w => w.toNat / 2 ^ 16
  | none => match s.eqCfg e with | some c => c.dropoutMs | none => 0

/-- Voted result of an equation (R266). -/
def State.eqResult (s : State) (e : Nat) : Bool := (Tab.getD s.sbox.voted e EqState.reset).result

/-! Publications. -/

/-- A frame boundary of the process-bus ports (R377): TEST_MODE as last written takes effect, at both ports together (assumption 127). -/
def pbusBoundary (s : State) : State :=
  match Tab.get? s.heldWrites 0x120004 with
  | some v => { s with heldWrites := Tab.erase s.heldWrites 0x120004, net := { s.net with testMode := v.getLsbD 1 } }
  | none => s

def State.pub (s : State) (p : Nat) : PubState := Tab.getD s.net.pubs p PubState.reset
def State.setPub (s : State) (p : Nat) (x : PubState) : State :=
  { s with net := { s.net with pubs := Tab.put PubState.reset s.net.pubs p x } }

/-- Value and quality of a publication member (R374). -/
def State.pubMember (s : State) : PubMember → DWord × BitVec 16
  | .tag t => let g := Tab.getD s.ctl.tags t Tag.zero; (g.value, g.quality)
  | .equation e => (if s.eqResult e then 1#64 else 0#64, 0xC000#16)

/-- stNum after a step, skipping 0 at the wrap (R375, R376). -/
def stepStNum (n k : Nat) : Nat := let m := (n + k) % 2 ^ 32; if m = 0 then 1 else m

/-- Send publication p as a new state whose stNum has advanced by k (R375, R376). -/
def pubSendNew (p k : Nat) (c : PubCfg) (s : State) : State :=
  let s := pbusBoundary s
  let x := s.pub p
  let vals := c.members.map s.pubMember
  let st := stepStNum x.stNum k
  let s := s.setPub p { x with stNum := st, sqNum := 0, intervalMs := 2, lastNew := some s.time.tick, deferred := false, values := vals }
  sendPorts [.pba, .pbb] (.goose p st 0 4 s.net.testMode vals) s

/-- A change of a member's value or quality is a new state (R374); within 20 µs of the last it is sent 20 µs after it. Only a
module with a confirmed claim publishes (R375). -/
def pubCheck (p : Nat) (c : PubCfg) (s : State) : State :=
  let x := s.pub p
  if s.claim.confirmed && decide (x.values ≠ c.members.map s.pubMember) then
    match x.lastNew with
    | some t => if s.time.tick < t + ticksOfUs 20 then s.setPub p { x with deferred := true } else pubSendNew p 1 c s
    | none => pubSendNew p 1 c s
  else s

/-- Publications whose members have changed are sent. -/
def pubCheckAll (s : State) : State := forEach (s.cfgList (·.net.pubs)) (fun e s => pubCheck e.1 e.2 s) s

/-- When a claim is confirmed every publication is sent as a new state, stNum from the copied value plus 1,048,576 (R271, R376). -/
def pubOnConfirm (s : State) : State :=
  forEach (s.cfgList (·.net.pubs)) (fun e s =>
    let copied := Tab.getD s.ctl.pubs e.1 (0, 0)
    pubSendNew e.1 1048576 e.2 (s.setPub e.1 { s.pub e.1 with stNum := copied.1, sqNum := copied.2 })) s

/-! Discrete and current outputs. -/

/-- Equations that name a channel as their output. -/
def State.eqsOf (s : State) (n : Nat) : List Nat := (s.sbox.table.equations.filter (fun e => decide (e.2.outCh = some n))).map (·.1)

def State.tripCfg (s : State) (n : Nat) : Option TripCfg :=
  if s.eqsOf n = [] then none
  else some ((findKey s.sbox.table.trips n).getD ⟨false, false, false, false⟩)

/-- An output is tripped while any armed equation naming it has a true result (R268). -/
def State.tripped (s : State) (n : Nat) : Bool := (s.eqsOf n).any (fun e => s.eqArmed e && s.eqResult e)

/-- An equation naming the output is in dispute (R267). -/
def State.disputed (s : State) (n : Nat) : Bool := (s.eqsOf n).any (fun e => decide (e ∈ s.sbox.dispute))

/-- The state the signal box gives a trip output: tripped by SENSE, program value if MERGED, else the opposite; in dispute the
fail state (R267, R268). -/
def State.tripDrive (s : State) (n : Nat) (t : TripCfg) (program : Bool) : Bool :=
  let trippedLevel := !t.deEnergise
  if s.disputed n then (if t.failTrip then trippedLevel else (s.chan n).cmdOn)
  else if s.tripped n then trippedLevel
  else if t.merged then program else !trippedLevel

/-- The safe values of R1 are called for (R38, R137, R139, R249; assumption 81). A module that asserts a claim, reads the partner module's asserted or
holds its outputs for the hand-off drives none. A partner module in HALT counts as absent only for the last holder (R139). In HALT a module drives
them once the partner module counts as absent after its own claim drop; in hold-up also where no partner module answers on the coupling. -/
def State.safeCalled (s : State) : Bool :=
  decide (s.mode = .halt) && !s.claim.drive && !s.claim.partner && !s.claim.releasing &&
    (if s.pair.linkUp && decide (s.pair.partnerMode = some .halt) then s.mram.lastHolder
     else s.claim.partnerAbsent || (s.carrier.holdup && !s.pair.linkUp))

/-- The safe value of an output channel (R291); none: off or open. -/
def safeValue (c : ChanCfg) (x : Chan) : Option (Bool × Nat) :=
  match c.safeKind with
  | .deEnergise => none
  | .holdLast => if x.hasReleased then some (x.lastOn, x.lastUa) else none
  | .preset => some (c.safeOn, c.safeUa)

/-- What a channel's stage is commanded to (R1, R247, R268 to R270): none where the module does not drive it. -/
def State.wanted (s : State) (n : Nat) (c : ChanCfg) : Option (Bool × Nat) :=
  let x := s.chan n
  if x.changing then none
  else if s.safeCalled then safeValue c x
  else
    match s.tripCfg n with
    | some t =>
      let program := x.hasReleased && x.lastOn
      if t.shared then
        (if (decide (s.mode = .standby) || decide (s.mode = .active)) && s.sbox.running then some (s.tripDrive n t program, 0) else none)
      else if s.claim.releasing || (decide (s.mode = .active) && s.claim.confirmed) then some (s.tripDrive n t program, 0)
      else none
    | none =>
      if s.claim.releasing then (if x.driven then some (x.cmdOn, x.cmdUa) else none)
      else if decide (s.mode = .active) && s.claim.confirmed && x.hasReleased then some (x.lastOn, x.lastUa)
      else none

/-- LIMIT has been held for at least 1 ms. -/
def Chan.limitHeld (x : Chan) (now : Nat) : Bool := decide (x.doState = .limit) && x.limitSince.any (fun t => decide (t + ticksOfMs 1 ≤ now))

/-- Command a discrete output on or off: OFF to ON counts a switch-on, LOCKED and THERMAL follow R282. -/
def chanCommand (n : Nat) (on : Bool) (s : State) : State :=
  let x := s.chan n
  let x' := { x with cmdOn := on }
  if on then
    (if decide (x.doState = .off) then
      let s := s.setChan n { x' with doState := .on, rbFresh := false }
      let s := s.inc (Reg.CH_SWITCHES_COUNT (n / 12) (n % 12))
      { s with mil := { s.mil with now := { s.mil.now with switchOns := Tab.update 0 s.mil.now.switchOns n (satInc 64) } } }
    else s.setChan n { x' with offPeriods := 0 })
  else if decide (x.doState = .locked) then s.setChan n x'
  else s.setChan n { x' with doState := .off, limitSince := none, retrying := false, lastLimit := if x.doState = .limit then some s.time.tick else x.lastLimit,
                             lastHeld := if x.limitHeld s.time.tick then some s.time.tick else x.lastHeld }

/-- Bring one output channel to what the module drives now. -/
def refreshChan (n : Nat) (c : ChanCfg) (s : State) : State :=
  match c.mode with
  | .dout =>
    match s.wanted n c with
    | some (on, _) => let s := chanCommand n on s; s.setChan n { s.chan n with driven := true, safe := s.safeCalled }
    | none => let s := chanCommand n false s; s.setChan n { s.chan n with driven := false, safe := false }
  | .ao =>
    match s.wanted n c with
    | some (_, ua) => s.setChan n { s.chan n with rbFresh := (s.chan n).rbFresh && decide ((s.chan n).cmdUa = ua), driven := true, safe := s.safeCalled, cmdUa := ua, cmdOn := true }
    | none => s.setChan n { s.chan n with driven := false, safe := false, cmdUa := 0, cmdOn := false }
  | _ => s

/-- Bring every output to what the module drives now. -/
def refreshOutputs (s : State) : State := forEach s.channels (fun e s => refreshChan e.1 e.2 s) s

/-! Giving up control. -/

/-- The held state of a discrete output (R247): energised only if energised in the outputs last released and in the last cycle
the partner module acknowledged. -/
def holdChan (n : Nat) (c : ChanCfg) (s : State) : State :=
  let x := s.chan n
  if c.mode = .dout ∧ s.tripCfg n = none ∧ x.driven then
    chanCommand n (x.cmdOn && decide (Tab.getD s.ctl.image n 0 ≠ 0)) s
  else s

/-- A partner module may take over from this one: it stands in STANDBY, or did when the doubt window began (R232, R247). -/
def State.hasHeir (s : State) : Bool := (s.pair.linkUp && decide (s.pair.partnerMode = some .standby)) || s.pair.doubt

/-- Deassert the claim: GAVE_CONTROL, outputs held under R247 while a partner module may take over, otherwise the partner module counts as absent at
once (R38, R137). A module that had not entered ACTIVE drives nothing to hold. -/
def dropClaim (s : State) : State :=
  if s.claim.drive then
    let heir := s.hasHeir && decide (s.mode ≠ .starting)
    let s := forEach s.channels (fun e s => holdChan e.1 e.2 s) s
    let s := { s with claim := { s.claim with drive := false, own := false, confirmed := false, taking := false,
                                               releasing := heir, partnerAbsent := if s.mode = .starting then s.claim.partnerAbsent else !heir, droppedAt := some s.time.tick },
                       pair := { s.pair with pairAddr := false } }
    (canUnclaim s).raise Ev.CPL_GAVE_CONTROL
  else { s with claim := { s.claim with taking := false } }

/-- Stop every lane and discard open cycles: no closure step 3 of an unclosed cycle takes place, and messages taken are due again
(R137, R252). -/
def stopLanes (s : State) : State :=
  let stopTask (t : Task) : Task :=
    if t.phase = .idle then t
    else { t with phase := .idle, deliveries := [], tagOps := [], roleOps := [], msgOps := [], regOps := [], commits := [], postOps := [],
                  wbOps := [], canOps := [], objOps := [], ovlOps := [], retOps := [], refusedOps := [], handed := [], roleReturns := [], goneOps := [],
                  inbox := t.taken ++ t.goneOps.map (·.2) ++ t.inbox, taken := [],
                  cycle := t.lastClosed, blocksDone := [] }
  { s with tasks := s.tasks.map (fun e => (e.1, stopTask e.2))
           lanes := s.lanes.map (fun e => (e.1, { e.2 with block := none, waiting := false, mismatch := none, gateLog := [], gotA := [], gotB := [], restartOn := [], starting := false,
                                                            shadowA := [], shadowB := [] })) }

/-- A label update is requested; held requests merge (R482). -/
def labelRequest (s : State) : State := { s with panel := { s.panel with labelHeld := true } }

/-- Leave the present state for m: a hold code ends with STARTING (R429), a scheduled hand-over does not outlast ACTIVE (R253),
a resynchronisation that an active module served ends without result (R237), and an entry to STANDBY, ACTIVE, HALT or TERMINUS
requests a label update (R482). -/
def setMode (m : Mode) (s : State) : State :=
  let s := if s.mode = .starting then s.put Reg.ID_START_HOLD 0 else s
  let s := { s with mode := m }
  if m = .off ∨ m = .starting then s else labelRequest s

/-- Record a halt reason in MRAM (R4, R482). -/
def recordHalt (reason : Nat) (s : State) : State :=
  let s := labelRequest s
  { s with mram := { s.mram with haltReason := reason, haltValid := true, haltCount := satInc 16 s.mram.haltCount,
                                 haltMinute := s.mram.opMinutes }
           mil := { s.mil with now := { s.mil.now with halts := satInc 32 s.mil.now.halts } } }

/-- A scheduled hand-over ends; the active module raises ROLE_EXCHANGE_FAILED (R253). -/
def cancelHandover (s : State) : State :=
  if s.pair.handoverQ.isSome then
    { s with pair := { s.pair with handoverQ := none, handoverAcked := false, handoverWait := false } }.raiseIf (decide (s.mode = Mode.active)) Ev.CPL_ROLE_EXCHANGE_FAILED
  else s

/-- A running system calibration ends with the previous coefficients kept (R310). -/
def abandonCal (s : State) : State :=
  if s.conv.cal.phase = .idle then s
  else { s with conv := { s.conv with cal := { s.conv.cal with phase := .idle, takes := [], pending := none } } }.raise Ev.CNV_CAL_FAILED

/-- Entry to HALT with a reason (R4, R241): reason first, then the claim, then the state; lanes stop and outputs follow R1. -/
def enterHalt (reason : Nat) (s : State) : State :=
  if s.mode = .starting ∨ s.mode = .standby ∨ s.mode = .active then
    let s := recordHalt reason s
    let s := cancelHandover s
    let s := abandonCal s
    let s := stopLanes s
    let s := dropClaim s
    let s := setMode .halt s
    refreshOutputs { s with pair := { s.pair with resyncSending := false } }
  else s

/-- The copy becomes stale (R233): COPY_STALE when it was current. -/
def markStale (s : State) : State :=
  if s.pair.copyCurrent then
    { s with pair := { s.pair with copyCurrent := false, stale := true } }.raise Ev.CPL_COPY_STALE
  else { s with pair := { s.pair with stale := true } }

/-- The partner module counts as absent: PARTNER_LOST when it did not before (R254). -/
def partnerLost (s : State) : State :=
  let was := s.pair.partnerCurrent
  let s := { s with pair := { s.pair with partnerCurrent := false, awaitingDelta := [] } }
  s.raiseIf was Ev.CPL_PARTNER_LOST

/-- Healthy lanes cover the assigned lanes (R183, R244). -/
def State.lanesCover (s : State) : Bool := decide (s.assigned ≤ s.healthy.length)

/-- A control-critical platform common fault is present (R295). -/
def State.critical (s : State) : Bool := (List.range 8).any (fun p => decide (s.get (Reg.CH_STATUS_CRITICAL p) = 1))

/-- Ready to take control (R244): copy current, no cause of R241, lanes cover, three agreeing evaluators, and no firmware image is just taking effect (R460). -/
def State.ready (s : State) : Bool :=
  decide (s.mode = .standby) && s.pair.copyCurrent && !s.critical && s.lanesCover && decide (s.sbox.evalOk.length = 3)
    && !s.sbox.voteLost && s.sbox.running && (List.range 6).all s.effectOver

end Sys2Proof.Machine
end

