-- ==== Sys2Proof/Machine/Access.lean ====
section
/-! DEFINITION. Refused register accesses (R10, R413) and the origin rules (R411, R413). -/

namespace Sys2Proof.Machine

/-- SRC code of ID_REFUSED_ADDR. -/
def originSrc : Origin → Nat
  | .lane _ => 0
  | .mgmt _ => 1
  | .plant _ => 2
  | .svc _ => 3

/-- Record a refused access in ID_REFUSED_ADDR. -/
def recordRefused (o : Origin) (addr kind : Nat) (write : Bool) (s : State) : State :=
  (((((s.put Reg.ID_REFUSED_ADDR_ADDR addr).put Reg.ID_REFUSED_ADDR_OUTSIDE (b2n (decide (0x1FFFFF < addr)))).put
    Reg.ID_REFUSED_ADDR_SRC (originSrc o)).put Reg.ID_REFUSED_ADDR_KIND kind).put Reg.ID_REFUSED_ADDR_WRITE (b2n write)).put
    Reg.ID_REFUSED_ADDR_VALID 1

/-- An access refused under R10: counted in SHAPE, ACCESS_REFUSED. -/
def refuseShape (o : Origin) (addr : Nat) (write : Bool) (s : State) : State :=
  (recordRefused o addr 0 write (s.inc Reg.ID_REFUSED_SHAPE)).raise Ev.ID_ACCESS_REFUSED

/-- A write refused by origin (R413): counted in ORIGIN, WRITE_REFUSED. -/
def refuseOrigin (o : Origin) (addr : Nat) (s : State) : State :=
  (recordRefused o addr 1 true (s.inc Reg.ID_REFUSED_ORIGIN)).raise Ev.ID_WRITE_REFUSED

/-- A register access meets R9: aligned and within the window. -/
def shapeOk (addr : Nat) : Bool := decide (addr % 4 = 0) && decide (addr < 0x200000)

def isLane : Origin → Bool
  | .lane _ => true
  | _ => false

def isMgmt : Origin → Bool
  | .mgmt _ => true
  | _ => false

def isSvc : Origin → Bool
  | .svc _ => true
  | _ => false

/-- The session of an access through the register access service; every other origin has no session (R383, R413). -/
def sessionOf : Origin → Option Nat
  | .plant k => some k
  | .svc k => some k
  | _ => none

/-- Role rule of R413: a write through the register access service needs a session of role SERVICE. -/
def serviceOk (s : State) (o : Origin) : Bool :=
  match sessionOf o with
  | none => true
  | some k => match Tab.get? s.net.sessions k with | some x => decide (x.role = .service) | none => false

/-- Run f if the origin is accepted; otherwise refuse the write by origin (R413). -/
def byOrigin (ok : Bool) (o : Origin) (addr : Nat) (f : State → State) (s : State) : State :=
  if ok then f s else refuseOrigin o addr s

end Sys2Proof.Machine
end

