-- ==== Sys2Proof/Machine/SignalBox.lean ====
section
/-! DEFINITION. The signal box (R256 to R275): one pass of the three evaluators, the vote, comparators, latches, and the
commands of that family. -/

namespace Sys2Proof.Machine

/-- An analogue comparator as the table reads it: FAIL_VALUE once declared failed (R262). -/
def State.acmpRead (s : State) (c : Nat) : Bool :=
  let x := Tab.getD s.sbox.acmp c AcmpState.reset
  if x.failed then (match findKey s.sbox.table.acmps c with | some g => g.failValue | none => false) else x.state

def State.svcRead (s : State) (c : Nat) : Bool :=
  let x := Tab.getD s.sbox.svc c SvcState.reset
  if x.failed then (match findKey s.sbox.table.svcs c with | some g => g.failValue | none => false) else x.state

def State.gbitRead (s : State) (g : Nat) : Bool :=
  let x := Tab.getD s.sbox.gbit g GbitState.reset
  if x.failed then (match findKey s.sbox.table.gbits g with | some c => c.failValue | none => false) else x.state

/-- Threshold and hysteresis of an analogue comparator in effect (R261): written, from the image, or never true. -/
def State.acmpThr (s : State) (c : Nat) : Int × Int :=
  match Tab.get? s.ctl.sbx (acmpThrAddr c) with
  | some w => (signed 16 w.toNat, (bitsOf w.toNat 16 12 : Int))
  | none => match findKey s.sbox.table.acmps c with
    | some g => (g.threshold, (g.hyst : Int))
    | none => (if c % 2 = 0 then 0x7FFF else -0x8000, 0)

/-- One comparison (R261): HI for even numbers, LO for odd ones; hysteresis on the inner side. -/
def acmpNext (hi : Bool) (thr hyst level : Int) (state : Bool) : Bool :=
  if hi then (if thr < level then true else if level < thr - hyst then false else state)
  else (if level < thr then true else if thr + hyst < level then false else state)

/-- The channel of the running system calibration, whose comparators hold their state (R262). -/
def State.calibrating (s : State) (ch : Nat) : Bool :=
  decide (s.conv.cal.phase ≠ .idle) && decide (s.conv.cal.phase ≠ .waitingVisit) && decide (s.conv.cal.channel = ch)

/-- The comparators of one channel take a level in signed fast codes. -/
def acmpLevel (ch : Nat) (level : Int) (s : State) : State :=
  let m := s.chanMode ch
  let step (c : Nat) (s : State) : State :=
    let x := Tab.getD s.sbox.acmp c AcmpState.reset
    let t := s.acmpThr c
    let v := if m = .ci ∨ m = .vi then acmpNext (decide (c % 2 = 0)) t.1 t.2 level x.state else false
    { s with sbox := { s.sbox with acmp := Tab.put AcmpState.reset s.sbox.acmp c { x with state := v } } }
  if s.calibrating ch then s else step (2 * ch + 1) (step (2 * ch) s)

/-- The value of a term in one evaluator, before inversion; done holds the results of this pass (R257, R258). -/
def State.termInput (s : State) (done : Tab EqState) (t : Term) : Bool :=
  if t.kind = 1 then (s.chan t.index).filtered
  else if t.kind = 2 then s.acmpRead t.index
  else if t.kind = 3 then s.svcRead t.index
  else if t.kind = 4 then s.gbitRead t.index
  else if t.kind = 5 then (Tab.getD done t.index EqState.reset).result
  else false

/-- True when at least K terms are true after inversion (R258); unused terms count for nothing. -/
def State.eqCond (s : State) (done : Tab EqState) (c : EqCfg) : Bool :=
  decide (c.k ≤ (c.terms.filter (fun t => decide (t.kind ≠ 0) && (s.termInput done t != t.invert))).length)

/-- The step of one equation's timers, latch and result (R259, R275). now is in microseconds. -/
def eqNext (armed cond latch resetNow : Bool) (pickupUs dropoutMs now : Nat) (x : EqState) : EqState :=
  if !armed then { cond := cond, result := false, latched := false, trueSince := none, falseSince := none }
  else
    let ts := if cond then some (x.trueSince.getD now) else none
    let fs := if cond then none else some (x.falseSince.getD now)
    let held := x.latched && !(resetNow && !cond)
    let picked := match ts with | some t => decide (pickupUs ≤ now - t) | none => false
    let dropped := match fs with | some t => decide (dropoutMs * 1000 ≤ now - t) | none => false
    let res := if cond then x.result || picked else held || (x.result && !dropped)
    { cond := cond, result := res, latched := latch && (held || (res && cond)), trueSince := ts, falseSince := fs }

/-- Microseconds of the timebase, without its steps. -/
def State.us (s : State) : Nat := s.time.ran / (1000 * 2 ^ 32)

/-- One evaluator's pass over the table, ascending (R258). -/
def evalTable (s : State) (old : Tab EqState) : Tab EqState :=
  forEach (s.sbox.table.equations.filter (fun e => eqUsed e.2)) (fun e done =>
    Tab.put EqState.reset done e.1
      (eqNext (s.eqArmed e.1) (s.eqCond done e.2) e.2.latch (decide (e.1 ∈ s.sbox.resets)) (s.eqPickupUs e.1) (s.eqDropoutMs e.1) s.us
        (Tab.getD old e.1 EqState.reset))) []

/-- A result as the voter sees it: a flip inverts it. -/
def flipped (flips : List (Nat × Nat)) (ev eq : Nat) (t : Tab EqState) : Bool :=
  (Tab.getD t eq EqState.reset).result != decide ((ev, eq) ∈ flips)

/-- The value at least two evaluators agree on; none: in dispute (R266, R267). -/
def vote (vals : List Bool) : Option Bool :=
  if 2 ≤ (vals.filter id).length then some true
  else if 2 ≤ (vals.filter (fun b => !b)).length then some false
  else none

/-- An armed equation becoming true: TRIP and the trip count. -/
def tripEvents (old : Tab EqState) (s : State) : State :=
  forEach s.sbox.table.equations (fun e s =>
    if s.eqArmed e.1 && s.eqResult e.1 && !(Tab.getD old e.1 EqState.reset).result then (s.inc Reg.SBX_TRIPS_COUNT).raise Ev.SBX_TRIP
    else s) s

/-- What follows a change of the voted results: events, publications, outputs. -/
def sbxSettle (old : Tab EqState) (s : State) : State := refreshOutputs (pubCheckAll (tripEvents old s))

/-- The table of an evaluator. -/
def State.evalOf (s : State) (i : Nat) : Tab EqState := if i = 0 then s.sbox.eval0 else if i = 1 then s.sbox.eval1 else s.sbox.eval2

/-- Held SBX writes take effect at the first pass after their closure (R274, R415). -/
def sbxTakeHeld (s : State) : State :=
  let mine := s.heldWrites.filter (fun e => decide (blockBase e.1 = 0x60000))
  { s with heldWrites := s.heldWrites.filter (fun e => decide (blockBase e.1 ≠ 0x60000))
           ctl := { s.ctl with sbx := mine.foldl (fun t e => Tab.set t e.1 e.2) s.ctl.sbx } }

/-- EQUATION triggers (R325, R327): a voted result became true, at the end of this pass. -/
def eqTriggers (old : Tab EqState) (s : State) : State :=
  if s.acqRuns then
    forEach ((s.cfgList (·.triggers)).filter (fun e => decide (e.2.kind = 3))) (fun e s =>
      if s.eqResult e.2.source && !(Tab.getD old e.2.source EqState.reset).result then condMet e.1 s.now true false s else s) s
  else s

/-- The vote at the end of a pass (R266, R267). -/
def sbxVote (flips : List (Nat × Nat)) (timerFault : List Nat) (s : State) : State :=
  let oks := s.sbox.evalOk
  let old := s.sbox.voted
  let used := (s.sbox.table.equations.filter (fun e => eqUsed e.2)).map (·.1)
  let votes := used.map (fun e => (e, vote (oks.map (fun i => flipped flips i e (s.evalOf i)))))
  let dispute := (votes.filter (fun v => v.2.isNone)).map (·.1)
  let crcBad := oks.filter (fun i => decide (i ∈ timerFault))
  let lost := decide (dispute ≠ []) || (decide (crcBad ≠ []) && decide (oks.length - crcBad.length < 2))
  let outvotedNow := if lost then []
    else oks.filter (fun i => decide (i ∈ timerFault) || votes.any (fun v => decide (v.2 ≠ some (flipped flips i v.1 (s.evalOf i)))))
  let failed := outvotedNow.filter (fun i => decide (i ∈ s.sbox.outvoted))
  let transient := s.sbox.outvoted.filter (fun i => decide (i ∉ outvotedNow))
  let first := s.evalOf (oks.headD 0)
  let voted : Tab EqState := votes.foldl (fun t v =>
    let x := Tab.getD first v.1 EqState.reset
    let o := Tab.getD old v.1 EqState.reset
    Tab.put EqState.reset t v.1 { x with result := v.2.getD o.result }) []
  let s := { s with sbox := { s.sbox with voted := voted, dispute := dispute, outvoted := outvotedNow.filter (fun i => decide (i ∉ failed)),
                                          evalOk := oks.filter (fun i => decide (i ∉ failed)), voteLost := s.sbox.voteLost || lost,
                                          resets := [] } }
  let s := forEach transient (fun _ s => s.raise Ev.SBX_SBX_TRANSIENT) s
  let s := forEach failed (fun _ s => s.raise Ev.SBX_SBX_EVAL_FAULT) s
  let s := s.raiseIf lost Ev.SBX_SBX_VOTE_LOST
  let s := eqTriggers old (sbxSettle old s)
  if lost then enterHalt 3 s else s

/-- SBX_PASS (R265, R266): one snapshot, three evaluators, the vote. -/
def sbxPassBody (levels : List (Nat × Int)) (flips : List (Nat × Nat)) (timerFault : List Nat) (s : State) : State :=
  let s := sbxTakeHeld s
  let s := forEach levels (fun e s => acmpLevel e.1 e.2 s) s
  let s := { s with sbox := { s.sbox with eval0 := if 0 ∈ s.sbox.evalOk then evalTable s s.sbox.eval0 else s.sbox.eval0,
                                          eval1 := if 1 ∈ s.sbox.evalOk then evalTable s s.sbox.eval1 else s.sbox.eval1,
                                          eval2 := if 2 ∈ s.sbox.evalOk then evalTable s s.sbox.eval2 else s.sbox.eval2 } }
  sbxVote flips timerFault s

/-- The signal box runs from step 9, in every state but OFF and TERMINUS (R265). -/
def State.sbxRuns (s : State) : Bool := s.sbox.running && s.effectOver 3 && decide (s.mode ≠ .off) && decide (s.mode ≠ .terminus)

def execSbxPass (levels : List (Nat × Int)) (flips : List (Nat × Nat)) (timerFault : List Nat) (s : State) :
    Host.Outcome State Fault Refusal :=
  .next (if s.sbxRuns then sbxPassBody levels flips timerFault s else s)

/-- Apply f to equation e in every running evaluator and in the voted table. -/
def eqEverywhere (e : Nat) (f : EqState → EqState) (s : State) : State :=
  let g (t : Tab EqState) : Tab EqState := Tab.update EqState.reset t e f
  { s with sbox := { s.sbox with eval0 := g s.sbox.eval0, eval1 := g s.sbox.eval1, eval2 := g s.sbox.eval2, voted := g s.sbox.voted } }

/-- A condition's present state has lasted us microseconds. -/
def State.lasted (s : State) (us : Nat) (since : Option Nat) : Bool := since.any (fun t => decide (us ≤ s.us - t))

/-- PICKUP_EXPIRY (R259): the condition of an armed equation has been true for PICKUP_US. -/
def execPickupExpiry (equation : Fin 512) (s : State) : Host.Outcome State Fault Refusal :=
  let e := equation.val
  .next (match s.eqCfg e with
    | some c => if s.sbxRuns && s.eqArmed e && s.lasted (s.eqPickupUs e) (Tab.getD s.sbox.voted e EqState.reset).trueSince then
        sbxSettle s.sbox.voted (eqEverywhere e (fun x => { x with result := true, latched := c.latch }) s)
      else s
    | none => s)

/-- DROPOUT_EXPIRY (R259): the condition has been false for DROPOUT_MS; a latched result stays. -/
def execDropoutExpiry (equation : Fin 512) (s : State) : Host.Outcome State Fault Refusal :=
  let e := equation.val
  let x := Tab.getD s.sbox.voted e EqState.reset
  .next (if s.sbxRuns && s.lasted (s.eqDropoutMs e * 1000) x.falseSince && !x.latched then
      sbxSettle s.sbox.voted (eqEverywhere e (fun x => { x with result := false }) s)
    else s)

/-- Hold a latch reset for the next pass (R259, R274). -/
def holdLatchReset (e : Nat) (s : State) : State := { s with sbox := { s.sbox with resets := addOnce e s.sbox.resets } }

/-- LATCH_RESET (R259, R273): writable only from lanes; taken at the next pass, where it acts only while the condition is false. -/
def execLatchReset (origin : Origin) (equation : Fin 512) (s : State) : Host.Outcome State Fault Refusal :=
  .next (if s.powered then byOrigin (isLane origin) origin (eqStateAddr equation.val) (holdLatchReset equation.val) s else s)

/-- SBX_EVAL_FAULT (R266): an evaluator outvoted in two consecutive passes is excluded until the next start. -/
def execSbxEvalFault (evaluator : Fin 3) (s : State) : Host.Outcome State Fault Refusal :=
  .next (if s.sbxRuns && decide (evaluator.val ∈ s.sbox.evalOk) then
      { s with sbox := { s.sbox with evalOk := s.sbox.evalOk.filter (fun i => decide (i ≠ evaluator.val)),
                                     outvoted := s.sbox.outvoted.filter (fun i => decide (i ≠ evaluator.val)) } }.raise Ev.SBX_SBX_EVAL_FAULT
    else s)

/-- A comparator is named by a term of an equation in use. -/
def State.termUses (s : State) (kind index : Nat) : Bool :=
  s.sbox.table.equations.any (fun e => e.2.terms.any (fun t => decide (t.kind = kind) && decide (t.index = index)))

/-- ACMP_DISAGREE (R262): a comparator that a term uses contradicted 4 consecutive samples; it takes its FAIL_VALUE until the
next start. Supervision is suspended while its channel is calibrated. -/
def execAcmpDisagree (comparator : Fin 192) (s : State) : Host.Outcome State Fault Refusal :=
  let c := comparator.val
  let x := Tab.getD s.sbox.acmp c AcmpState.reset
  .next (if s.sbxRuns && s.termUses 2 c && !s.calibrating (c / 2) && !x.failed then
      { s with sbox := { s.sbox with acmp := Tab.put AcmpState.reset s.sbox.acmp c { x with failed := true } } }.raise Ev.SBX_ACMP_DISAGREE
    else s)

/-- A sampled-value comparator takes its FAIL_VALUE until 2 consecutive good samples arrive; its window is refilled (R263). -/
def svcFail (c : Nat) (s : State) : State :=
  let x := Tab.getD s.sbox.svc c SvcState.reset
  if x.failed then s
  else
    let y := { x with failed := true, goodRun := 0, overRun := 0, window := [] }
    { s with sbox := { s.sbox with svc := Tab.put SvcState.reset s.sbox.svc c y } }.raise Ev.SBX_SVCMP_FAIL

/-- SVCMP_FAIL (R263): 4 missing sample intervals. -/
def execSvcmpFail (comparator : Fin 256) (s : State) : Host.Outcome State Fault Refusal :=
  .next (if s.sbxRuns && (findKey s.sbox.table.svcs comparator.val).isSome then svcFail comparator.val s else s)

end Sys2Proof.Machine
end

