-- ==== Sys2Proof/Machine/Channels.lean ====
section
/-! DEFINITION. Universal channels (R276 to R295, R508, R510): discrete inputs and outputs, adaptive supplies, shortfalls, the
platform common fault bit and its localisation. -/

namespace Sys2Proof.Machine

/-- The platforms are up (step 9 of R61) and powered. -/
def State.chansRun (s : State) : Bool := s.start.platformsUp && s.powered

/-- The field supply of a platform is at least 19.2 V and its fuse closed. -/
def State.fieldGood (s : State) (p : Nat) : Bool :=
  if p < 4 then decide (19200 ≤ s.carrier.fld1Mv) && !s.carrier.fuse1Open else decide (19200 ≤ s.carrier.fld2Mv) && !s.carrier.fuse2Open

/-- Field power of a platform in mV: an open fuse removes it (R31). -/
def State.fieldMv (s : State) (p : Nat) : Nat :=
  if p < 4 then (if s.carrier.fuse1Open then 0 else s.carrier.fld1Mv) else (if s.carrier.fuse2Open then 0 else s.carrier.fld2Mv)

/-- Vmax of R284: the lesser of 26 V and the field supply less 1.5 V. -/
def State.vmax (s : State) (ch : Nat) : Nat := min 26000 (s.fieldMv (ch / 12) - 1500)

/-- The target Vt of R284: loop voltage plus 2.0 V, held within 4.5 V and Vmax. -/
def State.vTarget (s : State) (ch : Nat) : Nat := min (s.vmax ch) (max 4500 ((s.chan ch).loopMv + 2000))

/-! Discrete inputs. -/

/-- DI_INPUT_EDGE (R280): the filter's output edge; the signal box reads it at once, the program after the debounce. -/
def execDiInputEdge (channel : Fin 96) (level : Bool) (s : State) : Host.Outcome State Fault Refusal :=
  let n := channel.val
  let x := s.chan n
  .next (match s.chanCfg n with
    | some c =>
      if s.chansRun && decide (c.mode = .di) && !c.pulsed && x.filtered != level then
        s.setChan n (if c.debounce = 0 then { x with filtered := level, edgeTs := s.ts, edgeUnsync := s.unsync, stateDi := level, debouncing := false }
                     else { x with filtered := level, edgeTs := s.ts, edgeUnsync := s.unsync, debouncing := x.stateDi != level })
      else s
    | none => s)

/-- DI_DEBOUNCE_EXPIRY (R280): the state the program reads changes. -/
def execDiDebounceExpiry (channel : Fin 96) (s : State) : Host.Outcome State Fault Refusal :=
  let n := channel.val
  let x := s.chan n
  .next (if s.chansRun && x.debouncing then s.setChan n { x with stateDi := x.filtered, debouncing := false } else s)

/-- DI_SAMPLE_WINDOW (R279): the state of a steady window; an unsteady one keeps the previous state. -/
def execDiSampleWindow (channel : Fin 96) (steady level : Bool) (s : State) : Host.Outcome State Fault Refusal :=
  let n := channel.val
  let x := s.chan n
  .next (match s.chanCfg n with
    | some c =>
      if s.chansRun && decide (c.mode = .di) && c.pulsed && steady && x.stateDi != level then
        s.setChan n { x with stateDi := level, edgeTs := s.ts, edgeUnsync := s.unsync }
      else s
    | none => s)

/-! Located faults. -/

/-- Class of a kind code (R292): 1 internal, 2 supply, 3 field. -/
def kindClass (k : Nat) : Nat :=
  if k = 1 then 2 else if k = 2 ∨ k = 3 ∨ k = 4 ∨ k = 7 then 3 else if k = 5 ∨ k = 6 ∨ k = 8 ∨ k = 9 then 1 else 0

/-- The bits of FIELD in a 12-bit map with bit c set or cleared. -/
def setBit (m c : Nat) (b : Bool) : Nat := if b then (if m / 2 ^ c % 2 = 1 then m else m + 2 ^ c) else (if m / 2 ^ c % 2 = 1 then m - 2 ^ c else m)

/-- Mark or clear the located fault of a channel. -/
def markChan (n k : Nat) (s : State) : State :=
  let p := n / 12
  let c := n % 12
  let s := { s with chans := Tab.update Chan.reset s.chans n (fun x => { x with kind := k }) }
  let s := (s.put (Reg.CH_FAULT_KIND p c) k).put (Reg.CH_FAULT_CLASS p c) (kindClass k)
  s.put (Reg.CH_FAULT_MAP_LOCATED p) (setBit (s.get (Reg.CH_FAULT_MAP_LOCATED p)) c (decide (k ≠ 0)))

/-- The kind a localisation run finds at a channel (R293); 0: none. Of two marks the later in the procedure stands. An adaptive supply is off its target where
it lies more than 0.5 V from the level it is regulated to, which follows a falling target in steps (R284; assumption 118). -/
def findKind (s : State) (supplyBad : Bool) (n : Nat) (c : ChanCfg) : Nat :=
  let x := s.chan n
  let now := s.time.tick
  match c.mode with
  | .dout =>
    if x.doState = .locked then 4
    else if supplyBad then 1
    else if x.doState = .thermal then 3
    else if x.doState = .limit ∧ x.limitSince.any (fun t => decide (t + ticksOfMs 5 < now)) then 2
    else if x.rbFresh ∧ x.cmdOn ∧ x.currUa < 10000 ∧ x.doState = .on ∧ x.lastLimit.all (fun t => decide (t + ticksOfMs 1000 < now)) then 5
    else 0
  | .ao =>
    if supplyBad then 1
    else if x.offSince.any (fun t => decide (t + ticksOfMs 2 < now)) then 6
    else if x.rbFresh ∧ x.driven ∧ x.supplyMv + 100 < s.vmax n ∧ x.voltMv + 1500 ≤ (x.supplyMv : Int) ∧ (x.currUa + 240 < x.cmdUa ∨ x.cmdUa + 240 < x.currUa) then 5
    else 0
  | .ci => if 30000 < x.currUa then 7 else if supplyBad ∧ c.loopPower then 1 else 0
  | .vi => if x.voltMv < -12000 ∨ 12000 < x.voltMv then 7 else 0
  | _ => 0

/-- Critical mask of a platform (R295). -/
def State.critMask (s : State) (p : Nat) : Nat := s.policy.critical.getD p 0

/-- The end of a localisation run: classes, unlocated flag, CRITICAL and its consequence (R295, R241): an active module halts, and a module at step 11b asserts no claim (R65). -/
def locateEnd (p : Nat) (kinds : List Nat) (supplyBad : Bool) (s : State) : State :=
  let has (c : Nat) : Bool := kinds.any (fun k => decide (kindClass k = c))
  let supply := supplyBad || has 2
  let bit := decide (s.get (Reg.CH_STATUS_COMMON_FAULT p) = 1)
  let unloc := bit && !(has 1 || has 3 || supply)
  let mask := s.critMask p
  let crit := ((has 1 || unloc) && decide (mask % 2 = 1)) || (supply && decide (mask / 2 % 2 = 1)) || (has 3 && decide (mask / 4 % 2 = 1))
  let s := (((s.put (Reg.CH_STATUS_UNLOCATED p) (b2n unloc)).put (Reg.CH_STATUS_CLASS_INTERNAL p) (b2n (has 1))).put
    (Reg.CH_STATUS_CLASS_SUPPLY p) (b2n supply)).put (Reg.CH_STATUS_CLASS_FIELD p) (b2n (has 3))
  let s := s.put (Reg.CH_STATUS_CRITICAL p) (b2n crit)
  let s := s.raiseIf (has 1 || has 3 || supply) (Ev.CH_FAULT_LOCATED p)
  let s := s.raiseIf unloc (Ev.CH_FAULT_UNLOCATED p)
  let s := if unloc then { s with conv := { s.conv with tts := Tab.update Turntable.reset s.conv.tts p (fun t => { t with queue := List.range 12 }) } }
    else s
  if crit && decide (s.mode = .active) then enterHalt 6 s
  else if crit && decide (s.mode = .starting) then dropClaim s
  else s

/-- One localisation run of platform p (R293). -/
def locateRun (p : Nat) (s : State) : State :=
  let supplyBad := !s.fieldGood p
  let chans := (List.range 12).map (fun c => 12 * p + c)
  let kinds := chans.map (fun n => match s.chanCfg n with | some c => findKind s supplyBad n c | none => 0)
  let s := forEach (chans.zip kinds) (fun e s => markChan e.1 e.2 s) s
  locateEnd p kinds supplyBad s

/-- A channel's supply lies off its level by more than 0.5 V, since when (R292). -/
def offLevel (now : Nat) (x : Chan) : Option Nat :=
  if x.levelMv + 500 < x.supplyMv ∨ x.supplyMv + 500 < x.levelMv then some (x.offSince.getD now) else none

/-- A readback enters its channel (R293, R508). -/
def takeReadback (r : Readback) (s : State) : State :=
  let x := s.chan r.channel
  let x := { x with voltMv := r.voltMv, currUa := r.currUa, supplyMv := r.supplyMv, rbFresh := true, rbTs := some s.ts, rbUnsync := s.unsync,
                    retrying := x.retrying && decide (r.currUa < 10000) }
  s.setChan r.channel { x with offSince := if s.chanMode r.channel = .ao then offLevel s.time.tick x else none }

/-- Take readbacks into the channels of platform p. -/
def takeReadbacks (p : Nat) (l : List Readback) (s : State) : State :=
  forEach (l.filter (fun r => decide (r.channel / 12 = p) && decide (r.channel < 96))) takeReadback s

/-- The common fault bit rises (R292): COMMON_FAULT_SET and a localisation run. -/
def commonFaultRise (p : Nat) (s : State) : State :=
  locateRun p ((s.put (Reg.CH_STATUS_COMMON_FAULT p) 1).raiseIf (decide (s.get (Reg.CH_STATUS_COMMON_FAULT p) = 0)) (Ev.CH_COMMON_FAULT_SET p))

/-- Without field power the adaptive supply of a current output stands at 0 until it is stepped up again (R30, R31). -/
def supplyGone (input : Nat) (s : State) : State :=
  forEach s.channels (fun e s =>
    if e.1 / 48 = input ∧ e.2.mode = .ao ∧ s.vmax e.1 = 0 then s.setChan e.1 { s.chan e.1 with supplyMv := 0, levelMv := 0, offSince := none, learned := false } else s) s

/-- The common fault bit of each platform that a field input feeds (R30, R31). -/
def fieldBad (input : Nat) (s : State) : State :=
  if s.chansRun then forEach (List.range 4) (fun k s => commonFaultRise (4 * input + k) s) (supplyGone input s) else s

/-- COMMON_FAULT_SET (R292, R293). -/
def execCommonFaultSet (platform : Fin 8) (readbacks : List Readback) (s : State) : Host.Outcome State Fault Refusal :=
  .next (if s.chansRun then commonFaultRise platform.val (takeReadbacks platform.val readbacks s) else s)

/-- COMMON_FAULT_CLEARED (R292, R293): the bit falls, and one run follows. -/
def execCommonFaultCleared (platform : Fin 8) (readbacks : List Readback) (s : State) : Host.Outcome State Fault Refusal :=
  let p := platform.val
  .next (if s.chansRun && decide (s.get (Reg.CH_STATUS_COMMON_FAULT p) = 1) then
      locateRun p (((takeReadbacks p readbacks s).put (Reg.CH_STATUS_COMMON_FAULT p) 0).raise (Ev.CH_COMMON_FAULT_CLEARED p))
    else s)

/-- LOCATE (R293): a write of CH_CTRL LOCATE starts a run. -/
def locateWrite (p : Nat) (s : State) : State := if s.chansRun then locateRun p s else s

def execLocate (origin : Origin) (platform : Fin 8) (s : State) : Host.Outcome State Fault Refusal :=
  .next (if s.powered then byOrigin (serviceOk s origin) origin (0x80004 + 0x10000 * platform.val) (locateWrite platform.val) s else s)

/-- LOCALISATION_REPEAT (R293): every 100 ms while the bit stays set. -/
def execLocalisationRepeat (platform : Fin 8) (readbacks : List Readback) (s : State) : Host.Outcome State Fault Refusal :=
  let p := platform.val
  .next (if s.chansRun && decide (s.get (Reg.CH_STATUS_COMMON_FAULT p) = 1) then locateRun p (takeReadbacks p readbacks s) else s)

/-! Discrete outputs (R282). -/

def State.isDo (s : State) (n : Nat) : Bool := s.chansRun && decide (s.chanMode n = .dout)

/-- DO_LIMIT_ENTER: ON becomes LIMIT. -/
def execDoLimitEnter (channel : Fin 96) (s : State) : Host.Outcome State Fault Refusal :=
  let n := channel.val
  let x := s.chan n
  .next (if s.isDo n && decide (x.doState = .on) then s.setChan n { x with doState := .limit, limitSince := some s.time.tick, retrying := false } else s)

/-- DO_LIMIT_CLEAR: the current has stayed below the limit for 1 ms; LIMIT becomes ON. -/
def execDoLimitClear (channel : Fin 96) (s : State) : Host.Outcome State Fault Refusal :=
  let n := channel.val
  let x := s.chan n
  .next (if s.isDo n && decide (x.doState = .limit) then
      s.setChan n { x with doState := .on, limitSince := none, lastLimit := some s.time.tick,
                           lastHeld := if x.limitHeld s.time.tick then some s.time.tick else x.lastHeld }
    else s)

/-- THERMAL entries within the last 60 s. -/
def recent60 (now : Nat) (l : List Nat) : List Nat := l.filter (fun t => decide (now < t + ticksOfMs 60000))

/-- A stage that stops conducting has shut down on temperature where LIMIT was held for at least 1 ms within the last 1 s, or where a retry finds it still
shut down; else it has failed (R282, R510). -/
def Chan.hot (x : Chan) (now : Nat) : Bool := x.limitHeld now || x.retrying || x.lastHeld.any (fun t => decide (now ≤ t + ticksOfMs 1000))

/-- DO_THERMAL_ENTER: THERMAL, or LOCKED at the 8th entry within 60 s. -/
def execDoThermalEnter (channel : Fin 96) (s : State) : Host.Outcome State Fault Refusal :=
  let n := channel.val
  let x := s.chan n
  let l := recent60 s.time.tick x.thermals ++ [s.time.tick]
  .next (if s.isDo n && (decide (x.doState = .on) || decide (x.doState = .limit)) && x.hot s.time.tick then
      let x := { x with retrying := false, lastHeld := if x.limitHeld s.time.tick then some s.time.tick else x.lastHeld, offPeriods := 0 }
      let last := if x.doState = .limit then some s.time.tick else x.lastLimit
      if 8 ≤ l.length then
        markChan n 4 (((s.setChan n { x with doState := .locked, thermals := l, limitSince := none, lastLimit := last }).raise
          (Ev.CH_THERMAL_SHUTDOWN (n / 12))).raise (Ev.CH_OUTPUT_LOCKED (n / 12)))
      else (s.setChan n { x with doState := .thermal, thermals := l, limitSince := none, lastLimit := last }).raise (Ev.CH_THERMAL_SHUTDOWN (n / 12))
    else s)

/-- DO_THERMAL_RETRY: after at least 100 ms, with the command still on, the sequencer retries ON. -/
def execDoThermalRetry (channel : Fin 96) (s : State) : Host.Outcome State Fault Refusal :=
  let n := channel.val
  let x := s.chan n
  .next (if s.isDo n && decide (x.doState = .thermal) && x.cmdOn && x.thermals.all (fun t => decide (t + ticksOfMs 100 ≤ s.time.tick)) then
      s.setChan n { x with doState := .on, retrying := true }
    else s)

/-- DO_LOCKED_RELEASE: the command has been off for one whole converter period; LOCKED becomes OFF and its fault ends. -/
def execDoLockedRelease (channel : Fin 96) (s : State) : Host.Outcome State Fault Refusal :=
  let n := channel.val
  let x := s.chan n
  .next (if s.isDo n && decide (x.doState = .locked) && !x.cmdOn && decide (2 ≤ x.offPeriods) then markChan n 0 (s.setChan n { x with doState := .off }) else s)

/-! Current outputs and inputs. -/

/-- ADAPTIVE_SUPPLY_STEP (R284): a rising target is reached, a falling one followed by at most 0.5 V; the load is learned when the
supply first reaches its target. A module that does not drive holds the level of the last SUPPLY record (R289). -/
def execAdaptiveSupplyStep (channel : Fin 96) (loopMv : Nat) (s : State) : Host.Outcome State Fault Refusal :=
  let n := channel.val
  .next (if s.chansRun && decide (s.chanMode n = .ao) && (s.chan n).driven then
      let s := s.setChan n { s.chan n with loopMv := loopMv }
      let x := s.chan n
      let vt := s.vTarget n
      let v := if x.supplyMv ≤ vt then vt else max vt (x.supplyMv - 500)
      let v := min v (max vt (s.vmax n))
      s.setChan n { x with supplyMv := v, levelMv := v, offSince := none, learned := x.learned || decide (v = vt) }
    else s)

/-- Show a shortfall in CH_STATE and CH_FAULT_MAP. -/
def setShortfall (n : Nat) (compliance openLoop : Bool) (s : State) : State :=
  let p := n / 12
  let c := n % 12
  let s := s.setChan n { s.chan n with compliance := compliance, openLoop := openLoop, goodPeriods := 0 }
  s.put (Reg.CH_FAULT_MAP_SHORTFALL p) (setBit (s.get (Reg.CH_FAULT_MAP_SHORTFALL p)) c (compliance || openLoop))

/-- COMPLIANCE (R286): a shortfall above 0.1 % of span at Vmax for 4 ms. -/
def execCompliance (channel : Fin 96) (achievedUa : Nat) (s : State) : Host.Outcome State Fault Refusal :=
  let n := channel.val
  .next (if s.chansRun && decide (s.chanMode n = .ao) && (s.chan n).driven then
      let s := s.setChan n { s.chan n with currUa := achievedUa }
      if achievedUa + 24 < (s.chan n).cmdUa ∧ s.vmax n ≤ (s.chan n).supplyMv then
        (setShortfall n true false s).raiseIf (!(s.chan n).compliance) (Ev.CH_COMPLIANCE (n / 12))
      else s
    else s)

/-- OPEN_LOOP (R286): command at least 1 mA, achieved below 0.2 mA, at Vmax for 4 ms. -/
def execOpenLoop (channel : Fin 96) (achievedUa : Nat) (s : State) : Host.Outcome State Fault Refusal :=
  let n := channel.val
  .next (if s.chansRun && decide (s.chanMode n = .ao) && (s.chan n).driven then
      let s := s.setChan n { s.chan n with currUa := achievedUa }
      if 1000 ≤ (s.chan n).cmdUa ∧ achievedUa < 200 ∧ s.vmax n ≤ (s.chan n).supplyMv then
        (setShortfall n false true s).raiseIf (!(s.chan n).openLoop) (Ev.CH_OPEN_LOOP (n / 12))
      else s
    else s)

/-- LIVE_ZERO_LOST (R287): a supervised current input below 3.6 mA for one whole converter period. -/
def execLiveZeroLost (channel : Fin 96) (s : State) : Host.Outcome State Fault Refusal :=
  let n := channel.val
  .next (match s.chanCfg n with
    | some c => if s.chansRun && decide (c.mode = .ci) && c.liveZero && !(s.chan n).liveZeroLost then
        (s.setChan n { s.chan n with liveZeroLost := true, goodPeriods := 0 }).raise (Ev.CH_LIVE_ZERO_LOST (n / 12))
      else s
    | none => s)

/-- A channel's new settings begin: one period in the terminal state of UNUSED, the adaptive supply at its maximum (R277, R284). -/
def beginChange (n : Nat) (c : ChanCfg) (s : State) : State :=
  let s := s.setChan n { Chan.reset with changing := true }
  let s := s.setChan n { s.chan n with supplyMv := s.vmax n, levelMv := s.vmax n }
  s.raiseIf (decide (s.chanMode n ≠ c.mode)) (Ev.CH_MODE_CHANGED (n / 12))

/-- The converter period boundary at a channel: shortfalls and live-zero losses end after one whole period within their bounds (R286, R287), a locked
output counts its periods with the command off (R282), and a change of settings begins, or ends at the end of the period after it (R277). -/
def chanPeriod (n : Nat) (c : ChanCfg) (s : State) : State :=
  let x := s.chan n
  if x.changeFrom.isSome then beginChange n c s
  else
    let within : Bool := match c.mode with
      | .ao => decide (x.cmdUa ≤ x.currUa + 24) && decide (x.currUa ≤ x.cmdUa + 24)
      | .ci => decide (3600 ≤ x.currUa)
      | _ => true
    let s := if x.compliance || x.openLoop || x.liveZeroLost then
        (if !within then s.setChan n { x with goodPeriods := 0 }
         else if x.goodPeriods = 0 then s.setChan n { x with goodPeriods := 1 }
         else let s := setShortfall n false false s; s.setChan n { s.chan n with liveZeroLost := false })
      else s
    let y := s.chan n
    s.setChan n { y with changing := false, offPeriods := if y.doState = .locked ∧ !y.cmdOn then min 2 (y.offPeriods + 1) else 0 }

end Sys2Proof.Machine
end

