-- ==== Sys2Proof/Machine/Conversion.lean ====
section
/-! DEFINITION. Conversion, characteristics and calibration (R296 to R320): results and their queue, mains period, system
calibration, the turntable converter and coefficient records. -/

namespace Sys2Proof.Machine

/-! Coefficients (R309, R318). -/

/-- Coefficient variant of a channel (R318). -/
def variantOf (c : ChanCfg) : Nat :=
  match c.mode with
  | .ao => 1
  | .ci => 2
  | .vi => if c.bipolar then 4 else 3
  | _ => 0

/-- Key of a coefficient set: kind 1 converter, 2 system. -/
def coefKey (kind conv variant : Nat) : Nat := kind * 1000 + conv * 5 + variant

/-- Coefficients in effect. -/
def State.coef (s : State) (kind conv variant : Nat) : Coef := Tab.getD s.conv.coefs (coefKey kind conv variant) Coef.reset

/-! Coefficient records (R318 to R320). -/

/-- Key of a record's slot in the calibration area: two alternating slots for each format, kind, converter and variant. -/
def recKey (format coef slot : Nat) : Nat := 2 * (10000 * format + coef) + slot

/-- The newest record of a kind in a format: of the two that count, the one with the higher GENERATION. -/
def newestRec (t : Tab CoefRec) (format coef : Nat) : Option CoefRec :=
  match Tab.get? t (recKey format coef 0), Tab.get? t (recKey format coef 1) with
  | some a, some b => if a.coef.generation < b.coef.generation then some b else some a
  | some a, none => some a
  | none, b => b

/-- A coefficient as a format stores it: binary32 in format 0x01 (R320). -/
def storedCoef (format : Nat) (c : Coef) : Coef :=
  if format = 1 then { c with offset := f64OfF32 (f32OfF64 c.offset), gain := f64OfF32 (f32OfF64 c.gain) } else c

/-- Write a record in one format into the slot other than the newest's, its GENERATION raised by 1. -/
def writeRec (format coef : Nat) (r : CoefRec) (t : Tab CoefRec) : Tab CoefRec :=
  let g := match newestRec t format coef with | some o => o.coef.generation + 1 | none => 1
  let slot := if (match newestRec t format coef, Tab.get? t (recKey format coef 0) with | some o, some a => decide (o = a) | _, _ => false) then 1 else 0
  Tab.set t (recKey format coef slot) { r with coef := { storedCoef format r.coef with generation := g }, applied := if format = 1 then [] else r.applied }

/-- The formats in which records are written: from the activation of a new one until CONFIRM both (R320). -/
def State.coefFormats (s : State) : List Nat :=
  let x := s.fwRegion 5
  if x.trial then [fmtIn (activeFw x) 5, fmtIn (prevFw x) 5].dedup else [fmtIn (activeFw x) 5]

/-- A record of coefficients written now, junction temperature as measured. -/
def State.recordNow (s : State) (c : Coef) (applied : List Nat) : CoefRec :=
  ⟨c, s.ts, (Config.measured (2 ^ 43) s.time.tick).toNat % 2 ^ 16, applied⟩

/-- Write coefficients into the calibration area, in every format due. -/
def recordCoef (coef : Nat) (c : Coef) (applied : List Nat) (s : State) : State :=
  { s with conv := { s.conv with records := forEach s.coefFormats (fun f t => writeRec f coef (s.recordNow c applied) t) s.conv.records } }

/-- The coefficients that the records give: of each the newest record in the newest format that the firmware reads (R318, R464). -/
def State.recordedCoefs (s : State) : Tab Coef :=
  s.conv.records.foldl (fun t e =>
    let coef := e.1 / 2 % 10000
    let format := e.1 / 20000
    if s.reads 5 format then (match newestRec s.conv.records format coef with | some r => Tab.set t coef r.coef | none => t) else t) []

def State.variant (s : State) (n : Nat) : Nat := match s.chanCfg n with | some c => variantOf c | none => 0

/-- No system coefficients for the present variant (R309). -/
def State.sysUncal (s : State) (n : Nat) : Bool := (Tab.get? s.conv.coefs (coefKey 2 n (s.variant n))).isNone

/-- The converter stage of R309 with the coefficients of a converter. -/
def State.convert (s : State) (conv variant : Nat) (raw : DWord) : DWord :=
  let c := s.coef 1 conv variant
  f64Mul c.gain (f64Sub raw c.offset)

/-- The converter that carries a channel: the platform's turntable converter in windows W2 to W5 of its visit (R312). -/
def State.carrier96 (s : State) (n : Nat) : Nat :=
  let t := Tab.getD s.conv.tts (n / 12) Turntable.reset
  if 2 ≤ t.window ∧ t.channel = n % 12 then 96 + n / 12 else n

/-- m of R309: the converter stage of the converter that carries the channel. -/
def State.stage1 (s : State) (n : Nat) (raw : DWord) : DWord := s.convert (s.carrier96 n) (s.variant n) raw

/-- x of R309: the system stage; g_s = 1 and o_s = 0 where the variant has none. -/
def State.quantity (s : State) (n : Nat) (raw : DWord) : DWord :=
  let m := s.stage1 n raw
  if s.sysUncal n then m else let c := s.coef 2 n (s.variant n); f64Add (f64Mul c.gain m) c.offset

/-- Fast codes per measurement unit (mA or V) of R296. -/
def codesPerUnit (variant : Nat) : Nat := if variant = 0 then 1000 else if variant = 1 ∨ variant = 2 then 1250 else 3000

/-- Span of R296 in measurement units. -/
def spanOf (variant : Nat) : Nat := if variant = 0 then 30 else if variant = 1 ∨ variant = 2 then 24 else if variant = 3 then 10 else 20

/-- A code: quantity times k, rounded to nearest with ties to even, saturated to w bits; with the OVERRANGE flag (R296). -/
def codeOf (x : DWord) (k w : Nat) : Int × Bool :=
  let r := (f64 x).rat
  let n := r.1 * (k : Int)
  let q : Int := if n < 0 then -(roundDiv n.natAbs r.2 : Int) else (roundDiv n.natAbs r.2 : Int)
  let hi : Int := 2 ^ (w - 1) - 1
  let lo : Int := -(2 ^ (w - 1))
  if q < lo then (lo, true) else if hi < q then (hi, true) else (q, false)

/-! The result queue (R302 to R304). -/

/-- Key of the result table: channel and kind. -/
def resKey (ch kind : Nat) : Nat := ch * 8 + kind

/-- One entry leaves the queue for the result table (R303). -/
def drainOne (s : State) : State :=
  match s.conv.queue with
  | [] => s
  | e :: q => { s with conv := { s.conv with queue := q, results := Tab.set s.conv.results (resKey e.channel e.kind) e } }

/-- An entry enters the queue; a full queue discards it (R303), and the monitor moves when overtaken (R304). -/
def enqueue (e : QEntry) (s : State) : State :=
  if 4096 ≤ s.conv.queue.length then
    { (s.inc Reg.CNV_QCOUNT_OVERRUNS) with conv := { s.conv with lostBefore := addOnce (e.channel, e.kind) s.conv.lostBefore } }.raise
      Ev.CNV_QUEUE_OVERRUN
  else
    let lost := decide ((e.channel, e.kind) ∈ s.conv.lostBefore)
    let e := if lost then { e with flags := e.flags ||| 16 } else e
    let skip := decide (s.conv.monitor + 4096 < s.conv.entered + 1)
    let s := { s with conv := { s.conv with queue := s.conv.queue ++ [e], copy := lastN 4096 (s.conv.copy ++ [e]), entered := s.conv.entered + 1,
                                            lostBefore := s.conv.lostBefore.filter (fun k => decide (k ≠ (e.channel, e.kind))),
                                            monitor := if skip then s.conv.monitor + 1 else s.conv.monitor } }
    let s := if skip then s.inc Reg.CNV_QCOUNT_MON_SKIPPED else s
    s.atLeast Reg.CNV_QUEUE_MAX s.conv.queue.length

/-- The 16 bytes of an entry (R302). -/
def qBytes (e : QEntry) : List Byte :=
  [BitVec.ofNat 8 e.channel, BitVec.ofNat 8 e.kind, BitVec.ofNat 8 e.flags, BitVec.ofNat 8 e.variant] ++ leBytes 4 (twos 32 e.value)
    ++ leBytes 8 e.time.toNat

/-- Show words in consecutive one-field registers. -/
def putWords (f : Nat → Fld) (l : List Word) (s : State) : State :=
  forEach (l.zip (List.range l.length)) (fun e s => s.put (f e.2) e.1.toNat) s

/-- QPOP (R304): latch the monitor's next entry; zeros if none. -/
def qpopWrite (s : State) : State :=
  let i := s.conv.monitor + s.conv.copy.length - s.conv.entered
  match if s.conv.monitor < s.conv.entered then s.conv.copy[i]? else none with
  | some e => putWords (fun n => Reg.CNV_Q_Wn_WORD n) (leWords 4 (qBytes e)) { s with conv := { s.conv with monitor := s.conv.monitor + 1 } }
  | none => putWords (fun n => Reg.CNV_Q_Wn_WORD n) [0#32, 0#32, 0#32, 0#32] s

def execQpop (origin : Origin) (s : State) : Host.Outcome State Fault Refusal :=
  .next (if s.powered then byOrigin (serviceOk s origin) origin 0x100004 qpopWrite s else s)

/-! Characteristics (R305 to R308). -/

/-- Fraction f of R305 and R306: (x − X0) / (X1 − X0). -/
def charFrac (x x0 x1 : DWord) : DWord := f64Div (f64Sub x x0) (f64Sub x1 x0)

/-- Interpolation in a table (R307): value and LIMIT code. -/
def tableAt (x : DWord) : List (DWord × DWord) → DWord × DWord → DWord × Nat
  | [], last => (last.2, 2)
  | p :: rest, prev =>
    if f64Le x p.1 then (f64Add prev.2 (f64Div (f64Mul (f64Sub p.2 prev.2) (f64Sub x prev.1)) (f64Sub p.1 prev.1)), 0)
    else tableAt x rest p

/-- The engineering value and its LIMIT code (0b01 low, 0b10 high, 0b11 constant) (R305 to R307). -/
def charValue (c : Characteristic) (cutoff : Bool) (x : DWord) : DWord × Nat :=
  match c with
  | .none => (x, 0)
  | .linear x0 x1 e0 e1 =>
    (f64Add e0 (f64Div (f64Mul (f64Sub e1 e0) (f64Sub x x0)) (f64Sub x1 x0)), if f64Lt x x0 then 1 else if f64Lt x1 x then 2 else 0)
  | .squareRoot x0 x1 e0 e1 _ =>
    if cutoff then (e0, 3)
    else (f64Add e0 (f64Mul (f64Sub e1 e0) (f64Sqrt (charFrac x x0 x1))), if f64Lt x1 x then 2 else 0)
  | .table pts =>
    match pts with
    | [] => (x, 0)
    | p :: rest => if f64Lt x p.1 then (p.2, 1) else tableAt x rest p

/-- The low-flow cutoff state after quantity x (R306): in below C, out from 1.1 × C. -/
def cutoffNext (c : Characteristic) (cut : Bool) (x : DWord) : Bool :=
  match c with
  | .squareRoot x0 x1 _ _ lim =>
    let f := charFrac x x0 x1
    if f64Lt f lim then true else if cut && f64Lt f (f64Mul (f64OfRat 11 10) lim) then true else false
  | _ => false

/-- The command current in µA of an AO command tag (R305, R308): through the inverse of the linear characteristic, clamped to
0 to 24 mA and rounded to 1 µA. -/
def commandUa (c : Characteristic) (v : DWord) : Nat :=
  let ma := match c with
    | .linear x0 x1 e0 e1 => f64Add x0 (f64Div (f64Mul (f64Sub x1 x0) (f64Sub v e0)) (f64Sub e1 e0))
    | _ => v
  if f64Lt ma 0#64 then 0
  else if f64Lt (f64OfInt 24) ma then 24000
  else (codeOf ma 1000 33).1.toNat

/-! Results. -/

/-- The turntable converter carries a channel. -/
def State.onTurntable (s : State) (n : Nat) : Bool := decide (s.carrier96 n ≠ n)

/-- Flags of a result (R302). -/
def State.resFlags (s : State) (n : Nat) (sat integrated : Bool) : Nat :=
  b2n (s.onTurntable n) + 2 * b2n sat + 4 * b2n (integrated && (decide (s.conv.src = 0) || decide (s.conv.src = 3))) + 8 * b2n (s.calibrating n)

/-- Take a measured quantity into the channel's readbacks and cutoff state. -/
def takeQuantity (n : Nat) (x : DWord) (s : State) : State :=
  match s.chanCfg n with
  | some c =>
    let y := s.chan n
    let y := { y with cutoff := cutoffNext c.characteristic y.cutoff x }
    match c.mode with
    | .ao => s.setChan n { y with currUa := (codeOf x 1000 33).1.toNat, rbFresh := true }
    | .ci => s.setChan n { y with currUa := (codeOf x 1000 33).1.toNat, rbFresh := true }
    | _ => s.setChan n { y with voltMv := (codeOf x 1000 33).1, rbFresh := y.rbFresh }
  | none => s

/-- Results of one instant in CHANNEL order (R303). -/
def inOrder (l : List RawSample) : List RawSample := (List.range 104).flatMap (fun n => l.filter (fun r => decide (r.channel = n)))

/-- An integrated result of one converter at a window's end (R296, R301, R302): the instant is the window's midpoint. -/
def integratedResult (r : RawSample) (s : State) : State :=
  let mid := (Stamp.ofFine (s.now.fine - s.conv.periodNs * 2 ^ 31)).tagTs
  if r.channel < 96 then
    let n := r.channel
    let v := s.variant n
    let x := s.quantity n r.raw
    let code := codeOf x (codesPerUnit v * 256) 24
    let s := enqueue ⟨n, 1, s.resFlags n code.2 true, v, code.1, mid, x, s.unsync⟩ s
    let s := takeQuantity n x s
    if decide (s.conv.cal.phase = .taking) && decide (s.conv.cal.channel = n) && decide (s.conv.cal.takes.length < 16) then
      { s with conv := { s.conv with cal := { s.conv.cal with takes := s.conv.cal.takes ++ [s.stage1 n r.raw] } } }
    else s
  else if r.channel < 104 then
    let code := codeOf r.raw 256000 24
    enqueue ⟨r.channel, 5, 1 + 2 * b2n code.2, 0, code.1, mid, r.raw, s.unsync⟩ s
  else s

/-- A fast result (R300, R301): into the queue for channels with FAST_QUEUE, otherwise straight into the result table. -/
def fastResult (r : RawSample) (s : State) : State :=
  if r.channel < 96 then
    let n := r.channel
    let v := s.variant n
    let x := s.quantity n r.raw
    let code := codeOf x (codesPerUnit v) 16
    let e : QEntry := ⟨n, 2, s.resFlags n code.2 false, v, code.1, s.fastInstant.tagTs, x, s.unsync⟩
    let s := takeQuantity n x s
    if (match s.chanCfg n with | some c => c.fastQueue | none => false) then enqueue e s
    else { s with conv := { s.conv with results := Tab.set s.conv.results (resKey n 2) e } }
  else s

/-! The mains period (R298, R299). -/

/-- The configured nominal period. -/
def State.nominalNs (s : State) : Nat := match s.img with | some i => if i.mains60 then 16666667 else 20000000 | none => 20000000

/-- Two measurements agree within 0.5 %. -/
def agreeHalfPct (a b : Nat) : Bool := decide (max a b * 200 ≤ min a b * 201)

/-- Choose the source in force (R299): primary, secondary, held, nominal. -/
def choosePeriod (s : State) : State :=
  let c := s.conv
  match c.primary.lost, c.primary.accepted, c.secondary.lost, c.secondary.accepted with
  | false, some p, _, _ => { s with conv := { c with src := 1, pendingNs := some p } }
  | _, _, false, some p => { s with conv := { c with src := 2, pendingNs := some p } }
  | _, a, _, b =>
    if c.src = 0 ∧ a.isNone ∧ b.isNone then s
    else if c.src = 0 then s
    else { s with conv := { c with src := 3 } }

/-- One measurement of a period source (R298): accepted, kept as a candidate, or refused. -/
def measurePeriod (p : PeriodState) (inForce periodNs amplitudePct : Nat) (good : Bool) : PeriodState :=
  let bounds := decide (1000000000 ≤ periodNs * 70) && decide (periodNs * 40 ≤ 1000000000) && decide (10 ≤ amplitudePct) && good
  if !bounds then { p with lost := true, candidates := [] }
  else if periodNs * 100 ≤ inForce * 105 ∧ inForce * 95 ≤ periodNs * 100 then { accepted := some periodNs, candidates := [], lost := false }
  else
    match lastN 2 p.candidates with
    | [a, b] =>
      if agreeHalfPct a b && agreeHalfPct a periodNs && agreeHalfPct b periodNs then { accepted := some periodNs, candidates := [], lost := false }
      else { p with lost := true, candidates := [b, periodNs] }
    | l => { p with lost := true, candidates := l ++ [periodNs] }

/-- PERIOD_MEASUREMENT (R298, R299). -/
def execPeriodMeasurement (secondary : Bool) (periodNs amplitudePct : Nat) (qualityGood : Bool) (s : State) :
    Host.Outcome State Fault Refusal :=
  let old := if secondary then s.conv.secondary else s.conv.primary
  let new := measurePeriod old s.conv.periodNs periodNs amplitudePct qualityGood
  let declared := match s.img with | some i => (if secondary then i.secondary.isSome else i.primary.isSome) | none => false
  .next (if s.chansRun && declared then
      let s := if secondary then { s with conv := { s.conv with secondary := new } } else { s with conv := { s.conv with primary := new } }
      (choosePeriod s).raiseIf (!old.lost && new.lost) Ev.CNV_PERIOD_SOURCE_LOST
    else s)

/-- PERIOD_NOMINAL (R299): both sources lost for longer than 10 s. -/
def execPeriodNominal (s : State) : Host.Outcome State Fault Refusal :=
  .next (if s.chansRun && s.conv.primary.lost && s.conv.secondary.lost && decide (s.conv.src ≠ 0) then
      { s with conv := { s.conv with src := 0, pendingNs := some s.nominalNs } }.raise Ev.CNV_PERIOD_NOMINAL
    else s)

/-! System calibration (R310, R311). -/

def setCal (f : Cal → Cal) (s : State) : State := { s with conv := { s.conv with cal := f s.conv.cal } }

def calResult (r : Nat) (s : State) : State := s.put Reg.CNV_CAL_STATUS_RESULT r

/-- A command is held until the next converter period boundary (R310). -/
def holdCal (channel cmd : Nat) (s : State) : State :=
  if channel < 96 ∧ 1 ≤ cmd ∧ cmd ≤ 6 then setCal (fun c => { c with pending := some (channel, cmd) }) s else s

/-- A value of the calibration registers (binary32) as binary64. -/
def State.zeroVal (s : State) : DWord := f64OfF32 (s.get Reg.CNV_CAL_ZERO_VAL_VZERO)
def State.spanVal (s : State) : DWord := f64OfF32 (s.get Reg.CNV_CAL_SPAN_VAL_VSPAN)

/-- COMMIT (R311). -/
def calCommit (s : State) : State :=
  let c := s.conv.cal
  let v := s.variant c.channel
  let span := f64OfInt (spanOf v)
  let dv := f64Sub c.vSpan c.vZero
  let g := f64Div dv (f64Sub c.mSpan c.mZero)
  let o := f64Sub c.vZero (f64Mul g c.mZero)
  let bad := !(f64Le (f64OfRat 99 100) g && f64Le g (f64OfRat 101 100)) || !f64Le (f64Abs o) (f64Mul (f64OfRat 1 100) span)
  let small := f64Lt dv (f64Mul (f64OfRat 1 2) span)
  let busy := s.recent10 s.mram.calWrittenAt
  if bad then (calResult 2 s).raise Ev.CNV_CAL_FAILED
  else if small then (calResult 3 s).raise Ev.CNV_CAL_FAILED
  else if busy then (calResult 4 s).raise Ev.CNV_CAL_FAILED
  else
    let k := coefKey 2 c.channel v
    let new : Coef := ⟨o, g, 0⟩
    let s := recordCoef k new ([c.vZero, c.vSpan, c.mZero, c.mSpan].map f32OfF64) s
    let s := { s with conv := { s.conv with coefs := Tab.set s.conv.coefs k new }
                      mram := { s.mram with calWrittenAt := some s.sbyNow } }
    (calResult 0 (setCal (fun c => { c with phase := .committed }) s)).raise Ev.CNV_CAL_DONE

/-- A held calibration command acts at the boundary (R310, R311). -/
def calAct (ch cmd : Nat) (s : State) : State :=
  let c := s.conv.cal
  let mine := decide (c.channel = ch) && decide (c.phase ≠ .idle)
  if cmd = 1 then
    (if c.phase ≠ .idle then calResult 5 s
     else
      let t := Tab.getD s.conv.tts (ch / 12) Turntable.reset
      let busy := decide (t.window ≠ 0) && decide (t.channel = ch % 12)
      calResult 0 (setCal (fun c => { c with phase := if busy then .waitingVisit else .started, channel := ch, takes := [] }) s))
  else if cmd = 2 then
    (if mine && (decide (c.phase = .started) || decide (c.phase = .zeroTaken) || decide (c.phase = .spanTaken)) then
      calResult 0 (setCal (fun c => { c with phase := .taking, takingSpan := false, takes := [], vZero := s.zeroVal }) s)
     else calResult 5 s)
  else if cmd = 3 then
    (if mine && (decide (c.phase = .zeroTaken) || decide (c.phase = .spanTaken)) then
      calResult 0 (setCal (fun c => { c with phase := .taking, takingSpan := true, takes := [], vSpan := s.spanVal }) s)
     else calResult 5 s)
  else if cmd = 4 then (if mine && decide (c.phase = .spanTaken) then calCommit s else (calResult 5 s).raise Ev.CNV_CAL_FAILED)
  else if cmd = 5 then (if mine then calResult 0 (setCal (fun c => { c with phase := .idle }) s) else calResult 5 s)
  else (if mine then calResult 0 (abandonCal s) else calResult 5 s)

/-- The calibration at a boundary: a wait for a visit ends, and a held command acts. -/
def calBoundary (s : State) : State :=
  let c := s.conv.cal
  let t := Tab.getD s.conv.tts (c.channel / 12) Turntable.reset
  let s := if c.phase = .waitingVisit ∧ (t.window = 0 ∨ t.channel ≠ c.channel % 12) then setCal (fun c => { c with phase := .started }) s else s
  match c.pending with
  | some (ch, cmd) => calAct ch cmd (setCal (fun c => { c with pending := none, lastAt := s.time.tick }) s)
  | none => s

/-- The mean of a list of binary64 values, and whether they spread over at most 0.005 % of span. -/
def calMean (span : Nat) (l : List DWord) : DWord × Bool :=
  let sum := l.foldl f64Add 0#64
  let mx := l.foldl (fun a b => if f64Lt a b then b else a) (l.headD 0#64)
  let mn := l.foldl (fun a b => if f64Lt b a then b else a) (l.headD 0#64)
  (f64Div sum (f64OfInt l.length), f64Le (f64Sub mx mn) (f64Mul (f64OfRat 1 20000) (f64OfInt span)))

/-- CAL_TAKE_DONE (R310): 16 windows have been averaged. -/
def execCalTakeDone (s : State) : Host.Outcome State Fault Refusal :=
  let c := s.conv.cal
  let v := s.variant c.channel
  let m := calMean (spanOf v) c.takes
  .next (if s.chansRun && decide (c.phase = .taking) && decide (c.takes.length = 16) then
      let back : CalPhase := if c.takingSpan then .zeroTaken else .started
      if m.2 then
        let code := codeOf m.1 (codesPerUnit v * 256) 24
        let e : QEntry := ⟨c.channel, if c.takingSpan then 4 else 3, s.resFlags c.channel code.2 true, v, code.1, s.ts, m.1, s.unsync⟩
        enqueue e (calResult 0 (setCal (fun c => if c.takingSpan then { c with phase := .spanTaken, mSpan := m.1 }
          else { c with phase := .zeroTaken, mZero := m.1 }) s))
      else calResult 1 (setCal (fun c => { c with phase := back }) s)
    else s)

/-- A write of CNV_CAL_CMD from an allowed origin. -/
def calCmdBy (origin : Origin) (channel cmd : Nat) (s : State) : State :=
  if s.powered then byOrigin (serviceOk s origin) origin 0x100030 (holdCal channel cmd) s else s

def execCalStart (origin : Origin) (channel : Fin 96) (s : State) : Host.Outcome State Fault Refusal := .next (calCmdBy origin channel.val 1 s)
def execTakeZero (origin : Origin) (channel : Fin 96) (s : State) : Host.Outcome State Fault Refusal := .next (calCmdBy origin channel.val 2 s)
def execTakeSpan (origin : Origin) (channel : Fin 96) (s : State) : Host.Outcome State Fault Refusal := .next (calCmdBy origin channel.val 3 s)
def execCommit (origin : Origin) (channel : Fin 96) (s : State) : Host.Outcome State Fault Refusal := .next (calCmdBy origin channel.val 4 s)
def execCalEnd (origin : Origin) (channel : Fin 96) (s : State) : Host.Outcome State Fault Refusal := .next (calCmdBy origin channel.val 5 s)
def execAbort (origin : Origin) (channel : Fin 96) (s : State) : Host.Outcome State Fault Refusal := .next (calCmdBy origin channel.val 6 s)

/-- CAL_TIMEOUT (R310): no command for 1,800 s; the calibration ends as if ABORT had been written. -/
def execCalTimeout (s : State) : Host.Outcome State Fault Refusal :=
  .next (if s.chansRun && decide (s.conv.cal.lastAt + ticksOfMs 1800000 ≤ s.time.tick) then abandonCal s else s)

/-! The turntable converter (R312 to R317). -/

def State.tt (s : State) (p : Nat) : Turntable := Tab.getD s.conv.tts p Turntable.reset
def State.setTt (s : State) (p : Nat) (t : Turntable) : State := { s with conv := { s.conv with tts := Tab.put Turntable.reset s.conv.tts p t } }

/-- A turntable converter becomes faulty (R315). -/
def ttFault (p : Nat) (s : State) : State :=
  let s := s.setTt p { s.tt p with faulty := true, window := 0, checkLeft := 0, suspect := none }
  (s.put Reg.CNV_STATUS_TT_FAULT (setBit (s.get Reg.CNV_STATUS_TT_FAULT) p true)).raise Ev.CNV_TT_FAULT

/-- A channel converter is marked faulty (R314, R315): CONVERTER under R293, and the unlocated flag is cleared. -/
def converterFault (n : Nat) (s : State) : State :=
  ((markChan n 8 (s.put (Reg.CH_STATUS_UNLOCATED (n / 12)) 0)).put (Reg.CNV_CH_VISIT_VERDICT n) 2).raise Ev.CNV_CONVERTER_FAULT

/-- A visit ends; the self-check over three windows follows. A request for the channel is served. -/
def endVisit (p : Nat) (suspect : Option Nat) (s : State) : State :=
  let t := s.tt p
  let n := 12 * p + t.channel
  let s := if s.get Reg.CNV_TEST_STATUS_CHANNEL = n ∧ s.get Reg.CNV_TEST_STATUS_STATUS = 1 then s.put Reg.CNV_TEST_STATUS_STATUS 5 else s
  let s := if !t.priority && decide (t.next = 0) then
      s.put (Reg.CNV_TT_ROTATION_S p) (satTo 8 ((s.time.tick - t.rotationStart) / 125000000)) else s
  s.setTt p { t with window := 0, checkLeft := 3, suspect := suspect }

/-- The coefficients of the visited channel before the visit carry it again (R315). -/
def restoreCoef (p : Nat) (s : State) : State :=
  let t := s.tt p
  let n := 12 * p + t.channel
  match t.oldCoef with
  | some c => { s with conv := { s.conv with coefs := Tab.set s.conv.coefs (coefKey 1 n (s.variant n)) c } }
  | none => s

/-- The two converters agree on the visited channel within 0.01 % of span (R312). -/
def State.convertersAgree (s : State) (n : Nat) (m : TtMeasure) : Bool :=
  let v := s.variant n
  f64Le (f64Abs (f64Sub (s.convert n v m.ownRaw) (s.convert (96 + n / 12) v m.ttRaw))) (f64Mul (f64OfRat 1 10000) (f64OfInt (spanOf v)))

/-- New coefficients c against old ones: the offset change in measurement units, and the change of gain. -/
def offsetChange (c old : Coef) : DWord := f64Mul c.gain (f64Sub c.offset old.offset)
def gainChange (c old : Coef) : DWord := f64Sub c.gain old.gain

/-- Coefficients differ by at most a fraction of span in offset and a fraction of the gain. -/
def coefsWithin (span : Nat) (c old : Coef) (dOffset dGain : DWord) : Bool :=
  f64Le (f64Abs (offsetChange c old)) (f64Mul dOffset (f64OfInt span)) && f64Le (f64Abs (gainChange c old)) (f64Mul dGain (f64Abs old.gain))

/-- The factory record of a converter (R318, R319). -/
def State.factoryCoef (s : State) (conv variant : Nat) : Coef :=
  match newestRec s.conv.records (s.fmt 5) (coefKey 3 conv variant) with | some r => r.coef | none => Coef.reset

/-- Reference measurements within the limits of R314. -/
def State.withinLimits (s : State) (n : Nat) (c : Coef) : Bool :=
  let v := s.variant n
  coefsWithin (spanOf v) c (s.coef 1 n v) (f64OfRat 5 10000) (f64OfRat 500 1000000)
    && coefsWithin (spanOf v) c (s.factoryCoef n v) (f64OfRat 5 1000) (f64OfRat 5 1000)

/-- Changes in ppm of span and of gain (CNV_CH_DRIFT). -/
def driftPpm (span : Nat) (c old : Coef) : Int × Int :=
  ((codeOf (f64Div (offsetChange c old) (f64OfInt span)) 1000000 16).1, (codeOf (f64Div (gainChange c old) old.gain) 1000000 16).1)

/-- One window of a visit or self-check ends on platform p (R312 to R315). -/
def ttWindow (p : Nat) (m : TtMeasure) (s : State) : State :=
  let t := s.tt p
  let n := 12 * p + t.channel
  if t.faulty then s
  else if t.checkLeft ≠ 0 then
    (if 1 < t.checkLeft then s.setTt p { t with checkLeft := t.checkLeft - 1 }
     else if m.selfCheck then
      let s := s.setTt p { t with checkLeft := 0, suspect := none }
      match t.suspect with | some c => converterFault c s | none => s
     else
      let s := match t.suspect with | some c => s.put (Reg.CNV_CH_VISIT_VERDICT c) 4 | none => s
      ttFault p s)
  else if t.window = 0 then s
  else if t.window = 1 then (if s.convertersAgree n m then s.setTt p { t with window := 2 } else endVisit p (some n) s)
  else if t.window < 4 then s.setTt p { t with window := t.window + 1 }
  else if t.window = 4 then
    (let c : Coef := ⟨m.newOffset, m.newGain, (s.coef 1 n (s.variant n)).generation⟩
     if s.withinLimits n c then
      { s with conv := { s.conv with coefs := Tab.set s.conv.coefs (coefKey 1 n (s.variant n)) c } }.setTt p { t with window := 5 }
     else endVisit p none (converterFault n s))
  else
    (if s.convertersAgree n m then
      let d := driftPpm (spanOf (s.variant n)) (s.coef 1 n (s.variant n)) (t.oldCoef.getD Coef.reset)
      let s := ((s.put (Reg.CNV_CH_VISIT_VERDICT n) 1).put (Reg.CNV_CH_DRIFT_OFFSET_PPM n) (twos 16 d.1)).put (Reg.CNV_CH_DRIFT_GAIN_PPM n) (twos 16 d.2)
      let s := { s with conv := { s.conv with visited := Tab.set s.conv.visited n s.time.tick,
                                              adopted := addOnce (coefKey 1 n (s.variant n)) s.conv.adopted } }
      endVisit p none s
     else endVisit p (some n) (restoreCoef p s))

/-- TURNTABLE_VISIT_START (R313): a priority request first, otherwise the next channel in order; visits skip a channel under
calibration (R310). Rotation runs in STARTING after step 9, STANDBY, ACTIVE and HALT. -/
def execTurntableVisitStart (platform : Fin 8) (s : State) : Host.Outcome State Fault Refusal :=
  let p := platform.val
  let t := s.tt p
  .next (if s.chansRun && decide (s.mode ≠ .terminus) && !t.faulty && decide (t.window = 0) && decide (t.checkLeft = 0) then
      let begin (c : Nat) (prio : Bool) (t : Turntable) (s : State) : State :=
        let n := 12 * p + c
        let s := if prio then s.put (Reg.CNV_CH_VISIT_PRIORITY n) 0 else s
        s.setTt p { t with window := 1, channel := c, priority := prio, oldCoef := some (s.coef 1 n (s.variant n)) }
      match t.queue.filter (fun c => !s.calibrating (12 * p + c)) with
      | c :: _ => begin c true { t with queue := t.queue.filter (fun d => decide (d ≠ c)) } s
      | [] =>
        let c := if s.calibrating (12 * p + t.next) then (t.next + 1) % 12 else t.next
        let start := if c = 0 then s.time.tick else t.rotationStart
        begin c false { t with next := (c + 1) % 12, rotationStart := start } s
    else s)

/-- A request for a priority visit (R316). -/
def testReqWrite (n : Nat) (s : State) : State :=
  if n < 96 then
    let p := n / 12
    let t := s.tt p
    let s := s.put Reg.CNV_TEST_STATUS_CHANNEL n
    if t.faulty then s.put Reg.CNV_TEST_STATUS_STATUS 2
    else if s.calibrating n then s.put Reg.CNV_TEST_STATUS_STATUS 3
    else if n % 12 ∈ t.queue then s.put Reg.CNV_TEST_STATUS_STATUS 4
    else if t.window ≠ 0 ∧ t.channel = n % 12 then s.put Reg.CNV_TEST_STATUS_STATUS 1
    else ((s.setTt p { t with queue := t.queue ++ [n % 12] }).put Reg.CNV_TEST_STATUS_STATUS 1).put (Reg.CNV_CH_VISIT_PRIORITY n) 1
  else s

def execTestReq (origin : Origin) (channel : Fin 96) (s : State) : Host.Outcome State Fault Refusal :=
  .next (if s.powered then byOrigin (serviceOk s origin) origin 0x100040 (testReqWrite channel.val) s else s)

/-- A visit is abandoned: mode change or hold-up (R317). -/
def abandonVisit (p : Nat) (s : State) : State :=
  let t := s.tt p
  if t.window = 0 then s
  else
    let s := restoreCoef p s
    (s.setTt p { t with window := 0 }).put (Reg.CNV_CH_VISIT_VERDICT (12 * p + t.channel)) 3

/-- A mode change ends a visit and a system calibration of its channel at that boundary (R310, R317). -/
def changeEnds (n : Nat) (c : ChanCfg) (s : State) : State :=
  if (s.chan n).changeFrom.isSome && (match findKey (s.cfgList (·.channels)) n with | some d => decide (d.mode ≠ c.mode) | none => true) then
    let s := if (s.tt (n / 12)).channel = n % 12 then abandonVisit (n / 12) s else s
    if s.conv.cal.phase ≠ .idle ∧ s.conv.cal.channel = n then abandonCal s else s
  else s

/-- Hold-up ends every visit (R317). -/
def holdupVisits (s : State) : State := forEach (List.range 8) abandonVisit s

/-- COEFFICIENT_BATCH_WRITE (R318): adopted converter coefficients are written; a batch due within 10 s of a commit waits. -/
def execCoefficientBatchWrite (s : State) : Host.Outcome State Fault Refusal :=
  .next (if s.chansRun && decide (s.conv.adopted ≠ []) && !s.recent10 s.mram.calWrittenAt then
      let s := forEach s.conv.adopted (fun k s => recordCoef k (Tab.getD s.conv.coefs k Coef.reset) [] s) s
      { s with conv := { s.conv with adopted := [] }, mram := { s.mram with calWrittenAt := some s.sbyNow } }
    else s)

/-- CONVERTER_PERIOD_BOUNDARY (R297): the window's results enter the queue, visits and calibration advance, mode changes and
shortfalls end, and a newly accepted period takes force. -/
def execConverterPeriodBoundary (results : List RawSample) (tt : List TtMeasure) (s : State) : Host.Outcome State Fault Refusal :=
  .next (if s.chansRun then
      let s := forEach (inOrder results) integratedResult s
      let s := forEach (tt.filter (fun m => decide (m.platform < 8))) (fun m s => ttWindow m.platform m s) s
      let s := calBoundary s
      let s := forEach s.channels (fun e s => chanPeriod e.1 e.2 (changeEnds e.1 e.2 s)) s
      let s := { s with conv := { s.conv with periodNs := s.conv.pendingNs.getD s.conv.periodNs, pendingNs := none } }
      refreshOutputs s
    else s)

end Sys2Proof.Machine
end

