-- ==== Sys2Proof/Machine/Acquisition.lean ====
section
/-! DEFINITION. The disturbance recorder (R321 to R346): rings and frames, triggers, segments, records and their commit. -/

namespace Sys2Proof.Machine

def State.defState (s : State) (d : Nat) : DefState := Tab.getD s.acq.defs d DefState.reset
def State.setDef (s : State) (d : Nat) (x : DefState) : State := { s with acq := { s.acq with defs := Tab.put DefState.reset s.acq.defs d x } }

/-- The settings of a definition in force. -/
def State.defCfg (s : State) (d : Nat) : Option DefCfg := (s.defState d).cfg

/-- Definitions in force. -/
def State.defsNow (s : State) : List (Nat × DefCfg) := s.acq.defs.filterMap (fun (e : Nat × DefState) => e.2.cfg.map (fun c => (e.1, c)))

/-- Frame length in bytes (R322): padded to a multiple of 8. -/
def frameLen (c : DefCfg) : Nat :=
  let n := if c.sv then 4 * c.channels.length + 2 * (c.channels.map (·.1)).dedup.length else 2 * c.channels.length
  (n + 7) / 8 * 8

/-- Segment size and capacity of a definition (R323). -/
def segSize (c : DefCfg) : Nat :=
  let f := frameLen c
  128 + f * (c.pre + c.extendMax * c.post) + 2 * f * c.reduceCount + 24 * c.tagEntries

def defCapacity (c : DefCfg) : Nat := (c.allotMib * 1048576 - frameLen c * c.pre) / segSize c

/-- Segments of definition d that occupy its allotment: open, in the open record, or awaiting commit. -/
def State.segsUsed (s : State) (d : Nat) : Nat :=
  let x := s.defState d
  b2n x.seg.isSome + (match x.record with | some r => r.segments.length | none => 0)
    + ((s.acq.toCommit.filter (fun r => decide (r.definition = d))).foldl (fun n r => n + r.segments.length) 0)

/-- The ARMED bit in effect (written, or from the image) is held in the definition's state. -/
def State.armed (s : State) (d : Nat) : Bool := (s.defState d).armed

/-- The raw and reduced parts of a segment are complete (R331). -/
def segDone (g : Segment) : Bool := decide (g.rawNeed ≤ g.raw.length) && decide (g.redNeed ≤ g.reduced.length)

/-- The least or greatest good sample of one channel over an interval (R339); 0 where it has none. -/
def extreme (most : Bool) (l : List FrameSample) : FrameSample :=
  match l.filter (·.good) with
  | [] => ⟨0, false⟩
  | h :: t => t.foldl (fun a b => if decide (a.value < b.value) = most then b else a) h

/-- The frame of least or of greatest samples of an interval; flag words hold the interval's flags, and MISSING for a channel without a good sample (R339). -/
def extremeFrame (c : DefCfg) (most : Bool) (l : List Frame) : Frame :=
  let col (k : Nat) : FrameSample := extreme most (l.filterMap (fun f => f.samples[k]?))
  let samples := (List.range c.channels.length).map col
  let bare (sub : Nat) : Bool := (c.channels.zip samples).any (fun p => decide (p.1.1 = sub) && !p.2.good)
  let flags := if c.sv then ((c.channels.map (·.1)).dedup.zipIdx).map (fun p => l.foldl (fun n f => n ||| (f.flags[p.2]?).getD 0) 0 ||| b2n (bare p.1)) else []
  ⟨match l.getLast? with | some f => f.time | none => Stamp.zero, samples, flags⟩

/-- A frame enters an open segment (R331). -/
def segFrame (c : DefCfg) (quality : Nat) (f : Frame) (g : Segment) : Segment :=
  let g := { g with quality := max g.quality quality }
  if g.raw.length < g.rawNeed then { g with raw := g.raw ++ [f] }
  else if g.reduced.length < g.redNeed then
    (let iv := g.interval ++ [f]
     if c.reduceN ≤ iv.length then { g with interval := [], reduced := g.reduced ++ [(extremeFrame c false iv, extremeFrame c true iv)] }
     else { g with interval := iv })
  else g

/-- Tag changes before the first frame of a ring are of no more use. -/
def trimLog (ring : List Frame) (log : List (Stamp × Nat × Tag)) : List (Stamp × Nat × Tag) :=
  match ring.head? with
  | some f => log.filter (fun e => decide (f.time.fine < e.1.fine))
  | none => []

/-- A frame of definition d: into the open segment until that is complete, and into the ring of its latest PRE frames. -/
def addFrame (d : Nat) (c : DefCfg) (f : Frame) (s : State) : State :=
  let x := s.defState d
  let ring := if x.armed then lastN c.pre (x.ring ++ [f]) else []
  s.setDef d { x with ring := ring, tagLog := trimLog ring x.tagLog, seg := x.seg.map (segFrame c s.time.quality f) }

/-- FAST_SAMPLE (R300): fast results of every converter; a frame of every LOCAL definition (R322). -/
def execFastSample (samples : List RawSample) (s : State) : Host.Outcome State Fault Refusal :=
  .next (if s.chansRun && s.effectOver 5 then
      let l := inOrder samples
      let s := forEach l fastResult s
      let code (n : Nat) : FrameSample := match l.find? (fun r => decide (r.channel = n)) with
        | some r => ⟨(codeOf (s.quantity n r.raw) (codesPerUnit (s.variant n)) 16).1, true⟩
        | none => ⟨0, false⟩
      if s.acqRuns then
        forEach (s.defsNow.filter (fun e => !e.2.sv)) (fun e s => addFrame e.1 e.2 ⟨s.fastInstant, e.2.channels.map (fun k => code k.1), []⟩ s) s
      else s
    else s)

/-! Opening segments and records. -/

/-- A trigger is lost (R334). -/
def trigLost (d : Nat) (s : State) : State :=
  let x := s.defState d
  let s := s.setDef d { x with record := x.record.map (fun r => { r with lost := r.lost + 1 }) }
  ((s.inc Reg.ACQ_LOST_TRIGGERS).inc (Reg.ACQ_DEF_COUNT_LOST d)).raise Ev.ACQ_TRIGGER_LOST

/-- Next block of the ring (R340, R341): records that have lost a block are gone. -/
def writeBlocks (n : Nat) (s : State) : State :=
  let q := s.acq.blockSeq + n
  let same := decide (s.acq.blkSecond = s.second)
  let last := if same then s.acq.blkLast else if s.acq.blkSecond + 1 = s.second then s.acq.blkCount else 0
  let count := if same then s.acq.blkCount + n else n
  { s with acq := { s.acq with blockSeq := q, blkSecond := s.second, blkCount := count, blkLast := last, stored := s.acq.stored.filter (fun r => decide (q ≤ r.firstBlock + 131072)) } }

/-- Unit of a universal channel's quantity (R337, R296): V, or mA. -/
def quantityUnit (variant : Nat) : Nat := if variant = 1 ∨ variant = 2 then 3 else 1

/-- Engineering value per fast code, and at code 0, of a universal channel (R337): its linear characteristic over its code unit, or the measured quantity. -/
def chanScale (variant : Nat) (ch : Characteristic) : Word × Word :=
  let u := f64Div (f64OfInt 1) (f64OfInt (codesPerUnit variant))
  match ch with
  | .linear x0 x1 e0 e1 =>
    let slope := f64Div (f64Sub e1 e0) (f64Sub x1 x0)
    (BitVec.ofNat 32 (f32OfF64 (f64Mul slope u)), BitVec.ofNat 32 (f32OfF64 (f64Sub e0 (f64Mul slope x0))))
  | _ => (BitVec.ofNat 32 (f32OfF64 u), 0#32)

/-- The channel table of a definition (R336, R337): its channels, then its tags. -/
def State.chanTable (s : State) (c : DefCfg) : List ChanEntry :=
  let label (k : Nat) : ChanLabel := (c.labels[k]?).getD ⟨0, 0#32, 0#32, []⟩
  let chan (p : (Nat × Nat) × Nat) : ChanEntry :=
    let l := label p.2
    if c.sv then ⟨2, l.unit, p.1.1 * 32 + p.1.2, 0, l.gain, l.offset, l.name, false⟩
    else
      let ch := match s.chanCfg p.1.1 with | some g => g.characteristic | none => .none
      let g := chanScale (s.variant p.1.1) ch
      ⟨1, match ch with | .linear .. => l.unit | _ => quantityUnit (s.variant p.1.1), p.1.1, 0, g.1, g.2, l.name, false⟩
  let tag (p : Nat × Nat) : ChanEntry :=
    let l := label (c.channels.length + p.2)
    ⟨3, l.unit, 0, p.1, l.gain, l.offset, l.name, s.isBoolTag p.1⟩
  (c.channels.zipIdx).map chan ++ (c.tags.zipIdx).map tag

/-- Open a record (R335, R341): its opened note is written. -/
def openRecord (d : Nat) (c : DefCfg) (e : TrigEvent) (s : State) : State :=
  let r : Record := ⟨s.acq.nextId, d, e.time, s.digest, [], 0, 0, c, s.chanTable c, s.fixed.serial, s.carrier.slotB⟩
  let s := writeBlocks 1 s
  let note : StoredRec := ⟨r, s.acq.blockSeq - 1, 1, true⟩
  let s := { s with acq := { s.acq with nextId := s.acq.nextId + 1, openCount := s.acq.openCount + 1, stored := s.acq.stored ++ [note] } }
  (s.setDef d { s.defState d with record := some r }).raise Ev.ACQ_RECORD_OPENED

/-- Frames at or before an instant. -/
def framesTo (t : Stamp) (l : List Frame) : Nat := (l.filter (fun f => decide (f.time.fine ≤ t.fine))).length

/-- The value that a tag source showed at an instant (R331): the first that it ceased to show afterwards, or what it shows now. -/
def tagAt (x : DefState) (t : Stamp) (g : Nat) (now : Tag) : Tag :=
  match x.tagLog.find? (fun e => decide (e.2.1 = g) && decide (t.fine < e.1.fine)) with | some e => e.2.2 | none => now

/-- Open a segment (R331). Ring frames after the trigger instant are the first of its POST frames (assumption 121). -/
def openSegment (d : Nat) (c : DefCfg) (e : TrigEvent) (s : State) : State :=
  let x := s.defState d
  let n := framesTo e.time x.ring
  let start := match x.ring.head? with | some f => f.time | none => s.now
  let entries := c.tags.map (fun t => (t, tagAt x start t (Tab.getD s.ctl.tags t Tag.zero)))
  let g : Segment :=
    { trigger := e, raw := x.ring.take n, reduced := [], interval := [], rawLimit := n + c.extendMax * c.post,
      rawNeed := n + c.post, redNeed := if c.reduceN = 0 then 0 else c.reduceCount, retriggers := [], retrigCount := 0,
      extended := false, cut := false, preShort := decide (x.ring.length < c.pre), tagEntries := entries.take c.tagEntries,
      tagsCut := decide (c.tagEntries < entries.length), stepped := false, quality := s.time.quality, errNs := s.get Reg.TIME_SERVO_ERR_NS,
      freeId := s.freeCount }
  let g := (x.ring.drop n).foldl (fun g f => segFrame c s.time.quality f g) g
  ({ s with freeCount := s.freeCount + 1 }.setDef d { x with seg := some g }).inc (Reg.ACQ_DEF_COUNT_TAKEN d)

/-- A trigger for a definition without an open segment (R333 to R335). -/
def startSegment (d : Nat) (c : DefCfg) (e : TrigEvent) (s : State) : State :=
  let s := if s.acq.openSecond = s.second then s else { s with acq := { s.acq with openSecond := s.second, openCount := 0 } }
  if defCapacity c ≤ s.segsUsed d then trigLost d s
  else if (s.defState d).record.isNone then
    (if 100 ≤ s.acq.openCount then trigLost d s else openSegment d c e (openRecord d c e s))
  else openSegment d c e s

/-- The trigger with the earlier instant; of the same instant, the one with the lower number (R332). -/
def ahead (a b : TrigEvent) : Bool :=
  decide (a.time.fine < b.time.fine) || (decide (a.time.fine = b.time.fine) && decide (a.trigger < b.trigger))

/-- A trigger in the raw part (R332): the earlier one is the segment's own, the other counts as a retrigger. -/
def retrigger (c : DefCfg) (e : TrigEvent) (g : Segment) : Segment :=
  let own := if ahead e g.trigger then e else g.trigger
  let other := if ahead e g.trigger then g.trigger else e
  let g := { g with trigger := own, retrigCount := satInc 16 g.retrigCount,
                    retriggers := if g.retriggers.length < 4 then g.retriggers ++ [other.time] else g.retriggers }
  if 1 < c.extendMax then { g with extended := true, rawNeed := max g.rawNeed (min g.rawLimit (framesTo other.time g.raw + c.post)) } else g

/-- A trigger meets definition d (R332, R333). -/
def trigDef (d : Nat) (e : TrigEvent) (s : State) : State :=
  match s.defCfg d with
  | none => s
  | some c =>
    let x := s.defState d
    if !x.armed then s
    else if x.rearming then s.setDef d { x with held := x.held ++ [e] }
    else match x.seg with
      | none => if x.closing.isSome then s else startSegment d c e s
      | some g =>
        if g.raw.length < g.rawNeed then s.setDef d { x with seg := some (retrigger c e g) }
        else if segDone g then s.setDef d { x with held := x.held ++ [e] }
        else
          let n := if g.interval = [] then g.reduced.length else g.reduced.length + 1
          s.setDef d { x with seg := some { g with cut := true, redNeed := min g.redNeed n }, held := x.held ++ [e] }

/-- A trigger for every definition of a mask, ascending. -/
def trigMask (mask : Nat) (e : TrigEvent) (s : State) : State :=
  forEach ((List.range 16).filter (fun d => decide (mask / 2 ^ d % 2 = 1))) (fun d s => trigDef d e s) s

/-- The comparator of an ACMP trigger neither failed nor held under calibration (R326). -/
def State.acmpTriggers (s : State) (c : Nat) : Bool :=
  !(Tab.getD s.sbox.acmp c AcmpState.reset).failed && !s.calibrating (c / 2)

/-- The instant of a comparator edge (R328): the main counter at its tick, and fine steps of 250 ps, less the channel's front-end delay. -/
def State.edgeInstant (s : State) (comparator fine : Nat) : Stamp :=
  Stamp.ofFine (s.now.fine + fine * 2 ^ 30 - Config.frontEndDelay (comparator / 2))

/-- The converter measures edges of one input at least 100 ns apart (R328); none closer (assumption 122). -/
def State.edgeApart (s : State) (comparator : Nat) (at_ : Stamp) : Bool :=
  match Tab.get? s.acq.edges comparator with | some t => decide (t.fine + 100 * 2 ^ 32 ≤ at_.fine) | none => true

/-- A comparator edge that the time-to-digital converter measures (R326, R328). -/
def acmpEdge (t : Nat) (c : TrigCfg) (fine : Nat) (rising : Bool) (s : State) : State :=
  let at_ := s.edgeInstant c.source fine
  if edgeTaken c rising && s.acmpTriggers c.source && s.edgeApart c.source at_ then
    trigMask c.defMask ⟨t, 1, at_⟩ { s with acq := { s.acq with edges := Tab.set s.acq.edges c.source at_ } }
  else s

/-- The oldest condition of a trigger that has been met acts (R325). -/
def dueTrigger (t : Nat) (c : TrigCfg) (s : State) : State :=
  let x := s.trig t
  match x.due with
  | d :: rest => trigMask c.defMask ⟨t, c.kind, d.1⟩ (s.setTrig t { x with due := rest })
  | [] => s

/-- ACQ_TRIGGER (R325, R332): a comparator edge with the fine part that its time-to-digital converter measures, or a condition met by samples, a pass
or a tag. -/
def execAcqTrigger (e : TrigSeen) (s : State) : Host.Outcome State Fault Refusal :=
  .next (if s.acqRuns then
      match findKey (s.cfgList (·.triggers)) e.trigger with
      | some c => if c.kind = 1 then acmpEdge e.trigger c e.fine.val e.rising s else dueTrigger e.trigger c s
      | none => s
    else s)

/-- A trigger without a condition: PROGRAM at an instant, or MANUAL now (R325, R327). -/
def softTrigger (at_ : Stamp) (kind mask : Nat) (s : State) : State := if s.acqRuns then trigMask mask ⟨255, kind, at_⟩ s else s

/-- The effect of an ACQ_TRIG write with GO: a lane gives a PROGRAM trigger at its cycle's freeze instant, others a MANUAL one. -/
def acqTrigWrite (o : Origin) (mask : Nat) (s : State) : State :=
  match o with
  | .lane n => match (s.lane n).task with
    | some t => softTrigger (s.task t).freezeAt 5 mask s
    | none => softTrigger s.now 5 mask s
  | _ => softTrigger s.now 6 mask s

def execAcqTrig (origin : Origin) (defMask : BitVec 16) (s : State) : Host.Outcome State Fault Refusal :=
  .next (if s.powered then byOrigin (serviceOk s origin) origin 0x110024 (acqTrigWrite origin defMask.toNat) s else s)

/-! Closing. -/

/-- Held ACQ writes take effect (R335, R415): a definition's when its record closes or at once; a trigger's when no definition of its
mask has an open record. -/
def acqApplyHeld (s : State) : State :=
  forEach (s.heldWrites.filter (fun e => decide (blockBase e.1 = 0x110000))) (fun e s =>
    let off := e.1 - 0x110000
    let drop (s : State) : State := { s with heldWrites := Tab.erase s.heldWrites e.1 }
    if off < 0x1000 then
      let d := (off - 0x110) / 0x20
      let x := s.defState d
      if x.record.isNone then drop (s.setDef d { x with armed := e.2.getLsbD 0, ring := if e.2.getLsbD 0 then x.ring else [] }) else s
    else
      let t := (off - 0x1008) / 0x10
      let mask := match findKey (s.cfgList (·.triggers)) t with | some c => c.defMask | none => 0
      if (List.range 16).any (fun d => decide (mask / 2 ^ d % 2 = 1) && (s.defState d).record.isSome) then s
      else drop { s with acq := { s.acq with written := Tab.set s.acq.written e.1 e.2 } }) s

/-- A changed definition is armed under its new settings once its allotment holds no uncommitted segment (R335). -/
def takeNewDef (d : Nat) (s : State) : State :=
  let x := s.defState d
  if x.rearmAfterCommit && x.record.isNone && decide (s.segsUsed d = 0) then
    let c := findKey (s.cfgList (·.defs)) d
    s.setDef d { DefState.reset with cfg := c, armed := match c with | some c => c.armed | none => false }
  else s

/-- The open record of definition d closes with a reason (R335) and waits for its commit. -/
def closeRecord (d reason : Nat) (s : State) : State :=
  let x := s.defState d
  match x.record with
  | some r =>
    let s := s.setDef d { x with record := none, closing := none, armed := x.armed && !x.rearmAfterCommit }
    takeNewDef d (acqApplyHeld { s with acq := { s.acq with toCommit := s.acq.toCommit ++ [{ r with closeReason := reason }],
                                                            commitFrom := if s.acq.toCommit = [] then s.time.tick else s.acq.commitFrom } })
  | none => s

/-- A program exchange changes a definition (R335): its open record closes after the segment in progress, and the new settings wait. -/
def changeDef (d : Nat) (s : State) : State :=
  let x := s.defState d
  let s := s.setDef d { x with rearmAfterCommit := true, closing := if x.seg.isSome then some 3 else x.closing }
  if x.seg.isSome then s else if x.record.isSome then closeRecord d 3 s else takeNewDef d s

/-- A frame in which a sample is flagged. -/
def Frame.flagged (f : Frame) : Bool := f.samples.any (fun x => !x.good)

/-- The stored frames of a segment. -/
def segFrames (g : Segment) : List Frame := g.raw ++ g.reduced.flatMap (fun p => [p.1, p.2])

/-- Frames of a segment in which any sample is flagged (R338). -/
def segMissing (g : Segment) : Nat := ((segFrames g).filter Frame.flagged).length

/-- SEGMENT_CLOSE (R331, R335): the last frame has been written. -/
def execSegmentClose (definition : Fin 16) (s : State) : Host.Outcome State Fault Refusal :=
  let d := definition.val
  let x := s.defState d
  .next (if s.acqRuns then
      match x.seg, x.record, s.defCfg d with
      | some g, some r, some c =>
        if segDone g then
          let r := { r with segments := r.segments ++ [g] }
          let s := s.setDef d { x with seg := none, record := some r, rearming := true }
          let s := s.raiseIf (decide (segMissing g ≠ 0)) Ev.ACQ_SEGMENT_GAP
          match x.closing with
          | some reason => closeRecord d reason s
          | none => if c.segsPerRecord ≤ r.segments.length then closeRecord d 1 s else s
        else s
      | _, _, _ => s
    else s)

/-- REARM (R333): the definition is armed again and held triggers take effect with their own instants. -/
def execRearm (definition : Fin 16) (s : State) : Host.Outcome State Fault Refusal :=
  let d := definition.val
  let x := s.defState d
  .next (if s.acqRuns && x.rearming then
      let held := x.held
      forEach held (fun h s => trigDef d h s) (s.setDef d { x with rearming := false, held := [] })
    else s)

/-- RECORD_GAP_CLOSE (R335): no trigger within RECORD_GAP after the last segment closed. -/
def execRecordGapClose (definition : Fin 16) (s : State) : Host.Outcome State Fault Refusal :=
  let d := definition.val
  let x := s.defState d
  .next (if s.acqRuns && x.seg.isNone && decide (x.held = []) then closeRecord d 0 s else s)

/-- The effect of a CLOSE write (R335): after the segment in progress, or at once if none is. -/
def closeWrite (d : Nat) (s : State) : State :=
  let x := s.defState d
  if !s.acqRuns || x.record.isNone then s
  else if x.seg.isSome then s.setDef d { x with closing := some 2 }
  else closeRecord d 2 s

def execClose (origin : Origin) (definition : Fin 16) (s : State) : Host.Outcome State Fault Refusal :=
  .next (if s.powered then byOrigin (serviceOk s origin) origin (0x110110 + 0x20 * definition.val) (closeWrite definition.val) s else s)

/-! Commit (R340 to R342). -/

/-- Bytes of a record (R336). -/
def recordLen (r : Record) : Nat :=
  let f := frameLen r.cfg
  256 + 32 * (r.cfg.channels.length + r.cfg.tags.length)
    + r.segments.foldl (fun n g => n + 128 + f * g.raw.length + 2 * f * g.reduced.length + 24 * g.tagEntries.length) 0

/-- RECORD_COMMIT (R340): the oldest closed record has been written whole, in blocks of 4,080 bytes, at most 15,625 blocks (8,000 ticks each) in a second. -/
def execRecordCommit (s : State) : Host.Outcome State Fault Refusal :=
  .next (if s.acqRuns then
      match s.acq.toCommit with
      | r :: rest =>
        let n := (recordLen r + 4079) / 4080
        if s.time.tick < s.acq.commitFrom + 8000 * n then s
        else
          let s := writeBlocks n s
          let st : StoredRec := ⟨r, s.acq.blockSeq - n, n, false⟩
          let s := { s with acq := { s.acq with toCommit := rest, stored := s.acq.stored ++ [st], commitFrom := s.time.tick } }
          (takeNewDef r.definition s).raise Ev.ACQ_RECORD_COMMITTED
      | [] => s
    else s)

/-- A record id is still being recorded or awaits its commit. -/
def State.recordLive (s : State) (id : Nat) : Bool :=
  s.acq.toCommit.any (fun r => decide (r.id = id)) || s.acq.defs.any (fun d => match d.2.record with | some r => decide (r.id = id) | none => false)

/-- RECORD_INDEX_REBUILD (R342): INDEX_READY, and opened notes that no whole record follows are listed LOST. -/
def execRecordIndexRebuild (s : State) : Host.Outcome State Fault Refusal :=
  .next (if s.acqRuns && !s.acq.indexReady then
      let whole (id : Nat) : Bool := s.acq.stored.any (fun r => !r.opened && decide (r.rcd.id = id))
      let lost := (s.acq.stored.filter (fun r => r.opened && !whole r.rcd.id && !s.recordLive r.rcd.id)).map (fun r => r.rcd.id)
      let s := { s with acq := { s.acq with indexReady := true, lostIds := lost } }
      forEach lost (fun _ s => (s.inc Reg.ACQ_LOST_RECORDS).raise Ev.ACQ_RECORD_LOST) s
    else s)

/-! What other blocks tell the recorder. -/

/-- A value of a tag whose quality class is BAD (R83). -/
def tagBad (g : Tag) : Bool := decide (g.quality.toNat / 2 ^ 14 = 0)

/-- The main counter instant that a tag timestamp stands for (R7, R327), truncated to 2^-16 ns. -/
def tsStamp (w : DWord) : Stamp :=
  let f := w.toNat % 2 ^ 28 * 1000000000 * 65536 / 2 ^ 28
  ⟨w.toNat / 2 ^ 28, f / 65536, f % 65536 * 65536⟩

/-- LEVEL and HYST of a TAG trigger, binary32 in its registers: written, or from the image. -/
def State.tagLevel (s : State) (t : Nat) (c : TrigCfg) : DWord × DWord :=
  (f64OfF32 ((Tab.get? s.acq.written (0x111008 + 0x10 * t)).getD c.level).toNat, f64OfF32 ((Tab.get? s.acq.written (0x11100C + 0x10 * t)).getD c.hyst).toNat)

/-- A visible change of a tag at a TAG trigger (R325, R326): an edge of a BOOL tag, or a crossing of LEVEL, which re-arms by HYST. -/
def tagTrigger (t : Nat) (c : TrigCfg) (bool : Bool) (at_ : Stamp) (v0 v1 : DWord) (s : State) : State :=
  if bool then
    let up := f64Lt v0 v1
    if decide (v0 ≠ v1) && edgeTaken c up then condMet t at_ up false s else s
  else
    let l := s.tagLevel t c
    let rise := f64Lt v0 l.1 && f64Le l.1 v1
    let fall := f64Lt l.1 v0 && f64Le v1 l.1
    let s := if (s.trig t).crossed.isNone && (rise || fall) && edgeTaken c rise then condMet t at_ rise true s else s
    let back := match (s.trig t).crossed with
      | some true => f64Le v1 (f64Sub l.1 l.2)
      | some false => f64Le (f64Add l.1 l.2) v1
      | none => false
    if back then s.setTrig t { s.trig t with crossed := none } else s

/-- A tag change meets the TAG triggers; a value of class BAD does not trigger. -/
def tagTriggers (t : Nat) (old new : Tag) (s : State) : State :=
  match s.tagDecl t with
  | none => s
  | some d => match tagNumber d.type old.value, tagNumber d.type new.value with
    | some v0, some v1 =>
      if tagBad new then s
      else forEach ((s.cfgList (·.triggers)).filter (fun e => decide (e.2.kind = 4) && decide (e.2.source = t)))
        (fun e s => tagTrigger e.1 e.2 (decide (d.type = .bool)) (tsStamp new.ts) v0 v1 s) s
    | _, _ => s

/-- A tag change becomes visible at a definition (R331): one tag entry in its open segment until TAG_ENTRIES, and the value it replaces while a ring may need it. -/
def defTagChanged (t : Nat) (old new : Tag) (d : Nat) (c : DefCfg) (s : State) : State :=
  let x := s.defState d
  s.setDef d { x with
    tagLog := if x.armed then trimLog x.ring (x.tagLog ++ [(s.now, t, old)]) else []
    seg := x.seg.map (fun y => if y.tagEntries.length < c.tagEntries then { y with tagEntries := y.tagEntries ++ [(t, new)] } else { y with tagsCut := true }) }

/-- A tag change becomes visible (R326, R331). -/
def acqTagChanged (t : Nat) (old new : Tag) (s : State) : State :=
  if s.acqRuns then tagTriggers t old new (forEach (s.defsNow.filter (fun e => decide (t ∈ e.2.tags))) (fun e s => defTagChanged t old new e.1 e.2 s) s) else s

/-- A software step of the main counter falls within open segments (R338). -/
def acqStepped (s : State) : State :=
  { s with acq := { s.acq with defs := s.acq.defs.map (fun e => (e.1, { e.2 with seg := e.2.seg.map (fun g => { g with stepped := true }) })) } }

/-- LEVEL and HYST of an SV_LEVEL trigger, in dataset units: written, or from the image. -/
def State.svLevel (s : State) (t : Nat) (c : TrigCfg) : Int × Nat :=
  (signed 32 ((Tab.get? s.acq.written (0x111008 + 0x10 * t)).getD c.level).toNat, ((Tab.get? s.acq.written (0x11100C + 0x10 * t)).getD c.hyst).toNat)

/-- The crossing between two good samples (R329): the interval's part in ns in binary64, truncated to 2^-16 ns, after the first sample's instant
(assumption 124). -/
def crossing (rate : Nat) (t0 : Stamp) (x0 x1 level : Int) : Stamp :=
  let d := f64Div (f64OfInt 1000000000) (f64OfInt rate)
  let r := (f64 (f64Div (f64Mul d (f64OfInt (level - x0))) (f64OfInt (x1 - x0)))).rat
  Stamp.ofFine (t0.fine + r.1.natAbs * 65536 / max 1 r.2 * 65536)

/-- A sample meets an SV_LEVEL trigger (R326, R329); none: the sample is flagged, and the pairs that hold it give no crossing. -/
def svTrigger (rate : Nat) (at_ : Stamp) (v : Option Int) (t : Nat) (c : TrigCfg) (s : State) : State :=
  match v with
  | none => s.setTrig t { s.trig t with last := none }
  | some v =>
    let l := s.svLevel t c
    let s := match (s.trig t).crossed, (s.trig t).last with
      | none, some x =>
        let rise := decide (x.1 < l.1) && decide (l.1 ≤ v)
        let fall := decide (l.1 < x.1) && decide (v ≤ l.1)
        if (rise || fall) && edgeTaken c rise then condMet t (crossing rate x.2 x.1 v l.1) rise true s else s
      | _, _ => s
    let back := match (s.trig t).crossed with
      | some true => decide (v ≤ l.1 - l.2)
      | some false => decide (l.1 + l.2 ≤ v)
      | none => false
    let x := s.trig t
    s.setTrig t { x with last := some (v, at_), crossed := if back then none else x.crossed }

/-- A sample of a subscription's channel reaches its SV_LEVEL triggers. -/
def acqSvSample (rate : Nat) (at_ : Stamp) (sub ch : Nat) (v : Option Int) (s : State) : State :=
  if s.acqRuns then
    forEach ((s.cfgList (·.triggers)).filter (fun e => decide (e.2.kind = 2) && decide (e.2.source = sub * 32 + ch))) (fun e s => svTrigger rate at_ v e.1 e.2 s) s
  else s

/-- Samples of a subscription are missing: no pair that holds one gives a crossing (R326). -/
def acqSvGap (sub : Nat) (s : State) : State :=
  forEach ((s.cfgList (·.triggers)).filter (fun e => decide (e.2.kind = 2) && decide (e.2.source / 32 = sub))) (fun e s => s.setTrig e.1 { s.trig e.1 with last := none }) s

/-- The recorder starts at step 9 (R324): definitions armed as the image says; the record area is kept. -/
def acqStart (s : State) : State :=
  { s with acq := { s.acq with running := true, indexReady := false, toCommit := [], trigs := [], edges := [], written := [],
                               defs := Tab.ofList ((s.cfgList (·.defs)).map (fun e => (e.1, { DefState.reset with cfg := some e.2, armed := e.2.armed }))) } }

/-- A stop loses open segments and uncommitted records; the record area keeps what it holds (R343). -/
def acqStop (s : State) : State :=
  { s with acq := { s.acq with running := false, indexReady := false, toCommit := [], defs := [], trigs := [], edges := [], openCount := 0, openSecond := 0 } }

end Sys2Proof.Machine
end

