-- ==== Sys2Proof/Machine/TimeBase.lean ====
section
/-! DEFINITION. The timebase island, the servo and the oscillator model (R347 to R365). -/

namespace Sys2Proof.Machine

/-- Limits of an accepted increment (R348), and the nominal 8.0 ns. -/
def incLo : Nat := 0x07FEF9DB23
def incHi : Nat := 0x08010624DD
def incNominal : Nat := 0x0800000000

/-- The main counter after one tick (R347). -/
def tickCounter (inc : Nat) (c : Stamp) : Stamp :=
  let f := c.frac + inc
  let ns := c.ns + f / 2 ^ 32
  if 1000000000 ≤ ns then ⟨(c.sec + 1) % 2 ^ 48, ns - 1000000000, f % 2 ^ 32⟩ else ⟨c.sec, ns, f % 2 ^ 32⟩

/-- The quantum index of the grid, which a slew holds apart from the counter (R116, R118). -/
def State.gridQuantum (s : State) : Nat := ((s.time.counter.nsTotal : Int) - s.time.slewNs).toNat / 250000

/-- Each quantum moves the grid by at most 25 µs toward the stepped counter (R118). -/
def slewStep (n : Int) : Int := if n < -25000 then n + 25000 else if 25000 < n then n - 25000 else 0

/-- The standby counter's part in one 8 ns tick: 1/32,768 s is 10^9 units of 1/32,768 ns (assumption 2). -/
def standbyTick (b : Standby) : Standby :=
  if b.stopped then b
  else
    let a := b.acc + 8 * 32768
    if a < 1000000000 then { b with acc := a }
    else if b.frac + 1 < 32768 then { b with acc := a - 1000000000, frac := b.frac + 1 }
    else { b with acc := a - 1000000000, frac := 0, sec := (b.sec + 1) % 2 ^ 48 }

/-- A new quantum of the grid: while it slews, each moves it once (R118); lastQuantum is the newest quantum that the grid has entered. -/
def newQuantum (s : State) : State :=
  let q := s.gridQuantum
  if s.time.slewNs = 0 then { s with time := { s.time with lastQuantum := q } }
  else if s.time.lastQuantum < q then { s with time := { s.time with lastQuantum := q, slewNs := slewStep s.time.slewNs } }
  else s

/-- One tick of the timebase island while the module is powered, and of the standby domain always; one entry leaves the result
queue (R303, R347, R350; assumption 2). -/
def tick (s : State) : State :=
  let s := { s with standby := standbyTick s.standby }
  if s.powered then
    drainOne (newQuantum { s with time := { s.time with counter := tickCounter s.time.inc s.time.counter, tick := (s.time.tick + 1) % 2 ^ 64,
                                                        ran := s.time.ran + s.time.inc } })
  else s

/-- Who may write the increment, steps and TIME_SERVO (R351). -/
def timeOrigin (s : State) (o : Origin) : Bool :=
  isMgmt o || (isSvc o && decide (s.get Reg.TIME_CTRL_SERVO_EN = 0) && serviceOk s o)

/-- Put an increment of 8.32 bits in force and show it. -/
def setInc (inc : Nat) (s : State) : State :=
  { s with time := { s.time with inc := inc % 2 ^ 40 } }.put Reg.TIME_INC_LO_INC_FRAC inc

/-- INC_COMMIT (R348): TIME_INC_HI commits with the low word held; outside the limits it is refused. -/
def incCommit (intNs : Nat) (s : State) : State :=
  let v := intNs * 2 ^ 32 + s.get Reg.TIME_INC_LO_INC_FRAC
  if incLo ≤ v ∧ v ≤ incHi then { s with time := { s.time with inc := v } } else s.raise Ev.TIME_INC_REFUSED

def execIncCommit (origin : Origin) (intNs : Byte) (s : State) : Host.Outcome State Fault Refusal :=
  .next (if s.powered then byOrigin (timeOrigin s origin) origin 0x10014 (incCommit intNs.toNat) s else s)

/-- A step of the main counter (R349): counted, STEPPED, marked in open segments; in STANDBY and ACTIVE the grid slews (R118). -/
def stepCounter (ns : Int) (frac : Nat) (s : State) : State :=
  let f : Int := (s.time.counter.fine : Int) + ns * 2 ^ 32 + (frac : Int) * 65536
  let c := Stamp.ofFine (f % (2 ^ 48 * 1000000000 * 2 ^ 32 : Int)).toNat
  let slews := decide (s.mode = .standby) || decide (s.mode = .active)
  let s := { s with time := { s.time with counter := c, slewNs := if slews then s.time.slewNs + ns else s.time.slewNs } }
  let s := acqStepped ((s.inc Reg.TIME_STEPS_COUNT).raise Ev.TIME_STEPPED)
  let s := if slews then s.raiseIf (decide (ns ≠ 0)) Ev.EXEC_SLEW_STARTED else s
  { s with time := { s.time with lastQuantum := s.gridQuantum } }

/-- The step that STEP_HI, STEP_LO and a fraction describe. -/
def stepWrite (frac : Nat) (s : State) : State :=
  stepCounter (signed 64 (s.get Reg.TIME_STEP_HI_STEP_HI * 2 ^ 32 + s.get Reg.TIME_STEP_LO_STEP_LO)) frac s

def execStepGo (origin : Origin) (fraction : BitVec 16) (s : State) : Host.Outcome State Fault Refusal :=
  .next (if s.powered then byOrigin (timeOrigin s origin) origin 0x10020 (stepWrite fraction.toNat) s else s)

/-- The latch (R350): main counter and tick counter at one tick. -/
def latchWrite (s : State) : State :=
  let c := s.time.counter
  let t := s.time.tick
  putWords (fun n => Reg.TIME_SNAP_n_WORD n)
    ([c.frac / 65536, c.ns, c.sec, c.sec / 2 ^ 32, t, t / 2 ^ 32].map (BitVec.ofNat 32)) s

def execTimeLatch (origin : Origin) (s : State) : Host.Outcome State Fault Refusal :=
  .next (if s.powered then byOrigin (serviceOk s origin) origin 0x10024 latchWrite s else s)

/-- LOCKED and LOCK_LOST at each change of quality to and from LOCKED (R353). -/
def setQuality (q : Nat) (s : State) : State :=
  let was := s.time.quality
  let s := { s with time := { s.time with quality := q, lockedOnce := s.time.lockedOnce || decide (q = 0) } }
  let s := s.raiseIf (decide (was ≠ 0) && decide (q = 0)) Ev.TIME_LOCKED
  s.raiseIf (decide (was = 0) && decide (q ≠ 0)) Ev.TIME_LOCK_LOST

/-- A servo declaration (R352, R353), an undefined port being ignored (R410): a holdover declared before any lock, or after its 5 s, stays UNCERTAIN (assumption 14). -/
def servoDeclare (q src port errNs : Nat) (s : State) : State :=
  let port := if 4 ≤ port ∧ port ≤ 6 then s.time.port else port
  let s := (((s.put Reg.TIME_SERVO_QUALITY q).put Reg.TIME_SERVO_SOURCE src).put Reg.TIME_SERVO_PTP_PORT port).put Reg.TIME_SERVO_ERR_NS errNs
  let hold := decide (q = 1) || decide (q = 2)
  let eff := if hold && decide (s.time.quality = 3) then 3 else q
  let since := if eff = 1 ∨ eff = 2 then some (s.time.holdoverSince.getD s.time.tick) else none
  let s := s.raiseIf (decide (s.time.port ≠ port)) Ev.TIME_PORT_CHANGED
  let last := if s.time.quality = 0 ∧ eff ≠ 0 then s.time.inc else s.time.lastLockedInc
  let announce := if eff = 0 then 0 else if eff = 1 ∨ eff = 2 then 7 else if src = 0 then 0 else s.time.announcing
  setQuality eff { s with time := { s.time with source := src, port := port, holdoverSince := since, lastLockedInc := last, announcing := announce } }

def execTimeServo (origin : Origin) (quality source : Fin 4) (port : Fin 8) (errNs : BitVec 16) (s : State) :
    Host.Outcome State Fault Refusal :=
  .next (if s.powered then
      byOrigin (timeOrigin s origin) origin 0x10048 (servoDeclare quality.val source.val port.val errNs.toNat) s
    else s)

/-- HOLDOVER_EXPIRED (R353, R359): 5 s after a holdover declaration the quality becomes UNCERTAIN. -/
def execHoldoverExpired (s : State) : Host.Outcome State Fault Refusal :=
  .next (if s.powered && s.time.holdoverSince.any (fun t => decide (t + ticksOfMs 5000 ≤ s.time.tick)) then
      let s := setQuality 3 { s with time := { s.time with holdoverSince := none, announcing := 187 } }
      s.raise Ev.TIME_HOLDOVER_EXPIRED
    else s)

/-! The oscillator model (R364, R365). bins: key degrees C + 40, entry (samples, sum of offsets in 2^-32 ns per tick). -/

/-- The mean offset of a bin. -/
def binMean (b : Nat × Int) : Int := if b.1 = 0 then 0 else b.2 / (b.1 : Int)

/-- The last filled bin at or below a temperature (0.01 °C), and the first at or above. -/
def binBelow (bins : Tab (Nat × Int)) (temp : Int) : Option (Nat × Int) :=
  (bins.filter (fun e => decide (((e.1 : Int) - 40) * 100 ≤ temp))).getLast?.map (fun e => (e.1, binMean e.2))

def binAbove (bins : Tab (Nat × Int)) (temp : Int) : Option (Nat × Int) :=
  (bins.filter (fun e => decide (temp ≤ ((e.1 : Int) - 40) * 100))).head?.map (fun e => (e.1, binMean e.2))

/-- The model's frequency offset at a temperature, linear between filled bins; none more than 5 °C outside them (R365). -/
def modelOffset (bins : Tab (Nat × Int)) (temp : Int) : Option Int :=
  match binBelow bins temp, binAbove bins temp with
  | some a, some b =>
    let ta := ((a.1 : Int) - 40) * 100
    let tb := ((b.1 : Int) - 40) * 100
    if ta = tb then some a.2 else some (a.2 + (b.2 - a.2) * (temp - ta) / (tb - ta))
  | some a, none => if temp ≤ ((a.1 : Int) - 40) * 100 + 500 then some a.2 else none
  | none, some b => if ((b.1 : Int) - 40) * 100 - 500 ≤ temp then some b.2 else none
  | none, none => none

/-- An increment kept within R348. -/
def clampInc (n : Int) : Nat := (clampI incLo incHi n).toNat

/-- HOLDOVER_STEER (R365). -/
def execHoldoverSteer (temp : Int) (s : State) : Host.Outcome State Fault Refusal :=
  .next (if s.powered && decide (s.get Reg.TIME_CTRL_SERVO_EN = 1) && s.time.holdoverSince.isSome then
      let s := s.put Reg.TIME_OSC_TEMP (twos 16 temp)
      match if s.time.qualified then modelOffset s.time.bins temp else none with
      | some off => setInc (clampInc ((incNominal : Int) + off)) (setQuality 1 s)
      | none => setInc s.time.lastLockedInc (setQuality 2 s)
    else s)

/-- Locked samples in 72 h, one every 10 s (R364). -/
def modelSamples : Nat := 25920

/-- OSCILLATOR_SAMPLE (R364): every 10 s while LOCKED on PTP. -/
def execOscillatorSample (temp : Int) (s : State) : Host.Outcome State Fault Refusal :=
  .next (if s.powered then
      let s := s.put Reg.TIME_OSC_TEMP (twos 16 temp)
      if decide (s.time.quality = 0) && decide (s.time.source = 1) then
        let k := (clampI 0 165 (temp / 100 + 40)).toNat
        let b := Tab.getD s.time.bins k (0, 0)
        { s with time := { s.time with bins := Tab.set s.time.bins k (b.1 + 1, b.2 + ((s.time.inc : Int) - (incNominal : Int))),
                                       lockedSamples := s.time.lockedSamples + 1, lastLockedInc := s.time.inc } }
      else s
    else s)

/-- The newest whole slot of the oscillator model in a format that the firmware reads (R193, R464). -/
def State.newestOsc (s : State) : Option OscSlot :=
  (s.mram.osc.map (·.2)).foldl (fun a x => if x.whole && s.reads 4 x.format then
    (match a with | some y => if y.generation < x.generation then some x else a | none => some x) else a) none

/-- The slot of the oscillator model that the next write takes: the one that does not hold the newest write (R193). -/
def State.oscSlot (s : State) : Nat := match Tab.get? s.mram.osc 0, Tab.get? s.mram.osc 1 with
  | some a, some b => if a.generation < b.generation then 0 else 1
  | some _, none => 1
  | none, _ => 0

/-- The model that a start finds in its area (R193, R364). -/
def loadOsc (s : State) : State :=
  match s.newestOsc with
  | some x => { s with time := { s.time with bins := x.bins, lockedSamples := x.samples } }
  | none => s

/-- OSCILLATOR_MODEL_WRITE (R364): once per operating hour, into the slots by turns; MODEL_QUALIFIED once 72 h of locked operation are recorded. -/
def execOscillatorModelWrite (s : State) : Host.Outcome State Fault Refusal :=
  .next (if s.powered then
      let q := decide (modelSamples ≤ s.time.lockedSamples)
      let s := s.raiseIf (q && !s.time.qualified) Ev.TIME_MODEL_QUALIFIED
      let k := s.oscSlot
      let g := (s.mram.osc.map (fun e => e.2.generation)).foldl max 0 + 1
      let slot : OscSlot := ⟨s.time.bins, s.time.lockedSamples, s.time.qualified || q, g, s.fmtAt 4 k, true⟩
      { s with time := { s.time with qualified := s.time.qualified || q }, mram := { s.mram with osc := Tab.set s.mram.osc k slot } }
    else s)

/-- STANDBY_COUNTER_COPY (R356): only while the quality is LOCKED. -/
def execStandbyCounterCopy (s : State) : Host.Outcome State Fault Refusal :=
  .next (if s.powered && decide (s.time.quality = 0) && !s.standby.stopped then
      { s with standby := { s.standby with sec := s.time.counter.sec, frac := s.time.counter.ns * 32768 / 1000000000, acc := 0 }
               time := { s.time with sbyCopied := some s.time.tick } }
    else s)

/-- The servo steers the increment: the manual gives no control law, so the increment takes a free value within R348 (assumption 4). -/
def servoSteer (s : State) : State :=
  let (v, s) := s.free
  setInc (incLo + v.toNat % (incHi - incLo + 1)) s

/-! Stamps (R361 to R363). -/

/-- Sampled-value subscriptions declared, past which the module runs in dense mode (R362). -/
def State.denseSv (s : State) : Bool := decide (128 < (s.cfgList (·.net.svSubs)).length)

/-- The 32-bit stamp of dense mode (R362). -/
def shortStamp (stamp : Nat) : Nat := stamp / 65536 % 2 ^ 32

/-- A 32-bit stamp extended against a reading of the main counter (R363): ns since the epoch. -/
def extendStamp (short nowNs : Nat) : Nat :=
  let d : Int := (((short : Int) - (nowNs : Int)) % (2 ^ 32 : Int))
  let d := if 2 ^ 31 ≤ d then d - 2 ^ 32 else d
  ((nowNs : Int) + d).toNat

/-- The receive descriptor of a frame (R361, R362); one of sampled values carries the 32-bit stamp in dense mode. -/
def receiveStamp (p : Port) (x : PortStamp) (sv : Bool) (s : State) : State :=
  let t := ingressStamp p x
  { s with net := { s.net with rx := Tab.set s.net.rx (portCode p) ⟨t.1, t.2, if sv && s.denseSv then some (shortStamp t.1) else none⟩ } }

/-! The servo (R354, R357 to R359). -/

def PtpPort.reset : PtpPort := { good := 0, slave := false, sync := none, delay := 0, skew := 0, request := none, answer := none }
def State.ptpPort (s : State) (p : Nat) : PtpPort := Tab.getD s.time.ports p PtpPort.reset
def State.setPtpPort (s : State) (p : Nat) (x : PtpPort) : State := { s with time := { s.time with ports := Tab.put PtpPort.reset s.time.ports p x } }

/-- The servo runs: SERVO_EN, and the management processor is not restarting. -/
def State.servoRuns (s : State) : Bool := decide (s.get Reg.TIME_CTRL_SERVO_EN = 1) && !s.mpu.restarting

/-- A PTP port that meets R354: slave, and within 1 µs for 16 Sync intervals; the followed one before the others. -/
def State.lockPort (s : State) : Option Nat :=
  let ok (p : Nat) : Bool := (s.ptpPort p).slave && decide (16 ≤ (s.ptpPort p).good)
  if ok s.time.port then some s.time.port else (List.range 4).find? ok

/-- The partner module's time may be followed (R354). -/
def State.partnerTime (s : State) : Bool := s.pair.linkUp && s.pair.partnerOnPtp && s.pair.statusArrived.isSome

/-- The servo follows the first available source (R354). -/
def servoSelect (s : State) : State :=
  let err := s.get Reg.TIME_SERVO_ERR_NS
  if !s.servoRuns then s
  else match s.lockPort with
    | some p => servoDeclare 0 1 p err s
    | none =>
      if s.partnerTime then servoDeclare 0 2 7 err s
      else if s.time.quality = 0 then servoDeclare (if s.time.qualified then 1 else 2) 3 7 err s
      else if s.time.quality = 3 then servoDeclare 3 0 7 err s
      else s

/-- The servo steps beyond 10 µs, or beyond 1 µs before the first lock (assumption 15); otherwise it steers. The offset is in 2^-16 ns. -/
def servoFollow (offset : Int) (s : State) : State :=
  let a := offset.natAbs / 65536
  if 10000 < a ∨ (!s.time.lockedOnce ∧ 1000 < a) then stepCounter ((-offset) / 65536) ((-offset) % 65536).toNat s else servoSteer s

/-- A measured offset of a port (R354): within 1 µs it counts toward the lock; the servo follows the port it has chosen, or before any lock the one measured. -/
def ptpOffset (p : Nat) (offset : Int) (s : State) : State :=
  let x := s.ptpPort p
  let s := s.setPtpPort p { x with good := if offset.natAbs ≤ 1000 * 65536 then min 16 (x.good + 1) else 0 }
  if !s.servoRuns ∨ !x.slave then s
  else
    let s := servoSelect s
    if s.time.port = p ∨ (s.time.source ≠ 1 ∧ s.time.source ≠ 2) then servoFollow offset s else s

/-- Sync at its arrival, less origin and correction: the offset but for the path delay. -/
def ptpSync (p : Nat) (arrival origin : Nat) (corr : Int) (s : State) : State :=
  let skew : Int := (arrival : Int) - (origin : Int) * 65536 - corr
  let x := s.ptpPort p
  ptpOffset p (skew - x.delay) (s.setPtpPort p { x with sync := none, skew := skew })

/-- A received PTP message body at its port; arrival is the frame's stamp. -/
def ptpTake (port : Port) (arrival : Nat) (b : PtpBody) (s : State) : State :=
  let p := portCode port
  let x := s.ptpPort p
  match b with
  | .announce g => if x.slave then { s with time := { s.time with gm := some g, leap := some g.utcOffset } } else s
  | .sync q two origin corr => if two then s.setPtpPort p { x with sync := some (q, arrival, corr) } else ptpSync p arrival origin corr s
  | .followUp q origin corr => match x.sync with
    | some y => if y.1 = q then ptpSync p y.2.1 origin (y.2.2 + corr) s else s
    | none => s
  | .delayReq q => if x.slave then s else sendOn port (.ptp port (.delayResp q (arrival / 65536) (-((arrival % 65536 : Nat) : Int)))) s
  | .pdelayReq q =>
    let s := sendOn port (.ptp port (.pdelayResp q (arrival / 65536) (-((arrival % 65536 : Nat) : Int)))) s
    match Tab.get? s.net.tx p with
    | some r => sendOn port (.ptp port (.pdelayFollowUp q (r.stamp / 65536) ((r.stamp % 65536 : Nat) : Int))) s
    | none => s
  | .delayResp q receipt corr => match x.request with
    | some r => if r.1 = q then s.setPtpPort p { x with request := none, delay := (x.skew + (receipt : Int) * 65536 - corr - (r.2 : Int)) / 2 } else s
    | none => s
  | .pdelayResp q receipt corr => match x.request with
    | some r => if r.1 = q then s.setPtpPort p { x with answer := some (arrival, (receipt : Int) * 65536 - corr) } else s
    | none => s
  | .pdelayFollowUp q origin corr => match x.request, x.answer with
    | some r, some a => if r.1 = q then
        s.setPtpPort p { x with request := none, answer := none, delay := (((a.1 : Int) - (r.2 : Int)) - ((origin : Int) * 65536 + corr - a.2)) / 2 } else s
    | _, _ => s

/-- PTP_MESSAGE (R354, R358, R361): received on a PTP port in the configured domain, and stamped. Whether the port is slave comes with it (assumption 133). -/
def execPtpMessage (m : PtpMsg) (s : State) : Host.Outcome State Fault Refusal :=
  let dom := match s.img with | some i => i.net.ptpDomain | none => 0
  .next (if s.powered && decide (m.port ∈ s.net.up) && decide (m.port ≠ .svc) then
      let s := receiveStamp m.port m.stamp false s
      if m.domain ≠ dom ∨ s.mpu.restarting then s
      else
        let p := portCode m.port
        let x := s.ptpPort p
        let s := s.setPtpPort p { x with slave := m.slave, good := if m.slave then x.good else 0 }
        let s := if x.slave && !m.slave then servoSelect s else s
        ptpTake m.port (ingressStamp m.port m.stamp).1 m.body s
    else s)

/-- The dataset that master ports announce (R359): the followed grandmaster's; in and after holdover the module's own clock, class 7 and then 187; none in
free run. The module's serial number stands for its clockIdentity (assumption 123). -/
def State.announced (s : State) : Option GmSet :=
  if s.time.quality = 0 then s.time.gm
  else if s.time.announcing = 0 then none
  else some ⟨s.fixed.serial.toNat, s.time.announcing, 255, 255, s.time.leap.getD Config.leapSeconds⟩

/-- A delay request leaves a port (R358). -/
def delayRequest (peer : Bool) (port : Port) (s : State) : State :=
  let q := s.net.ptpSeq
  let s := sendOn port (.ptp port (if peer then .pdelayReq q else .delayReq q)) s
  let p := portCode port
  let out := match Tab.get? s.net.tx p with | some r => r.stamp | none => 0
  s.setPtpPort p { s.ptpPort p with request := some (q, out), answer := none }

/-- Sync with its Follow_Up, and Announce, leave a master port (R358, R359). -/
def masterSends (g : GmSet) (port : Port) (s : State) : State :=
  let q := s.net.ptpSeq
  let s := sendOn port (.ptp port (.sync q true 0 0)) s
  let out := match Tab.get? s.net.tx (portCode port) with | some r => r.stamp | none => 0
  let s := sendOn port (.ptp port (.followUp q (out / 65536) ((out % 65536 : Nat) : Int))) s
  sendOn port (.ptp port (.announce g)) s

/-- SYNC_INTERVAL (R358, R359): delay requests on the measuring ports (all of them under peer-to-peer delay); Sync and Announce on the master ports of a boundary clock, never on
the port followed. -/
def execSyncInterval (s : State) : Host.Outcome State Fault Refusal :=
  let boundary := match s.img with | some i => i.net.ptpBoundary | none => false
  let peer := match s.img with | some i => i.net.ptpPeer | none => false
  .next (if s.powered && !s.mpu.restarting then
      let ports := s.net.up.filter (fun p => decide (p ≠ .svc))
      let s := { s with net := { s.net with ptpSeq := (s.net.ptpSeq + 1) % 2 ^ 16 } }
      let s := forEach (ports.filter (fun p => peer || (s.ptpPort (portCode p)).slave)) (delayRequest peer) s
      match if boundary then s.announced else none with
      | some g => forEach (ports.filter (fun p => !(s.ptpPort (portCode p)).slave && decide (portCode p ≠ s.time.port))) (masterSends g) s
      | none => s
    else s)

end Sys2Proof.Machine
end

