-- ==== Sys2Proof/Machine/Mpu.lean ====
section
/-! DEFINITION. Protection units and the management processor (R430 to R448). -/

namespace Sys2Proof.Machine

def State.unit (s : State) (u : Nat) : Unit36 := Tab.getD s.mpu.units u Unit36.reset
def State.setUnit (s : State) (u : Nat) (x : Unit36) : State := { s with mpu := { s.mpu with units := Tab.put Unit36.reset s.mpu.units u x } }
def regionOf (x : Unit36) (set r : Nat) : Region := Tab.getD x.regions (16 * set + r) Region.reset

/-- Region words are written only for units 32 to 35, by the management processor (R413, R442). -/
def mpuOrigin (o : Origin) (u : Nat) : Bool := isMgmt o && decide (32 ≤ u) && decide (u < 36)

/-- One region word: 0 BASE_LO, 1 BASE_HI, 2 ATTR; a size outside 8 to 32 is ignored (R410). -/
def regionWord (word : Nat) (v : Nat) (g : Region) : Region :=
  if word = 0 then { g with base := g.base / 2 ^ 32 * 2 ^ 32 + v / 256 * 256 }
  else if word = 1 then { g with base := g.base % 2 ^ 32 + v % 256 * 2 ^ 32 }
  else
    let sz := bitsOf v 8 6
    { g with en := decide (v % 2 = 1), read := decide (v / 2 % 2 = 1), write := decide (v / 4 % 2 = 1), exec := decide (v / 8 % 2 = 1),
             size := if 8 ≤ sz ∧ sz ≤ 32 then sz else g.size }

/-- A write to a region (R438): ignored with ACTIVE_WRITE in the active set; in the points set it disarms. -/
def regionWrite (u set r word v : Nat) (s : State) : State :=
  let x := s.unit u
  if x.active = set then s.raise Ev.MPU_ACTIVE_WRITE
  else s.setUnit u { x with armed := false, regions := Tab.put Region.reset x.regions (16 * set + r) (regionWord word v (regionOf x set r)) }

def execMpuRegionWrite (origin : Origin) (unit : Fin 36) (set : Fin 2) (region : Fin 16) (word : Fin 3) (value : Word) (s : State) :
    Host.Outcome State Fault Refusal :=
  .next (if s.powered then
      byOrigin (mpuOrigin origin unit.val) origin (0x161100 + 0x400 * unit.val + 0x100 * set.val + 0x10 * region.val + 4 * word.val)
        (regionWrite unit.val set.val region.val word.val value.toNat) s
    else s)

/-! Checking (R432, R433). -/

/-- Does an enabled region cover an address. -/
def covers (g : Region) (a : Nat) : Bool := g.en && decide (g.base ≤ a) && decide (a < g.base + 2 ^ g.size)

/-- The permission an access needs: 0 load, 1 store, 2 fetch. -/
def permits (g : Region) (kind : Nat) : Bool := if kind = 0 then g.read else if kind = 1 then g.write else g.exec

/-- The lowest-numbered region of a set that refuses an access; none: the whole access is allowed (R433). -/
def refusing (x : Unit36) (set : Nat) (a : MemAccess) : Option Nat :=
  (List.range 16).find? (fun r =>
    let g := regionOf x set r
    (List.range (min a.len 64)).any (fun i => covers g (a.addr + i)) && !permits g a.kind)

/-- A refusal is counted in its unit. -/
def countRefused (u : Nat) (s : State) : State := s.inc (Reg.MPU_UNIT_STAT_REFUSED u)

/-- PROTECTION_EXCEPTION (R435, R443): a management core's access refused at issue under the active set. -/
def execProtectionException (a : MemAccess) (s : State) : Host.Outcome State Fault Refusal :=
  .next (if s.powered && decide (32 ≤ a.unit) && decide (a.unit < 36) && (refusing (s.unit a.unit) (s.unit a.unit).active a).isSome then
      (countRefused a.unit s).raise Ev.MPU_PROT_FAULT_MGMT
    else s)

/-- IMPRECISE_NOTICE (R436, R437): a posted write refused at drain under its set tag, which is the active set, or the other one while a swap
awaits its acknowledgement (R440). The first notice is latched. -/
def execImpreciseNotice (a : MemAccess) (set : Fin 2) (s : State) : Host.Outcome State Fault Refusal :=
  .next (if s.powered && decide (32 ≤ a.unit) && decide (a.unit < 36) && (decide (set.val = (s.unit a.unit).active) || (s.unit a.unit).swapPending) then
      match refusing (s.unit a.unit) set.val { a with kind := 1 } with
      | some r =>
        let s := countRefused a.unit s
        let s := if s.mpu.noticeHeld then s.inc Reg.MPU_NOTICE_INFO_LOST_NOTICES
          else
            let s := { s with mpu := { s.mpu with noticeHeld := true } }
            let s := (s.put Reg.MPU_NOTICE_ADDR_LO_ADDR_LO a.addr).put Reg.MPU_NOTICE_ADDR_HI_ADDR_HI (a.addr / 2 ^ 32)
            (((s.put Reg.MPU_NOTICE_INFO_UNIT a.unit).put Reg.MPU_NOTICE_INFO_SET set.val).put Reg.MPU_NOTICE_INFO_REGION r).put
              Reg.MPU_NOTICE_INFO_LOST_NOTICES 0
        s.raise Ev.MPU_IMPRECISE_NOTICE
      | none => s
    else s)

/-- RELEASE (R437). -/
def releaseWrite (s : State) : State := { s with mpu := { s.mpu with noticeHeld := false } }

def execRelease (origin : Origin) (s : State) : Host.Outcome State Fault Refusal :=
  .next (if s.powered then byOrigin (isMgmt origin) origin 0x160018 releaseWrite s else s)

/-! Arming and the swap (R439 to R441). -/

def disjoint (a b : Region) : Bool := !a.en || !b.en || decide (a.base + 2 ^ a.size ≤ b.base) || decide (b.base + 2 ^ b.size ≤ a.base)

/-- The outcome of the check of R439: status and named region. -/
def armCheck (x : Unit36) (set : Nat) : Nat × Nat :=
  let rs := List.range 16
  let bad := rs.find? (fun r => let g := regionOf x set r; g.en && (decide (g.size < 8) || decide (32 < g.size) || decide (g.base % 2 ^ g.size ≠ 0)))
  match bad with
  | some r => (1, r)
  | none =>
    match rs.find? (fun r => rs.any (fun q => decide (r < q) && !disjoint (regionOf x set r) (regionOf x set q))) with
    | some r => (2, r)
    | none => (0, 0)

/-- An arm or swap ends with a status; ARM_FAILED when it is not OK. -/
def armEnd (u : Nat) (x : Unit36) (status region : Nat) (s : State) : State :=
  (s.setUnit u { x with armStatus := status, armRegion := region }).raiseIf (decide (status ≠ 0)) Ev.MPU_ARM_FAILED

/-- An arm command: refused BUSY while a swap awaits its acknowledgement. -/
def armWrite (u : Nat) (s : State) : State :=
  let x := s.unit u
  if x.swapPending then armEnd u x 4 0 s
  else
    let c := armCheck x (1 - x.active)
    armEnd u { x with armed := decide (c.1 = 0) } c.1 c.2 s

/-- A swap command: refused NOT_ARMED while the points set is unarmed. -/
def swapWrite (u : Nat) (s : State) : State :=
  let x := s.unit u
  if x.armed then armEnd u { x with active := 1 - x.active, swapPending := true } 0 0 s else armEnd u x 3 0 s

def execArm (origin : Origin) (unit : Fin 36) (s : State) : Host.Outcome State Fault Refusal :=
  .next (if s.powered then byOrigin (mpuOrigin origin unit.val) origin (0x161004 + 0x400 * unit.val) (armWrite unit.val) s else s)

def execSwap (origin : Origin) (unit : Fin 36) (s : State) : Host.Outcome State Fault Refusal :=
  .next (if s.powered then byOrigin (mpuOrigin origin unit.val) origin (0x161004 + 0x400 * unit.val) (swapWrite unit.val) s else s)

/-! Lane units (R435, R442). -/

/-- What a lane copy's unit refuses: the request, and the region that refuses it or fails the check of R439. -/
abbrev LaneRefusal := LaneOp × Nat

/-- A lane copy's unit takes one request. Every lane access is checked at issue, so a swap has nothing to wait for. -/
def unitOp (u : Nat) (x : Unit36) (o : LaneOp) : Unit36 × Option LaneRefusal :=
  match o with
  | .region r w v =>
    let k := 16 * (1 - x.active) + r % 16
    ({ x with armed := false, regions := Tab.put Region.reset x.regions k (regionWord w v.toNat (Tab.getD x.regions k Region.reset)) }, none)
  | .arm =>
    let c := armCheck x (1 - x.active)
    ({ x with armed := decide (c.1 = 0), armStatus := c.1, armRegion := c.2 }, if c.1 = 0 then none else some (o, c.2))
  | .swap => (if x.armed then { x with active := 1 - x.active, armStatus := 0, armRegion := 0 } else { x with armStatus := 3, armRegion := 0 }, none)
  | .access a n k => (x, (refusing x x.active ⟨u, a, n, k⟩).map (fun r => (o, r)))

/-- A unit takes requests in order, up to the first that it refuses. -/
def unitRun (u : Nat) (x : Unit36) : List LaneOp → Unit36 × Option LaneRefusal
  | [] => (x, none)
  | o :: t => match unitOp u x o with
    | (y, none) => unitRun u y t
    | (y, some r) => (y, some r)

/-- Both units of a lane over an interval: units 2n and 2n + 1 (R430). -/
def State.laneUnits (s : State) (c : Checkpoint) : (Unit36 × Option LaneRefusal) × (Unit36 × Option LaneRefusal) :=
  (unitRun (2 * c.lane) (s.unit (2 * c.lane)) c.opsA, unitRun (2 * c.lane + 1) (s.unit (2 * c.lane + 1)) c.opsB)

/-- A lane unit's refusal is counted and raised (R443); a set that fails R439 ends its arm other than OK. -/
def noteRefusal (u : Nat) (r : Option LaneRefusal) (s : State) : State :=
  match r with
  | some (.arm, _) => (s.raise Ev.MPU_LANE_PROT_FAULT).raise Ev.MPU_ARM_FAILED
  | some _ => (countRefused u s).raise Ev.MPU_LANE_PROT_FAULT
  | none => s

/-- Refusals of both copies in an interval. -/
def noteRefusals (c : Checkpoint) (s : State) : State :=
  let r := s.laneUnits c
  noteRefusal (2 * c.lane + 1) r.2.2 (noteRefusal (2 * c.lane) r.1.2 s)

/-- The rule sets of both copies after an interval. -/
def takeUnits (c : Checkpoint) (s : State) : State :=
  let r := s.laneUnits c
  (s.setUnit (2 * c.lane) r.1.1).setUnit (2 * c.lane + 1) r.2.1

/-- SWAP_ACK (R440): every access tagged with the old set has completed. -/
def execSwapAck (unit : Fin 36) (s : State) : Host.Outcome State Fault Refusal :=
  .next (if s.powered then s.setUnit unit.val { s.unit unit.val with swapPending := false } else s)

/-! The management processor (R445, R446). -/

/-- An update transfer in progress is lost: ABORTED (R457, R466). -/
def abortTransfers (s : State) : State :=
  { s with upd := { s.upd with sessions := s.upd.sessions.map (fun e => (e.1, if e.2.state = 1 then { e.2 with state := 9, opened := false } else e.2)) } }

/-- Every session closes (R445, R381). -/
def closeSessions (s : State) : State :=
  let s := forEach s.net.sessions (fun x s => s.send (.closed x.1)) s
  abortTransfers { s with net := { s.net with sessions := [], subs := [], handshakes := [] }
                          jrn := { s.jrn with waiters := s.jrn.waiters.map (fun w => { w with session := 0 }) } }

/-- The management processor alone restarts (R445): sessions close, the servo stops, and the panel freezes. -/
def mgmtRestart (s : State) : State :=
  let s := closeSessions s
  let s := { s with mpu := { s.mpu with restarting := true, mgmtRestarts := lastN 8 (s.mpu.mgmtRestarts ++ [s.time.tick]) }
                    panel := { s.panel with frozen := true }
                    mil := { s.mil with now := { s.mil.now with mgmtRestarts := satInc 32 s.mil.now.mgmtRestarts } } }
  let s := if s.time.quality = 0 then servoDeclare (if s.time.qualified then 1 else 2) 3 7 (s.get Reg.TIME_SERVO_ERR_NS) s else s
  s.raise Ev.MPU_MGMT_RESTARTED

/-- MGMT_RESTART_END (R445). -/
def execMgmtRestartEnd (s : State) : Host.Outcome State Fault Refusal :=
  .next (if s.powered && s.mpu.restarting then
      { s with mpu := { s.mpu with restarting := false }, panel := { s.panel with frozen := false } }
    else s)

/-- The shed level in force. -/
def State.shed (s : State) : Nat := s.get Reg.MPU_STATUS_SHED_LEVEL

/-- LOAD_WINDOW (R446): up a level once the load has exceeded 85 % for 3 consecutive windows, down one once it has stayed below
70 % for 10, at most one level a window (assumption 16). -/
def execLoadWindow (busyPct : Fin 101) (s : State) : Host.Outcome State Fault Refusal :=
  let b := busyPct.val
  .next (if s.powered then
      let hi := if 85 < b then min 3 (s.mpu.highWindows + 1) else 0
      let lo := if b < 70 then min 10 (s.mpu.lowWindows + 1) else 0
      let old := s.shed
      let new := if hi = 3 then min 6 (old + 1) else if lo = 10 then old - 1 else old
      let s := { s with mpu := { s.mpu with highWindows := hi, lowWindows := lo } }
      let s := ((s.put Reg.MPU_STATUS_LOAD_PCT b).atLeast Reg.MPU_LOAD_MAX_PCT b).put Reg.MPU_STATUS_SHED_LEVEL new
      (s.atLeast Reg.MPU_LOAD_MAX_LEVEL new).raiseIf (decide (new ≠ old)) Ev.MPU_SHED_CHANGED
    else s)

end Sys2Proof.Machine
end

