-- ==== Sys2Proof/Machine/Update.lean ====
section
/-! DEFINITION. Firmware regions, verification of an image, the owner anchor and attestation (R449 to R458, R468 to R476). -/

namespace Sys2Proof.Machine

def State.setRegion (s : State) (r : Nat) (x : RegionRec) : State := { s with upd := { s.upd with regions := Tab.set s.upd.regions r x } }
def State.updSession (s : State) (n : Nat) : UpdSession := Tab.getD s.upd.sessions n UpdSession.reset
def State.setUpdSession (s : State) (n : Nat) (x : UpdSession) : State := { s with upd := { s.upd with sessions := Tab.put UpdSession.reset s.upd.sessions n x } }

/-- A slot is written: its former words are gone. -/
def putSlot (x : RegionRec) (slot : Nat) (f : Option FwImage) : RegionRec := let x := { x with spoilt := x.spoilt.filter (fun k => decide (k ≠ slot)) }
  if slot = 0 then { x with slot0 := f } else { x with slot1 := f }

/-- The version of a region's active image (ID_FW_VERSION). -/
def State.fwVersion (s : State) (r : Nat) : Nat := match activeFw (s.fwRegion r) with | some f => f.version | none => 0

/-- A session is running until CONFIRMED, FALLEN_BACK, ABORTED or a failure (R456). -/
def sessionRunning (x : UpdSession) : Bool := decide (1 ≤ x.state) && decide (x.state ≤ 6)

def State.sessionsRunning (s : State) : List Nat := (List.range 2).filter (fun n => sessionRunning (s.updSession n))

/-- Slot size of a region in bytes (R449). -/
def slotBytes (r : Nat) : Nat := (if r = 0 ∨ r = 3 then 2 else if r = 1 then 32 else if r = 2 then 16 else 4) * 1048576

/-- The check of an image for a region, in the order of R455: 0 accepted, else the failure state. damaged: the siding has uncorrectable words. -/
def State.checkFw (s : State) (region : Nat) (damaged : Bool) (f : FwImage) : Nat :=
  let x := s.fwRegion region
  let foreign (k : Nat) : Bool := (structRegion k).any (fun r => decide (r ≠ region))
  if !f.headerOk region foreign then 0x10
  else if slotBytes region < f.bytes.length then 0x11
  else if f.variants / (if s.fixed.variantF then 2 else 1) % 2 = 0 then 0x12
  else if s.fwVersion 0 < f.minLoader then 0x13
  else if f.rollback < x.rollbackMin then 0x14
  else if damaged || !f.blocksOk then 0x15
  else if f.formats.any (fun e => (structRegion e.1).isNone) then 0x16
  else if !(certOk s.fixed.vendorKey f.cert && f.signingUse && f.certSpelled && ecdsaVerify f.cert.key f.digest f.ecdsaSig) then 0x17
  else if !lmsVerify s.fixed.vendorLms (hashBytes f.digest) f.lmsSig then 0x18
  else 0

/-- What the siding of a session holds, checked for its region; nothing there is no image. unreadable: the reading met an uncorrectable word (R192). -/
def State.checkSiding (s : State) (x : UpdSession) (unreadable : Bool) : Nat :=
  match x.siding with | some f => s.checkFw x.region (x.spoilt || unreadable) f | none => 0x10

/-- The active image of a region is damaged: its record or its slot. -/
def activeBad (x : RegionRec) : Bool := x.bad || decide (x.activeSlot ∈ x.spoilt) || (activeFw x).isNone

/-- ROM writes a downloaded image into the slot whose image failed step 2, else into the slot other than ACTIVE_SLOT, and makes it active on trial
(R468). -/
def terminusWrite (r : Nat) (f : Option FwImage) (s : State) : State :=
  let g := s.fwRegion r
  let slot := if activeBad g then g.activeSlot else 1 - g.activeSlot
  s.setRegion r { putSlot g slot f with activeSlot := slot, trial := true, attempts := 0, waiting := false, bad := false }

/-- VERIFY_COMPLETE (R455, R457). In TERMINUS, ROM writes the image (R468). -/
def execVerifyComplete (session : Fin 2) (unreadable : Bool) (s : State) : Host.Outcome State Fault Refusal :=
  let n := session.val
  let x := s.updSession n
  .next (if s.powered && decide (x.state = 2) then
      let r := s.checkSiding x unreadable
      if r = 0 then
        let s := (s.setUpdSession n { x with state := 3 }).raise Ev.UPD_VERIFIED
        if s.mode = .terminus then (terminusWrite x.region x.siding s).setUpdSession n { x with state := 6 } else s
      else (s.setUpdSession n { x with state := r, opened := false }).raise Ev.UPD_VERIFY_FAILED
    else s)

/-- The session, if any, that brought a region its image. -/
def State.sessionOfRegion (s : State) (r state : Nat) : Option Nat :=
  (List.range 2).find? (fun n => decide ((s.updSession n).region = r) && decide ((s.updSession n).state = state))

/-! Commands (R458). -/

/-- A command ends with a RESULT. -/
def cmdEnd (cmd result : Nat) (s : State) : State :=
  ((s.put Reg.UPD_CMD_STATUS_LAST_CMD cmd).put Reg.UPD_CMD_STATUS_RESULT result).inc Reg.UPD_CMD_STATUS_COUNT

/-- UPD commands come from the management processor or the register access service (R413). -/
def updOrigin (s : State) (o : Origin) : Bool := !isLane o && serviceOk s o

/-- A UPD command by its origin; TERMINUS admits none but LEAVE_TERMINUS (R458, R467: only SVC answers there). -/
def updBy (origin : Origin) (ok : Bool) (f : State → State) (s : State) : State :=
  if s.powered then byOrigin ok origin 0x17000C f s else s

/-! The owner anchor (R470, R471). -/

/-- The bytes of the anchor-clear token. -/
def State.tokenBytes (s : State) : List Byte := (List.range 53).flatMap (fun n => leBytes 4 (s.get (Reg.UPD_TOKEN_Wn_WORD n)))

/-- The owner key in a token: an uncompressed point, its coordinates big-endian. -/
def tokenKey (t : List Byte) : Nat × Nat := (beNat ((t.drop 0x11).take 48), beNat ((t.drop 0x41).take 48))

/-- A token clears the anchor: it names this module and its epoch, its key hashes to the anchor, and its signature verifies. -/
def State.tokenOk (s : State) (t : List Byte) : Bool :=
  decide (leNat (t.take 8) = s.fixed.serial.toNat) && decide (leNat ((t.drop 8).take 4) = s.mram.anchorEpoch)
    && decide ((t.drop 0x10).take 1 = [4#8]) && decide (s.mram.anchor = some (sha384 ((t.drop 0x10).take 97)))
    && ecdsaVerify (tokenKey t) (sha384 (t.take 0x74)) (beNat ((t.drop 0x74).take 48), beNat ((t.drop 0xA4).take 48))

/-- ANCHOR_CLEAR (R471): the lever open, not ACTIVE, then the token. -/
def anchorClearCmd (s : State) : State :=
  if !s.carrier.leverOpen || decide (s.mode = .active) then cmdEnd 5 3 s
  else if !s.tokenOk s.tokenBytes then cmdEnd 5 4 s
  else
    let s := { s with mram := { s.mram with anchorEpoch := (s.mram.anchorEpoch + 1) % 2 ^ 32, clearPending := true } }
    cmdEnd 5 0 (s.raise Ev.UPD_ANCHOR_CLEAR_ACCEPTED)

/-- ANCHOR_CLEAR through UPD_CMD (R458, R471). The SESSION bit of the command word names no session here. -/
def execAnchorClear (origin : Origin) (_session : Fin 2) (s : State) : Host.Outcome State Fault Refusal :=
  .next (updBy origin (isSvc origin && serviceOk s origin) anchorClearCmd s)

/-! Identity and attestation (R469, R472 to R476). -/

/-- The certificate chain: the first copy whose check value matches (R469). -/
def State.chain (s : State) : List Cert := match s.mram.chains.find? (fun e => e.2.whole) with | some e => e.2.certs | none => []

/-- TREE_READY: the bottom tree of the next leaf is built (R475, R476). -/
def State.treeReady (s : State) : Bool := decide (s.upd.leaf < 2 ^ 40) && decide (s.upd.leaf / 2 ^ 20 ∈ s.upd.trees)

/-- The bottom tree being built: the current one if it is missing, or the next one once fewer than 65,536 leaves remain (R476). -/
def State.treeBuilding (s : State) : Option Nat :=
  let t := s.upd.leaf / 2 ^ 20
  if t ∉ s.upd.trees then some t
  else if 2 ^ 20 - s.upd.leaf % 2 ^ 20 < 65536 ∧ t + 1 ∉ s.upd.trees then some (t + 1)
  else none

/-- GO (R475). -/
def attestWrite (s : State) : State :=
  let u := if s.upd.signedSecond = s.second then s.upd else { s.upd with signedSecond := s.second, signedCount := 0 }
  let s := { s with upd := u }
  if u.signing ∨ 10 ≤ u.signedCount then s.put Reg.UPD_ATT_STATUS_STATE 3
  else if s.time.tick < s.start.startTick + ticksOfMs 120000 then s.put Reg.UPD_ATT_STATUS_STATE 4
  else if !s.treeReady then s.put Reg.UPD_ATT_STATUS_STATE 5
  else { s with upd := { u with signing := true } }.put Reg.UPD_ATT_STATUS_STATE 1

def execAttestGo (origin : Origin) (s : State) : Host.Outcome State Fault Refusal :=
  .next (if s.powered then byOrigin (updOrigin s origin) origin 0x170220 attestWrite s else s)

/-- The bytes of a report before its signatures (R472). -/
def reportBody (s : State) : List Byte :=
  let nonce := (List.range 8).flatMap (fun n => leBytes 4 (s.get (Reg.UPD_ATT_NONCE_Wn_WORD n)))
  let pair := match s.img with | some i => i.pairId | none => 0
  let region (r : Nat) : List Byte :=
    let g := s.fwRegion r
    leBytes 4 (s.fwVersion r) ++ leBytes 1 (flagByte [decide (g.activeSlot = 1), g.prevUsable, g.trial, g.waiting] + 16 * (g.attempts % 16)) ++ zeros 1
      ++ leBytes 2 g.rollbackMin ++ hashBytes (match activeFw g with | some f => f.digest | none => 0)
  leBytes 4 0x54455441 ++ leBytes 2 1 ++ leBytes 2 6340 ++ nonce ++ leBytes 8 s.fixed.serial.toNat ++ leBytes 1 (modeCode s.mode) ++ leBytes 1 (flagByte [s.carrier.slotB])
    ++ leBytes 1 s.time.quality ++ leBytes 1 (flagByte [s.mram.anchor.isSome, s.mram.clearPending]) ++ leBytes 4 s.mram.bootCount ++ leBytes 8 s.ts.toNat
    ++ leBytes 16 pair ++ hashBytes s.digest ++ hashBytes (s.mram.anchor.getD 0) ++ (List.range 6).flatMap region ++ leBytes 8 s.upd.leaf ++ leBytes 4 s.upd.reportSeq
    ++ zeros 4

/-- A whole report: both signatures are over the bytes before them (R472, R473). -/
def signedReport (randomiser : Nat) (s : State) : List Word :=
  let body := reportBody s
  let sig := Config.identitySign (sha384 body)
  leWords 1585 (body ++ beBytes 48 sig.1 ++ beBytes 48 sig.2 ++ hssSign s.upd.leaf (beBytes 32 randomiser) body)

/-- REPORT_SIGNED (R473 to R476): the reservation is written first, the report is held, and the leaf is used up. The
randomiser of the bottom signature is what the crypto engine draws. -/
def execReportSigned (randomiser : Nat) (s : State) : Host.Outcome State Fault Refusal :=
  .next (if s.powered && s.upd.signing then
      let q := s.upd.leaf
      let limit := if s.upd.limit ≤ q then (q / 1024 + 1) * 1024 else s.upd.limit
      let s := { s with upd := { s.upd with limit := limit, reportSeq := (s.upd.reportSeq + 1) % 2 ^ 32 } }
      let s := { s with upd := { s.upd with words := signedReport randomiser s, signing := false, signedCount := s.upd.signedCount + 1, leaf := q + 1 } }
      ((s.put Reg.UPD_ATT_STATUS_STATE 2).put Reg.UPD_ATT_STATUS_REPORT_SEQ s.upd.reportSeq).raise Ev.UPD_REPORT_READY
    else s)

/-- NEXT_TREE_BUILT (R476): the tree being built is written. -/
def execNextTreeBuilt (s : State) : Host.Outcome State Fault Refusal :=
  .next (match s.treeBuilding with
    | some t => if s.powered then { s with upd := { s.upd with trees := t :: s.upd.trees } } else s
    | none => s)

end Sys2Proof.Machine
end

