-- ==== Sys2Proof/Machine/Tags.lean ====
section
/-! DEFINITION. Tags, forces, units, roles and unit messages (R76 to R114): what a value and a quality must be, how a write, a force
and a release change a tag, how a role change moves roles and epochs, and where a message goes. -/

namespace Sys2Proof.Machine

/-! Values (R80, R81). -/

/-- VALUE as R80 encodes it: the bytes above the encoding are 0, or the sign of a signed integer. -/
def encodeValue (t : TagType) (v : DWord) : DWord :=
  match t with
  | .bool => v &&& 0xFF#64
  | .int8 => BitVec.signExtend 64 (v.setWidth 8)
  | .int16 => BitVec.signExtend 64 (v.setWidth 16)
  | .int32 => BitVec.signExtend 64 (v.setWidth 32)
  | .uint8 => v &&& 0xFF#64
  | .uint16 => v &&& 0xFFFF#64
  | .uint32 => v &&& 0xFFFFFFFF#64
  | .real32 => v &&& 0xFFFFFFFF#64
  | .enum16 => v &&& 0xFFFF#64
  | .int64 => v
  | .uint64 => v
  | .real64 => v
  | .duration => v
  | .timestamp => v
  | .bits64 => v
  | .char8 => v
  | .unitaddr => v

/-- A UTF-8 continuation byte. -/
def utf8Cont (b : Nat) : Bool := decide (0x80 ≤ b) && decide (b ≤ 0xBF)

/-- Whole UTF-8 characters and nothing else; the padding bytes 0x00 are characters of their own. -/
def utf8Ok : List Nat → Bool
  | [] => true
  | a :: t =>
    if a ≤ 0x7F then utf8Ok t
    else match t with
      | [] => false
      | b :: t2 =>
        if 0xC2 ≤ a ∧ a ≤ 0xDF then utf8Cont b && utf8Ok t2
        else match t2 with
          | [] => false
          | c :: t3 =>
            if a = 0xE0 then decide (0xA0 ≤ b) && decide (b ≤ 0xBF) && utf8Cont c && utf8Ok t3
            else if a = 0xED then decide (0x80 ≤ b) && decide (b ≤ 0x9F) && utf8Cont c && utf8Ok t3
            else if 0xE1 ≤ a ∧ a ≤ 0xEF then utf8Cont b && utf8Cont c && utf8Ok t3
            else match t3 with
              | [] => false
              | d :: t4 =>
                let third := utf8Cont c && utf8Cont d && utf8Ok t4
                if a = 0xF0 then decide (0x90 ≤ b) && decide (b ≤ 0xBF) && third
                else if a = 0xF4 then decide (0x80 ≤ b) && decide (b ≤ 0x8F) && third
                else if 0xF1 ≤ a ∧ a ≤ 0xF3 then utf8Cont b && third
                else false

/-- A value valid for its type (R81). -/
def validValue (t : TagType) (members : List Nat) (v : DWord) : Bool :=
  match t with
  | .bool => decide (v.toNat % 256 ≤ 1)
  | .enum16 => decide (v.toNat % 65536 ∈ members)
  | .char8 => utf8Ok ((leBytes 8 v.toNat).map BitVec.toNat)
  | _ => true

/-- A REAL value that is a NaN or an infinity (R82). -/
def nonfinite (t : TagType) (v : DWord) : Bool :=
  match t with
  | .real32 => !(f32 (v.toNat % 2 ^ 32)).isFinite
  | .real64 => !f64IsFinite v
  | _ => false

/-! Quality (R83, R84). -/

def qGood : BitVec 16 := 0xC000#16
def qUncertain : BitVec 16 := 0x4000#16
def qUncertainInitial : BitVec 16 := 0x4400#16
def qCalibrating : BitVec 16 := 0x4800#16
def qLastUsable : BitVec 16 := 0x4C00#16
def qBad : BitVec 16 := 0x0000#16
def qNotConnected : BitVec 16 := 0x0800#16
def qDeviceFailure : BitVec 16 := 0x0C00#16
def qComm : BitVec 16 := 0x1000#16
def qCompliance : BitVec 16 := 0x1400#16
def qNonfinite : BitVec 16 := 0x1C00#16

/-- The codes of R84, bits 15:8. -/
def qualityCodes : List Nat := [0xC0, 0xC8, 0x40, 0x44, 0x48, 0x4C, 0x00, 0x04, 0x08, 0x0C, 0x10, 0x14, 0x18, 0x1C]

/-- A supplied quality as stored: a code outside R84 becomes BAD with REASON 0, LIMIT kept; bits 7:2 are 0. -/
def normQuality (q : BitVec 16) : BitVec 16 :=
  if q.toNat / 256 ∈ qualityCodes then q &&& 0xFF03#16 else q &&& 0x0003#16

/-- The quality a write is stored with (R82, R84). -/
def storedQuality (t : TagType) (v : DWord) (q : BitVec 16) : BitVec 16 := if nonfinite t v then qNonfinite else normQuality q

/-! Tags (R86 to R96). -/

def flagForced : BitVec 8 := 1#8
def flagRetentive : BitVec 8 := 2#8
def flagUnsync : BitVec 8 := 4#8
def flagOrphan : BitVec 8 := 8#8

def setFlag (m : BitVec 8) (b : Bool) (f : BitVec 8) : BitVec 8 := if b then f ||| m else f &&& (~~~ m)

/-- A tag takes a new visible content; CHANGE advances when VALUE, bits 15:8 of QUALITY or FORCED change (R89). -/
def tagStore (g new : Tag) : Tag :=
  let changed := decide (g.value ≠ new.value) || decide (g.quality.toNat / 256 ≠ new.quality.toNat / 256)
    || decide (g.flags &&& flagForced ≠ new.flags &&& flagForced)
  { new with change := if changed then (g.change + 1) % 2 ^ 32 else g.change }

/-- One write, force or release on the tag store (R89, R92, R95, R96). -/
def applyTagOp (op : TagOp) (c : Control) : Control :=
  match op with
  | .write t v q ts src w unsync =>
    let g := Tab.getD c.tags t Tag.zero
    match Tab.get? c.forces t with
    | some f =>
      let u := { f.under with value := v, quality := q, ts := ts, source := src, writer := w, flags := setFlag flagUnsync unsync f.under.flags }
      { c with forces := Tab.set c.forces t { f with under := u } }
    | none =>
      let new := { g with value := v, quality := q, ts := ts, source := src, writer := w, flags := setFlag flagUnsync unsync g.flags }
      { c with tags := Tab.set c.tags t (tagStore g new) }
  | .forceSet t v q ts unsync =>
    let g := Tab.getD c.tags t Tag.zero
    let f : Force := match Tab.get? c.forces t with
      | some f => { f with value := v, quality := q, unsync := unsync }
      | none => ⟨v, q, unsync, false, g⟩
    let new := { g with value := v, quality := q, ts := ts, source := 8, writer := 0xFFFFFFF3, flags := setFlag flagUnsync unsync (g.flags ||| flagForced) }
    { c with forces := Tab.set c.forces t f, tags := Tab.set c.tags t (tagStore g new) }
  | .forceRelease t =>
    match Tab.get? c.forces t with
    | some f =>
      let g := Tab.getD c.tags t Tag.zero
      let u := f.under
      let new := { g with value := u.value, quality := u.quality, ts := u.ts, source := u.source, writer := u.writer,
                          flags := setFlag flagUnsync (decide (u.flags &&& flagUnsync ≠ 0#8)) (g.flags &&& 0xF6#8) }
      { c with forces := Tab.erase c.forces t, tags := Tab.set c.tags t (tagStore g new) }
    | none => c

/-- The tag a TagOp names. -/
def TagOp.tag : TagOp → Nat
  | .write t .. => t
  | .forceSet t .. => t
  | .forceRelease t => t

/-- The task that owns a tag: its writing task, or the owning task of an input tag (R90). -/
def ownerTask (d : TagDecl) : Nat :=
  match d.writer with
  | .task t => t
  | .input t => t
  | .unwritten t => t

/-- A tag as the dictionary declares it, before its owning task's first freeze (R68, R76, R87). -/
def initialTag (d : TagDecl) : Tag :=
  { Tag.zero with value := encodeValue d.type d.initial, quality := storedQuality d.type d.initial d.initQuality, source := 0, writer := 0xFFFFFFF4,
                  flags := if d.retentive then flagRetentive else 0#8, type := typeCode d.type }

/-- A tag value written from a binary64 quantity: rounded to binary32 for a REAL32 tag (R82, R305). -/
def tagOfF64 (t : TagType) (x : DWord) : DWord :=
  match t with
  | .real64 => x
  | _ => BitVec.ofNat 64 (f32OfF64 x)

/-! Checks of an outside or program-origin write (R91, R207, R385). Codes of R201 and R384 are given by the caller. -/

/-- Outcome of checking a tag write: 0 good, 1 undeclared, 2 not writable, 3 type mismatch, 4 value invalid. -/
def State.checkTagWrite (s : State) (needWritable : Bool) (tag : Nat) (type : TagType) (v : DWord) : Nat :=
  match s.tagDecl tag with
  | none => 1
  | some d =>
    if needWritable && !d.writable then 2
    else if d.type ≠ type then 3
    else if !validValue type d.enum v then 4
    else 0

/-! Units and roles (R99 to R109). Role changes of an open cycle are (unit, role, freeze instant in ns). -/

/-- The unit declared under an id; the root is there even where the image does not list it (R99). -/
def State.unitDecl (s : State) (u : Nat) : Option UnitDecl :=
  match findKey (s.cfgList (·.units)) u with
  | some d => some d
  | none => if u = 0 then some ⟨0, 0, [], [], []⟩ else none

def unitOf (us : Tab UnitState) (u : Nat) : UnitState := Tab.getD us u ⟨0, 1, none⟩

/-- One unit changes role at an instant: its epoch advances by 1 (R105, R107). -/
def changeRole (u role instant : Nat) (us : Tab UnitState) : Tab UnitState :=
  let x := unitOf us u
  Tab.set us u ⟨role, x.epoch + 1, some instant⟩

/-- The member of the group of u, other than u, that holds an exclusive role (R104). -/
def State.exclusiveHolder (s : State) (us : Tab UnitState) (u role : Nat) : Option Nat :=
  match findKey (s.cfgList (·.roles)) role, s.unitDecl u with
  | some true, some d =>
    if u = 0 then none else
    ((s.cfgList (·.units)).find? (fun e => decide (e.1 ≠ u) && decide (e.2.parent = d.parent) && decide ((unitOf us e.1).role = role))).map (·.1)
  | _, _ => none

/-- The change of one role, made whole: an exclusive role moves, and its former holder takes the unit's old role (R105). -/
def State.moveRole (s : State) (us : Tab UnitState) (u role instant : Nat) : Tab UnitState :=
  match s.exclusiveHolder us u role with
  | some h => changeRole h (unitOf us u).role instant (changeRole u role instant us)
  | none => changeRole u role instant us

/-- Within 250 ms of its last role change (R107). -/
def roleTooSoon (x : UnitState) (instant : Nat) : Bool := x.lastChange.any (fun t => decide (instant < t + 250000000))

/-- The outcome of a role change: 0 changed or no change needed, 1 unit unknown, 2 role unknown, 3 ROLE_RATE; and whether anything changes. -/
def State.checkRole (s : State) (us : Tab UnitState) (u role instant : Nat) : Nat × Bool :=
  if (s.unitDecl u).isNone then (1, false)
  else if role ≠ 0 ∧ (findKey (s.cfgList (·.roles)) role).isNone then (2, false)
  else
    let x := unitOf us u
    if x.role = role then (0, false)
    else if roleTooSoon x instant then (3, false)
    else match s.exclusiveHolder us u role with
      | some h => if roleTooSoon (unitOf us h) instant then (3, false) else (0, true)
      | none => (0, true)

/-- Units after the role changes an open cycle has made. -/
def State.pendingUnits (s : State) (t : Task) : Tab UnitState :=
  (t.deferredRoles ++ t.roleOps).foldl (fun us r => s.moveRole us r.1 r.2.1 r.2.2) s.ctl.units

/-! Unit messages (R101, R102, R110 to R113). -/

/-- Where a unit sends a message kind; none: the unit is unknown or does not accept it. -/
def State.routeOf (s : State) (unit kind : Nat) : Option Route :=
  match s.unitDecl unit with
  | some d => findKey d.kinds kind
  | none => none

def routeTask : Route → Nat
  | .task t => t
  | .member t _ => t
  | .roleHolder t _ => t

/-- Status of a program message or outside submission at entry: 0 deliverable, 2 UNIT_UNKNOWN, 3 NO_HANDLER, 5 TOO_LONG (R111, R113). -/
def State.messageEntry (s : State) (unit kind len : Nat) : Nat :=
  if 64 < len then 5
  else if (s.unitDecl unit).isNone then 2
  else if (s.routeOf unit kind).isNone then 3
  else 0

/-- Members of a group. -/
def State.membersOf (s : State) (g : Nat) : List Nat := ((s.cfgList (·.units)).filter (fun e => decide (e.2.parent = g) && decide (e.1 ≠ g))).map (·.1)

/-- The unit that takes a message of a kind (R102): a group hands it to a fixed member or to the member that holds the routing role now, and a member
that is itself a group routes it on, at most n levels down; none: no member holds the role. -/
def State.memberFor (s : State) (us : Tab UnitState) (kind : Nat) : Nat → Nat → Option Nat
  | 0, u => some u
  | n + 1, u => match s.routeOf u kind with
    | some (.member _ m) => s.memberFor us kind n m
    | some (.roleHolder _ r) => (match (s.membersOf u).find? (fun m => decide ((unitOf us m).role = r)) with
      | some m => s.memberFor us kind n m
      | none => none)
    | some (.task _) => some u
    | none => some u

/-- The unit that takes a message sent to a unit. -/
def State.takerOf (s : State) (us : Tab UnitState) (unit kind : Nat) : Option Nat := s.memberFor us kind (s.cfgList (·.units)).length unit

/-- Status of a message at delivery: code of R113, and the destination's current epoch for ROLE_MOVED (R102, R109, R112). -/
def State.messageDue (s : State) (us : Tab UnitState) (unit epoch kind : Nat) (roleIndependent : Bool) : Nat × Nat :=
  if (s.unitDecl unit).isNone then (2, 0)
  else
    let e := (unitOf us unit).epoch
    if !roleIndependent && (decide (epoch = 0) || decide (epoch ≠ e)) then (1, e)
    else if (s.routeOf unit kind).isNone || (s.takerOf us unit kind).isNone then (3, 0) else (0, 0)

end Sys2Proof.Machine
end

