-- ==== Sys2Proof/Machine/Can.lean ====
section
/-! DEFINITION. Commands of the CAN ports (R393 to R408). -/

namespace Sys2Proof.Machine

/-- A frame received without error lowers the receive error counter of a port in normal mode (R407, ISO 11898-1; assumption 130): by 1, or from above 127 to a
value from 119 to 127 that the standard leaves open. -/
def canHeard (p : Nat) (s : State) : State :=
  let x := s.canPort p
  if s.canMode p ≠ 2 ∨ x.errState = 2 then s
  else if x.rxErr ≤ 127 then s.setCanPort p { x with rxErr := x.rxErr - 1, errState := if 128 ≤ x.tec then 1 else 0 }
  else s.free.2.setCanPort p { x with rxErr := 119 + s.free.1.toNat % 9, errState := if 128 ≤ x.tec then 1 else 0 }

/-- A frame sent without error lowers the transmit error counter by 1. -/
def canSaid (p : Nat) (s : State) : State :=
  let x := s.canPort p
  if x.errState = 2 then s else s.setCanPort p { x with tec := x.tec - 1, errState := if 128 ≤ x.tec - 1 ∨ 128 ≤ x.rxErr then 1 else 0 }

/-- CAN_FRAME_RECEIVED (R396): every frame that completes on the bus of a port that is not off bus. -/
def execCanFrameReceived (port : Fin 2) (f : CanFrame) (sofTick : Nat) (s : State) : Host.Outcome State Fault Refusal :=
  .next (if s.canMode port.val = 0 then s else canReceive port.val f false sofTick (canHeard port.val s))

/-- The frame that a request puts on the bus; ESI shows that the port is error passive, in an FD frame. -/
def CanPort.frameOf (x : CanPort) (r : CanReq) : CanFrame :=
  { ident := r.ident, extended := r.extended, rtr := r.rtr, fdf := r.fdf, brs := r.brs, esi := r.fdf && decide (x.errState = 1), dlc := r.dlc, data := r.data }

/-- CAN_TX_END (R396, R403): the one attempt of the foremost request, which the handle names, ends; a sent frame is written to the
ring with OWN. -/
def execCanTxEnd (port : Fin 2) (outcome : CanEnd) (handle : Nat) (sofTick : Nat) (s : State) : Host.Outcome State Fault Refusal :=
  let p := port.val
  let x := s.canPort p
  .next (match x.held with
    | [] => s
    | h :: rest =>
      if h.req.handle = handle ∧ (s.canMode p = 2 ∨ h.started) then
        let s := s.setCanPort p { x with held := rest }
        let code : Nat := match outcome with | .sent => 0 | .lostArbitration => 1 | .error => 2
        let s := canOutcome p h.task h.req.handle code sofTick h.cancelLate s
        if code = 0 then canReceive p (x.frameOf h.req) true sofTick (canSaid p s) else s
      else s)

/-- TX_TIMEOUT of a port in ticks. -/
def State.canTimeout (s : State) (p : Nat) : Nat := match s.canCfg p with | some c => ticksOfMs c.txTimeoutMs | none => 0

/-- CAN_TX_TIMEOUT (R403): a request that has not started within TX_TIMEOUT of reaching the port. -/
def execCanTxTimeout (port : Fin 2) (handle : Nat) (s : State) : Host.Outcome State Fault Refusal :=
  let p := port.val
  let x := s.canPort p
  .next (match x.held.find? (fun h => decide (h.req.handle = handle)) with
    | some h =>
      if h.started ∨ s.time.tick < h.since + s.canTimeout p then s
      else canOutcome p h.task handle 5 0 h.cancelLate (s.setCanPort p { x with held := x.held.erase h })
    | none => s)

/-- CAN_CANCEL (R405). -/
def execCanCancel (port : Fin 2) (handle : Nat) (s : State) : Host.Outcome State Fault Refusal :=
  .next (canCancelAt port.val handle (canMaybeStart port.val s))

/-- Set the error state shown for a port. -/
def canErr (p : Nat) (tec recv err : Nat) (s : State) : State := s.setCanPort p { s.canPort p with tec := tec, rxErr := recv, errState := err }

def State.canExt (s : State) (p : Nat) : CanExt := if p = 0 then s.mil.now.can0 else s.mil.now.can1
def State.setCanExt (s : State) (p : Nat) (x : CanExt) : State :=
  if p = 0 then { s with mil := { s.mil with now := { s.mil.now with can0 := x } } } else { s with mil := { s.mil with now := { s.mil.now with can1 := x } } }

/-- CAN_BUS_OFF (R407): every request ends with BUS_OFF. -/
def execCanBusOff (port : Fin 2) (s : State) : Host.Outcome State Fault Refusal :=
  let p := port.val
  .next (if s.canMode p = 0 ∨ (s.canPort p).errState = 2 then s
    else
      let s := canErr p (s.canPort p).tec (s.canPort p).rxErr 2 s
      let s := canEndWaiting p 4 false s
      let e := s.canExt p
      let s := s.setCanExt p { e with busOff := satInc 32 e.busOff, busOffAt := s.mram.opMinutes }
      (s.inc (Reg.CAN_ERR_BUSOFF_COUNT p)).raise (Ev.CAN_BUS_OFF p))

/-- BUS_OFF_RECOVERED (R407): error active, with both counters at 0. -/
def execBusOffRecovered (port : Fin 2) (s : State) : Host.Outcome State Fault Refusal :=
  let p := port.val
  .next (if decide ((s.canPort p).errState = 2) && decide (s.canMode p ≠ 0) then (canErr p 0 0 0 s).raise (Ev.CAN_BUS_OFF_RECOVERED p) else s)

/-- CAN_FRAME_ERROR (R396, R407): the counters as ISO 11898-1 leaves them; either at 128 or above is error passive. -/
def execCanFrameError (port : Fin 2) (tec recv : Nat) (s : State) : Host.Outcome State Fault Refusal :=
  let p := port.val
  .next (if s.canMode p = 0 ∨ (s.canPort p).errState = 2 then s
    else
      let tec := min tec 511
      let recv := min recv 255
      let err := if 128 ≤ tec ∨ 128 ≤ recv then 1 else 0
      let rise := decide (err = 1) && decide ((s.canPort p).errState = 0)
      let e := s.canExt p
      let s := if rise then s.setCanExt p { e with passive := satInc 32 e.passive } else s
      (canErr p tec recv err s).raiseIf rise (Ev.CAN_ERROR_PASSIVE p))

/-- HOLD of a mapping has passed without a matching frame, or twice HOLD: since its newest frame in the ring, or since the start. -/
def State.mapSilent (s : State) (p : Nat) (m : CanMap) (twice : Bool) : Bool :=
  let last := match canNewest (s.canPort p) (s.canPort p).seq m with | some e => e.tick | none => s.start.startTick
  decide (last + ticksOfMs (if twice then 2 * m.holdMs else m.holdMs) ≤ s.time.tick)

/-- CAN_MAPPING_HOLD_EXPIRY (R400): no matching frame for HOLD, or for twice HOLD. -/
def execCanMappingHoldExpiry (port : Fin 2) (mapping : Nat) (twice : Bool) (s : State) : Host.Outcome State Fault Refusal :=
  let p := port.val
  let x := s.canPort p
  .next (match (s.canCfg p).bind (fun c => c.maps[mapping]?) with
    | some m =>
      if s.canMode p ≠ 0 ∧ s.mapSilent p m twice then s.setCanPort p { x with expired := (x.expired.filter (fun e => decide (e.1 ≠ mapping))) ++ [(mapping, twice)] }
      else s
    | none => s)

/-- The 96 bytes of a ring entry (R397). -/
def canEntryBytes (e : CanEntry) : List Byte :=
  let f := e.frame
  let len := min (dlcLen f.fdf f.dlc) 64
  leBytes 8 e.seq ++ leBytes 8 e.tick ++ leBytes 4 (f.ident % 2 ^ 29 + 2 ^ 29 * b2n f.extended + 2 ^ 30 * b2n f.rtr)
    ++ [BitVec.ofNat 8 (b2n f.fdf + 2 * b2n f.brs + 4 * b2n f.esi + 8 * b2n e.own), BitVec.ofNat 8 f.dlc] ++ leBytes 2 len
    ++ ((f.data.take len) ++ List.replicate 64 0#8).take 64 ++ List.replicate 8 0#8

/-- RXPOP (R398, R408): latch the monitor's next entry, skipping what has been overwritten; zeros if none. -/
def rxpopWrite (p : Nat) (s : State) : State :=
  let x := s.canPort p
  let next := x.monitor + 1
  match x.ring.filter (fun e => decide (next ≤ e.seq)) with
  | e :: _ =>
    let skipped := e.seq - next
    let s := (s.addSat (Reg.CAN_COUNTS_MON_SKIPPED p) skipped).raiseIf (decide (skipped ≠ 0)) (Ev.CAN_RX_OVERWRITTEN p)
    let s := s.setCanPort p { s.canPort p with monitor := e.seq }
    putWords (fun n => Reg.CAN_RX_Wn_WORD p n) (leWords 24 (canEntryBytes e)) s
  | [] => putWords (fun n => Reg.CAN_RX_Wn_WORD p n) (List.replicate 24 0#32) s

def execRxpop (origin : Origin) (port : Fin 2) (s : State) : Host.Outcome State Fault Refusal :=
  .next (if s.powered then byOrigin (serviceOk s origin) origin (0x140004 + 0x10000 * port.val) (rxpopWrite port.val) s else s)

end Sys2Proof.Machine
end

