-- ==== Sys2Proof/Machine/Ring.lean ====
section
/-! DEFINITION. The journal ring (R188 to R214): entries and their slots, open and pending waybills, completions and their reports, carried
copies, the client windows, and replies of the Derent Plant Protocol. -/

namespace Sys2Proof.Machine

/-! Replies (R381). -/

/-- A reply of the Derent Plant Protocol: cached among the last 64 of its session, and sent. -/
def reply (k reqId : Nat) (r : Reply) (s : State) : State :=
  match Tab.get? s.net.sessions k with
  | some x => { s with net := { s.net with sessions := Tab.set s.net.sessions k { x with replies := lastN 64 (x.replies ++ [(reqId, r)]) } } }.send
      (.reply k reqId r)
  | none => s

/-- The open session of a client identity (R382: one at most). -/
def State.sessionOfClient (s : State) (id : Nat) : Option Nat := (s.net.sessions.find? (fun e => decide (e.2.clientId = id))).map (·.1)

/-! The ring. -/

/-- Slots of the ring (R195). -/
def ringSlots : Nat := 524288

/-- Continuation entries of a work body: 68 bytes fit the waybill, 100 each continuation (R197, R199, R386). -/
def contOf (w : Work) : Nat := ((workBody w).length - 68 + 99) / 100

/-- A SEQ after the newest entry. find_head of R219 finds a ring only from slot 0 on, so the first entry that a ring ever holds takes SEQ 524,288: slot 0,
and above a watermark that stands at 0 (assumption 114). -/
def State.nextEntry (s : State) : Nat := if s.jrn.head = 0 then ringSlots else s.jrn.head + 1

/-- Bytes of the body that continuation k, from 1, holds (R197). -/
def contPart (w : Work) (k : Nat) : List Byte := ((workBody w).drop (68 + 100 * (k - 1))).take 100

/-- Every continuation of a waybill stands in its slot (R197): a waybill is whole only with them. -/
def contsWhole (ring : Tab Entry) (w : Waybill) : Bool :=
  (List.range w.cont).all (fun k => match Tab.get? ring ((w.seq + 1 + k) % ringSlots) with
    | some (.cont q x i _) => decide (q = w.seq + 1 + k) && decide (x = w.waybillSeq) && decide (i = k + 1)
    | _ => false)

/-- SEQ of an entry. -/
def entrySeq : Entry → Nat
  | .waybill w => w.seq
  | .cont q _ _ _ => q
  | .completion c => c.seq

/-- whole(i) of R219: the slot holds an entry that lies where its SEQ says, with its continuations. -/
def wholeAt (ring : Tab Entry) (i : Nat) : Bool :=
  match Tab.get? ring i with
  | some e => decide (entrySeq e % ringSlots = i) && (match e with | .waybill w => contsWhole ring w | .cont .. => true | .completion _ => true)
  | none => false

/-- SEQ in a slot, 0 where it holds none. -/
def seqAt (ring : Tab Entry) (i : Nat) : Nat := match Tab.get? ring i with | some e => entrySeq e | none => 0

/-- The binary search of find_head within lap l, at most n steps (R219). -/
def searchHead (ring : Tab Entry) (l : Nat) : Nat → Nat → Nat → Nat
  | 0, lo, _ => lo
  | n + 1, lo, hi =>
    if lo < hi then
      let mid := (lo + hi + 1) / 2
      if wholeAt ring mid && decide (seqAt ring mid / ringSlots = l) then searchHead ring l n mid hi else searchHead ring l n lo (mid - 1)
    else lo

/-- SEQ of the newest entry of the ring; 0: the ring is empty (find_head of R219). -/
def State.ringHead (s : State) : Nat :=
  let ring := s.mram.ring
  if !wholeAt ring 0 then (if wholeAt ring (ringSlots - 1) then seqAt ring (ringSlots - 1) else 0)
  else seqAt ring (searchHead ring (seqAt ring 0 / ringSlots) 20 0 (ringSlots - 1))

/-- The whole waybills in the ring, by WAYBILL_SEQ; of carried copies the one with the highest SEQ counts (R211). -/
def State.waybills (s : State) : Tab Waybill :=
  s.mram.ring.foldl (fun t e =>
    match e.2 with
    | .waybill w =>
      if !contsWhole s.mram.ring w then t
      else (match Tab.get? t w.waybillSeq with
      | some o => if o.seq < w.seq then Tab.set t w.waybillSeq w else t
      | none => Tab.set t w.waybillSeq w)
    | .cont .. => t
    | .completion _ => t) []

/-- The completion of a waybill, while it is in the ring. -/
def State.completionOf (s : State) (wseq : Nat) : Option Completion :=
  s.mram.ring.findSome? (fun e => match e.2 with
    | .completion c => if c.waybillSeq = wseq then some c else none
    | .cont .. => none
    | .waybill _ => none)

/-- Accepted: MIRRORED or UNPARTNERED (R188). -/
def acceptedState (x : WbState) : Bool := decide (x = .mirrored) || decide (x = .unpartnered)

/-- Open waybills (R211), ascending by WAYBILL_SEQ. -/
def State.openWaybills (s : State) : List Waybill :=
  (s.waybills.map (·.2)).filter (fun w => (acceptedState w.state || decide (w.state = .localOnly)) && (s.completionOf w.waybillSeq).isNone)

/-- Ring entries that open waybills occupy. -/
def State.openEntries (s : State) : Nat := s.openWaybills.foldl (fun n w => n + 1 + w.cont) 0

/-- Unconfirmed entries (R213). -/
def State.unconfirmed (s : State) : List Waybill := s.openWaybills.filter (fun w => decide (w.state = .localOnly))

/-- A waybill counts for task t (R209, R506). -/
def forTask (t : Nat) (w : Waybill) : Bool :=
  match w.work with
  | .forceReleaseAll => true
  | _ => match w.target with | some u => decide (u = t) | none => decide (t = 0)

/-- Written at closure step 2 of a cycle whose step 3 has not taken place: due for delivery only then (R207). -/
def State.notYetDue (s : State) (wseq : Nat) : Bool := s.tasks.any (fun (e : Nat × Task) => e.2.wbOps.any (fun w => decide (w.waybillSeq = wseq)))

/-- Accepted waybills undelivered to task t, in journal order (R209). -/
def State.pendingFor (s : State) (t : Nat) : List Waybill :=
  s.openWaybills.filter (fun w => acceptedState w.state && forTask t w && decide ((s.task t).watermark < w.waybillSeq) && !s.notYetDue w.waybillSeq)

/-- Entries written in this second (R212). -/
def State.rateNow (s : State) : Nat := if s.jrn.rateSecond = s.second then s.jrn.rateCount else 0

/-- Count ring writes per second; LAST_S and MAX_S follow at each new second (JRN_RATE). -/
def rateAdd (n : Nat) (s : State) : State :=
  if s.jrn.rateSecond = s.second then { s with jrn := { s.jrn with rateCount := s.jrn.rateCount + n } }
  else
    let last := if s.jrn.rateSecond + 1 = s.second then satTo 16 s.jrn.rateCount else 0
    let s := (s.put Reg.JRN_RATE_LAST_S last).atLeast Reg.JRN_RATE_MAX_S (satTo 16 s.jrn.rateCount)
    { s with jrn := { s.jrn with rateSecond := s.second, rateCount := n } }

/-- Put an entry at a given SEQ into its slot. -/
def ringPut (seq : Nat) (e : Entry) (s : State) : State :=
  { s with mram := { s.mram with ring := Tab.set s.mram.ring (seq % ringSlots) e }, jrn := { s.jrn with head := max s.jrn.head seq } }

/-- Put a waybill with its continuations at its SEQ (R195 to R197). -/
def ringWaybill (w : Waybill) (s : State) : State :=
  forEach (List.range w.cont) (fun k => ringPut (w.seq + 1 + k) (.cont (w.seq + 1 + k) w.waybillSeq (k + 1) (contPart w.work (k + 1)))) (ringPut w.seq (.waybill w) s)

/-- A waybill written at the head (R195, R202 step 2). -/
def pushWaybill (w : Waybill) (s : State) : State :=
  let q := s.nextEntry
  ringWaybill { w with seq := q, waybillSeq := if w.carried then w.waybillSeq else q } (rateAdd (1 + w.cont) s)

/-- Mirror entries to the partner module while it is there (R202, R210, R211). -/
def mirrorOut (l : List Entry) (s : State) : State := if s.partnered then s.sendMirror l else s

/-- Carried copies (R211): written before the head reaches within 65,536 slots of an open waybill, and mirrored. -/
def carry (s : State) : State :=
  forEach s.openWaybills (fun w s =>
    if w.seq + ringSlots ≤ s.jrn.head + 65536 then
      let c := { w with carried := true }
      mirrorOut [.waybill { c with seq := s.nextEntry }] (pushWaybill c s)
    else s) s

/-- NEAR_FULL became 1 (R211). -/
def nearFull (before : Nat) (s : State) : State := s.raiseIf (decide (before < 49152) && decide (49152 ≤ s.openEntries)) Ev.JRN_RING_NEAR_FULL

/-- Change the state word of a waybill (R198). -/
def setWbState (wseq : Nat) (st : WbState) (s : State) : State :=
  { s with mram := { s.mram with ring := s.mram.ring.map (fun e => (e.1, match e.2 with
      | .waybill w =>
        if w.waybillSeq = wseq then .waybill { w with state := st, wordBad := false, unpartnered := w.unpartnered || decide (st = .unpartnered) } else .waybill w
      | .cont q x i b => .cont q x i b
      | .completion c => .completion c)) } }

/-- Report a completion once to the open session of its client (R387). -/
def reportCompletion (c : Completion) (s : State) : State :=
  match s.sessionOfClient c.clientId with
  | some k => s.send (.completion k c)
  | none => s

/-- A completion entry written at the head and reported (R200, R210). -/
def pushCompletion (w : Waybill) (status : Nat) (task : Option Nat) (cycle result : Nat) (s : State) : State :=
  let q := s.nextEntry
  let c : Completion := ⟨q, status, task, w.waybillSeq, w.clientId, w.clientSeq, cycle, result⟩
  reportCompletion c (ringPut q (.completion c) (rateAdd 1 s))

/-- Close a waybill outside a cycle's own closure, and mirror the completion (R210). -/
def closeWaybill (w : Waybill) (status result : Nat) (s : State) : State :=
  let c : Completion := ⟨s.nextEntry, status, none, w.waybillSeq, w.clientId, w.clientSeq, 0, result⟩
  carry (mirrorOut [.completion c] (pushCompletion w status none 0 result s))

/-! Unconfirmed entries (R214). -/

/-- An unconfirmed entry expires. -/
def expire (w : Waybill) (s : State) : State :=
  (closeWaybill w 0x30 0 (setWbState w.waybillSeq .expired s)).raise Ev.JRN_UNCONFIRMED_EXPIRED

/-- At most 4,096 entries are unconfirmed: a new one beyond that expires the oldest. -/
def limitUnconfirmed (s : State) : State :=
  if 4096 < s.unconfirmed.length then
    match s.unconfirmed with
    | w :: _ => expire w s
    | [] => s
  else s

/-! Clients (R204, R205). -/

/-- Record a sequence of a client: H, its last activity, and the accepted sequence. -/
def clientSaw (id seq : Nat) (accepted : Option Accepted) (s : State) : State :=
  let x := Tab.getD s.jrn.clients id ⟨0, 0, []⟩
  let high := max x.high seq
  let window := match accepted with
    | some a => (x.window.filter (fun (e : Accepted) => decide (e.seq ≠ seq))) ++ [a]
    | none => x.window
  let x : ClientState := ⟨high, s.mram.opMinutes, window.filter (fun e => decide (high < e.seq + s.policy.clientWindow))⟩
  { s with jrn := { s.jrn with clients := Tab.set s.jrn.clients id x } }

/-- The entry that a client's sequence names, neither EXPIRED nor RESUBMITTED. -/
def State.entryOf (s : State) (id seq : Nat) : Option Waybill :=
  ((s.waybills.map (·.2)).filter (fun w => decide (w.clientId = id) && decide (w.clientSeq = seq) && decide (w.state ≠ .expired)
    && decide (w.state ≠ .resubmitted) && decide (w.origin ≠ .program))).getLast?

/-! Acceptance (R202, R203). -/

/-- Waiters of a waybill are answered and gone. -/
def answerWaiters (wseq : Nat) (r : Reply) (s : State) : State :=
  let mine := s.jrn.waiters.filter (fun x => decide (x.waybillSeq = wseq))
  let s := forEach mine (fun x s => reply x.session x.reqId r s) s
  { s with jrn := { s.jrn with waiters := s.jrn.waiters.filter (fun x => decide (x.waybillSeq ≠ wseq)) } }

/-- Steps 4 and 5: the state word is written, an old unconfirmed entry becomes RESUBMITTED, and ACCEPTED is returned (R202, R213). -/
def acceptWaybill (wseq : Nat) (st : WbState) (s : State) : State :=
  match Tab.get? s.waybills wseq with
  | some w =>
    let s := setWbState wseq st s
    let olds := s.jrn.waiters.filterMap (fun x => if x.waybillSeq = wseq then x.old else none)
    let s := forEach olds (fun o s => setWbState o .resubmitted s) s
    let s := clientSaw w.clientId w.clientSeq (some ⟨w.clientSeq, wseq, w.work⟩) s
    let s := s.raiseIf (decide (st = .unpartnered)) Ev.JRN_UNPARTNERED_ACCEPTED
    answerWaiters wseq ⟨0x10, 1, 0, leBytes 8 wseq ++ leBytes 1 (b2n (decide (st = .unpartnered)))⟩ s
  | none => s

/-- Without the partner module the pair policy decides (R203). -/
def withoutPartner (wseq : Nat) (s : State) : State :=
  if s.acceptsUnpartnered then acceptWaybill wseq .unpartnered s else answerWaiters wseq ⟨0x10, 4, 0, []⟩ s

/-- Step 3: mirrored to the partner module; during the doubt window it waits (R203, R231). -/
def mirrorStep (w : Waybill) (s : State) : State :=
  if s.partnered then s.sendMirror [.waybill w]
  else if s.pair.doubt then s
  else withoutPartner w.waybillSeq s

/-- A new waybill of an outside submission, through steps 2 and 3 (R202). -/
def newWaybill (k reqId : Nat) (origin : WbOrigin) (clientId clientSeq : Nat) (work : Work) (target : Option Nat) (old : Option Nat) (s : State) : State :=
  let before := s.openEntries
  let absent := !s.partnered && !s.pair.doubt
  let w : Waybill :=
    { seq := 0, carried := false, origin := origin, work := work, target := target, unpartnered := absent && s.acceptsUnpartnered,
      cont := contOf work, waybillSeq := 0, clientId := clientId, clientSeq := clientSeq, state := .localOnly, wordBad := false, acceptTime := s.ts }
  let q := s.nextEntry
  let s := clientSaw clientId clientSeq none (pushWaybill w s)
  let s := { s with jrn := { s.jrn with waiters := s.jrn.waiters ++ [⟨q, k, reqId, old⟩] } }
  let s := mirrorStep { w with seq := q, waybillSeq := q } s
  carry (nearFull before (limitUnconfirmed s))

/-- The journal limits of R211 and R212 for a submission of one waybill with its continuations. -/
def State.journalFull (s : State) (cont : Nat) (targets : List Nat) : Bool :=
  decide (65536 < s.openEntries + 1 + cont) || decide (40000 < s.rateNow + 1 + cont) || targets.any (fun t => decide (4096 ≤ (s.pendingFor t).length))

/-- Configured tasks. -/
def State.taskIds (s : State) : List Nat := (s.cfgList (·.tasks)).map (·.1)

/-- Tasks whose undelivered limit a work counts against. -/
def State.limitTasks (s : State) (w : Work) (target : Option Nat) : List Nat :=
  match w with
  | .forceReleaseAll => s.taskIds
  | _ => [target.getD 0]

/-- ACCEPTED with a waybill's sequence, its UNPARTNERED flag, and its completion status while that is in the ring (R202, R204). -/
def acceptedReply (wseq : Nat) (alone : Bool) (c : Option Completion) : Reply :=
  ⟨0x10, 1, 0, leBytes 8 wseq ++ leBytes 1 (b2n alone) ++ (match c with | some c => leBytes 2 c.status | none => [])⟩

/-- The journal engine takes a checked submission (R202 to R205, R211 to R213). A confirmation that is itself refused with PARTNER_ABSENT leaves the old and
the new entry LOCAL; a later retry confirms the newer, and the older expires (assumption 112). -/
def journalSubmit (k reqId : Nat) (origin : WbOrigin) (clientId clientSeq : Nat) (work : Work) (target : Option Nat) (s : State) : State :=
  let known := Tab.get? s.jrn.clients clientId
  let high := match known with | some x => x.high | none => 0
  let busy (s : State) : State := ((reply k reqId ⟨0x10, 3, 0, []⟩ s).inc Reg.PLNT_REFUSED_BUSY).raise Ev.JRN_RING_FULL
  if known.isNone && decide (4096 ≤ s.jrn.clients.length) then reply k reqId ⟨0x10, 7, 0, []⟩ s
  else if clientSeq + s.policy.clientWindow ≤ high then reply k reqId ⟨0x10, 6, 0, []⟩ s
  else
    let seen := match known with | some x => x.window.find? (fun (e : Accepted) => decide (e.seq = clientSeq)) | none => none
    match s.entryOf clientId clientSeq, seen with
    | some w, _ =>
      if w.work ≠ work then reply k reqId ⟨0x10, 5, 0, []⟩ s
      else if s.jrn.waiters.any (fun x => decide (x.waybillSeq = w.waybillSeq)) then
        { s with jrn := { s.jrn with waiters := s.jrn.waiters ++ [⟨w.waybillSeq, k, reqId, none⟩] } }
      else if acceptedState w.state then
        reply k reqId (acceptedReply w.waybillSeq (decide (w.state = .unpartnered)) (s.completionOf w.waybillSeq)) (clientSaw clientId clientSeq none s)
      else if s.journalFull (contOf work) (s.limitTasks work target) then busy s
      else newWaybill k reqId origin clientId clientSeq work target (some w.waybillSeq) s
    | none, some a =>
      if a.work ≠ work then reply k reqId ⟨0x10, 5, 0, []⟩ s
      else match s.completionOf a.waybillSeq with
        | some c => reply k reqId (acceptedReply a.waybillSeq false (some c)) (clientSaw clientId clientSeq none s)
        | none => reply k reqId ⟨0x10, 8, 0, []⟩ s
    | none, none =>
      if s.journalFull (contOf work) (s.limitTasks work target) then busy s
      else newWaybill k reqId origin clientId clientSeq work target none s

end Sys2Proof.Machine
end

