-- ==== Sys2Proof/Machine/Inputs.lean ====
section
/-! DEFINITION. What the input gate writes at a freeze (R90, R92, R120): tags from channels (R280, R286, R287, R294, R301, R508), sampled
values (R371), GOOSE members (R373) and CAN mappings (R400). -/

namespace Sys2Proof.Machine

/-- A value on its way into an input tag: tag, value, quality, timestamp, SOURCE. -/
structure TagInput where
  tag : Nat
  value : DWord
  quality : BitVec 16
  ts : DWord
  source : Nat
  unsync : Bool
  deriving DecidableEq, Repr

/-- The quality a located fault sets on a readback tag (true) or an input tag of a channel (R294); none: no fault touches the tag. -/
def faultQuality (c : ChanCfg) (x : Chan) (readback : Bool) : Option (BitVec 16) :=
  if x.kind = 0 then none
  else if x.kind = 8 ∨ x.kind = 9 then some qDeviceFailure
  else if readback then some qDeviceFailure
  else if x.kind = 1 then (if decide (c.mode = .ci) && c.loopPower then some qDeviceFailure else none)
  else if x.kind = 7 then some (if decide (c.mode = .vi) && decide (x.voltMv < 0) then 0x0001#16 else 0x0002#16)
  else none

/-- Quality of a channel's tag (R277, R286, R287, R294, R310; assumption 18 gives the order of the causes). -/
def State.chanQuality (s : State) (n : Nat) (c : ChanCfg) (readback : Bool) (own : BitVec 16) : BitVec 16 :=
  let x := s.chan n
  if s.calibrating n then qCalibrating
  else if x.changing then qUncertain
  else match faultQuality c x readback with
    | some q => q
    | none =>
      if readback && x.openLoop then qNotConnected
      else if readback && x.compliance then qCompliance
      else if !readback && x.liveZeroLost then qNotConnected
      else own

/-- The result a CI, VI or AO tag takes (R301): value, quality of its own, instant. -/
def State.chanResult (s : State) (n : Nat) (c : ChanCfg) : Option (QEntry × BitVec 16) :=
  let integrated := Tab.get? s.conv.results (resKey n 1)
  let fast := Tab.get? s.conv.results (resKey n 2)
  if c.tagSourceFast then fast.map (fun e => (e, qGood))
  else match integrated with
    | some e => some (e, qGood)
    | none => fast.map (fun e => (e, qUncertainInitial))

/-- A CI, VI or AO tag. Under calibration it holds its last value or the substitute (R310). -/
def State.analogueInput (s : State) (n : Nat) (c : ChanCfg) (tag : Nat) (readback : Bool) : List TagInput :=
  match s.tagDecl tag, s.chanResult n c with
  | some d, some (e, own) =>
    if s.calibrating n then
      let old := Tab.getD s.ctl.tags tag (initialTag d)
      [⟨tag, match c.calSubstitute with | some v => tagOfF64 d.type v | none => old.value, qCalibrating, e.time, 2, e.unsync⟩]
    else
      let y := charValue c.characteristic (s.chan n).cutoff e.x
      let limited : BitVec 16 := own ||| BitVec.ofNat 16 y.2
      [⟨tag, tagOfF64 d.type y.1, s.chanQuality n c readback limited, e.time, 2, e.unsync⟩]
  | _, _ => []

/-- Tags of one channel. A discrete output's readback tags carry the instant of its last readback, that of the freeze while there was none (R508). -/
def State.chanInputs (s : State) (n : Nat) (c : ChanCfg) : List TagInput :=
  let x := s.chan n
  let one (t : Option Nat) (f : Nat → List TagInput) : List TagInput := match t with | some t => f t | none => []
  match c.mode with
  | .di => one c.inputTag (fun t => [⟨t, if x.stateDi then 1#64 else 0#64, s.chanQuality n c false qGood, x.edgeTs, 2, x.edgeUnsync⟩])
  | .ci => one c.inputTag (fun t => s.analogueInput n c t false)
  | .vi => one c.inputTag (fun t => s.analogueInput n c t false)
  | .ao => one c.readbackTag (fun t => s.analogueInput n c t true)
  | .dout =>
    let on := decide (x.doState = .on) || decide (x.doState = .limit)
    let ts := x.rbTs.getD s.ts
    let unsync := if x.rbTs.isSome then x.rbUnsync else s.unsync
    one c.readbackTag (fun t => [⟨t, if on then 1#64 else 0#64, s.chanQuality n c true qGood, ts, 2, unsync⟩])
      ++ one c.readbackMaTag (fun t =>
        [⟨t, BitVec.ofNat 64 (f32OfF64 (f64OfRat x.currUa 1000)), s.chanQuality n c true qGood, ts, 2, unsync⟩])
  | .unused => []

/-- Tags of a sampled-value subscription (R371). -/
def State.svInputs (s : State) (k : Nat) (c : SvSub) : List TagInput :=
  let x := Tab.getD s.net.sv k SvState.reset
  c.maps.flatMap (fun m =>
    let scaled (v : Int) : DWord := match m.scale with
      | some f => BitVec.ofNat 64 (f32OfF64 (f64Mul (f64OfInt v) f))
      | none => BitVec.ofInt 64 v
    let lastGood (q : BitVec 16) : List TagInput := match x.good[m.chan]? with
      | some g => [⟨m.tag, scaled g.value, q, x.ts, 3, x.unsync⟩]
      | none => match x.samples[m.chan]? with
        | some g => [⟨m.tag, scaled g.value, q, x.ts, 3, x.unsync⟩]
        | none => []
    if x.last.isNone then []
    else if x.expired then lastGood qComm
    else if x.state ≠ 1 then lastGood qLastUsable
    else match x.samples[m.chan]? with
      | some g =>
        let q := if g.test ≠ s.net.testMode then qBad else if g.validity = 0 then qGood else if g.validity = 3 then qUncertain else qBad
        [⟨m.tag, scaled g.value, q, x.ts, 3, x.unsync⟩]
      | none => [])

/-- Tags of a GOOSE subscription (R373). -/
def State.gooseInputs (s : State) (g : Nat) (c : GooseSub) : List TagInput :=
  let x := Tab.getD s.net.goose g GooseState.reset
  c.maps.flatMap (fun m =>
    match x.members[m.1]? with
    | none => []
    | some v =>
      let q := match m.2.2 with
        | some k => (match x.members[k]? with | some w => w.2 &&& 0xC000#16 | none => qGood)
        | none => qGood
      [⟨m.2.1, v.1, if x.holdOver then qComm else if x.state = 4 then qLastUsable else q, x.ts, 4, x.unsync⟩])

/-- Tags of the receive mappings of a CAN port (R400): a REAL tag takes the field times the scale, any other the field itself
(assumption 19). Entries and instants are those of what the input gate committed of the port at the freeze (R399). -/
def State.canInputs (s : State) (l : CanLatch) (c : CanCfg) : List TagInput :=
  let x := s.canPort l.port
  (List.range c.maps.length).flatMap (fun i =>
    match c.maps[i]? with
    | none => []
    | some m => match canNewest x l.seq m, s.tagDecl m.tag with
      | some e, some d =>
        let raw := canBits e.frame m
        let v := match d.type with
          | .real32 => tagOfF64 .real32 (f64Mul (f64OfInt raw) m.scale)
          | .real64 => f64Mul (f64OfInt raw) m.scale
          | t => encodeValue t (BitVec.ofNat 64 raw)
        let q := if x.expired.any (fun h => decide (h.1 = i) && h.2) then qComm
          else if x.expired.any (fun h => decide (h.1 = i)) then qLastUsable else qGood
        [⟨m.tag, v, q, l.instant e.tick, 5, e.unsync⟩]
      | _, _ => [])

/-- Tags that the dictionary declares as management status inputs (R85). What the management processor posted last is the module's own measurement: no
command carries it, so value and quality read as Config.measured gives them, and the instant is the freeze (assumption 47). -/
def State.statusInputs (s : State) : List TagInput :=
  ((s.cfgList (·.tags)).filter (fun e => e.2.mgmt)).map (fun e =>
    ⟨e.1, Config.measured (2 ^ 42 + e.1) s.time.tick ++ Config.measured (2 ^ 40 + e.1) s.time.tick, (Config.measured (2 ^ 41 + e.1) s.time.tick).setWidth 16, s.ts, 9, s.unsync⟩)

/-- Every input tag that a source of this module writes, as task i sees it. -/
def State.allInputs (s : State) (i : Nat) : List TagInput :=
  s.channels.flatMap (fun e => s.chanInputs e.1 e.2)
    ++ (s.cfgList (·.net.svSubs)).flatMap (fun e => s.svInputs e.1 e.2)
    ++ (s.cfgList (·.net.gooseSubs)).flatMap (fun e => s.gooseInputs e.1 e.2)
    ++ (s.cfgList (·.can)).flatMap (fun e => match (s.task i).canSeen.find? (fun l => decide (l.port = e.1)) with | some l => s.canInputs l e.2 | none => []) ++ s.statusInputs

/-- Writes of the input gate at a freeze of task i (R90, R92 item 1): first the initial values that take their timestamp at the first
freeze (R87), then the input tags the task owns. A value that is not valid for its tag's type is refused, and the tag keeps what it holds (R80, R81). -/
def State.inputOps (s : State) (i : Nat) : List TagOp :=
  let initials := (s.cfgList (·.tags)).filterMap (fun e =>
    let g := Tab.getD s.ctl.tags e.1 Tag.zero
    if ownerTask e.2 = i ∧ g.source = 0 ∧ g.ts = 0#64 then some (TagOp.write e.1 g.value g.quality s.ts 0 0xFFFFFFF4 s.unsync) else none)
  let inputs := (s.allInputs i).filterMap (fun x =>
    match s.tagDecl x.tag with
    | some d =>
      let v := encodeValue d.type x.value
      if d.writer = .input i ∧ d.mgmt = decide (x.source = 9) ∧ validValue d.type d.enum v then
        some (TagOp.write x.tag v (storedQuality d.type v x.quality) x.ts x.source (if x.source = 9 then 0xFFFFFFF5 else 0xFFFFFFF2) x.unsync) else none
    | none => none)
  initials ++ inputs

/-- Apply the writes of a cycle to the visible tag store; the recorder sees each tag that changed. -/
def applyTagOps (ops : List TagOp) (s : State) : State :=
  let old := s.ctl.tags
  let s := { s with ctl := ops.foldl (fun c o => applyTagOp o c) s.ctl }
  forEach (ops.map TagOp.tag).dedup (fun t s =>
    let g := Tab.getD s.ctl.tags t Tag.zero
    let was := Tab.getD old t Tag.zero
    if was = g then s else acqTagChanged t was g s) s

end Sys2Proof.Machine
end

