-- ==== Sys2Proof/Machine/Panel.lean ====
section
/-! DEFINITION. The status panel, the bistable label and the mileage recorder (R477 to R491). -/

namespace Sys2Proof.Machine

/-! Status panel. -/

/-- Held FP writes take effect at the start of a refresh (R415). -/
def fpApplyHeld (s : State) : State :=
  let mine := s.heldWrites.filter (fun e => decide (blockBase e.1 = 0x180000))
  let s := { s with heldWrites := s.heldWrites.filter (fun e => decide (blockBase e.1 ≠ 0x180000)) }
  forEach mine (fun e s => (s.put Reg.FP_PANEL_CFG_BRIGHTNESS (e.2.toNat % 16)).put Reg.FP_PANEL_CFG_SHIFT_EN (e.2.toNat / 16)) s

/-- Event bits set in an event register, as address × 16 + bit. -/
def State.eventBits (s : State) (addr : Nat) : List Nat :=
  ((List.range 16).filter (fun b => decide (s.get ⟨addr, b, 1⟩ = 1))).map (fun b => addr * 16 + b)

/-- What a refresh shows (R481): state and slot, hold code and notices, last halt reason, time quality, shed level, and the event bits set
in PWR, CPL, EXEC and CH. -/
def State.panelLines (s : State) : List Nat :=
  [modeCode s.mode, b2n s.carrier.slotB, s.get Reg.ID_START_HOLD, s.get Reg.ID_START_NOTICES, s.mram.haltReason, s.time.quality, s.shed]
    ++ ([0x1A0004, 0x50008, 0x20008] ++ (List.range 8).map (fun p => 0x80008 + 0x10000 * p)).flatMap s.eventBits

/-- PANEL_REFRESH (R480, R481): not while the management processor restarts. -/
def execPanelRefresh (s : State) : Host.Outcome State Fault Refusal :=
  .next (if s.powered && s.panel.on && !s.panel.frozen then
      let s := fpApplyHeld s
      let l := s.panelLines
      { s with panel := { s.panel with shown := l } }.send (.panelFrame l)
    else s)

/-- PIXEL_SHIFT (R480): the next of the 16 positions, while SHIFT_EN is 1. -/
def execPixelShift (s : State) : Host.Outcome State Fault Refusal :=
  .next (if s.powered && s.panel.on && decide (s.get Reg.FP_PANEL_CFG_SHIFT_EN = 1) then
      { s with panel := { s.panel with shiftPos := (s.panel.shiftPos + 1) % 16 } }
    else s)

/-- The drive rail target in mV at a panel temperature in 0.01 °C (R479). -/
def driveTarget (temp : Int) : Nat :=
  let seg (t0 t1 v0 v1 : Int) : Nat := (v0 + (v1 - v0) * (temp - t0) / (t1 - t0)).toNat
  if temp ≤ -4000 then 16000
  else if temp ≤ 0 then seg (-4000) 0 16000 14500
  else if temp ≤ 2500 then seg 0 2500 14500 14000
  else if temp ≤ 6000 then seg 2500 6000 14000 13000
  else if temp ≤ 8500 then seg 6000 8500 13000 12500
  else 12500

/-- CONTRAST_UPDATE (R479): at most 0.1 V toward the target. -/
def execContrastUpdate (temp : Int) (s : State) : Host.Outcome State Fault Refusal :=
  .next (if s.powered && s.panel.on then
      let t := driveTarget temp
      let v := s.panel.driveMv
      { s with panel := { s.panel with temp := temp, driveMv := if v + 100 < t then v + 100 else if t + 100 < v then v - 100 else t } }
    else s)

/-- The panel is switched off (R478). -/
def panelOff (s : State) : State := { s with panel := { s.panel with on := false, driveMv := 0, shown := [] } }

/-- The panel is powered up within step 1 (R477): blank, then the first frame; the drive rail stands at its target for the temperature last
measured. -/
def panelOn (s : State) : State :=
  { s with panel := { s.panel with on := true, frozen := false, shown := [], driveMv := driveTarget s.panel.temp } }

/-! Bistable label. -/

/-- Conditions of R483 that the state shows: a good module supply, no hold-up, the 5 s spacing but for a dirty redraw. -/
def State.labelMayStart (s : State) : Bool :=
  (decide (19200 ≤ s.carrier.mod1Mv) || decide (19200 ≤ s.carrier.mod2Mv)) && !s.carrier.holdup && !s.panel.labelBusy
    && (s.panel.redrawDirty || s.panel.lastStart.all (fun t => decide (t + ticksOfMs 5000 ≤ s.time.tick)))

/-- What an update draws as the module stands (R481, R486). -/
def State.labelImage (s : State) (generation : Nat) : LabelImage :=
  { serial := s.fixed.serial, slotName := s.mram.slotName, pairName := s.mram.pairName, mode := s.mode, reason := s.mram.haltReason, hours := s.mram.haltMinute / 60,
    mgmt := s.fwVersion 1, lane := s.fwVersion 2, generation := generation, complete := false }

/-- LABEL_UPDATE_START (R4, R483, R484, R486): the command says that the reservoir is full; the dirty marker is written, the generation
advances, and the update draws what stands now. -/
def execLabelUpdateStart (s : State) : Host.Outcome State Fault Refusal :=
  .next (if s.powered && (s.panel.labelHeld || s.panel.redrawDirty) && s.labelMayStart then
      let g := (s.mram.labelGeneration + 1) % 2 ^ 16
      { s with carrier := { s.carrier with resFull := true }
               mram := { s.mram with labelDirty := true, labelGeneration := g }
               panel := { s.panel with labelBusy := true, labelHeld := false, lastStart := some s.time.tick, label := some (s.labelImage g) } }
    else s)

/-- LABEL_UPDATE_END (R484, R485). -/
def execLabelUpdateEnd (s : State) : Host.Outcome State Fault Refusal :=
  .next (if s.powered && s.panel.labelBusy then
      let dirty := s.panel.redrawDirty
      let s := { s with mram := { s.mram with labelDirty := false }, panel := { s.panel with labelBusy := false, redrawDirty := false, label := s.panel.label.map (fun (x : LabelImage) => { x with complete := true }) } }
      ((s.inc Reg.FP_LABEL_UPDATES).raise Ev.FP_LABEL_UPDATED).raiseIf dirty Ev.FP_LABEL_REDRAWN
    else s)

/-- REDRAW (R482). -/
def execRedraw (origin : Origin) (s : State) : Host.Outcome State Fault Refusal :=
  .next (if s.powered then byOrigin (serviceOk s origin) origin 0x180018 labelRequest s else s)

/-! Mileage recorder. -/

/-- LO and STEP of a histogram series (R488). -/
def seriesScale (k : Nat) : Option (Int × Nat) :=
  if k = 1 then some (-4000, 550)
  else if k = 2 then some (-4000, 400)
  else if 3 ≤ k ∧ k ≤ 6 then some (18000, 500)
  else if k = 7 then some (700, 5)
  else if k = 8 then some (600, 25)
  else if 0x10 ≤ k ∧ k ≤ 0x17 then some (0, 32)
  else if 0x18 ≤ k ∧ k ≤ 0x1F then some (0, 200)
  else if 0x20 ≤ k ∧ k ≤ 0x27 then some (0, 250)
  else if k = 0x28 then some (0, 10)
  else none

/-- The 40 series in record order (R489). -/
def allSeries : List Nat :=
  (List.range 9) ++ (List.range 24).map (fun i => 0x10 + i) ++ [0x28] ++ [0x30, 0x31, 0x32, 0x33, 0x34, 0x35]

/-- Is a series sampled now (R488). -/
def State.sampledNow (s : State) (k : Nat) : Bool :=
  let live := decide (s.mode ≠ .off) && decide (s.mode ≠ .terminus)
  if k = 8 then decide (s.mode = .standby) || decide (s.mode = .active)
  else if 0x10 ≤ k ∧ k ≤ 0x17 then decide (s.mode = .active) && (s.taskCfg (k - 0x10)).isSome
  else if 0x20 ≤ k ∧ k ≤ 0x27 then
    decide (s.mode = .active) && (List.range 12).any (fun c => decide (s.chanMode (12 * (k - 0x20) + c) = .ao) && (s.chan (12 * (k - 0x20) + c)).driven)
  else if k = 0x28 then live && decide (s.time.source = 1)
  else live && (seriesScale k).isSome

def State.mseries (s : State) (k : Nat) : Series := Tab.getD s.mil.now.series k Series.reset
def State.setMseries (s : State) (k : Nat) (x : Series) : State := { s with mil := { s.mil with now := { s.mil.now with series := Tab.put Series.reset s.mil.now.series k x } } }

/-- The bin a value falls into. -/
def binOf (lo : Int) (step : Nat) (v : Int) : Nat := if v < lo then 0 else min 31 (((v - lo) / (step : Int)).toNat + 1)

/-- One sample folded into its histogram and extremes. -/
def foldSample (e : Nat × Int × Nat) (s : State) : State :=
  match seriesScale e.1 with
  | none => s
  | some sc =>
    let x := s.mseries e.1
    let v := e.2.1
    let x := { x with samples := satInc 32 x.samples, sampled := true, bins := Tab.update 0 x.bins (binOf sc.1 sc.2 v) (satInc 32) }
    let lower := !(s.mseries e.1).sampled || decide (v < x.min)
    let higher := !(s.mseries e.1).sampled || decide (x.max < v)
    s.setMseries e.1 { x with min := if lower then v else x.min, minAt := if lower then e.2.2 else x.minAt,
                              max := if higher then v else x.max, maxAt := if higher then e.2.2 else x.maxAt }

/-- Fold every held sample. -/
def foldAll (s : State) : State :=
  let l := s.mil.unfolded
  forEach l foldSample { s with mil := { s.mil with unfolded := [] } }

/-- Folding is held: samples older than 1 h are discarded and counted (R491). -/
def dropOld (s : State) : State :=
  let old := s.mil.unfolded.filter (fun e => decide (e.2.2 + 60 < s.mram.opMinutes))
  let s := { s with mil := { s.mil with unfolded := s.mil.unfolded.filter (fun e => !decide (e.2.2 + 60 < s.mram.opMinutes)) } }
  let s := forEach old (fun e s => let x := s.mseries e.1; s.setMseries e.1 { x with dropped := satInc 32 x.dropped, partly := true }) s
  s.raiseIf (decide (old ≠ [])) Ev.MIL_SAMPLES_DROPPED

/-- The bytes 0x00 to 0x0F of a record in a format (R489, R465). -/
def State.milHead (s : State) (k format flags seq : Nat) : List Byte :=
  [BitVec.ofNat 8 k, BitVec.ofNat 8 format, BitVec.ofNat 8 flags, 0#8] ++ leBytes 4 seq ++ leBytes 4 s.mram.opMinutes ++ leBytes 4 s.mram.powerCycles

/-- A record without its check value. -/
def State.milBody (s : State) (k : Nat) : List Byte :=
  match seriesScale k with
  | some sc =>
    let x := s.mseries k
    leBytes 4 x.samples ++ leBytes 4 x.dropped ++ leBytes 4 (twos 32 sc.1) ++ leBytes 4 sc.2 ++ leBytes 4 (twos 32 x.min) ++ leBytes 4 x.minAt
      ++ leBytes 4 (twos 32 x.max) ++ leBytes 4 x.maxAt ++ (List.range 32).flatMap (fun b => leBytes 4 (Tab.getD x.bins b 0))
  | none =>
    if k = 0 then
      leBytes 4 s.mil.now.holdupEntries ++ leBytes 4 s.mil.now.halts ++ leBytes 4 s.mil.now.tookControl ++ leBytes 4 s.mil.now.mgmtRestarts ++ leBytes 4 40
    else if 0x30 ≤ k ∧ k ≤ 0x33 then (List.range 24).flatMap (fun i => leBytes 8 (Tab.getD s.mil.now.switchOns (24 * (k - 0x30) + i) 0))
    else if k = 0x34 ∨ k = 0x35 then
      let e := s.canExt (k - 0x34)
      leBytes 4 e.tecMax ++ leBytes 4 e.tecAt ++ leBytes 4 e.recMax ++ leBytes 4 e.recAt ++ leBytes 4 e.busOff ++ leBytes 4 e.busOffAt ++ leBytes 4 e.passive
    else []

/-- The 64 words of a record (R489). -/
def State.milRecord (s : State) (k format seq : Nat) (partly : Bool) : List Word :=
  let flags := b2n partly + 2 * b2n ((seriesScale k).isSome && !(s.mseries k).sampled)
  let bytes := ((s.milHead k format flags seq ++ s.milBody k) ++ List.replicate 252 0#8).take 252
  leWords 63 bytes ++ [crc32c bytes]

/-- The slot of the newest counting write in a format that this firmware reads (R490, R464). -/
def State.newestMil (s : State) : Option (Nat × MilSlot) :=
  (s.mil.slots.filter (fun e => e.2.whole && s.reads 3 e.2.format)).foldl (fun b e => match b with
    | some x => if x.2.seq < e.2.seq then some e else some x
    | none => some e) none

/-- The hourly write (R489, R490, R491): 40 records into the slot that WRITE_SEQ names, in that slot's format. -/
def hourlyWrite (s : State) : State :=
  let seq := s.mil.writeSeq + 1
  let format := s.fmtAt 3 seq
  let partly := s.mil.now.series.any (fun e => e.2.partly)
  let recs := Tab.ofList (allSeries.map (fun k => (k, s.milRecord k format seq partly)))
  let now := { s.mil.now with series := s.mil.now.series.map (fun (e : Nat × Series) => (e.1, { e.2 with partly := false })) }
  let x : MilSlot := { seq := seq, format := format, records := recs, totals := now, whole := true }
  { s with mil := { s.mil with now := now, writeSeq := seq, slots := Tab.set s.mil.slots (seq % 2) x } }.raise Ev.MIL_HOUR_WRITTEN

/-- OPERATING_MINUTE (R487, R488, R489, R491): counted in every state but OFF. -/
def execOperatingMinute (s : State) : Host.Outcome State Fault Refusal :=
  .next (if s.powered then
      let s := { s with mram := { s.mram with opMinutes := (s.mram.opMinutes + 1) % 2 ^ 32 } }
      let s := if s.shed < 3 then foldAll s else dropOld s
      if s.mram.opMinutes % 60 = 0 then hourlyWrite s else s
    else s)

/-- MILEAGE_SAMPLE (R488). -/
def execMileageSample (values : List (Nat × Int)) (s : State) : Host.Outcome State Fault Refusal :=
  .next (if s.powered then
      let l := (values.filter (fun e => s.sampledNow e.1)).map (fun e => (e.1, e.2, s.mram.opMinutes))
      { s with mil := { s.mil with unfolded := s.mil.unfolded ++ l } }
    else s)

/-- MIL_SEL (R489): the record of the newest counting write, or the present state laid out as a record. -/
def milSelWrite (series : Nat) (live : Bool) (s : State) : State :=
  let s := (s.put Reg.MIL_SEL_SERIES series).put Reg.MIL_SEL_LIVE (b2n live)
  let zero : List Word := List.replicate 64 0#32
  let w : List Word := if series ∉ allSeries then zero
    else if live then s.milRecord series (s.fmt 3) s.mil.writeSeq (s.mil.now.series.any (fun e => e.2.partly))
    else match s.newestMil with | some e => (Tab.get? e.2.records series).getD zero | none => zero
  putWords (fun n => Reg.MIL_REC_Wn_WORD n) w s

def execMilSel (origin : Origin) (series : Byte) (live : Bool) (s : State) : Host.Outcome State Fault Refusal :=
  .next (if s.powered then byOrigin (serviceOk s origin) origin 0x190018 (milSelWrite series.toNat live) s else s)

/-- CAN_ERR_READ (R488): error extremes of the ports that are not off bus. -/
def execCanErrRead (s : State) : Host.Outcome State Fault Refusal :=
  let one (p : Nat) (s : State) : State :=
    if s.canMode p = 0 then s
    else
      let x := s.canPort p
      let e := s.canExt p
      let e := if e.tecMax < x.tec then { e with tecMax := x.tec, tecAt := s.mram.opMinutes } else e
      s.setCanExt p (if e.recMax < x.rxErr then { e with recMax := x.rxErr, recAt := s.mram.opMinutes } else e)
  .next (one 1 (one 0 s))

end Sys2Proof.Machine
end

