-- ==== Sys2Proof/Machine/RegView.lean ====
section
/-! DEFINITION. What a read of a register returns (R9, R11, R12, R420 to R428): fields the bank holds, and fields that show a quantity with its
home elsewhere in the state. A view lists (low bit, width, value); a view wins over the bank. -/

namespace Sys2Proof.Machine

/-- A word from its fields. -/
def packFields (l : List (Nat × Nat × Nat)) : Nat := l.foldl (fun n f => n + f.2.2 % 2 ^ f.2.1 * 2 ^ f.1) 0

/-- Index i of a repeated register: offset base + step × i, i below n. -/
def regIndex (off base step n : Nat) : Option Nat :=
  if base ≤ off ∧ (off - base) % step = 0 ∧ (off - base) / step < n then some ((off - base) / step) else none

/-- A bit. -/
def bitF (lo : Nat) (b : Bool) : Nat × Nat × Nat := (lo, 1, b2n b)

def lo32 (n : Nat) : List (Nat × Nat × Nat) := [(0, 32, n % 2 ^ 32)]
def hi32 (n : Nat) : List (Nat × Nat × Nat) := [(0, 32, n / 2 ^ 32)]

/-- Set bits as a mask. -/
def maskOf (l : List Nat) : Nat := l.foldl (fun n i => n + 2 ^ i) 0

/-! Capability list (R424 to R427). -/

/-- Words of the block entry for block n at address a, with the address of the next. -/
def blockEntry (n next : Nat) : List Nat :=
  let boundary := if n = 2 then 1 else if n = 3 then 2 else if n = 6 then 3 else if (8 ≤ n ∧ n ≤ 15) ∨ n = 16 then 4
    else if 18 ≤ n ∧ n ≤ 21 then 5 else if n = 17 then 6 else if n = 24 then 7 else 0
  let rwb := decide (n ∈ [2, 3, 6, 17, 18, 24])
  let ctrl := if n = 26 then 0x1C else 4
  [0x0100 + n + 0x10000 + 4 * 2 ^ 24, next, n * 0x10000, boundary + 256 * b2n rwb + ctrl * 65536]

/-- Entries as (ID, body words) in ascending order of ID. -/
def capEntries (variantF : Bool) : List (Nat × List Nat) :=
  (if variantF then [(0x200, [])] else []) ++ [(0x201, [128 + 512 * 65536]), (0x202, [250 + 1000 * 65536]), (0x203, [2 + 40 * 256])]

/-- Words of the entries that follow the block entries, from address a. -/
def capWords (a : Nat) : List (Nat × List Nat) → List Nat
  | [] => []
  | (id, body) :: t =>
    let len := 2 + body.length
    let next := if t = [] then 0 else a + 4 * len
    [id + 65536 + len * 2 ^ 24, next] ++ body ++ capWords (a + 4 * len) t

/-- The list from 0x0100: 26 block entries (n = 7 belongs to n = 6), then the others. -/
def capList (variantF : Bool) : List Nat :=
  let blocks := (List.range 27).filter (fun n => decide (n ≠ 7))
  (blocks.zip (List.range 26)).flatMap (fun e => blockEntry e.1 (0x100 + 16 * (e.2 + 1))) ++ capWords (0x100 + 16 * 26) (capEntries variantF)

/-! Views by block. -/

def idView (s : State) (off : Nat) : List (Nat × Nat × Nat) :=
  if off = 0 then [(0, 16, 0x9600), (16, 8, if s.fixed.variantF then 0x0F else 0x0A), (24, 8, Config.dieStepping.toNat)]
  else if off = 0x10 then lo32 s.fixed.serial.toNat
  else if off = 0x14 then hi32 s.fixed.serial.toNat
  else if off = 0x50 then lo32 (if s.start.imageChosen then (match s.img with | some i => i.revision | none => 0) else 0)
  else if off = 0x54 then lo32 (match s.start.keyImage with | some i => i.revision | none => 0)
  else match regIndex off 0x20 4 6, regIndex off 0x40 4 4 with
    | some r, _ => lo32 (s.fwVersion r)
    | _, some n => (match s.start.key with | some k => [(0, 32, k.pairId / 2 ^ (32 * n))] | none => [])
    | _, _ =>
      if 0x100 ≤ off then (match (capList s.fixed.variantF)[(off - 0x100) / 4]? with
        | some w => if 2 ≤ s.start.step then lo32 w else []
        | none => [])
      else []

/-- Supplies and the standby domain; RES_MV and DISS_CW are measurements no command delivers (assumption 11). -/
def pwrView (s : State) (off : Nat) : List (Nat × Nat × Nat) :=
  let c := s.carrier
  if off = 0 then [bitF 0 (decide (19200 ≤ c.mod1Mv)), bitF 1 (decide (19200 ≤ c.mod2Mv)), bitF 2 (decide (19200 ≤ c.fld1Mv) && !c.fuse1Open),
    bitF 3 (decide (19200 ≤ c.fld2Mv) && !c.fuse2Open), bitF 4 c.resFull, bitF 5 c.holdup, bitF 6 c.seated, bitF 7 c.leverOpen, bitF 8 c.slotB, bitF 9 c.split]
  else if off = 8 then [(0, 16, c.mod1Mv), (16, 16, c.mod2Mv)]
  else if off = 0xC then [(0, 16, c.fld1Mv), (16, 16, c.fld2Mv)]
  else if off = 0x10 then [(0, 16, s.measured ⟨0x1A0010, 0, 16⟩), (16, 16, s.measured ⟨0x1A0010, 16, 16⟩)]
  else if off = 0x14 then [(0, 16, s.measured Reg.PWR_RESERVOIR_RES_MV)]
  else if off = 0x18 then [(0, 16, s.measured Reg.PWR_DISS_DISS_CW)]
  else if off = 0x20 then [(0, 15, s.standby.frac), (16, 16, s.standby.sec)]
  else if off = 0x24 then [(0, 32, s.standby.sec / 65536)]
  else if off = 0x28 then [bitF 0 s.standby.unplugged, bitF 1 s.standby.cellLow, bitF 2 s.standby.countLost, (16, 16, s.standby.seq)]
  else []

/-- Lane duty codes of R140. -/
def State.duty (s : State) (n : Nat) : Nat :=
  if !s.start.timetableLoaded then 0
  else if !s.laneOk n then 9
  else if s.mode = .standby then 0xA
  else match (s.lane n).task with | some t => t | none => 8

def dutyWord (s : State) (base : Nat) : Nat := packFields ((List.range 8).map (fun k => (4 * k, 4, s.duty (base + k))))

def execView (s : State) (off : Nat) : List (Nat × Nat × Nat) :=
  let img := s.start.timetableLoaded
  if off = 0 then [(0, 4, modeCode s.mode), (4, 4, min 15 s.freeSpares.length * b2n img), (16, 8, if img then maskOf s.taskIds else 0),
    bitF 24 (decide (s.mode = .active) && !s.partnered), bitF 25 (decide (s.time.slewNs ≠ 0))]
  else if off = 0x14 then [(0, 32, dutyWord s 0)]
  else if off = 0x18 then [(0, 32, dutyWord s 8)]
  else if off = 0x1C then (match s.mram.overrun with
    | some o => [(0, 3, o.1), bitF 3 true, (4, 3, o.2.1), (8, 4, o.2.2.1), (16, 16, o.2.2.2)]
    | none => [])
  else if 0x100 ≤ off ∧ off < 0x300 then
    let i := (off - 0x100) / 0x40
    let k := (off - 0x100) % 0x40
    match if img then s.taskCfg i else none with
    | none => []
    | some c =>
      if k = 0 then [(0, 16, c.periodQ), (16, 16, c.phaseQ)]
      else if k = 4 then [(0, 7, c.budgetPct), bitF 7 c.aligned, (16, 11, c.deliveryLimit)]
      else if k = 8 then [(0, 16, maskOf (s.taskLanes i)), (16, 10, c.admittedPm)]
      else if k = 0xC then lo32 (s.task i).released
      else if k = 0x10 then hi32 (s.task i).released
      else []
  else []

def cmpView (s : State) (off : Nat) : List (Nat × Nat × Nat) :=
  if off = 0 then [(0, 16, maskOf ((List.range 16).filter (fun n => !s.laneOk n))), (16, 16, maskOf ((List.range 16).filter (fun n => (s.lane n).worn)))]
  else if off = 0x20 then [(16, 16, min 0xFFFF s.mram.faultsWritten)]
  else match regIndex off 0x100 0x10 16 with
    | some n =>
      let l := s.lane n
      [(0, 8, (l.recovered.filter (fun t => decide (s.time.tick < t + ticksOfMs 10000))).length), (8, 4, min 15 (Tab.getD s.mram.retireCounts n 0)),
        bitF 12 l.worn, bitF 13 (!s.laneOk n)]
    | none => []

/-- Saved state a is later than b: by its last delta, then by its time. -/
def savedLater (a b : Saved) : Bool := decide (b.closeSeq < a.closeSeq) || (decide (b.closeSeq = a.closeSeq) && decide (b.time.toNat < a.time.toNat))

def jrnView (s : State) (off : Nat) : List (Nat × Nat × Nat) :=
  let img := s.start.imageChosen
  let open_ := s.openWaybills
  let tail := match open_ with | w :: _ => open_.foldl (fun n x => min n x.seq) w.seq | [] => s.jrn.head
  let snap := match s.mram.snap0, s.mram.snap1 with
    | some a, some b => if a.whole && (!b.whole || !savedLater b a) then (0, some a) else (1, some b)
    | some a, none => (0, some a)
    | none, b => (1, b)
  if off = 0 then [bitF 0 s.partnered, bitF 1 (img && s.acceptsUnpartnered), bitF 2 (decide (49152 ≤ s.openEntries)),
    bitF 3 (s.journalFull 0 []), (16, 16, s.unconfirmed.length)]
  else if off = 0xC then lo32 s.jrn.head
  else if off = 0x10 then hi32 s.jrn.head
  else if off = 0x14 then lo32 tail
  else if off = 0x18 then hi32 tail
  else if off = 0x1C then [(0, 17, s.openEntries)]
  else if off = 0x20 then (if img then [(0, 9, s.policy.clientWindow), (9, 12, s.policy.expiryS), (21, 10, s.policy.snapshotS)] else [])
  else if off = 0x24 then [(0, 13, s.jrn.clients.length), (16, 12, if img then s.policy.retainH else 0)]
  else if off = 0x28 then (if s.jrn.rateSecond = s.second then [] else [(0, 16, if s.jrn.rateSecond + 1 = s.second then satTo 16 s.jrn.rateCount else 0)])
  else if off = 0x2C then (match snap.2 with
    | some x => if x.whole then [(0, 1, snap.1), (1, 16, min 65535 (s.now.sec - x.time.toNat / 2 ^ 28))] else []
    | none => [])
  else if 0x100 ≤ off ∧ off < 0x180 then
    let i := (off - 0x100) / 0x10
    let k := (off - 0x100) % 0x10
    if (s.taskCfg i).isNone then []
    else if k = 0 then lo32 (s.task i).watermark
    else if k = 4 then hi32 (s.task i).watermark
    else if k = 8 then [(0, 13, (s.pendingFor i).length)]
    else []
  else []

def cplView (s : State) (off : Nat) : List (Nat × Nat × Nat) :=
  let p := s.pair
  let close := if s.mode = .standby then p.closeSeq else p.ackedSeq
  if off = 0 then [bitF 0 p.linkUp, bitF 1 p.doubt, bitF 2 (if s.mode = .active then p.partnerCurrent else p.copyCurrent),
    bitF 3 (p.resync || p.resyncSending), bitF 4 s.ready, bitF 5 p.partnerReady, bitF 6 p.handoverQ.isSome,
    (8, 4, match p.partnerMode with | some m => modeCode m | none => 0)]
  else if off = 0xC then
    let a := if s.carrier.slotB then s.claim.partner else s.claim.own
    let b := if s.carrier.slotB then s.claim.own else s.claim.partner
    [bitF 0 s.claim.drive, bitF 1 a, bitF 2 b, bitF 3 s.claim.confirmed, bitF 4 s.mram.lastHolder]
  else if off = 0x14 then [(0, 8, s.mram.haltReason), bitF 8 s.mram.haltValid, (16, 16, s.mram.haltCount)]
  else if off = 0x18 then lo32 close
  else if off = 0x1C then hi32 close
  else if off = 0x20 then [(0, 10, p.pages), bitF 10 p.controlSet]
  else match regIndex off 0x100 4 4 with
    | some n => [bitF 0 (decide (n ∈ p.trained)), (16, 16, s.measured ⟨0x50100 + 4 * n, 16, 16⟩)]
    | none => []

def sbxView (s : State) (off : Nat) : List (Nat × Nat × Nat) :=
  if !s.start.platformsUp then []
  else if off = 0 then
    let local_ := decide (s.mode = .active) && s.claim.confirmed
    [(0, 3, maskOf s.sbox.evalOk), bitF 3 s.sbox.voteLost, bitF 4 ((decide (s.mode = .standby) || decide (s.mode = .active)) && s.sbox.running), bitF 5 local_,
      bitF 6 (s.sbox.table.equations.any (fun e => s.eqArmed e.1 && s.eqResult e.1)), (16, 10, (s.sbox.table.equations.filter (fun e => eqUsed e.2)).length)]
  else if off = 0xC then [(0, 16, s.measured Reg.SBX_PASS_LAST_NS), (16, 16, s.measured Reg.SBX_PASS_MAX_NS)]
  else if 0x10000 ≤ off then
    let e := (off - 0x10000) / 0x80
    let k := (off - 0x10000) % 0x80
    match s.eqCfg e with
    | none => if k = 8 then [(0, 16, s.eqPickupUs e), (16, 16, s.eqDropoutMs e)] else if k = 0xC then [bitF 0 (s.eqArmed e)] else []
    | some c =>
      let v := Tab.getD s.sbox.voted e EqState.reset
      if k = 0 then [(0, 5, c.terms.length), (5, 5, c.k), bitF 10 c.latch]
      else if k = 4 then [(0, 7, c.outCh.getD 0x7F), (8, 8, match c.pub with | some p => p.1 | none => 0),
        (16, 8, match c.pub with | some p => p.2 | none => 0), bitF 24 c.pub.isSome]
      else if k = 8 then [(0, 16, s.eqPickupUs e), (16, 16, s.eqDropoutMs e)]
      else if k = 0xC then
        let timing := decide (v.cond ≠ v.result) && !(v.latched && v.result)
        [bitF 0 (s.eqArmed e), bitF 2 v.cond, bitF 3 v.result, bitF 4 v.latched, bitF 5 timing]
      else match regIndex k 0x10 4 16 with
        | some t => (match c.terms[t]? with | some x => [(0, 3, x.kind), bitF 3 x.invert, (4, 10, x.index)] | none => [])
        | none => []
  else match regIndex off 0x200 4 96 with
    | some n => (match s.tripCfg n with
      | some t => [bitF 0 true, bitF 1 t.shared, bitF 2 t.deEnergise, bitF 3 t.merged, bitF 4 t.failTrip, bitF 5 (s.tripped n)]
      | none => [])
    | none =>
      if 0x2000 ≤ off ∧ off < 0x2000 + 8 * 192 then
        let c := (off - 0x2000) / 8
        if off % 8 = 0 then let t := s.acmpThr c; [(0, 16, twos 16 t.1), (16, 12, t.2.toNat)]
        else
          let x := Tab.getD s.sbox.acmp c AcmpState.reset
          [bitF 0 (s.acmpRead c), bitF 1 x.failed, bitF 2 (match findKey s.sbox.table.acmps c with | some g => g.failValue | none => false), bitF 3 (s.termUses 2 c)]
      else if 0x3000 ≤ off ∧ off < 0x3000 + 0x10 * 256 then
        let c := (off - 0x3000) / 0x10
        let k := (off - 0x3000) % 0x10
        match findKey s.sbox.table.svcs c with
        | none => []
        | some g =>
          if k = 0 then [(0, 9, g.sub), (9, 5, g.chan), bitF 14 g.rms, (15, 3, g.count - 1), bitF 18 g.failValue, bitF 19 (s.svcRead c),
            bitF 20 (Tab.getD s.sbox.svc c SvcState.reset).failed]
          else if k = 4 then [(0, 32, match Tab.get? s.ctl.sbx (svcThrAddr c) with | some w => w.toNat | none => g.threshold)]
          else if k = 8 then [(0, 24, match Tab.get? s.ctl.sbx (svcHystAddr c) with | some w => w.toNat | none => g.hyst)]
          else []
      else match regIndex off 0x5000 4 1024 with
        | some g => (match findKey s.sbox.table.gbits g with
          | some c => [(0, 10, c.sub), (10, 8, c.member), bitF 18 c.failValue, bitF 19 (s.gbitRead g), bitF 20 (Tab.getD s.sbox.gbit g GbitState.reset).failed]
          | none => [])
        | none => []

/-- MODE code of R276. -/
def chanModeCode : ChanMode → Nat
  | .unused => 0
  | .di => 1
  | .dout => 2
  | .ao => 3
  | .ci => 4
  | .vi => 5

def doCode : DoState → Nat
  | .off => 0
  | .on => 1
  | .limit => 2
  | .thermal => 3
  | .locked => 4

def chView (s : State) (p off : Nat) : List (Nat × Nat × Nat) :=
  if off = 0 then [bitF 1 (s.fieldGood p), (8, 3, if s.start.platformsUp then s.critMask p else 0)]
  else if off = 0x10 then [(0, 16, s.measured (Reg.CH_FIELD_I_FIELD_MA p))]
  else if 0x100 ≤ off ∧ off < 0x100 + 0x20 * 12 then
    let n := 12 * p + (off - 0x100) / 0x20
    let k := (off - 0x100) % 0x20
    match if s.start.platformsUp then s.chanCfg n else none with
    | none => []
    | some c =>
      let x := s.chan n
      if k = 0 then [(0, 3, chanModeCode c.mode), bitF 3 c.type3, bitF 4 c.pulsed, (5, 5, c.interval), bitF 10 c.bipolar, bitF 11 c.loopPower, bitF 12 c.liveZero,
        bitF 13 (s.tripCfg n).isSome, (14, 7, c.debounce)]
      else if k = 4 then [(0, 2, match c.safeKind with | .deEnergise => 0 | .holdLast => 1 | .preset => 2), bitF 2 c.safeOn, (3, 2, c.limit), (16, 16, c.safeUa)]
      else if k = 8 then [(0, 3, doCode x.doState), bitF 3 x.driven, bitF 4 (decide (12000 < x.voltMv)), bitF 5 x.compliance, bitF 6 (x.openLoop || x.liveZeroLost),
        (8, 8, min 255 (recent60 s.time.tick x.thermals).length)]
      else if k = 0x10 then [(0, 16, twos 16 x.voltMv)]
      else if k = 0x14 then [(0, 21, if c.mode = .dout ∨ c.mode = .ao ∨ c.mode = .ci then x.currUa else 0)]
      else if k = 0x18 then (if c.mode = .ao then [(0, 16, x.supplyMv), (16, 16, ((x.supplyMv : Int) - x.voltMv).toNat)] else [])
      else []
  else []

/-- CHAR code of CNV_CH_CFG. -/
def charCode : Characteristic → Nat
  | .linear .. => 0
  | .squareRoot .. => 1
  | .table _ => 2
  | .none => 3

def calPhaseCode : CalPhase → Nat
  | .idle => 0
  | .waitingVisit => 1
  | .started => 2
  | .taking => 3
  | .zeroTaken => 4
  | .spanTaken => 5
  | .committed => 6

def cnvView (s : State) (off : Nat) : List (Nat × Nat × Nat) :=
  let c := s.conv
  if off = 0 then [(0, 2, c.src), bitF 2 (match s.img with | some i => i.mains60 | none => false), bitF 16 (decide (c.cal.phase ≠ .idle))]
  else if off = 0xC then [(0, 22, c.periodNs / 10)]
  else if off = 0x10 then [(0, 13, c.queue.length)]
  else if off = 0x34 then [(0, 7, c.cal.channel), (8, 4, calPhaseCode c.cal.phase)]
  else match regIndex off 0x100 0x10 8 with
    | some p =>
      let t := s.tt p
      [(0, 3, if t.faulty then 3 else if t.window ≠ 0 then 1 else if t.checkLeft ≠ 0 then 2 else 0), (4, 4, if t.window ≠ 0 then t.channel else 0), (8, 3, t.window)]
    | none =>
      if 0x1000 ≤ off ∧ off < 0x1000 + 0x20 * 96 then
        let n := (off - 0x1000) / 0x20
        let k := (off - 0x1000) % 0x20
        if k = 0 then (match s.chanCfg n with
          | some g => [(0, 2, charCode g.characteristic), bitF 2 g.tagSourceFast, bitF 3 g.fastQueue, bitF 4 (s.sysUncal n)]
          | none => [])
        else if k = 4 then [(16, 16, match Tab.get? c.visited n with | some t => min 0xFFFF ((s.time.tick - t) / 125000000) | none => 0xFFFF)]
        else []
      else []

/-- STATE code of ACQ_DEF_STATE. -/
def defStateCode (c : DefCfg) (x : DefState) : Nat :=
  match x.seg with
  | some g => if g.raw.length < g.rawNeed then 3 else 4
  | none => if x.record.isSome then 5 else if !x.armed then 0 else if x.ring.length < c.pre then 1 else 2

def acqView (s : State) (off : Nat) : List (Nat × Nat × Nat) :=
  let whole := s.acq.stored.filter (fun r => !r.opened)
  let ids := whole.map (fun r => r.rcd.id)
  if off = 0 then [bitF 0 s.acqRuns, bitF 1 (s.acqRuns && decide (s.acq.toCommit ≠ [])), bitF 2 s.acq.indexReady, (16, 16, min 0xFFFF whole.length)]
  else if off = 0xC then [(0, 17, min 65536 (s.defsNow.foldl (fun n e => n + (defCapacity e.2 - s.segsUsed e.1)) 0))]
  else if off = 0x10 then
    let bytes := s.acq.toCommit.foldl (fun n r => n + recordLen r) 0
    [(0, 16, (bytes + 1048575) / 1048576),
      (16, 16, if s.acq.blkSecond = s.second then s.acq.blkLast else if s.acq.blkSecond + 1 = s.second then s.acq.blkCount else 0)]
  else if off = 0x14 then lo32 (ids.foldl max 0)
  else if off = 0x18 then hi32 (ids.foldl max 0)
  else if off = 0x1C then lo32 (ids.head?.getD 0)
  else if off = 0x20 then hi32 (ids.head?.getD 0)
  else if 0x100 ≤ off ∧ off < 0x300 then
    let d := (off - 0x100) / 0x20
    let k := (off - 0x100) % 0x20
    match s.defCfg d with
    | none => []
    | some c =>
      let x := s.defState d
      if k = 0 then [bitF 0 c.sv, (1, 2, c.rate), (3, 3, c.extendMax - 1), (6, 7, c.channels.length), (13, 7, c.tags.length)]
      else if k = 4 then [(0, 16, c.pre), (16, 13, c.segsPerRecord)]
      else if k = 8 then [(0, 20, c.post)]
      else if k = 0xC then [(0, 16, c.reduceN), (16, 16, c.reduceCount)]
      else if k = 0x10 then [bitF 0 x.armed]
      else if k = 0x14 then [(0, 3, defStateCode c x), (3, 13, match x.record with | some r => r.segments.length + b2n x.seg.isSome | none => 0),
        (16, 16, min 0xFFFF (defCapacity c))]
      else []
  else if 0x1000 ≤ off ∧ off < 0x1400 then
    let t := (off - 0x1000) / 0x10
    let k := (off - 0x1000) % 0x10
    match findKey (s.cfgList (·.triggers)) t with
    | none => []
    | some c =>
      if k = 0 then [(0, 3, c.kind), (3, 2, c.edge), (6, 20, c.source)]
      else if k = 4 then [(0, 16, c.defMask)]
      else if k = 8 then [(0, 32, ((Tab.get? s.acq.written (0x110000 + off)).getD c.level).toNat)]
      else [(0, 32, ((Tab.get? s.acq.written (0x110000 + off)).getD c.hyst).toNat)]
  else []



def timeView (s : State) (off : Nat) : List (Nat × Nat × Nat) :=
  let t := s.time
  if off = 0 then [(0, 2, t.quality), (2, 2, t.source), (4, 3, t.port), bitF 7 t.qualified, bitF 8 s.denseSv, (9, 2, t.seededFrom)]
  else if off = 0x14 then [(0, 8, t.inc / 2 ^ 32)]
  else if off = 0x40 then lo32 t.tick
  else if off = 0x44 then hi32 t.tick
  else []

def pbusView (s : State) (off : Nat) : List (Nat × Nat × Nat) :=
  if off = 0 then [bitF 0 (decide (Port.pba ∈ s.net.up)), bitF 1 (decide (Port.pbb ∈ s.net.up)), bitF 2 (match s.img with | some i => i.net.hsr | none => false),
    bitF 3 s.denseSv, bitF 4 s.net.testMode, bitF 5 s.claim.confirmed]
  else if off = 4 then [bitF 1 s.net.testMode]
  else if off = 0xC then [(0, 10, (s.net.sv.filter (fun e => decide (e.2.state = 1))).length), (16, 11, (s.net.goose.filter (fun e => decide (e.2.state = 1))).length)]
  else if off = 0x10 ∨ off = 0x14 then [(0, 16, s.measured ⟨0x120000 + off, 0, 16⟩)]
  else match regIndex off 0x100 4 512, regIndex off 0x1000 4 1024 with
    | some k, _ =>
      let x := (Tab.getD s.net.sv k SvState.reset).state
      [(0, 3, if x = 0 ∧ (findKey (s.cfgList (·.net.svSubs)) k).isSome then 2 else x)]
    | _, some g =>
      let x := Tab.getD s.net.goose g GooseState.reset
      [(0, 3, if x.state = 0 ∧ (findKey (s.cfgList (·.net.gooseSubs)) g).isSome then 2 else x.state), (16, 16, x.stNum)]
    | _, _ =>
      if 0x2000 ≤ off ∧ off < 0x2800 then
        let x := s.pub ((off - 0x2000) / 8)
        [(0, 32, if off % 8 = 0 then (if s.claim.confirmed then x.stNum else (Tab.getD s.ctl.pubs ((off - 0x2000) / 8) (x.stNum, 0)).1) else x.sqNum)]
      else []

/-- Sessions of the plant bus and of SVC. -/
def State.sessionsOn (s : State) (svc : Bool) : Nat := (s.net.sessions.filter (fun e => decide ((e.2.port = .svc) = (svc = true)))).length

def plntView (s : State) (off : Nat) : List (Nat × Nat × Nat) :=
  if off = 0 then [bitF 0 (decide (Port.pla ∈ s.net.up)), bitF 1 (decide (Port.plb ∈ s.net.up)), bitF 2 (decide (Port.svc ∈ s.net.up)), bitF 3 s.pair.pairAddr,
    (4, 7, s.sessionsOn false), (11, 3, s.sessionsOn true)]
  else if off = 0x10 then [(0, 17, s.net.subs.foldl (fun n e => n + e.2.tags.length) 0)]
  else []

def canView (s : State) (p off : Nat) : List (Nat × Nat × Nat) :=
  let x := s.canPort p
  if off = 0 then [(0, 2, s.canMode p), (2, 2, x.errState), (4, 7, x.held.length)]
  else if off = 0xC then [(0, 9, x.tec), (16, 8, min 255 x.rxErr)]
  else if off = 0x10 then (match s.canCfg p with | some c => [(0, 2, c.nomRate), (2, 3, c.dataRate), (8, 8, c.nomSp), (16, 8, c.dataSp)] | none => [])
  else if off = 0x14 then (match s.canCfg p with | some c => [(0, 10, c.txTimeoutMs)] | none => [])
  else if off = 0x18 then lo32 x.seq
  else if off = 0x1C then hi32 x.seq
  else if off = 0x20 then (if x.second = s.second then [] else [(0, 16, if x.second + 1 = s.second then satTo 16 x.perSecond else 0)])
  else []

def mpuView (s : State) (off : Nat) : List (Nat × Nat × Nat) :=
  if off = 0 then [bitF 15 s.mpu.noticeHeld]
  else if 0x1000 ≤ off ∧ off < 0x1000 + 0x400 * 36 then
    let u := (off - 0x1000) / 0x400
    let k := (off - 0x1000) % 0x400
    let x := s.unit u
    if k = 0 then [(0, 1, x.active), bitF 1 x.armed, bitF 2 x.swapPending, (4, 3, x.armStatus), (8, 4, x.armRegion)]
    else if 0x100 ≤ k ∧ k < 0x300 then
      let g := regionOf x ((k - 0x100) / 0x100) (k % 0x100 / 0x10)
      let w := k % 0x10
      if w = 0 then [(8, 24, g.base / 256)]
      else if w = 4 then [(0, 8, g.base / 2 ^ 32)]
      else if w = 8 then [bitF 0 g.en, bitF 1 g.read, bitF 2 g.write, bitF 3 g.exec, (8, 6, g.size)]
      else []
    else []
  else []

def updView (s : State) (off : Nat) : List (Nat × Nat × Nat) :=
  let u := s.upd
  if off = 0 then [(0, 2, s.sessionsRunning.length), bitF 2 (decide (s.mode = .terminus)), bitF 3 s.mram.anchor.isSome, bitF 4 s.mram.clearPending,
    bitF 5 s.treeReady, bitF 6 (s.powered && s.treeBuilding.isSome)]
  else if off = 0x14 ∨ off = 0x18 then let x := s.updSession ((off - 0x14) / 4); [(0, 3, x.region), (8, 8, x.state)]
  else if off = 0x60 then lo32 u.leaf
  else if off = 0x64 then hi32 u.leaf
  else if off = 0x68 then lo32 u.limit
  else if off = 0x6C then hi32 u.limit
  else if off = 0x70 then lo32 s.mram.anchorEpoch
  else match regIndex off 0x40 4 6, regIndex off 0x2000 4 1585 with
    | some r, _ =>
      let x := s.fwRegion r
      [(0, 1, x.activeSlot), bitF 1 x.prevUsable, bitF 2 x.trial, bitF 3 x.waiting, (4, 4, x.attempts), (16, 16, x.rollbackMin)]
    | _, some n => (match u.words[n]? with | some w => lo32 w.toNat | none => [])
    | _, _ => []

def fpView (s : State) (off : Nat) : List (Nat × Nat × Nat) :=
  let p := s.panel
  if off = 0 then [bitF 0 p.on, bitF 1 p.frozen, bitF 2 (decide (1 ≤ s.shed)), bitF 3 p.labelBusy, bitF 4 p.labelHeld, bitF 5 s.mram.labelDirty]
  else if off = 0x10 then [(0, 16, p.driveMv), (16, 16, twos 16 p.temp)]
  else if off = 0x14 then [(0, 16, s.mram.labelGeneration)]
  else []

def milView (s : State) (off : Nat) : List (Nat × Nat × Nat) :=
  if off = 0 then [(0, 1, match s.newestMil with | some e => e.1 | none => 0), bitF 1 s.newestMil.isSome, bitF 2 (decide (3 ≤ s.shed))]
  else if off = 0xC then lo32 s.mram.opMinutes
  else if off = 0x10 then lo32 s.mram.powerCycles
  else if off = 0x14 then lo32 s.mil.writeSeq
  else []

/-- Fields of a register with a home outside the bank. -/
def State.view (s : State) (addr : Nat) : List (Nat × Nat × Nat) :=
  let n := addr / 0x10000
  let off := addr % 0x10000
  if n = 0 then idView s off
  else if n = 1 then timeView s off
  else if n = 2 then execView s off
  else if n = 3 then cmpView s off
  else if n = 4 then jrnView s off
  else if n = 5 then cplView s off
  else if n = 6 then sbxView s off
  else if n = 7 then sbxView s (0x10000 + off)
  else if n < 16 then chView s (n - 8) off
  else if n = 16 then cnvView s off
  else if n = 17 then acqView s off
  else if n = 18 then pbusView s off
  else if n = 19 then plntView s off
  else if n < 22 then canView s (n - 20) off
  else if n = 22 then mpuView s off
  else if n = 23 then updView s off
  else if n = 24 then fpView s off
  else if n = 25 then milView s off
  else if n = 26 then pwrView s off
  else []

/-- Fields of a register the bank holds. -/
def State.bankFields (s : State) (addr : Nat) : List (Nat × Nat) :=
  (s.bank.filter (fun e => decide (e.1 / 32 = addr))).map (fun e => (e.1 % 32, e.2))

/-- What a read of an aligned address in the window returns (R11, R12); in TERMINUS only ID and UPD respond (R467). -/
def State.readWord (s : State) (addr : Nat) : Word :=
  let n := addr / 0x10000
  if s.mode = .terminus ∧ n ≠ 0 ∧ n ≠ 23 then 0#32
  else
    let v := s.view addr
    let rest := (s.bankFields addr).filter (fun e => v.all (fun f => decide (f.1 ≠ e.1)))
    BitVec.ofNat 32 (packFields v + rest.foldl (fun n e => n + e.2 * 2 ^ e.1) 0)

end Sys2Proof.Machine
end

