-- ==== Sys2Proof/Machine/Carry.lean ====
section
/-! DEFINITION. Checking a configuration image (R54, R56, R103, R134, R505), and carrying program state from one image to another
(R67, R153 to R156, R158). -/

namespace Sys2Proof.Machine

/-! Image checks. -/

/-- Settings of a timetable within the ranges of R115, R129 and R134. -/
def timetableOk (i : Image) : Bool :=
  let lanes := i.tasks.flatMap (fun e => e.2.lanes)
  i.tasks.all (fun e => let c := e.2
    decide (e.1 < 8) && decide (1 ≤ c.periodQ) && decide (c.periodQ ≤ 40000) && decide (c.phaseQ < c.periodQ) && decide (50 ≤ c.budgetPct)
      && decide (c.budgetPct ≤ 95) && decide (1 ≤ c.deliveryLimit) && decide (c.deliveryLimit ≤ 1024) && decide (c.lanes ≠ [])
      && decide (c.admittedPm ≤ 10 * c.budgetPct))
    && (findKey i.tasks 0).isSome && lanes.all (fun n => decide (n < 16)) && decide lanes.Nodup && decide (i.spares ≤ 4) && decide (lanes.length + i.spares ≤ 16)

/-- The units above a unit, found within n steps; none while the root is not reached (R100, R103). -/
def ancestors (units : List (Nat × UnitDecl)) : Nat → Nat → Option (List Nat)
  | 0, _ => none
  | n + 1, u =>
    if u = 0 then some []
    else match findKey units u with
      | none => none
      | some d => (ancestors units n d.parent).map (fun l => u :: l)

/-- Faults of a unit tree (R103). -/
def unitTreeOk (i : Image) : Bool :=
  let chain (u : Nat) : Option (List Nat) := ancestors i.units (i.units.length + 1) u
  let ids := i.units.map (·.1)
  let members := ids.filter (fun u => decide (u ≠ 0))
  decide (members.length < 262144) && decide ids.Nodup && ids.all (fun u => decide (u ≤ 0xFFFFFEFF)) && members.all (fun u => (chain u).isSome)
    && i.units.all (fun e => decide (e.1 ≠ 0) || decide (e.2.parent = 0)) && i.tags.all (fun e => decide (e.2.owner = 0) || decide (e.2.owner ∈ ids))
    && i.units.all (fun e => e.2.aliases.all (fun t => match findKey i.tags t with
      | some d => (match chain d.owner with | some l => decide (e.1 = 0) || decide (e.1 ∈ l) | none => false)
      | none => false))

/-- Start policy and pair policy fields within their ranges, the mask of every platform present (R54, R505). -/
def policyOk (i : Image) : Bool :=
  let p := i.policy
  decide (i.start.restartMode ≤ 1) && decide (p.acceptUnpartnered ≤ 1) && decide (10 ≤ i.start.partnerWindow) && decide (i.start.partnerWindow ≤ 300) && decide (16 ≤ p.clientWindow) && decide (p.clientWindow ≤ 256)
    && decide (1 ≤ p.expiryS) && decide (p.expiryS ≤ 3600) && decide (1 ≤ p.snapshotS) && decide (p.snapshotS ≤ 600) && decide (1 ≤ p.retainH)
    && decide (p.retainH ≤ 2160) && decide (p.critical.length = 8) && p.critical.all (fun m => decide (m < 8))

/-- Every check of R56 but the owner check, with R76, R80, R90 (no tag declared twice), R103, R134, R146 and R505, for a project and a pair. -/
def State.imageOk (s : State) (projectId : DWord) (pairId : Nat) (i : Image) : Bool :=
  imageFileOk i && decide (i.variant = (if s.fixed.variantF then 0x0F else 0x0A))
    && decide (i.pairId = pairId) && decide (i.projectId = projectId) && decide (sectionLen i 2 ≤ 16 * 1048576)
    && timetableOk i && unitTreeOk i && policyOk i
    && i.tags.all (fun e => decide (e.1 < 1048576) && (decide (e.2.type ≠ .enum16) || e.2.hasEnum)) && decide (i.tags.map (·.1)).Nodup

/-- The owner check of R56; deferred while no anchor is enrolled (R57). -/
def State.ownerOk (s : State) (i : Image) : Bool := match s.mram.anchor with | some a => decide (keyHash i.ownerCert.key = a) | none => true

/-! Carry-over. -/

/-- The preset a declaration gives in an image with an overlay (R143, R144). -/
def presetOf (i : Image) (overlay : Tab DWord) (d : ObjDecl) : Nat :=
  match d.presetConst with
  | some c => (match Tab.get? overlay c, findKey i.constants c with
    | some v, _ => v.toNat
    | none, some k => k.value.toNat
    | none, none => d.preset)
  | none => d.preset

/-- An object as a new instance (R72): declared initial values, elapsed time and count 0, its main output off, no history. -/
def newObject (i : Image) (overlay : Tab DWord) (d : ObjDecl) : ObjState := ⟨d.sig, false, 0, presetOf i overlay d, false, false, true, d.initial⟩

/-- A timer or counter takes a preset (R144, R154): reached or passed, it counts as expired, DONE is true and a timer's main output takes its state at
expiry. -/
def takePreset (d : ObjDecl) (preset : Nat) (o : ObjState) : ObjState :=
  let done := decide (preset ≤ o.acc)
  match d.kind with
  | .timer => { o with preset := preset, done := done, out := if done then d.expiryOut else o.out }
  | .counter => { o with preset := preset, done := done }
  | _ => o

/-- A running timer counts on by dt nanoseconds (R154). -/
def countTimer (d : ObjDecl) (dt : Nat) (o : ObjState) : ObjState := if decide (d.kind = .timer) && o.running then { o with acc := o.acc + dt } else o

/-- One object carried over: matched by instance path and type signature; a running timer counts up to the switch freeze (R153, R154). -/
def carryObject (i : Image) (overlay : Tab DWord) (dt : Nat) (d : ObjDecl) (old : Option ObjState) : ObjState :=
  match old with
  | some o =>
    if o.sig = d.sig then
      takePreset d (presetOf i overlay d) (countTimer d dt o)
    else newObject i overlay d
  | none => newObject i overlay d

/-- The objects an image declares for the tasks ts, carried over from a table of old objects; those of other tasks stay. -/
def carryObjects (i : Image) (overlay : Tab DWord) (dt : Nat) (ts : Nat → Bool) (old : Tab ObjState) : Tab ObjState :=
  (i.objects.filter (fun e => ts e.2.task)).foldl (fun t e => Tab.set t e.1 (carryObject i overlay dt e.2 (Tab.get? old e.1))) old

/-- Starting epoch of a unit that an image adds (R67, R156). -/
def startEpoch (retired : List (Nat × Nat)) (floor u : Nat) : Nat :=
  match findKey retired u with
  | some e => e + 1
  | none => if floor = 0 then 1 else floor + 1

/-- Units after a change of image: those kept keep role and epoch, those added start under R156. -/
def carryUnits (i : Image) (retired : List (Nat × Nat)) (floor : Nat) (old : Tab UnitState) : Tab UnitState :=
  let all := i.units.map (fun e => (e.1, e.2.initRole)) ++ [(0, 0)]
  Tab.ofList (all.map (fun e => (e.1, match Tab.get? old e.1 with
    | some x => x
    | none => ⟨e.2, startEpoch retired floor e.1, none⟩)))

/-- The retired-id table and eviction floor after the units not kept are entered and those re-added leave (R156). -/
def retireUnits (i : Image) (old : Tab UnitState) (retired : List (Nat × Nat)) (floor : Nat) : List (Nat × Nat) × Nat :=
  let here (u : Nat) : Bool := decide (u = 0) || (findKey i.units u).isSome
  let gone := (old.filter (fun e => !here e.1)).map (fun e => (e.1, e.2.epoch))
  let kept := retired.filter (fun e => !here e.1)
  gone.foldl (fun r e =>
    let l : List (Nat × Nat) := r.1.filter (fun (x : Nat × Nat) => decide (x.1 ≠ e.1)) ++ [e]
    if 65536 < l.length then (l.drop 1, max r.2 ((l.head?.map Prod.snd).getD 0)) else (l, r.2)) (kept, floor)

/-- The type of a constant of an image. -/
def constType (i : Image) (c : Nat) : Option TagType := (findKey i.constants c).map (·.type)

/-- Overlay entries that a new image keeps: the constant still exists with the type it had and is still changeable (R155). -/
def carryOverlay (old : Nat → Option TagType) (i : Image) (overlay : Tab DWord) : Tab DWord :=
  overlay.filter (fun e => match findKey i.constants e.1 with
    | some k => k.changeable && decide (old e.1 = some k.type)
    | none => false)

/-- Tags a new image declares: those declared before keep what they hold, others take initial values; retentive marks follow it (R155). -/
def carryTags (i : Image) (old : Tab Tag) : Tab Tag :=
  Tab.ofList (i.tags.map (fun e =>
    let mark (g : Tag) : Tag := { g with flags := setFlag flagRetentive e.2.retentive g.flags }
    (e.1, match Tab.get? old e.1 with
      | some g => if g.type = typeCode e.2.type then mark g else initialTag e.2
      | none => initialTag e.2)))

/-- A tag of an image has a writer: an input source, or a task the image has. -/
def hasWriter (i : Image) (d : TagDecl) : Bool :=
  match d.writer with
  | .task t => (findKey i.tasks t).isSome
  | .input _ => true
  | .unwritten _ => false

/-- Forces that an image keeps, with ORPHAN where the tag has no writer (R98, R158). -/
def carryForces (i : Image) (forces : Tab Force) : Tab Force :=
  forces.filterMap (fun e => match findKey i.tags e.1 with
    | some d => some (e.1, { e.2 with orphan := !hasWriter i d })
    | none => none)

/-- ORPHAN of every forced tag follows its force. -/
def markOrphans (forces : Tab Force) (tags : Tab Tag) : Tab Tag :=
  tags.map (fun e => match Tab.get? forces e.1 with
    | some f => (e.1, { e.2 with flags := setFlag flagOrphan f.orphan e.2.flags })
    | none => e)

/-- Tags with every force taken off. -/
def unforced (c : Control) : Tab Tag :=
  c.tags.map (fun e => match Tab.get? c.forces e.1 with
    | some f => (e.1, { f.under with change := e.2.change, type := e.2.type, flags := f.under.flags &&& 0xF6#8 })
    | none => e)

/-- The tags of a control state with those forces released that an image no longer keeps (R98, R158). -/
def keepForced (forces : Tab Force) (c : Control) : Tab Tag :=
  (unforced c).map (fun (e : Nat × Tag) => match Tab.get? c.forces e.1, Tab.get? forces e.1 with
    | some _, some _ => (e.1, Tab.getD c.tags e.1 e.2)
    | _, _ => e)

/-! The exchange report (R159). -/

/-- The report of a change from one image to another over the control state it met: objects by what the carry-over map does with them, forces, overlay,
tags, units, and the work that was closed. -/
def exchangeReport (old new : Image) (a : Announcement) (c : Control) (retired : List (Nat × Nat)) (floor : Nat) (clear partnered : Bool)
    (expired : List (Nat × Nat × Nat)) (closed : List (Nat × Nat)) (lastSwitch : DWord) : Report :=
  let overlay := if clear then [] else carryOverlay (constType old) new c.overlay
  let writer (t : Nat) : Bool := match findKey new.tags t with | some d => hasWriter new d | none => false
  { oldRevision := old.revision, newRevision := new.revision, oldDigest := old.digest, newDigest := new.digest, qs := a.qs, switches := a.switches,
    lastSwitch := lastSwitch, partnered := partnered,
    newInstance := (new.objects.filter (fun e => (findKey old.objects e.1).isNone)).map (fun e => (e.1, e.2.sig)),
    dropped := (old.objects.filter (fun e => (findKey new.objects e.1).isNone)).map (fun e => (e.1, e.2.sig)),
    signatureChanged := new.objects.filterMap (fun e => match findKey old.objects e.1 with
      | some d => if d.sig ≠ e.2.sig then some (e.1, d.sig, e.2.sig) else none
      | none => none),
    expired := expired,
    orphanForce := (c.forces.filter (fun e => (findKey new.tags e.1).isSome && !writer e.1)).map (fun e => (e.1, e.2.value, e.2.quality)),
    forceDropped := (c.forces.filter (fun e => (findKey new.tags e.1).isNone)).map (·.1),
    noLongerOrphan := (c.forces.filter (fun e => e.2.orphan && writer e.1)).map (·.1),
    constantKept := overlay.map (fun e => (e.1, e.2, match findKey new.constants e.1 with | some k => k.value | none => 0#64)),
    constantDiscarded := (c.overlay.filter (fun e => (Tab.get? overlay e.1).isNone)).map (·.1),
    tagAdded := (new.tags.filter (fun e => (findKey old.tags e.1).isNone)).map (fun e => (e.1, typeCode e.2.type)),
    tagRemoved := (old.tags.filter (fun e => (findKey new.tags e.1).isNone)).map (fun e => (e.1, typeCode e.2.type)),
    unitAdded := (new.units.filter (fun e => (findKey old.units e.1).isNone)).map (fun e => (e.1, (Tab.getD (carryUnits new retired floor c.units) e.1 ⟨0, 0, none⟩).epoch)),
    unitRemoved := (old.units.filter (fun e => (findKey new.units e.1).isNone)).map (fun e => (e.1, (unitOf c.units e.1).epoch)),
    workClosed := closed }

/-- The counts of a report, in the order of the table of R159, four bytes each, low byte first: the RESULT of an exchange's completion, whose layout the
manual leaves open (assumption 117). -/
def reportCounts (r : Report) : Nat :=
  leNat ([r.newInstance.length, r.dropped.length, r.signatureChanged.length, r.expired.length, r.orphanForce.length, r.forceDropped.length,
    r.noLongerOrphan.length, r.constantKept.length, r.constantDiscarded.length, r.tagAdded.length, r.tagRemoved.length, r.unitAdded.length,
    r.unitRemoved.length, r.workClosed.length].flatMap (leBytes 4))

/-- The open waybill of an exchange request for a digest. -/
def State.exchangeWaybill (s : State) (digest : Nat) : Option Waybill :=
  s.openWaybills.find? (fun w => match w.work with | .exchangeRequest d _ _ _ => decide (d = digest) | _ => false)

/-- CLEAR_OVERLAY and SBX_RESTRUCTURE of a request. -/
def exchangeFlags (w : Waybill) : Bool × Bool := match w.work with | .exchangeRequest _ _ c r => (c, r) | _ => (false, false)

end Sys2Proof.Machine
end

