-- ==== Sys2Proof/Machine/Persist.lean ====
section
/-! DEFINITION. What the module keeps in MRAM between cycles and finds there at a start (R193, R215 to R219): release marks, snapshots, power-loss
records, client checkpoints, the restoring of state (R66 to R69), and journal recovery. -/

namespace Sys2Proof.Machine

/-! Writing. -/

/-- A release mark into the next of the 8,192 slots of its task's area (R193, R215). -/
def writeMark (task cycle watermark high : Nat) (s : State) : State :=
  let n := Tab.getD s.mram.markSlots task 0
  { s with mram := { s.mram with marks := Tab.set s.mram.marks (8192 * task + n) ⟨cycle, watermark, high⟩,
                                 markSlots := Tab.set s.mram.markSlots task ((n + 1) % 8192) } }

/-- The newest whole release mark of a task (R219). -/
def State.newestMark (s : State) (task : Nat) : Option Mark :=
  (s.mram.marks.filter (fun e => decide (e.1 / 8192 = task))).foldl (fun b e => match b with
    | some m => if m.cycle < e.2.cycle then some e.2 else b
    | none => some e.2) none

/-- The state as of each task's last closure (R216). Messages taken in an open cycle are still queued. -/
def State.saved (s : State) : Saved :=
  { format := 1, whole := true, time := s.ts, digest := s.digest, objDigest := s.digest,
    constTypes := s.ctl.overlay.filterMap (fun e => (findKey (s.cfgList (·.constants)) e.1).map (fun k => (e.1, k.type))), ctl := s.ctl,
    queues := (s.tasks.map (fun (e : Nat × Task) => (e.1, e.2.taken ++ e.2.inbox))).filter (fun e => decide (e.2 ≠ [])),
    cycles := s.tasks.map (fun (e : Nat × Task) => (e.1, e.2.lastClosed)),
    watermarks := s.tasks.map (fun (e : Nat × Task) => (e.1, e.2.watermark)),
    closeSeq := s.pair.closeSeq, jrnPos := s.jrn.head, inc := s.time.inc, progress := s.mram.progress }

/-- Is a tag retentive in the running image. -/
def State.isRetentive (s : State) (t : Nat) : Bool := match s.tagDecl t with | some d => d.retentive | none => false

/-- The persistent set (R217): retentive tags, forces, roles with epochs, the overlay, queued messages, numbers and watermarks. -/
def State.savedPersistent (s : State) : Saved :=
  let x := s.saved
  { x with ctl := { Control.reset with tags := s.ctl.tags.filter (fun e => s.isRetentive e.1), forces := s.ctl.forces, units := s.ctl.units, overlay := s.ctl.overlay } }

/-- Control state is loaded: a running pair member has at least the root unit. -/
def State.ctlLoaded (s : State) : Bool := decide (s.ctl.units ≠ [])

/-- A power-loss record into the next of the 16 slots (R217). A module that holds no control state writes none. -/
def writePlr (s : State) : State :=
  if s.ctlLoaded && !s.pair.resync then
    { s with mram := { s.mram with plrs := Tab.set s.mram.plrs s.mram.plrNext s.savedPersistent, plrNext := (s.mram.plrNext + 1) % 16 } }
  else s

/-- The older of the two snapshot slots, or one that holds none (R216). -/
def State.snapSlot (s : State) : Nat :=
  match s.mram.snap0, s.mram.snap1 with
  | some a, some b => if a.whole && (!b.whole || savedLater a b) then 1 else 0
  | some _, none => 1
  | none, _ => 0

/-- A snapshot into the older of the two slots (R216), in that slot's format (R465). -/
def writeSnapshot (s : State) : State :=
  let x := { s.saved with format := s.fmtAt 1 s.snapSlot }
  if s.snapSlot = 0 then { s with mram := { s.mram with snap0 := some x } } else { s with mram := { s.mram with snap1 := some x } }

/-- The client table into the next of the 16 checkpoint slots (R206), in that slot's format (R465). -/
def writeCheckpoint (s : State) : State :=
  { s with mram := { s.mram with checkpoints := Tab.set s.mram.checkpoints s.mram.ckptNext ⟨s.jrn.head, s.jrn.clients, true, s.fmtAt 2 s.mram.ckptNext⟩,
                                 ckptNext := (s.mram.ckptNext + 1) % 16 } }

/-! Finding. -/

/-- The later of two saved states that may be absent. -/
def laterSaved (a b : Option Saved) : Option Saved :=
  match a, b with
  | some x, some y => if savedLater y x then some y else some x
  | some x, none => some x
  | none, y => y

/-- A saved state that is whole: its check verifies, and its journal position lies within the journal (R66; assumption 115). -/
def State.wholeSaved (s : State) (a : Option Saved) : Option Saved := a.filter (fun x => x.whole && decide (x.jrnPos ≤ s.ringHead))

/-- A snapshot that is whole and in a format that the firmware reads (R464). -/
def State.wholeSnap (s : State) (a : Option Saved) : Option Saved := (s.wholeSaved a).filter (fun x => s.reads 1 x.format)

/-- The newest whole snapshot. -/
def State.newestSnap (s : State) : Option Saved := laterSaved (s.wholeSnap s.mram.snap0) (s.wholeSnap s.mram.snap1)

/-- The newest whole power-loss record. -/
def State.newestPlr (s : State) : Option Saved := s.mram.plrs.foldl (fun b e => laterSaved b (s.wholeSaved (some e.2))) none

/-- Recovery takes the power-loss record: it is newer than the newest whole snapshot, or there is no such snapshot (R219). -/
def State.plrChosen (s : State) : Bool :=
  match s.newestPlr, s.newestSnap with
  | some p, some n => savedLater p n
  | some _, none => true
  | none, _ => false

/-- The state that step 6 chooses (R219, R355). -/
def State.chosenSaved (s : State) : Option Saved := if s.plrChosen then s.newestPlr else s.newestSnap

/-- Nothing of this pair is held: the next entry to service is the first under the pair identity (R70, R105). -/
def State.firstUnderPair (s : State) : Bool :=
  s.newestSnap.isNone && s.newestPlr.isNone && decide (s.mram.marks = []) && decide (s.mram.ring = [])

/-- The highest number of a task that the saved state and the release marks give (R219). -/
def State.foundCycle (s : State) (i : Nat) : Nat :=
  let a := match s.chosenSaved with | some x => Tab.getD x.cycles i 0 | none => 0
  max a (match s.newestMark i with | some m => m.cycle | none => 0)

def State.foundWatermark (s : State) (i : Nat) : Nat :=
  let a := match s.chosenSaved with | some x => Tab.getD x.watermarks i 0 | none => 0
  max a (match s.newestMark i with | some m => m.watermark | none => 0)

/-- The latest tag timestamp in the snapshots, power-loss records and journal (R355). -/
def State.latestStamp (s : State) : Nat :=
  let saved := ((s.mram.snap0.toList ++ s.mram.snap1.toList) ++ s.mram.plrs.map (·.2)).map (fun x =>
    x.ctl.tags.foldl (fun n e => max n e.2.ts.toNat) x.time.toNat)
  let jrn := s.mram.ring.map (fun e => match e.2 with | .waybill w => w.acceptTime.toNat | .cont .. => 0 | .completion _ => 0)
  (saved ++ jrn).foldl max 0

/-! Restoring (R66 to R69). -/

/-- A force put on a tag as it stands. -/
def forcedTag (f : Force) (g : Tag) : Tag :=
  { g with value := f.value, quality := f.quality, source := 8, writer := 0xFFFFFFF3, flags := setFlag flagOrphan f.orphan (setFlag flagUnsync f.unsync (g.flags ||| flagForced)) }

/-- A power-loss record over a snapshot: the persistent set from the record, everything else from the snapshot. -/
def mergeSaved (snap plr : Saved) : Saved :=
  let base : Tab Tag := plr.ctl.tags.foldl (fun t e => Tab.set t e.1 e.2) (unforced snap.ctl)
  let forces : Tab Force := plr.ctl.forces.map (fun (e : Nat × Force) =>
    if (Tab.get? plr.ctl.tags e.1).isSome then e else (e.1, { e.2 with under := Tab.getD base e.1 e.2.under }))
  let tags : Tab Tag := base.map (fun (e : Nat × Tag) => match Tab.get? forces e.1 with
    | some f => if (Tab.get? plr.ctl.tags e.1).isSome then e else (e.1, forcedTag f e.2)
    | none => e)
  { plr with objDigest := snap.objDigest, ctl := { snap.ctl with tags := tags, forces := forces, units := plr.ctl.units, overlay := plr.ctl.overlay } }

/-- What a warm restart restores from; none: no snapshot is whole (R66). -/
def State.warmSource (s : State) : Option Saved :=
  match s.newestSnap with
  | none => none
  | some n => if s.plrChosen then (match s.newestPlr with | some p => some (mergeSaved n p) | none => some n) else some n

/-- Every task as a start leaves it: no cycle under way, cycle number and watermark the highest found, queued messages kept (R114, R219). -/
def restoreTasks (i : Image) (s : State) : State :=
  let queues : Tab (List UnitMsg) := match s.chosenSaved with | some x => x.queues | none => []
  let one (k : Nat) : Task :=
    { Task.reset with cycle := s.foundCycle k, lastClosed := s.foundCycle k, released := s.foundCycle k, watermark := s.foundWatermark k, inbox := Tab.getD queues k [] }
  { s with tasks := Tab.ofList (i.tasks.map (fun e => (e.1, one e.1))) }

/-- Control state for an image from a saved state (R67, R68 warm): what was saved under this image as it stands, what was saved under another by the
carry-over rules, each part by the image it was saved under. -/
def restoreWarm (i : Image) (x : Saved) (s : State) : State :=
  let clear := s.start.exchangeDone.isSome && (match s.exchangeWaybill i.digest with | some w => (exchangeFlags w).1 | none => false)
  let overlay := if clear then [] else if x.digest = i.digest then x.ctl.overlay else carryOverlay (findKey x.constTypes) i x.ctl.overlay
  let forces := carryForces i x.ctl.forces
  let r := retireUnits i x.ctl.units s.mram.retiredIds s.mram.floor
  let carried := (carryObjects i overlay 0 (fun _ => true) x.ctl.objects).filter (fun e => (findKey i.objects e.1).isSome)
  let reports := match s.start.exchangeDone with
    | some d => [exchangeReport d.1 i d.2 x.ctl s.mram.retiredIds s.mram.floor clear false [] [] x.time]
    | none => []
  { s with ctl := { x.ctl with tags := markOrphans forces (carryTags i (keepForced forces x.ctl)), forces := forces, overlay := overlay,
                               objects := if x.objDigest = i.digest then x.ctl.objects else carried,
                               units := carryUnits i s.mram.retiredIds s.mram.floor x.ctl.units }
           mram := { s.mram with retiredIds := r.1, floor := r.2, reports := lastN 16 (s.mram.reports ++ reports) } }

/-- Control state of a cold restart (R68): retentive tags keep their underlying values, everything else is as the image declares, and every
epoch advances by 1 but at the first start under the pair identity. -/
def restoreCold (i : Image) (s : State) : State :=
  let found := s.chosenSaved
  let first := s.firstUnderPair
  let oldTags : Tab Tag := match found with | some x => (unforced x.ctl).filter (fun (e : Nat × Tag) => (findKey i.tags e.1).any (fun d => d.retentive)) | none => []
  let oldUnits : Tab UnitState := match found with | some x => x.ctl.units | none => []
  let r := retireUnits i oldUnits s.mram.retiredIds s.mram.floor
  let units : Tab UnitState := (carryUnits i s.mram.retiredIds s.mram.floor oldUnits).map (fun (e : Nat × UnitState) =>
    (e.1, ⟨(match findKey i.units e.1 with | some d => d.initRole | none => 0), if first then e.2.epoch else e.2.epoch + 1, none⟩))
  let ctl := { Control.reset with tags := carryTags i oldTags, units := units,
                                  objects := Tab.ofList (i.objects.map (fun (e : Nat × ObjDecl) => (e.1, newObject i [] e.2))) }
  { s with ctl := ctl, mram := { s.mram with retiredIds := r.1, floor := r.2 } }

/-- The state of path 11b: warm from the chosen saved state or cold (R66). -/
def restoreState (i : Image) (s : State) : State :=
  let s := { s with pair := { s.pair with closeSeq := (match s.chosenSaved with | some x => x.closeSeq | none => 0) } }
  let s := restoreTasks i s
  match if s.start.warm then s.warmSource else none with
  | some x => restoreWarm i x s
  | none => restoreCold i s

/-! Journal recovery (R219). -/

/-- The newest whole client checkpoint in a format that the firmware reads (R464), slots in the order they were written. -/
def State.newestCheckpoint (s : State) : Nat × Tab ClientState :=
  match List.find? (fun c => c.whole && s.reads 2 c.format)
      ((List.range 16).filterMap (fun k => Tab.get? s.mram.checkpoints ((s.mram.ckptNext + 15 - k) % 16))) with
  | some c => (c.seq, c.clients)
  | none => (0, [])

/-- An entry beyond the checkpoint enters the client table. -/
def replayEntry (e : Entry) (s : State) : State :=
  match e with
  | .waybill w =>
    if w.origin = .program then s else clientSaw w.clientId w.clientSeq (if acceptedState w.state then some ⟨w.clientSeq, w.waybillSeq, w.work⟩ else none) s
  | .cont .. => s
  | .completion _ => s

/-- Every task a waybill counts for has it below its watermark. -/
def State.wasDelivered (s : State) (w : Waybill) : Bool :=
  (s.tasks.filter (fun e => forTask e.1 w)).all (fun e => decide (w.waybillSeq ≤ e.2.watermark)) && decide ((s.tasks.filter (fun e => forTask e.1 w)) ≠ [])

/-- A delivered waybill without a completion (R191). An exchange whose progress is known ends as it did (R161): ABANDONED when MRAM held it LOADED
only, DONE when the image it names runs (assumption 21). -/
def recoverDelivered (w : Waybill) (s : State) : State :=
  match w.work with
  | .exchangeRequest d _ _ _ =>
    if s.start.exchangeLost = some d then pushCompletion w 0x2E none 0 0 s
    else if s.digest = d then pushCompletion w 0x00 none 0 0 s
    else (pushCompletion w 0x31 none 0 0 s).raise Ev.JRN_OUTCOME_UNRECORDED
  | _ => (pushCompletion w 0x31 none 0 0 s).raise Ev.JRN_OUTCOME_UNRECORDED

/-- One waybill of the lap, in WAYBILL_SEQ order. -/
def recoverOne (w : Waybill) (s : State) : State :=
  if (s.completionOf w.waybillSeq).isSome then s
  else match w.state with
    | .expired => s
    | .resubmitted => s
    | .localOnly =>
      if (s.waybills.map (·.2)).any (fun x => acceptedState x.state && decide (x.clientId = w.clientId) && decide (x.clientSeq = w.clientSeq)) then
        setWbState w.waybillSeq .resubmitted s
      else s
    | .mirrored => if s.wasDelivered w then recoverDelivered w s else s
    | .unpartnered => if s.wasDelivered w then recoverDelivered w s else s

/-- State words whose halves do not match read as LOCAL (R198): STATE_WORD_BAD, and the word is written anew. -/
def healStateWords (s : State) : State :=
  let bad := (s.waybills.map (·.2)).filter (·.wordBad)
  forEach bad (fun w s => setWbState w.waybillSeq .localOnly s) (s.raiseIf (decide (bad ≠ [])) Ev.JRN_STATE_WORD_BAD)

/-- CHECKPOINT_TORN and SNAPSHOT_TORN for structures that fail their check; each is then used no more (R218). -/
def noteTorn (s : State) : State :=
  let saved := s.mram.snap0.toList ++ s.mram.snap1.toList ++ s.mram.plrs.map (·.2)
  (s.raiseIf (s.mram.checkpoints.any (fun e => !e.2.whole)) Ev.JRN_CHECKPOINT_TORN).raiseIf (saved.any (fun x => !x.whole)) Ev.JRN_SNAPSHOT_TORN

/-- The ring in recovery's order, one lap, oldest slot first, each whole entry with the SEQ of its place in the lap. -/
def State.lap (s : State) : List (Nat × Entry) :=
  let h := s.ringHead
  let k := h % ringSlots
  let place (e : Nat × Entry) : Nat × Entry := (h - (k + ringSlots - e.1) % ringSlots, e.2)
  let whole := s.mram.ring.filter (fun e => wholeAt s.mram.ring e.1)
  ((whole.filter (fun e => decide (k < e.1))) ++ whole.filter (fun e => decide (e.1 ≤ k))).map place

/-- Journal recovery (R219): clients from the newest whole checkpoint and the lap, then every waybill of the lap. -/
def recoverJournal (s : State) : State :=
  let cp := s.newestCheckpoint
  let s := noteTorn { s with jrn := { s.jrn with head := s.ringHead, clients := cp.2 } }
  let s := healStateWords s
  let s := forEach (s.lap.filter (fun e => decide (cp.1 < e.1))) (fun e s => replayEntry e.2 s) s
  let s := forEach (s.waybills.map (·.2)) recoverOne s
  let s := s.put Reg.JRN_STATUS_ABRUPT (b2n (!s.plrChosen && !s.firstUnderPair))
  s.raiseIf (decide (s.unconfirmed ≠ [])) Ev.JRN_UNCONFIRMED_FOUND

/-! Cut writes and uncorrectable words (R192, R218). -/

/-- The waybill in a slot with its state word unreadable. -/
def spoilWord (n : Nat) (ring : Tab Entry) : Tab Entry :=
  match Tab.get? ring n with
  | some (.waybill w) => Tab.set ring n (.waybill { w with state := .localOnly, wordBad := true })
  | _ => ring

/-- A structure whose write was cut, or that holds an uncorrectable word, fails its check (R192, R218). A ring slot, a release mark slot or a
coefficient slot then holds no entry; oscillator model and mileage records fall back to the other slot where they are read. -/
def spoil (x : MramSite) (s : State) : State :=
  let m := s.mram
  let m := match x with
    | .slot n => { m with ring := Tab.erase m.ring n }
    | .stateWord n => { m with ring := spoilWord n m.ring }
    | .mark t n => { m with marks := Tab.erase m.marks (8192 * t + n) }
    | .snapshot k => if k = 0 then { m with snap0 := m.snap0.map (fun y => { y with whole := false }) } else { m with snap1 := m.snap1.map (fun y => { y with whole := false }) }
    | .powerLoss k => { m with plrs := m.plrs.map (fun (e : Nat × Saved) => (e.1, if e.1 = k then { e.2 with whole := false } else e.2)) }
    | .checkpoint k => { m with checkpoints := m.checkpoints.map (fun (e : Nat × ClientCheckpoint) => (e.1, if e.1 = k then { e.2 with whole := false } else e.2)) }
    | .fault k => { m with faultRing := m.faultRing.mapIdx (fun i f => if i = k then { f with kind := 0 } else f) }
    | .oscillator k => { m with osc := m.osc.map (fun (e : Nat × OscSlot) => (e.1, if e.1 = k then { e.2 with whole := false } else e.2)) }
    | .mileage _ => m
    | .chain k => { m with chains := m.chains.map (fun (e : Nat × ChainCopy) => (e.1, if e.1 = k then { e.2 with whole := false } else e.2)) }
    | .coefficient _ => m
    | .firmware .. => m
    | .activation _ => m
    | .siding _ => m
  let records := match x with | .coefficient k => Tab.erase s.conv.records k | _ => s.conv.records
  let s := { s with mram := m, conv := { s.conv with records := records } }
  match x with
  | .firmware r k => s.setRegion r { s.fwRegion r with spoilt := addOnce k (s.fwRegion r).spoilt }
  | .activation r => s.setRegion r { s.fwRegion r with bad := true }
  | .mileage k => { s with mil := { s.mil with slots := s.mil.slots.map (fun (e : Nat × MilSlot) => (e.1, if e.1 = k then { e.2 with whole := false } else e.2)) } }
  | .siding k => s.setUpdSession k { s.updSession k with spoilt := true }
  | _ => s

/-- Bases of the firmware slots: region, slot, base, size (R449). -/
def fwSlots : List (Nat × Nat × Nat × Nat) :=
  [(0, 0, 0x18000000, 0x200000), (0, 1, 0x18200000, 0x200000), (1, 0, 0x18400000, 0x2000000), (1, 1, 0x1A400000, 0x2000000)]
  ++ [(2, 0, 0x1C400000, 0x1000000), (2, 1, 0x1D400000, 0x1000000), (3, 0, 0x1E400000, 0x200000), (3, 1, 0x1E600000, 0x200000)]
  ++ [(4, 0, 0x1E800000, 0x400000), (4, 1, 0x1EC00000, 0x400000), (5, 0, 0x1F000000, 0x400000), (5, 1, 0x1F400000, 0x400000)]

/-- The structure that holds an address of persistent memory, by the areas of R193 and the slots laid down in them (R195, R215, R449, R489). The manual does not
place the structures within the control, calibration, attestation and records areas; areas of several slots are cut evenly (assumption 134). -/
def siteAt (a : Nat) : Option MramSite :=
  let lies (base size : Nat) : Bool := decide (base ≤ a) && decide (a < base + size)
  if lies 0x100000 0x400000 then some (.checkpoint ((a - 0x100000) / 0x40000))
  else if lies 0x500000 0x200000 then some (.mark ((a - 0x500000) / 0x40000) ((a - 0x500000) % 0x40000 / 32))
  else if lies 0x800000 0x100000 then some (.oscillator ((a - 0x800000) / 0x80000))
  else if lies 0x1000000 0x1000000 then some (.mileage ((a - 0x1000000) / 0x800000))
  else if lies 0x4000000 0x4000000 then
    let n := (a - 0x4000000) / 128
    some (if 0x28 ≤ a % 128 ∧ a % 128 < 0x30 then .stateWord n else .slot n)
  else if lies 0x8000000 0x8000000 then some (.snapshot ((a - 0x8000000) / 0x4000000))
  else if lies 0x20000000 0x8000000 then some (.siding ((a - 0x20000000) / 0x4000000))
  else if lies 0x48000000 0x10000000 then some (.powerLoss ((a - 0x48000000) / 0x1000000))
  else (fwSlots.find? (fun e => lies e.2.2.1 e.2.2.2)).map (fun e => .firmware e.1 e.2.1)

/-- An uncorrectable word at an address of persistent memory (R192). -/
def spoilAt (a : Nat) (s : State) : State := match siteAt a with | some x => spoil x s | none => s

/-- What an abrupt stop leaves torn (R218). -/
def tearAll (l : List MramSite) (s : State) : State := forEach l spoil s

end Sys2Proof.Machine
end

