-- ==== Sys2Proof/Machine/Start.lean ====
section
/-! DEFINITION. Starting a module (R44, R50 to R75): what a start clears, steps 1 to 11 of R61, holds and notices, the choice of image (R58) and of
path (R62). -/

namespace Sys2Proof.Machine

/-! Fault records and lanes out of service. -/

/-- A fault record into the ring of the last 64 (R187). -/
def writeFault (f : FaultRec) (s : State) : State :=
  { s with mram := { s.mram with faultRing := lastN 64 (s.mram.faultRing ++ [f]), faultsWritten := satInc 32 s.mram.faultsWritten } }

/-- A lane leaves service: its lifetime count advances (R182), and LANES_RETIRED counts it. -/
def retireMark (n : Nat) (s : State) : State :=
  let s := s.setLane n { s.lane n with retired := true, task := none, block := none, waiting := false, mismatch := none, gateLog := [], gotA := [], gotB := [], asLane := none, restartOn := [], starting := false, dueRetire := false }
  { s with mram := { s.mram with retireCounts := Tab.update 0 s.mram.retireCounts n (· + 1) } }.inc Reg.EXEC_STATUS_LANES_RETIRED

/-- The lowest free spare (R129, R180). -/
def State.lowestSpare (s : State) : Option Nat := s.freeSpares.head?

/-! What a start clears. -/

/-- A transfer is lost with a stop; every other session keeps what R466 says. -/
def stoppedSession (x : UpdSession) : UpdSession := if x.state = 1 then { x with state := 9, opened := false } else x

/-- The mileage recorder resumes from the slot that counts, or starts with empty histograms (R490). -/
def milResume (s : State) : State :=
  match s.newestMil with
  | some e => { s with mil := { s.mil with now := e.2.totals, unfolded := [], writeSeq := e.2.seq } }
  | none => { s with mil := { s.mil with now := MilTotals.reset, unfolded := [], writeSeq := 0 } }.raise Ev.MIL_SLOT_TORN

/-- The state with which a start begins, every network cage enabled again (R20 says of a cage disabled for overload only that it is; assumption 101): working memory and registers at reset, MRAM, the standby domain and the pins as they were. -/
def clearWorking (s : State) : State :=
  let off := decide (s.mode = .off)
  { s with
    mode := .starting, bank := State.resetBank, heldWrites := [], shadows := [],
    carrier := { s.carrier with fuse1Open := false, fuse2Open := false, fuse1Tries := [], fuse2Tries := [], cagesOff := [], resFull := false,
                                holdup := false, shed := false, recordWritten := false },
    start := { Start.reset with fromOff := off, prior := s.mram.running, startTick := if off then 0 else s.time.tick },
    claim := { Claim.reset with partner := s.claim.partner }, pair := Pair.reset, tasks := [], lanes := [], ctl := Control.reset,
    jrn := Journal.reset, exch := Exchange.reset,
    sbox := Sbox.reset, chans := [], conv := { Conv.reset with records := s.conv.records },
    acq := { Recorder.reset with stored := s.acq.stored, blockSeq := s.acq.blockSeq, nextId := s.acq.nextId },
    time := { TimeBase.reset with tick := if off then 0 else s.time.tick, qualified := s.mram.osc.any (fun e => e.2.qualified) },
    net := Net.reset, can0 := CanPort.reset, can1 := CanPort.reset, mpu := Mpu.reset,
    upd := { s.upd with sessions := s.upd.sessions.map (fun (e : Nat × UpdSession) => (e.1, stoppedSession e.2)), regions := if off then s.upd.regions.map (fun (e : Nat × RegionRec) => (e.1, { e.2 with effectTick := none, effectEnd := 0 })) else s.upd.regions, leaf := s.upd.limit, words := [], signing := false,
                        signedSecond := 0, signedCount := 0 },
    panel := { Panel.reset with temp := s.panel.temp, label := s.panel.label } }

/-! Holds and notices. -/

/-- A start holds with a code (R61, R63): START_HELD as the code comes into force. -/
def startHold (code : Nat) (s : State) : State :=
  let was := s.get Reg.ID_START_HOLD
  (s.put Reg.ID_START_HOLD code).raiseIf (decide (was ≠ code)) Ev.ID_START_HELD

/-- A notice 0x40 + k. -/
def startNotice (k : Nat) (s : State) : State :=
  let m := s.get Reg.ID_START_NOTICES
  if m / 2 ^ k % 2 = 1 then s else (s.put Reg.ID_START_NOTICES (m + 2 ^ k)).raise Ev.ID_START_NOTICE

/-! Firmware (steps 2 and 8). -/

/-- A region's record with its slots exchanged; the session that brought the image ends (R451, R463). -/
def exchangeSlots (r : Nat) (s : State) : State :=
  let g := s.fwRegion r
  let s := s.setRegion r { g with activeSlot := 1 - g.activeSlot, trial := false, prevUsable := false, waiting := false }
  let s := match s.sessionOfRegion r 6 with | some n => s.setUpdSession n { s.updSession n with state := 8, opened := false } | none => s
  s.raise Ev.UPD_FALLBACK_AUTO

/-- A region before its images are checked: a trial image counts the start, and at the third falls back if there is a usable previous image (R463). -/
def fwAttempt (r : Nat) (s : State) : State :=
  let g := s.fwRegion r
  if g.trial then
    let s := s.setRegion r { g with attempts := g.attempts + 1 }
    if 3 ≤ g.attempts + 1 ∧ g.prevUsable then exchangeSlots r s else s
  else s

/-- The image in a slot is damaged: it is missing, or a block's check fails (R61). Every image was checked as it was written (R455, R459), so only
uncorrectable words can fail it. -/
def slotBad (x : RegionRec) (slot : Nat) : Bool := decide (slot ∈ x.spoilt) || (slotImage x slot).isNone

/-- A waiting image takes effect at a start (R461). -/
def startEffect (r : Nat) (s : State) : State :=
  let g := s.fwRegion r
  if g.waiting then
    let s := match s.sessionOfRegion r 5 with | some n => s.setUpdSession n { s.updSession n with state := 6 } | none => s
    (s.setRegion r { g with waiting := false, effectTick := some s.time.tick }).raise Ev.UPD_ACTIVATED
  else s

/-- A region's image is found (R450, R451): true if one of its images can be run. -/
def fwCheck (r : Nat) (s : State) : Bool × State :=
  if (s.fwRegion r).bad then (false, s)
  else
    let s := fwAttempt r s
    let g := s.fwRegion r
    if !slotBad g g.activeSlot then (true, startEffect r s)
    else if g.prevUsable && !slotBad g (1 - g.activeSlot) then (true, exchangeSlots r s)
    else (false, s)

/-! Images. -/

/-- The lanes of an image's tasks, each with its task. -/
def imageLanes (i : Image) : List (Nat × Nat) := i.tasks.flatMap (fun e => e.2.lanes.map (fun n => (n, e.1)))

/-- A lane that cannot serve its task is replaced by the lowest healthy lane assigned to none (R130). -/
def replaceLane (e : Nat × Nat) (s : State) : State :=
  if s.laneOk e.1 then s
  else match s.lowestSpare with
    | some n => (s.setLane n { s.lane n with task := some e.2, asLane := some e.1 }).raise Ev.EXEC_LANE_MIGRATED
    | none => s

/-- Lanes take the tasks of an image: healthy lanes their own, then replacements; SPARE_LOST if fewer spares are left than the image asks for. -/
def placeLanes (i : Image) (s : State) : State :=
  let s := { s with lanes := s.lanes.map (fun (e : Nat × Lane) => (e.1, { e.2 with task := none, asLane := none })) }
  let s := { s with lanes := s.lanes.filter (fun e => decide (e.2 ≠ Lane.reset)) }
  let l := imageLanes i
  let s := forEach l (fun e s => if s.laneOk e.1 then s.setLane e.1 { s.lane e.1 with task := some e.2, asLane := none } else s) s
  let s := forEach ((List.range 16).filterMap (fun n => (findKey l n).map (fun t => (n, t)))) replaceLane s
  s.raiseIf (decide (s.freeSpares.length < i.spares)) Ev.EXEC_SPARE_LOST

/-- An image becomes the one the module is configured by: timetable, signal box table, channels, recorder. -/
def loadImage (i : Image) (s : State) : State :=
  let s := { s with start := { s.start with running := some i, timetableLoaded := true } }
  let s := placeLanes i s
  let s := { s with sbox := { s.sbox with table := boxOf i } }
  let s := forEach i.channels (fun e s => if e.2.mode = .ao then s.setChan e.1 { Chan.reset with supplyMv := s.vmax e.1, levelMv := s.vmax e.1 } else s.setChan e.1 Chan.reset) { s with chans := [] }
  let s := { s with conv := { s.conv with periodNs := s.nominalNs } }
  if s.start.platformsUp then acqStart s else s

/-- The image of MRAM that counts for the key's project and pair (R58). -/
def State.mramImage (s : State) (k : SlotKey) : Option Image :=
  match s.mram.running with
  | some i => if i.projectId = k.projectId ∧ i.pairId = k.pairId then some i else none
  | none => none

/-- R58 without a partner module: the MRAM image if its REVISION is at least the key's, else the key image. -/
def State.aloneImage (s : State) (k : SlotKey) (keyImage : Image) : Image :=
  match s.mramImage k with
  | some i => if keyImage.revision ≤ i.revision then i else keyImage
  | none => keyImage

/-! Steps 4 to 9. -/

/-- Does MRAM state of another pair go (R70). -/
def clearForeign (pairId : Nat) (s : State) : State :=
  match s.mram.pairServed with
  | some p =>
    if p = pairId then s
    else
      let m := { s.mram with ring := [], snap0 := none, snap1 := none, plrs := [], plrNext := 0, marks := [], markSlots := [], checkpoints := [], ckptNext := 0,
                             retiredIds := [], floor := 0, progress := .none, pending := none, announcement := none, restart := none, lastHolder := false,
                             pairServed := some pairId }
      startNotice 4 { s with mram := m }
  | none => { s with mram := { s.mram with pairServed := some pairId } }

/-- The restart kind (R66): a restart record not yet used, else RESTART_MODE; a used record is marked, and the kind holds for the whole start. -/
def decideKind (cold : Bool) (s : State) : State :=
  let found := match s.mram.restart with | some r => if r.used then cold else r.cold | none => cold
  let wantCold := s.start.wantCold.getD found
  let s := match s.mram.restart with | some r => { s with mram := { s.mram with restart := some { r with used := true } } } | none => s
  { s with start := { s.start with wantCold := some wantCold, warm := !wantCold && s.newestSnap.isSome, warmRefused := !wantCold && s.newestSnap.isNone } }

/-- An exchange found in MRAM (R161): one that was only LOADED is abandoned; one COMMITTED leaves its image the running image, as one COMPLETE has done
already. -/
def exchangeAtStart (s : State) : State :=
  let m := s.mram
  match m.progress, m.pending with
  | .loaded, p => { s with mram := { m with progress := .none, pending := none, announcement := none }, start := { s.start with exchangeLost := p.map (·.digest) } }
  | .committed, some p =>
    { s with mram := { m with progress := .complete, pending := none, announcement := none, running := some p },
             start := { s.start with exchangeDone := match m.running, m.announcement with | some o, some a => some (o, a) | _, _ => none } }
  | .complete, _ => { s with mram := { m with announcement := none } }
  | _, _ => { s with mram := { m with progress := .none, announcement := none } }

/-- Step 6: MRAM inspected. -/
def step6 (k : SlotKey) (keyImage : Image) (s : State) : State :=
  let s := exchangeAtStart (clearForeign k.pairId s)
  let s := decideKind (decide ((s.aloneImage k keyImage).start.restartMode = 1)) s
  let s := if s.start.fromOff then
      { s with start := { s.start with fromOff := false }, mram := { s.mram with powerCycles := (s.mram.powerCycles + 1) % 2 ^ 32 } }
    else s
  let s := if s.mram.slotName = k.slotName ∧ s.mram.pairName = k.pairName then s else labelRequest s
  milResume { s with jrn := { s.jrn with head := s.ringHead }, mram := { s.mram with slotName := k.slotName, pairName := k.pairName } }

/-- Step 7: the timebase is seeded (R355). -/
def step7 (s : State) : State :=
  let b := s.standby
  let inc := if s.start.warm then (match s.chosenSaved with | some x => x.inc | none => incNominal) else incNominal
  let latest := s.latestStamp + 2 ^ 28
  let counter : Stamp := if b.countLost then ⟨latest / 2 ^ 28 % 2 ^ 48, latest % 2 ^ 28 * 1000000000 / 2 ^ 28, 0⟩ else ⟨b.sec, b.frac * 1000000000 / 32768, 0⟩
  let s := setInc inc { (loadOsc s) with time := { (loadOsc s).time with counter := counter, quality := 3, slewNs := 0, seededFrom := if b.countLost then 2 else 0, lastLockedInc := inc } }
  let s := { s with time := { s.time with lastQuantum := s.gridQuantum } }
  if b.countLost then startNotice 6 s else s

/-- One lane at step 8 (R130, R182): a lane retired three times is excluded as worn; another fails or passes its built-in test. -/
def testLane (found : List Nat) (n : Nat) (s : State) : State :=
  if (s.lane n).bad || (s.lane n).retired then s
  else
    let f (kind : Nat) : FaultRec := ⟨kind, n, 255, 5, 0, 0, s.ts, 0, 255, 0⟩
    if 3 ≤ Tab.getD s.mram.retireCounts n 0 then writeFault (f 9) (s.setLane n { s.lane n with retired := true, worn := true })
    else if n ∈ found then writeFault (f 8) (retireMark n (s.setLane n { s.lane n with bad := true }))
    else s

/-- A start fault (R65): HALT with its reason. -/
def startFault (reason : Nat) (s : State) : State := enterHalt reason { s with start := { s.start with path11a := false, path11b := false } }

/-- Step 9: platforms and signal box come up, the platforms with the coefficients that their records give (R318), and the network ports; a platform without field power has its common fault bit set (R292). -/
def step9 (img : Image) (s : State) : State :=
  let s := { s with start := { s.start with platformsUp := true, step := 9 },
                    net := { s.net with up := [Port.pba, Port.pbb, Port.pla, Port.plb, Port.svc].filter (fun p => decide (p ∉ s.carrier.cagesOff)) } }
  let s := if s.sbox.running then s
    else { s with sbox := { s.sbox with running := true, evalOk := [0, 1, 2] } }
  let s := loadImage img { s with conv := { s.conv with coefs := s.recordedCoefs } }
  let s := if s.fieldGood 0 then s else fieldBad 0 s
  if s.fieldGood 4 then s else fieldBad 1 s

/-- The firmware images of the other regions, in order (R61 step 7). -/
def checkRegions (s : State) : Bool × State :=
  [2, 3, 4, 5].foldl (fun (a : Bool × State) r => ((fwCheck r a.2).1 && a.1, (fwCheck r a.2).2)) (true, s)

/-- The last closed cycle of T0 that a module reports (R62): released in ACTIVE, acknowledged in STANDBY unless its copy is stale, found in its own MRAM
otherwise. -/
def State.lastClosed (s : State) : Option Nat :=
  if s.mode = .active then some (s.task 0).released
  else if s.mode = .standby then (if s.pair.copyCurrent then some (s.task 0).lastClosed else none)
  else if s.foundCycle 0 = 0 then none else some (s.foundCycle 0)

/-- What this module says of itself in a HELLO (R61 step 10, R224). -/
def State.hello (s : State) : Hello :=
  let key := s.start.key
  { state := modeCode s.mode, pairId := match key with | some k => k.pairId | none => 0, projectId := match key with | some k => k.projectId | none => 0#64,
    digest := s.digest, revision := match s.mram.running with | some i => i.revision | none => 0,
    keyRevision := match s.start.keyImage with | some i => i.revision | none => 0, keyAccepted := s.start.keyImage.isSome, anchor := s.mram.anchor,
    cycles := s.tasks.map (fun (e : Nat × Task) => (e.1, e.2.cycle)), lastClosed := s.lastClosed, staleCopy := s.pair.stale, jrnHead := s.jrn.head,
    atStep10 := decide (s.mode = .starting) && decide (s.start.step = 10), image := s.mram.running, keyImage := s.start.keyImage,
    timeSec := s.time.counter.sec, timeNs := s.time.counter.ns, session := s.pair.session }

/-- Step 10 begins: the coupling trains and HELLO goes out. -/
def beginStep10 (s : State) : State :=
  let s := if s.get Reg.ID_START_HOLD < 6 then s.put Reg.ID_START_HOLD 0 else s
  let s := { s with start := { s.start with step := 10 } }
  s.sendFrame (.hello s.hello)

/-- Steps 8 and 9 once the lanes are placed. -/
def steps9to10 (i : StartInput) (img : Image) (s : State) : State :=
  if !s.lanesCover then startFault 0x09 s
  else if i.tagStoreFault then startFault 0x0B s
  else beginStep10 (step9 img s)

/-- Step 8: the built-in test of the lanes, and the timetable. -/
def step8 (i : StartInput) (img : Image) (s : State) : State :=
  let s := forEach (List.range 16) (testLane i.badLanes) { s with start := { s.start with step := 8 } }
  placeLanes img { s with start := { s.start with running := some img, timetableLoaded := true } }

/-- Steps 6 to 9 for the image accepted at step 5, then step 10 begins. -/
def steps6to10 (i : StartInput) (k : SlotKey) (img : Image) (s : State) : State :=
  let fw := checkRegions (step7 (step6 k img { s with start := { s.start with key := some k, keyImage := some img, step := 6 } }))
  if !fw.1 then startFault 0x0A { fw.2 with start := { fw.2.start with step := 8 } } else steps9to10 i img (step8 i img fw.2)

/-- Does an image pass R56, the owner check deferred while no anchor is enrolled (R57): 0 passed, 1 the owner differs, 2 another check failed. -/
def State.checkImage (s : State) (k : SlotKey) (i : Image) : Nat := if !s.imageOk k.projectId k.pairId i then 2 else if s.ownerOk i then 0 else 1

def checkCopy (s : State) (k : SlotKey) (c : Option Image) : Nat := match c with | some i => s.checkImage k i | none => 2

/-- Step 5: the first copy that passes its checks is accepted (R55, R56). Where one copy fails on the owner and the other on another check, neither
hold code fits R61's table; the module holds with IMAGE_UNTRUSTED (assumption 105). -/
def step5 (i : StartInput) (k : SlotKey) (s : State) : State :=
  let a := checkCopy s k k.copy1
  let b := checkCopy s k k.copy2
  match k.copy1, k.copy2 with
  | some img, some img2 =>
    if a = 0 then steps6to10 i k img s
    else if b = 0 then steps6to10 i k img2 (startNotice 0 s)
    else startHold (if a = 2 ∧ b = 2 then 4 else 5) s
  | some img, none => if a = 0 then steps6to10 i k img s else startHold (if a = 2 then 4 else 5) s
  | none, some img2 => if b = 0 then steps6to10 i k img2 (startNotice 0 s) else startHold (if b = 2 then 4 else 5) s
  | none, none => startHold 4 s

/-- Step 4: the slot key is read (R51). -/
def step4 (i : StartInput) (s : State) : State :=
  match i.key with
  | none => startHold 2 s
  | some k =>
    if k.magic ≠ 0x36314B53#32 ∨ !keyCrcOk k then startHold 2 s
    else if !slotCrcOk k || !pairCrcOk k then startHold 3 s
    else if k.carrierCode ≠ b2n i.split then startHold 1 s
    else if k.slotCode ≠ b2n i.slotB then startHold 3 s
    else step5 i k { s with start := { s.start with step := 5, key := some k } }

/-- Steps 3 to 5, and what follows them. -/
def steps3to10 (i : StartInput) (s : State) : State :=
  let c := { s.carrier with slotB := i.slotB, split := i.split, mod1Mv := i.mod1Mv, mod2Mv := i.mod2Mv, fld1Mv := i.fld1Mv, fld2Mv := i.fld2Mv }
  let s := { s with carrier := c, start := { s.start with step := 3, imageChosen := false, path11a := false, path11b := false } }
  if s.fixed.variantF ≠ i.split then startHold 1 s else step4 i { s with start := { s.start with step := 4 } }

/-- The label's dirty marker found set (R485): a complete redraw. -/
def labelAtStart (s : State) : State :=
  if s.mram.labelDirty then { s with panel := { s.panel with redrawDirty := true } }.raise Ev.FP_LABEL_CUT else s

/-- CLEAR_PENDING erases the anchor at a start (R471). -/
def anchorAtStart (s : State) : State :=
  if s.mram.clearPending then { s with mram := { s.mram with anchor := none, clearPending := false } } else s

/-- ROM finds LOADER or MGMT damaged (R65, R467): TERMINUS. -/
def enterTerminus (s : State) : State :=
  setMode .terminus { s with start := { s.start with step := 2 }, net := { s.net with up := [.svc] } }

/-- A standby domain that had stopped restarts: counter and SEQ from 0, then UNPLUGGED, CELL_LOW and COUNT_LOST (R42, R49). -/
def standbyRestart (s : State) : State :=
  if s.standby.stopped then
    { s with standby := { sec := 0, frac := 0, acc := 0, unplugged := true, cellLow := true, countLost := true, seq := 3, stopped := false } }
  else s

/-- Step 1 (R61): power on, and the marks a start finds. -/
def beginStart (s : State) : State :=
  let s := panelOn (clearWorking (standbyRestart s))
  labelAtStart (anchorAtStart { s with mram := { s.mram with bootCount := (s.mram.bootCount + 1) % 2 ^ 32 }, start := { s.start with step := 1 } })

/-- Step 2: ROM checks LOADER and MGMT (R61, R467). -/
def checkLoader (s : State) : Bool × State :=
  let a := fwCheck 0 s
  let b := fwCheck 1 a.2
  (a.1 && b.1, { b.2 with start := { b.2.start with step := 2 } })

/-- A start from its step 1 (R44, R61): from OFF, from TERMINUS, or a restart. -/
def startModule (i : StartInput) (s : State) : State :=
  let r := checkLoader (tearAll i.unreadable (beginStart s))
  if r.1 then steps3to10 i { r.2 with net := { r.2.net with up := [.pla, .plb, .svc] } } else enterTerminus r.2

/-! Step 10. -/

/-- The anchor is enrolled (R57). -/
def enrol (owner : Nat) (s : State) : State :=
  match s.mram.anchor with
  | some _ => s
  | none => startNotice 3 { s with mram := { s.mram with anchor := some owner } }

/-- The module takes the image it runs (R58, R59): KEY_STALE or KEY_AHEAD against its own key, and the image is written to MRAM. -/
def chooseImage (i : Image) (s : State) : State :=
  let keyRev := match s.start.keyImage with | some k => k.revision | none => 0
  let s := if keyRev < i.revision then startNotice 1 s else if i.revision < keyRev then startNotice 2 s else s
  let s := loadImage i { s with mram := { s.mram with running := some i }, start := { s.start with imageChosen := true } }
  if s.lanesCover then s else startFault 0x09 s

/-- Path 11a: the active module's state supersedes this module's (R61). -/
def takePathA (s : State) : State :=
  let s := ({ s with start := { s.start with path11a := true }, pair := { s.pair with stale := true } }).put Reg.ID_START_HOLD 0
  if s.pair.partnerMode = some .active then { s with pair := { s.pair with resync := true } }.sendFrame (.resyncReq none) else s

/-- Path 11b: state restored under R66, journal recovered under R219. -/
def takePathB (i : Image) (s : State) : State :=
  let s := if s.start.warmRefused then startNotice 5 s else s
  let s := recoverJournal (restoreState i { s with start := { s.start with path11b := true } })
  s.put Reg.ID_START_HOLD 0

/-- The image a pair of starting or halted modules runs (R58 row 2): the highest REVISION known to both. -/
def pairImage (own : Option Image) (ownKey : Option Image) (h : Hello) (k : SlotKey) : Option Image :=
  let all := own.toList ++ ownKey.toList ++ h.image.toList ++ (if h.keyAccepted then h.keyImage.toList else [])
  (all.filter (fun i => decide (i.projectId = k.projectId) && decide (i.pairId = k.pairId))).foldl (fun b i => match b with
    | some x => if x.revision < i.revision then some i else some x
    | none => some i) none

/-- The path of R62 against a partner module that answers in state m. Against a partner module in STANDBY or HALT beside which a claim line is
asserted R62 has no row: the module waits in STARTING without a hold code (assumption 104). -/
def choosePath (m : Mode) (lastClosed : Option Nat) (i : Image) (s : State) : State :=
  let mine := s.foundCycle 0
  let theirs := lastClosed.getD 0
  match m with
  | .active => takePathA s
  | .starting =>
    if theirs < mine ∨ (mine = theirs ∧ !s.carrier.slotB) then takePathB i s else takePathA s
  | _ =>
    if s.claim.own || s.claim.partner then s
    else if theirs ≤ mine then takePathB i s
    else startHold 8 s

/-- The image of R58 is chosen once it passes R56, and the path follows. A module still without an anchor enrols the owner key of an image that
passes every other check (R57; assumption 113). A partner module's image that fails a check other than the owner's holds the module with
IMAGE_INVALID, which R58 leaves open (assumption 106). -/
def chooseAgainst (m : Mode) (lastClosed : Option Nat) (k : SlotKey) (i : Image) (s : State) : State :=
  if !s.imageOk k.projectId k.pairId i then startHold 4 s
  else
    let s := enrol (keyHash i.ownerCert.key) s
    if !s.ownerOk i then startHold 5 s
    else
      let s := if s.start.imageChosen ∧ s.start.running = some i then s else chooseImage i s
      if s.mode = .starting then choosePath m lastClosed i s else s

/-- The counter is seeded from the partner module's time where its own has no source (R355). -/
def seedTime (h : Hello) (s : State) : State :=
  if s.time.quality = 0 then s
  else
    let there : Stamp := ⟨h.timeSec, h.timeNs, 0⟩
    let s := stepCounter ((there.nsTotal : Int) - (s.time.counter.nsTotal : Int)) 0 s
    { s with time := { s.time with seededFrom := 1 } }

/-- The choice at step 10 against a partner module in state m (R57, R58, R62). The anchor is enrolled before the project is compared. -/
def decideStep10 (h : Hello) (m : Mode) (k : SlotKey) (s : State) : State :=
  let s := match h.anchor with | some a => enrol a s | none => s
  if h.projectId ≠ k.projectId ∨ h.pairId ≠ k.pairId then startHold 6 s
  else
    let choice := if m = .standby ∨ m = .active then h.image else pairImage (s.mramImage k) s.start.keyImage h k
    match choice with
    | none => s
    | some i => chooseAgainst m (if h.staleCopy then none else h.lastClosed) k i s

/-- What HELLO says of the partner module (R224). -/
def takeHello (h : Hello) (m : Mode) (s : State) : State :=
  let s := s.raiseIf (!s.pair.linkUp) Ev.CPL_COUPLING_UP
  { s with pair := { s.pair with linkUp := true, trained := [0, 1, 2, 3], session := h.session, rxNext := 1, txNext := 1, peerAck := 0, partnerMode := some m,
                                 partnerHello := some h } }

/-- A stale standby module, and one on path 11a, asks an active partner module for resynchronisation as soon as the coupling is up (R234). -/
def requestResync (s : State) : State :=
  if s.pair.linkUp && decide (s.pair.partnerMode = some .active) && !s.pair.resync
      && ((decide (s.mode = .standby) && !s.pair.copyCurrent) || (decide (s.mode = .starting) && s.start.path11a)) then
    { s with pair := { s.pair with resync := true } }.sendFrame (.resyncReq none)
  else s

/-- A module at step 10 that has taken no path, or waits on path 11a for a partner module that is not ACTIVE, chooses by what the partner module
says now (R62). -/
def decideAgain (h : Hello) (m : Mode) (s : State) : State :=
  if s.mode = .starting ∧ s.start.step = 10 ∧ !s.start.path11b ∧ !s.pair.resync ∧ (m ≠ .starting ∨ h.atStep10) then
    match s.start.key with
    | some k => decideStep10 h m k { s with start := { s.start with path11a := false } }
    | none => s
  else requestResync s

/-- A module at step 10 takes the partner module's time (R355). -/
def seedAt10 (h : Hello) (s : State) : State := if s.mode = .starting ∧ s.start.step = 10 then seedTime h s else s

/-- COUPLING_HELLO (R61 step 10, R62): a module that waits at step 10 decides; any other notes what HELLO says. A report of a state that does not exist
is corrupt (R2), and a partner module in TERMINUS does not answer. HELLO opens the session: it is taken without the checks of R225 (assumption 131). -/
def execCouplingHello (h : Hello) (s : State) : Host.Outcome State Fault Refusal :=
  .next (match modeOfCode h.state with
    | some m => if !s.powered || decide (s.mode = .terminus) || decide (m = .terminus) then s else decideAgain h m (seedAt10 h (takeHello h m s))
    | none => s)

/-- PARTNER_WINDOW_EXPIRY (R57, R58, R62): no partner module answers. An image chosen against a partner module that has fallen silent is chosen anew. -/
def execPartnerWindowExpiry (s : State) : Host.Outcome State Fault Refusal :=
  .next (if decide (s.mode = .starting) && decide (s.start.step = 10) && !s.start.path11a && !s.start.path11b && !s.pair.linkUp then
      match s.start.key, s.start.keyImage with
      | some k, some ki =>
        let i := s.aloneImage k ki
        let s := enrol (keyHash i.ownerCert.key) s
        if !s.ownerOk i then startHold 5 s
        else
          let s := if s.start.imageChosen ∧ s.start.running = some i then s else chooseImage i s
          if s.mode ≠ .starting then s
          else if s.claim.partner then startHold 7 s
          else takePathB i s
      | _, _ => s
    else s)

/-- START_HOLD_RETRY (R63): steps 4 to 10 again, with the straps of the carrier as it is. -/
def execStartHoldRetry (i : StartInput) (s : State) : Host.Outcome State Fault Refusal :=
  .next (if decide (s.mode = .starting) && decide (s.get Reg.ID_START_HOLD ≠ 0) then
      steps3to10 i ((s.inc Reg.ID_START_ATTEMPTS))
    else s)

/-- Task i has a quantum tick now: the quantum of the grid is one of its own (R116). -/
def State.dueNow (s : State) (i : Nat) : Bool :=
  match s.taskCfg i with
  | some c => decide (c.phaseQ ≤ s.gridQuantum) && decide ((s.gridQuantum - c.phaseQ) % c.periodQ = 0)
  | none => false

/-- Entry to STANDBY or ACTIVE ends the trial attempts of every region (R463). -/
def serviceEntry (s : State) : State :=
  { s with upd := { s.upd with regions := s.upd.regions.map (fun (e : Nat × RegionRec) => (e.1, { e.2 with attempts := 0 })) } }

/-- The state of path 11b is restored, no control-critical fault is present, the partner module's claim is deasserted, and the own claim path is
sound (R65, R238). -/
def State.mayEnter (s : State) : Bool := decide (s.mode = .starting) && s.start.path11b && !s.critical && !s.claim.partner && !s.claim.stuck

/-- START_ENTER_ACTIVE (R61 step 11b): the claim is asserted under the claim rules, and once it is confirmed the module enters ACTIVE at a boundary
of T0 (assumption 75). -/
def execStartEnterActive (s : State) : Host.Outcome State Fault Refusal :=
  .next (if s.mayEnter && !s.claim.drive then
      { s with claim := { s.claim with drive := true, own := true, confirmed := false, taking := true, refreshed := s.time.tick } }
    else if s.mayEnter && s.claim.confirmed && s.dueNow 0 then refreshOutputs (serviceEntry (setMode .active s))
    else s)

/-! The commands that start a module. -/

/-- INSERTION_START (R44). -/
def execInsertionStart (i : StartInput) (s : State) : Host.Outcome State Fault Refusal :=
  .next (if decide (s.mode = .off) && s.carrier.seated && (decide (19200 ≤ i.mod1Mv) || decide (19200 ≤ i.mod2Mv)) then startModule i s else s)

/-- SUPPLY_RETURN_RESTART (R39): the hold-up sequence has ended, and the supply is back. -/
def execSupplyReturnRestart (i : StartInput) (s : State) : Host.Outcome State Fault Refusal :=
  .next (if decide (s.mode = .off) && s.carrier.seated && (decide (19200 ≤ i.mod1Mv) || decide (19200 ≤ i.mod2Mv)) then startModule i s else s)

/-- LEAVE_TERMINUS (R467, R468): a command of a SERVICE session on SVC. -/
def leaveTerminusCmd (i : StartInput) (s : State) : State :=
  if s.mode = .terminus then startModule i s else cmdEnd 6 1 s

def execLeaveTerminus (origin : Origin) (i : StartInput) (s : State) : Host.Outcome State Fault Refusal :=
  .next (updBy origin (updOrigin s origin) (leaveTerminusCmd i) s)

end Sys2Proof.Machine
end

