-- ==== Sys2Proof/Machine/Activate.lean ====
section
/-! DEFINITION. Firmware commands: activation, taking effect, confirmation and fall-back (R458 to R463). -/

namespace Sys2Proof.Machine

/-- The signal box restarts its evaluators with a table (R162, R460). -/
def sbxRestart (table : BoxCfg) (s : State) : State :=
  { s with sbox := { s.sbox with evalOk := [0, 1, 2], outvoted := [], voteLost := false, eval0 := [], eval1 := [], eval2 := [], voted := [],
                                 dispute := [], resets := [], table := table } }

/-- A standby module whose lanes no longer cover its tasks enters HALT (R183). -/
def lanesShort (s : State) : State := if s.mode = .standby ∧ s.lanesCover = false then enterHalt 9 s else s

/-- The lanes take the tasks of the running image again. -/
def lanesAgain (s : State) : State := match s.img with | some i => placeLanes i s | none => s

/-- The lanes load the runtime and run their built-in test (R460). What the test finds is the hardware's: a free value says which lanes fail it. -/
def laneEffect (s : State) : State :=
  lanesShort (lanesAgain (forEach (List.range 16) (testLane ((List.range 16).filter (fun n => (Config.freeValue s.freeCount).getLsbD n))) s.free.2))

/-- Channel sequencers restart one platform at a time (R460): rotation restarts at channel 0 for CONV. -/
def visitsRestart (s : State) : State :=
  forEach (List.range 8) (fun p s => let s := abandonVisit p s; s.setTt p { s.tt p with next := 0, queue := [], checkLeft := 0, suspect := none }) s

/-- The longest an effect lasts, in ticks (R460). -/
def State.effectBound (s : State) (r : Nat) : Nat :=
  match r with
  | 0 => ticksOfMs 200
  | 1 => ticksOfMs 2000
  | 2 => ticksOfMs 200
  | 3 => ticksOfMs 50
  | 4 => ticksOfMs 800
  | _ => s.conv.periodNs / 8 + ticksOfMs 25

/-- An effect begins: how long it lasts, up to its bound, is a free value. -/
def effectBegins (r : Nat) (s : State) : State :=
  let v := s.free
  v.2.setRegion r { v.2.fwRegion r with waiting := false, effectTick := some s.time.tick, effectEnd := s.time.tick + v.1.toNat % (s.effectBound r + 1) }

/-- A firmware image takes effect (R460): what its region runs restarts. -/
def takeEffect (r : Nat) (s : State) : State :=
  let s := (effectBegins r s).raise Ev.UPD_ACTIVATED
  if r = 1 then mgmtRestart s
  else if r = 2 then laneEffect s
  else if r = 3 then refreshOutputs (sbxRestart s.sbox.table s)
  else if r = 5 then visitsRestart s
  else s

/-- LANE, SBOX, CHAN and CONV take effect in STANDBY and HALT; LOADER and MGMT in any state (R460, R461). -/
def State.effectNow (s : State) (r : Nat) : Bool := decide (r < 2) || decide (s.mode = .standby) || decide (s.mode = .halt)

/-- A waiting image takes effect and its session enters TRIAL (R461). -/
def waitingEffect (r : Nat) (s : State) : State :=
  let s := match s.sessionOfRegion r 5 with | some n => s.setUpdSession n { s.updSession n with state := 6 } | none => s
  takeEffect r s

/-- IMAGE_TAKES_EFFECT (R461). -/
def execImageTakesEffect (session : Fin 2) (s : State) : Host.Outcome State Fault Refusal :=
  let x := s.updSession session.val
  .next (if s.powered && (s.fwRegion x.region).waiting && s.effectNow x.region then waitingEffect x.region s else s)

/-- Every record of a format written in a new one (R320). -/
def newFormat (old new : Nat) (t : Tab CoefRec) : Tab CoefRec :=
  forEach ((t.filter (fun e => decide (e.1 / 20000 = old))).map (fun e => e.1 / 2 % 10000)).dedup (fun k t => match newestRec t old k with
    | some r => writeRec new k r t
    | none => t) t

/-- ACTIVATE (R459): the siding is checked again, new formats are written, and the image goes into the slot that is not active. -/
def activateCmd (n : Nat) (unreadable : Bool) (s : State) : State :=
  let x := s.updSession n
  if x.state ≠ 3 then cmdEnd 1 1 s
  else
    let newCoef := decide (x.region = 5) && decide (fmtIn x.siding 5 ≠ s.fmt 5)
    if s.recent10 s.mram.fwWrittenAt || (newCoef && s.recent10 s.mram.calWrittenAt) then cmdEnd 1 2 s
    else if s.checkSiding x unreadable ≠ 0 then
      cmdEnd 1 0 ((s.setUpdSession n { x with state := 0x19, opened := false }).raise Ev.UPD_VERIFY_FAILED)
    else
      let g := s.fwRegion x.region
      let slot := 1 - g.activeSlot
      let now := s.effectNow x.region
      let s := { s with conv := { s.conv with records := if newCoef then newFormat (s.fmt 5) (fmtIn x.siding 5) s.conv.records else s.conv.records } }
      let s := s.setRegion x.region { putSlot g slot x.siding with activeSlot := slot, prevUsable := true, trial := true, attempts := 0, waiting := !now, bad := false }
      let s := { s with mram := { s.mram with fwWrittenAt := some s.sbyNow,
                                              calWrittenAt := if newCoef then some s.sbyNow else s.mram.calWrittenAt } }
      let s := s.setUpdSession n { x with state := if now then 6 else 5 }
      cmdEnd 1 0 (if now then takeEffect x.region s else s)

/-- CONFIRM (R462). -/
def confirmCmd (n : Nat) (s : State) : State :=
  let x := s.updSession n
  if x.state ≠ 6 then cmdEnd 2 1 s
  else
    let erase := decide (x.region = 5) && decide (1 < s.coefFormats.length)
    if s.recent10 s.mram.fwWrittenAt || (erase && s.recent10 s.mram.calWrittenAt) then cmdEnd 2 2 s
    else
      let g := s.fwRegion x.region
      let rb := match activeFw g with | some f => f.rollback | none => g.rollbackMin
      let keep := match activeFw g, prevFw g with | some f, some p => decide (p.formats = f.formats) && decide (rb ≤ p.rollback) | _, _ => false
      let s := s.setRegion x.region { g with trial := false, rollbackMin := rb, prevUsable := keep }
      let s := { s with mram := { s.mram with fwWrittenAt := some s.sbyNow,
                                              calWrittenAt := if erase then some s.sbyNow else s.mram.calWrittenAt }
                        conv := { s.conv with records := if erase then s.conv.records.filter (fun e => decide (e.1 / 20000 = fmtIn (activeFw g) 5)) else s.conv.records } }
      cmdEnd 2 0 ((s.setUpdSession n { x with state := 7, opened := false }).raise Ev.UPD_CONFIRMED)

/-- The record of a region falls back (R463): slots exchanged, TRIAL and PREV_USABLE 0, and the previous image takes effect. -/
def fallBack (r : Nat) (s : State) : State :=
  let g := s.fwRegion r
  let now := s.effectNow r
  let s := s.setRegion r { g with activeSlot := 1 - g.activeSlot, trial := false, prevUsable := false, waiting := !now }
  let s := match s.sessionOfRegion r 6 with | some n => s.setUpdSession n { s.updSession n with state := 8, opened := false } | none => s
  if now then takeEffect r s else s

/-- FALLBACK (R463). -/
def fallbackCmd (n : Nat) (s : State) : State :=
  let x := s.updSession n
  if x.state ≠ 6 then cmdEnd 3 1 s else cmdEnd 3 0 ((fallBack x.region s).raise Ev.UPD_FALLBACK)

/-- ABORT (R458). -/
def abortCmd (n : Nat) (s : State) : State :=
  let x := s.updSession n
  if x.state = 1 ∨ x.state = 2 ∨ x.state = 3 then cmdEnd 4 0 (s.setUpdSession n { x with state := 9, opened := false }) else cmdEnd 4 1 s

/-- ACTIVATE through UPD_CMD (R459); unreadable: the second check of the siding met an uncorrectable word (R192). -/
def execActivate (origin : Origin) (session : Fin 2) (unreadable : Bool) (s : State) : Host.Outcome State Fault Refusal :=
  .next (updBy origin (updOrigin s origin) (activateCmd session.val unreadable) s)

def execConfirm (origin : Origin) (session : Fin 2) (s : State) : Host.Outcome State Fault Refusal :=
  .next (updBy origin (updOrigin s origin) (confirmCmd session.val) s)

def execFallback (origin : Origin) (session : Fin 2) (s : State) : Host.Outcome State Fault Refusal :=
  .next (updBy origin (updOrigin s origin) (fallbackCmd session.val) s)

def execUpdateAbort (origin : Origin) (session : Fin 2) (s : State) : Host.Outcome State Fault Refusal :=
  .next (updBy origin (updOrigin s origin) (abortCmd session.val) s)

/-- MGMT_WATCHDOG_RESTART (R445); a second restart within 600 s of a LOADER or MGMT trial taking effect falls back (R463). -/
def execMgmtWatchdogRestart (s : State) : Host.Outcome State Fault Refusal :=
  .next (if s.powered then
      let s := mgmtRestart s
      let due (r : Nat) (s : State) : Bool :=
        let g := s.fwRegion r
        match g.effectTick with
        | some e => g.trial && decide (2 ≤ (s.mpu.mgmtRestarts.filter (fun t => decide (e < t) && decide (t < e + ticksOfMs 600000))).length)
        | none => false
      let s := if due 0 s then (fallBack 0 s).raise Ev.UPD_FALLBACK_AUTO else s
      if due 1 s then (fallBack 1 s).raise Ev.UPD_FALLBACK_AUTO else s
    else s)

end Sys2Proof.Machine
end

