-- ==== Sys2Proof/Machine/RegWrite.lean ====
section
/-! DEFINITION. Register accesses (R9 to R12, R409 to R423): what a write of each writable register does, buffered writes, sequence-clear registers,
multi-word reads, and the commands of the register interface. -/

namespace Sys2Proof.Machine

/-! Multi-word values (R420 to R422). -/

/-- Address of a block's MULTIWORD_MODE bit (R422); none for an address range without a block. -/
def modeAddr (n : Nat) : Option Nat := if n = 26 then some 0x1A001C else if n = 7 ∨ 26 < n then none else some (0x10000 * n + 4)

/-- Block number of an address: the signal box spans two ranges (R428). -/
def blockNum (addr : Nat) : Nat := blockBase addr / 0x10000

/-- Set MULTIWORD_MODE of a block; a change empties every shadow of the block (R421). -/
def setMultiword (n : Nat) (on : Bool) (s : State) : State :=
  match modeAddr n with
  | none => s
  | some a =>
    let f : Fld := ⟨a, 0, 1⟩
    if s.get f = b2n on then s
    else { s.put f (b2n on) with shadows := s.shadows.filter (fun e => decide (blockNum e.2.1 ≠ n)) }

/-- Low words of the multi-word values; the high word follows at the next address (R420). -/
def lowWord (a : Nat) : Bool :=
  decide (a ∈ [0x10, 0x1A0020, 0x4000C, 0x40014, 0x50018, 0x110014, 0x11001C, 0x10010, 0x10018, 0x10040, 0x140018, 0x150018, 0x160010, 0x170060, 0x170068])
    || (regIndex a 0x2010C 0x40 8).isSome || (regIndex a 0x40100 0x10 8).isSome
    || (decide (0x161000 ≤ a) && decide (a < 0x161000 + 0x400 * 36) && decide (0x100 ≤ a % 0x400) && decide (a % 0x400 < 0x300) && decide (a % 0x10 = 0)
      && decide ((a - 0x161000) % 0x400 = a % 0x400))

/-- A read of an aligned word by a reader: in mode 1 a low word latches its high word into the reader's shadow, and the next read of that high word
takes the shadow and empties it (R420, R421). -/
def readReg (o : Origin) (addr : Nat) (s : State) : Word × State :=
  let mode := match modeAddr (blockNum addr) with | some a => decide (s.get ⟨a, 0, 1⟩ = 1) | none => false
  if lowWord addr && mode then
    let others := s.shadows.filter (fun e => !(decide (e.1 = o) && decide (blockNum e.2.1 = blockNum addr)))
    (s.readWord addr, { s with shadows := others ++ [(o, addr + 4, s.readWord (addr + 4))] })
  else
    match s.shadows.find? (fun e => decide (e.1 = o) && decide (e.2.1 = addr)) with
    | some e => (e.2.2, { s with shadows := s.shadows.filter (fun e => !(decide (e.1 = o) && decide (e.2.1 = addr))) })
    | none => (s.readWord addr, s)

/-- A read with the check of R10: a refused read returns 0. -/
def readBy (o : Origin) (addr : Nat) (s : State) : Word × State := if shapeOk addr then readReg o addr s else (0#32, refuseShape o addr false s)

/-! Writes of single registers. -/

/-- Hold a buffered write until the block's boundary (R414). -/
def hold (addr : Nat) (v : Word) (s : State) : State := { s with heldWrites := Tab.set s.heldWrites addr v }

/-- CMP_INJECT (R185): the injection replaces any other. -/
def injectWrite (lane copy : Nat) (repeated arm : Bool) (s : State) : State :=
  let s := { s with lanes := (s.lanes.map (fun (e : Nat × Lane) => (e.1, { e.2 with inject := none }))).filter (fun e => decide (e.2 ≠ Lane.reset)) }
  if arm then s.setLane lane { s.lane lane with inject := some (copy, repeated) } else s

/-- The words of a fault record (R187). -/
def faultWords (f : FaultRec) : List Word :=
  let b (n : Nat) : List Byte := leBytes 1 n
  let body := b f.kind ++ b f.lane ++ b f.task ++ b f.outcome ++ leBytes 4 f.block ++ leBytes 8 f.cycle ++ leBytes 8 f.time.toNat ++ b f.diff ++ b f.spare ++ leBytes 2 f.ckpt
  leWords 7 body ++ [crc32c body]

/-- CMP_FAULT_SEL (R186): latch record index, 0 the newest; zeros if the ring holds none there. -/
def faultSelWrite (index : Nat) (s : State) : State :=
  let w : List Word := match s.mram.faultRing.reverse[index]? with | some f => faultWords f | none => List.replicate 8 0#32
  putWords (fun n => Reg.CMP_FAULT_Wn_WORD n) w (s.put Reg.CMP_FAULT_SEL_INDEX index)

/-- CLEAR_MAX (EXEC_TASK_CTRL). -/
def clearMaxWrite (i : Nat) (s : State) : State := s.put (Reg.EXEC_TASK_LOAD_MAX_PM i) (s.get (Reg.EXEC_TASK_LOAD_LAST_PM i))

/-- PWR_SBY_STATUS: the written SEQ clears the flags (R42, R49, R417). -/
def sbyClear (v : Word) (s : State) : State :=
  if v.toNat / 2 ^ 16 = s.standby.seq then { s with standby := { s.standby with unplugged := false, cellLow := false, countLost := false } } else s

/-- Event registers (R417): offset 0x0008 of each block, and PWR_EVENT. -/
def eventAddr (a : Nat) : Bool := (decide (a % 0x10000 = 8) && decide (a / 0x10000 < 26) && decide (a / 0x10000 ≠ 7)) || decide (a = 0x1A0004)

/-- A raw UPD_CMD write (R458). A start from TERMINUS meets the carrier as it was last read (assumption 20). -/
def updCmdWrite (v : Word) (s : State) : State :=
  let n := bitsOf v.toNat 0 1
  let cmd := bitsOf v.toNat 8 4
  if v.toNat / 2 ^ 31 = 0 then s
  else if cmd = 1 then activateCmd n false s
  else if cmd = 2 then confirmCmd n s
  else if cmd = 3 then fallbackCmd n s
  else if cmd = 4 then abortCmd n s
  else if cmd = 5 then anchorClearCmd s
  else if cmd = 6 then
    let c := s.carrier
    leaveTerminusCmd ⟨c.mod1Mv, c.mod2Mv, c.fld1Mv, c.fld2Mv, c.slotB, c.split, s.start.key, [], [], false⟩ s
  else s

/-- The region word a protection unit's address names: unit, set, region, word. -/
def regionAddr (a : Nat) : Option (Nat × Nat × Nat × Nat) :=
  let k := a - 0x161000
  let o := k % 0x400
  if 0x161000 ≤ a ∧ k / 0x400 < 36 ∧ 0x100 ≤ o ∧ o < 0x300 ∧ o % 0x10 < 0xC then some (k / 0x400, (o - 0x100) / 0x100, o % 0x100 / 0x10, o % 0x10 / 4) else none

/-- Which origins may make a write (R413); the role of a session counts for every register (R383). -/
def State.writeAllowed (s : State) (o : Origin) (a : Nat) (v : Word) : Bool :=
  let n := blockNum a
  if a = 0x30014 then isSvc o && serviceOk s o
  else if n = 6 then (if (regIndex a 0x62000 8 192).isSome || (regIndex a 0x63004 0x10 256).isSome || (regIndex a 0x63008 0x10 256).isSome
      || (regIndex a 0x70008 0x80 512).isSome || (regIndex a 0x7000C 0x80 512).isSome then isLane o else serviceOk s o)
  else if a ∈ [0x10010, 0x10014, 0x10018, 0x1001C, 0x10020, 0x10048] then timeOrigin s o
  else if a = 0x120004 then serviceOk s o && (isSvc o || decide (bitsOf v.toNat 1 1 = b2n s.net.testMode))
  else if n = 0x16 then
    isMgmt o && (match regionAddr a with
      | some r => decide (32 ≤ r.1)
      | none => match regIndex a 0x161004 0x400 36 with | some u => decide (32 ≤ u) | none => true)
  else if n = 0x17 then
    updOrigin s o && (decide (a ≠ 0x17000C) || decide (bitsOf v.toNat 8 4 ≠ 5) || isSvc o)
  else serviceOk s o

/-- Writes of the CTRL register of a block: MULTIWORD_MODE and the fields beside it (R409). -/
def ctrlWrite (n : Nat) (v : Word) (s : State) : State :=
  let b := v.toNat
  let bit (k : Nat) : Bool := decide (bitsOf b k 1 = 1)
  let s := setMultiword n (bit 0) s
  if n = 1 then s.put Reg.TIME_CTRL_SERVO_EN (bitsOf b 1 1)
  else if n = 2 then (if 50 ≤ bitsOf b 8 7 ∧ bitsOf b 8 7 ≤ 100 then hold 0x20004 v s else s)
  else if n = 3 then (if 4 ≤ bitsOf b 8 7 ∧ bitsOf b 8 7 ≤ 64 then hold 0x30004 v s else s)
  else if 8 ≤ n ∧ n ≤ 15 then (if bit 8 then locateWrite (n - 8) s else s)
  else if n = 16 then (if bit 8 then qpopWrite s else s)
  else if n = 18 then hold 0x120004 (v &&& 2#32) s
  else if n = 20 ∨ n = 21 then (if bit 8 then rxpopWrite (n - 20) s else s)
  else s

/-- Writes of the EXEC, CMP and SBX registers (R273, R274). -/
def laneRegWrite (a : Nat) (v : Word) (s : State) : State :=
  match regIndex a 0x20118 0x40 8, regIndex a 0x7000C 0x80 512 with
  | some i, _ => if v.getLsbD 0 then clearMaxWrite i s else s
  | none, some e =>
    let s := hold a (v &&& 1#32) s
    if v.getLsbD 1 then holdLatchReset e s else s
  | none, none =>
    if a = 0x30014 then injectWrite (bitsOf v.toNat 0 4) (bitsOf v.toNat 4 1) (v.getLsbD 5) (v.getLsbD 31) s
    else if a = 0x30020 then faultSelWrite (bitsOf v.toNat 0 6) s
    else if (regIndex a 0x62000 8 192).isSome || (regIndex a 0x63004 0x10 256).isSome || (regIndex a 0x63008 0x10 256).isSome || (regIndex a 0x70008 0x80 512).isSome then
      hold a v s
    else s

/-- Writes of the CNV registers. -/
def cnvWrite (a : Nat) (v : Word) (s : State) : State :=
  let b := v.toNat
  if a = 0x100030 then holdCal (bitsOf b 0 7) (bitsOf b 8 4) s
  else if a = 0x100038 then s.put Reg.CNV_CAL_ZERO_VAL_VZERO b
  else if a = 0x10003C then s.put Reg.CNV_CAL_SPAN_VAL_VSPAN b
  else if a = 0x100040 then (if v.getLsbD 31 then testReqWrite (bitsOf b 0 7) s else s)
  else s

/-- Writes of the TIME registers. -/
def timeWrite (a : Nat) (v : Word) (s : State) : State :=
  let b := v.toNat
  if a = 0x10010 then s.put Reg.TIME_INC_LO_INC_FRAC b
  else if a = 0x10014 then incCommit (bitsOf b 0 8) s
  else if a = 0x10018 then s.put Reg.TIME_STEP_LO_STEP_LO b
  else if a = 0x1001C then s.put Reg.TIME_STEP_HI_STEP_HI b
  else if a = 0x10020 then (if v.getLsbD 31 then stepWrite (bitsOf b 0 16) s else s)
  else if a = 0x10024 then (if v.getLsbD 0 then latchWrite s else s)
  else if a = 0x10048 then servoDeclare (bitsOf b 0 2) (bitsOf b 2 2) (bitsOf b 4 3) (bitsOf b 16 16) s
  else s

/-- Writes of the ACQ registers. -/
def acqWrite (o : Origin) (a : Nat) (v : Word) (s : State) : State :=
  if a = 0x110024 then (if v.getLsbD 31 then acqTrigWrite o (bitsOf v.toNat 0 16) s else s)
  else match regIndex a 0x110110 0x20 16, regIndex a 0x111008 0x10 64, regIndex a 0x11100C 0x10 64 with
    | some d, _, _ =>
      let s := if v.getLsbD 1 then closeWrite d s else s
      if (s.defCfg d).isSome then acqApplyHeld (hold a (v &&& 1#32) s) else s
    | _, some t, _ => if (findKey (s.cfgList (·.triggers)) t).isSome then acqApplyHeld (hold a v s) else s
    | _, _, some t => if (findKey (s.cfgList (·.triggers)) t).isSome && decide (v.toNat < 2 ^ 31) then acqApplyHeld (hold a v s) else s
    | _, _, _ => s

/-- Writes of the MPU, UPD, FP, MIL and PWR registers. -/
def systemWrite (a : Nat) (v : Word) (s : State) : State :=
  let b := v.toNat
  if a = 0x160018 then (if v.getLsbD 31 then releaseWrite s else s)
  else if a = 0x17000C then updCmdWrite v s
  else if a = 0x170220 then (if v.getLsbD 31 then attestWrite s else s)
  else if a = 0x18000C then hold a v s
  else if a = 0x180018 then (if v.getLsbD 0 then labelRequest s else s)
  else if a = 0x190018 then milSelWrite (bitsOf b 0 8) (v.getLsbD 8) s
  else if a = 0x1A0028 then sbyClear v s
  else match regionAddr a, regIndex a 0x161004 0x400 36, regIndex a 0x170100 4 53, regIndex a 0x170200 4 8 with
    | some r, _, _, _ => regionWrite r.1 r.2.1 r.2.2.1 r.2.2.2 b s
    | _, some u, _, _ =>
      let s := if v.getLsbD 0 then armWrite u s else s
      if v.getLsbD 1 then swapWrite u s else s
    | _, _, some n, _ => s.put (Reg.UPD_TOKEN_Wn_WORD n) b
    | _, _, _, some n => s.put (Reg.UPD_ATT_NONCE_Wn_WORD n) b
    | _, _, _, _ => s

/-- What a write of an aligned word does once its origin is accepted; an address with no writable field ignores it (R11). -/
def regEffect (o : Origin) (a : Nat) (v : Word) (s : State) : State :=
  let n := blockNum a
  if eventAddr a then s.clearEvents a v
  else if modeAddr n = some a then ctrlWrite n v s
  else if n = 2 ∨ n = 3 ∨ n = 6 then laneRegWrite a v s
  else if n = 1 then timeWrite a v s
  else if n = 16 then cnvWrite a v s
  else if n = 17 then acqWrite o a v s
  else systemWrite a v s

/-- A register write (R9, R10, R409, R413). In TERMINUS only ID and UPD respond (R467). -/
def writeBy (o : Origin) (a : Nat) (v : Word) (s : State) : State :=
  if !shapeOk a then refuseShape o a true s
  else if s.mode = .terminus ∧ blockNum a ≠ 0 ∧ blockNum a ≠ 0x17 then s
  else if s.writeAllowed o a v then regEffect o a v s
  else refuseOrigin o a s

/-- Held EXEC and CMP writes take effect at a freeze of T0 (R415). -/
def execApplyHeld (s : State) : State :=
  let mine := s.heldWrites.filter (fun e => decide (e.1 = 0x20004) || decide (e.1 = 0x30004))
  let s := { s with heldWrites := s.heldWrites.filter (fun e => !(decide (e.1 = 0x20004) || decide (e.1 = 0x30004))) }
  forEach mine (fun e s => if e.1 = 0x20004 then s.put Reg.EXEC_CTRL_LOAD_ALARM_PCT (bitsOf e.2.toNat 8 7) else s.put Reg.CMP_CTRL_FLAKY_LIMIT (bitsOf e.2.toNat 8 7)) s

/-! Commands. -/

/-- REGISTER_WRITE (R409 to R413). -/
def execRegisterWrite (origin : Origin) (addr : Nat) (value : Word) (s : State) : Host.Outcome State Fault Refusal :=
  .next (if s.powered then writeBy origin addr value s else s)

/-- MISALIGNED_ACCESS (R10): an access outside R9 is refused. -/
def execMisalignedAccess (origin : Origin) (span : AccessSpan) (write : Bool) (s : State) : Host.Outcome State Fault Refusal :=
  .next (if s.powered && (!shapeOk span.addr || decide (span.width ≠ 4)) then refuseShape origin span.addr write s else s)

/-- EVENT_REGISTER_CLEAR (R418). -/
def execEventRegisterClear (origin : Origin) (addr : Nat) (value : Word) (s : State) : Host.Outcome State Fault Refusal :=
  .next (if s.powered && (eventAddr addr || decide (addr = 0x1A0028)) then writeBy origin addr value s else s)

/-- MULTIWORD_MODE (R421, R422). -/
def execMultiwordMode (origin : Origin) (block : Fin 27) (on : Bool) (s : State) : Host.Outcome State Fault Refusal :=
  .next (if s.powered then
      match modeAddr block.val with
      | some a => byOrigin (s.writeAllowed origin a 0#32 || (decide (block.val = 18) && serviceOk s origin)) origin a (setMultiword block.val on) s
      | none => s
    else s)

/-- MULTIWORD_LOW_READ (R420). -/
def execMultiwordLowRead (origin : Origin) (addr : Nat) (s : State) : Host.Outcome State Fault Refusal :=
  .next (if s.powered then (readBy origin addr s).2 else s)

/-- CLEAR_MAX (EXEC_TASK_CTRL). -/
def execClearMax (origin : Origin) (task : Fin 8) (s : State) : Host.Outcome State Fault Refusal :=
  .next (if s.powered then byOrigin (serviceOk s origin) origin (0x20118 + 0x40 * task.val) (clearMaxWrite task.val) s else s)

/-- CMP_INJECT (R185). -/
def execCmpInject (origin : Origin) (lane : Fin 16) (copy : Fin 2) (repeated arm : Bool) (s : State) : Host.Outcome State Fault Refusal :=
  .next (if s.powered then byOrigin (isSvc origin && serviceOk s origin) origin 0x30014 (injectWrite lane.val copy.val repeated arm) s else s)

/-- FAULT_SELECT (R186). -/
def execFaultSelect (origin : Origin) (index : Fin 64) (s : State) : Host.Outcome State Fault Refusal :=
  .next (if s.powered then byOrigin (serviceOk s origin) origin 0x30020 (faultSelWrite index.val) s else s)

end Sys2Proof.Machine
end

