-- ==== Sys2Proof/Machine/Exchange.lean ====
section
/-! DEFINITION. Program exchange (R145 to R162): the checks of a request, the announcement and its switch freezes, the switch of a task, the end of
an exchange and its report, abandoning, and the signal box exchange. -/

namespace Sys2Proof.Machine

/-! Checks of a request (R147). -/

/-- The structure of an image's signal box section: everything but arming, delays, and comparator thresholds and hysteresis. -/
def boxStructure (i : Image) : BoxCfg :=
  ⟨i.equations.map (fun (e : Nat × EqCfg) => (e.1, { e.2 with armed := false, pickupUs := 0, dropoutMs := 0 })), i.trips,
   i.acmps.map (fun (e : Nat × AcmpCfg) => (e.1, { e.2 with threshold := 0, hyst := 0 })),
   i.svcs.map (fun (e : Nat × SvcCfg) => (e.1, { e.2 with threshold := 0, hyst := 0 })), i.gbits⟩

/-- A declared tag changes its type, or its writer moves from one task to another (R145). -/
def typeOrWriterChanges (old new : Image) : Bool :=
  new.tags.any (fun e => match findKey old.tags e.1 with
    | some d => decide (d.type ≠ e.2.type) || (match d.writer, e.2.writer with
      | .task a, .task b => decide (a ≠ b)
      | _, _ => false)
    | none => false)

/-- An object of the new image matched with one of the old by path and signature (R153). -/
def matched (old : Image) (e : Nat × ObjDecl) : Bool := match findKey old.objects e.1 with | some d => decide (d.sig = e.2.sig) | none => false

/-- Bytes of state a task carries: 8 for each word of an object's declared state (assumption 22). -/
def carriedBytes (old new : Image) (t : Nat) : Nat :=
  (new.objects.filter (fun e => decide (e.2.task = t) && matched old e)).foldl (fun n e => n + 8 * e.2.initial.length) 0

/-- BUDGET (R152): 20 µs and 1 µs per 6,400 bytes carried, with the admitted share, exceed the budget share of the new period. -/
def budgetFails (old new : Image) : Bool :=
  new.tasks.any (fun e =>
    let p := 250 * e.2.periodQ
    decide (10 * e.2.budgetPct * p * 6400 < (20 * 6400 + carriedBytes old new e.1) * 1000 + e.2.admittedPm * p * 6400))

/-- A unit would start at an epoch of 0xF000_0000 or more (R156). -/
def State.epochExhausted (s : State) (new : Image) : Bool :=
  new.units.any (fun e => (Tab.get? s.ctl.units e.1).isNone && decide (0xF0000000 ≤ startEpoch s.mram.retiredIds s.mram.floor e.1))

/-- An exchange is loaded or in progress, a signal box exchange until both boxes run the new equations (R162), or a resynchronisation runs. -/
def State.exchangeBusy (s : State) : Bool :=
  s.exch.waybill.isSome || s.exch.image.isSome || s.pair.resyncSending || s.pair.sbxRestartDue || (s.exchangeWaybill s.digest).isSome

/-- The checks that both modules make of an image offered for exchange, first of the table's order; 0: none fails (R147, R148 step 2). -/
def State.exchangeCheck (s : State) (old n : Image) (restructure : Bool) : Nat :=
  if n.revision ≤ old.revision then 0x25
  else if !(s.imageOk old.projectId old.pairId n && s.ownerOk n) then 0x26
  else if !restructure && decide (boxStructure old ≠ boxStructure n) then 0x27
  else if typeOrWriterChanges old n then 0x28
  else if budgetFails old n then 0x29
  else if s.healthy.length < (imageLanes n).length then 0x2A
  else if s.epochExhausted n then 0x2B
  else 0

/-- The code that refuses an exchange request at submission, first of the table's order; 0: none (R147). Where MRAM holds no pending image, or one with
another digest than the request names, the table has no row: EXCHANGE_INVALID (assumption 108). -/
def State.exchangeRefusal (s : State) (digest : Nat) (unpartneredOk restructure : Bool) : Nat :=
  if s.exchangeBusy then 0x24
  else match s.mram.pending, s.img with
    | some n, some old =>
      if n.digest ≠ digest then 0x26
      else if s.exchangeCheck old n restructure ≠ 0 then s.exchangeCheck old n restructure
      else if !unpartneredOk && !(s.pair.linkUp && decide (s.pair.partnerMode = some .standby)) then 0x2C
      else 0
    | _, _ => 0x26

/-! Waybill and end of an exchange. -/

/-- The exchange waybill of the exchange in hand: the one delivered here, or the one the ring holds for its digest. -/
def State.exchangeDue (s : State) : Option Waybill :=
  match s.exch.waybill with
  | some w => some w
  | none => match s.exch.image with | some n => s.exchangeWaybill n.digest | none => none

/-- CLEAR_OVERLAY and SBX_RESTRUCTURE of the exchange in hand, on either module. -/
def State.dueFlags (s : State) : Bool × Bool := match s.exchangeDue with | some w => exchangeFlags w | none => (s.exch.clearOverlay, s.exch.restructure)

/-- Shadow bank and pending image are cleared (R160). -/
def clearExchange (s : State) : State :=
  { s with exch := Exchange.reset, mram := { s.mram with progress := .none, announcement := none, pending := none } }

/-- An exchange ends before its switch: ABANDONED, reported also by a module that took control meanwhile (R160). -/
def abandonExchange (s : State) : State :=
  let s' := clearExchange s
  match s.exchangeDue with
  | some w => closeWaybill w 0x2E 0 s'
  | none => s'

/-- Committed: from here the exchange completes. -/
def State.exchangeCommitted (s : State) : Bool := decide (s.exch.progress = .committed)

/-- Commitment (R148 step 5, R149): the announcement is recorded; a signal box exchange is then due for the box's restart (R162). -/
def commitExchange (a : Announcement) (s : State) : State :=
  { s with exch := { s.exch with progress := .committed, announcement := some a }, mram := { s.mram with progress := .committed, announcement := some a },
           pair := { s.pair with sbxRestartDue := s.pair.sbxRestartDue || s.dueFlags.2 } }

/-- Before commitment, the partner module left STANDBY or the coupling is down (R160): ABANDONED, or the exchange goes on alone with UNPARTNERED_OK. -/
def commitAlone (s : State) : State :=
  match s.exch.announcement with
  | some a => let s := commitExchange a s
    { s with exch := { s.exch with sent := false, alone := true } }
  | none => s

/-! Announcement (R150). -/

/-- Freezes of a task at quanta below x. -/
def freezesBelow (c : TaskCfg) (x : Nat) : Nat := if x ≤ c.phaseQ then 0 else (x - c.phaseQ - 1) / c.periodQ + 1

/-- The last freeze of a task below quantum x. -/
def lastFreezeBelow (c : TaskCfg) (x : Nat) : Option Nat :=
  if freezesBelow c x = 0 then none else some (c.phaseQ + c.periodQ * (freezesBelow c x - 1))

/-- The first quantum at or after the budget instant of a task's last old cycle. -/
def qDone (old : Image) (qs j : Nat) : Nat :=
  match findKey old.tasks j with
  | none => 0
  | some c => match lastFreezeBelow c qs with
    | some q => q + (c.periodQ * c.budgetPct + 99) / 100
    | none => 0

/-- The smallest freeze quantum of a period and phase at or after e. -/
def firstTick (period phase e : Nat) : Nat := if e ≤ phase then phase else phase + (e - phase + period - 1) / period * period

/-- Number of a task's last cycle before qs. -/
def State.lastOldCycle (s : State) (old : Image) (qs j : Nat) : Nat :=
  match findKey old.tasks j with
  | none => 0
  | some c =>
    let g := s.gridQuantum
    let from_ := if (s.task j).frozenQ = g + 1 then g + 1 else g
    (s.task j).cycle + (freezesBelow c qs - freezesBelow c from_)

/-- Lanes a task uses under the old timetable, a migrated spare included. -/
def State.oldLanes (s : State) (old : Image) (j : Nat) : List Nat :=
  s.taskLanes j ++ (match findKey old.tasks j with | some c => c.lanes | none => [])

/-- Switch quantum and switch cycle number of each task of the new timetable (R150). -/
def State.announcementFor (s : State) (old new : Image) (qs : Nat) : Announcement :=
  ⟨qs, new.tasks.map (fun e =>
    let own := max qs (qDone old qs e.1)
    let earliest := (old.tasks.filter (fun o => (s.oldLanes old o.1).any (fun n => decide (n ∈ e.2.lanes)))).foldl (fun m o => max m (qDone old qs o.1)) own
    (e.1, firstTick e.2.periodQ e.2.phaseQ earliest, s.lastOldCycle old qs e.1 + 1))⟩

/-- Step 4 of R148: Qs lies at least 400 quanta after this step; how much later is the module's own choice, a free value (assumption 4). -/
def announceExchange (s : State) : State :=
  match s.exch.image, s.img with
  | some n, some old =>
    let f := s.free
    let a := f.2.announcementFor old n (f.2.gridQuantum + 401 + f.1.toNat)
    { f.2 with exch := { f.2.exch with announcement := some a } }
  | _, _ => s

/-- The carry-over map as a list: for each object of the new image its path, signatures and whether it is carried. -/
def mapContent (old new : Image) : List Nat :=
  new.objects.flatMap (fun e => [e.1, e.2.sig.toNat, match findKey old.objects e.1 with | some d => d.sig.toNat + 1 | none => 0])
    ++ (old.objects.filter (fun e => (findKey new.objects e.1).isNone)).flatMap (fun e => [e.1, e.2.sig.toNat])

/-- Program loaded into the shadow bank, map built (R148 steps 1 and 2). -/
def loadShadow (n : Image) (s : State) : State :=
  let crc := match s.img with | some old => Config.layoutCrc (mapContent old n) | none => 0#32
  { s with exch := { s.exch with progress := .loaded, image := some n, shadow := some n, mapCrc := crc }
           mram := { s.mram with progress := .loaded, pending := some n } }

/-- A delivered exchange request (R148): the pending image is taken up. The completion status to write at once; none: the waybill stays open. -/
def beginExchange (w : Waybill) (s : State) : Option Nat × State :=
  match w.work with
  | .exchangeRequest d unp clr restr =>
    if s.exchangeBusy then (some 0x24, s)
    else match s.mram.pending with
      | some n =>
        if n.digest = d then
          (none, { s with exch := { Exchange.reset with image := some n, waybill := some w, unpartneredOk := unp, clearOverlay := clr, restructure := restr } })
        else (some 0x26, s)
      | none => (some 0x26, s)
  | _ => (none, s)

/-! The switch of a task (R151 to R157). -/

/-- Each task runs under the image it has switched to; tags of both images are declared until the last switch (R151). -/
def mergeImage (old new : Image) (sw : Nat → Bool) : Image :=
  { old with
    tasks := (List.range 8).filterMap (fun t => if sw t then (findKey new.tasks t).map (fun c => (t, c)) else (findKey old.tasks t).map (fun c => (t, c)))
    constants := (new.constants.filter (fun e => sw e.2.task)) ++ (old.constants.filter (fun e => !sw e.2.task))
    objects := (new.objects.filter (fun e => sw e.2.task)) ++ (old.objects.filter (fun e => !sw e.2.task))
    tags := (old.tags.map (fun (e : Nat × TagDecl) => match findKey new.tags e.1 with
        | some d => if sw (ownerTask d) then (e.1, { d with retentive := e.2.retentive, writable := e.2.writable }) else e
        | none => e))
      ++ new.tags.filter (fun e => (findKey old.tags e.1).isNone) }

/-- The state as deliveries to task i see it: a task that has switched is checked under the new image (R157). -/
def State.viewFor (s : State) (i : Nat) : State :=
  match s.exch.image with
  | some n => if (s.task i).switched then { s with start := { s.start with running := some n } } else s
  | none => s

/-- Tags and units that the new image adds exist from Qs (R151, R156). -/
def addNew (old new : Image) (s : State) : State :=
  let tags := (new.tags.filter (fun e => (findKey old.tags e.1).isNone)).foldl (fun t e => Tab.set t e.1 (initialTag e.2)) s.ctl.tags
  let units := (carryUnits new s.mram.retiredIds s.mram.floor s.ctl.units).foldl (fun t e => if (Tab.get? t e.1).isSome then t else Tab.set t e.1 e.2) s.ctl.units
  { s with ctl := { s.ctl with tags := tags, units := units } }

/-- An open exchange notes work it closed (R159). -/
def noteClosed (wseq status : Nat) (s : State) : State := { s with exch := { s.exch with closed := s.exch.closed ++ [(wseq, status)] } }

/-- A program message returns to its sender's task (R113): as a return entry when task i's cycle closes. -/
def returnMessage (i : Nat) (m : UnitMsg) (code epoch : Nat) (s : State) : State :=
  s.setTask i { s.task i with retOps := (s.task i).retOps ++ [(m.senderTask, ⟨0, code, epoch, m.unit⟩)] }

/-- Items for tasks that the exchange removes close with NO_HANDLER (R157): waybills at once, program messages as the next cycle to open returns them. -/
def closeRemoved (old new : Image) (s : State) : State :=
  forEach ((old.tasks.filter (fun e => (findKey new.tasks e.1).isNone)).map (·.1)) (fun r s =>
    let s := forEach ((s.pendingFor r).filter (fun w => decide (w.work ≠ .forceReleaseAll))) (fun w s => noteClosed w.waybillSeq 3 (closeWaybill w 3 0 s)) s
    let s := { s with exch := { s.exch with gone := s.exch.gone ++ (s.task r).inbox.map (fun m => (r, m)) } }
    s.setTask r { s.task r with inbox := [] }) s

/-- Qs (R151, R157): what the new image adds exists, and what waits for a task it removes is closed by the active module. -/
def beginMixed (old new : Image) (s : State) : State :=
  let s := addNew old new { s with exch := { s.exch with mixed := true } }
  if s.mode = .active then closeRemoved old new s else s

/-- The quantum grid has reached Qs of a committed exchange. -/
def exchangeQuantum (s : State) : State :=
  match s.exch.announcement, s.exch.image, s.mram.running with
  | some a, some new, some old =>
    if s.exchangeCommitted && !s.exch.mixed && decide (a.qs ≤ s.gridQuantum) && (decide (s.mode = .active) || decide (s.mode = .standby)) then beginMixed old new s
    else s
  | _, _, _ => s

/-- What happens with no command waiting: one tick (assumption 2), and at Qs the beginning of the mixed interval. -/
def idleTick (s : State) : State := exchangeQuantum (tick s)

/-- The cycle of task i that opens returns the messages closed at Qs. -/
def takeGone (i : Nat) (s : State) : State :=
  let l := s.exch.gone
  let s := { s with exch := { s.exch with gone := [] } }
  forEach l (fun g s =>
    let s := returnMessage i g.2 3 0 s
    s.setTask i { s.task i with goneOps := (s.task i).goneOps ++ [g] }) s

/-- Lanes move to the task: its new lanes, or the lowest spare for one out of service; lanes it leaves become free. -/
def moveLanes (i : Nat) (lanes : List Nat) (s : State) : State :=
  let s := { s with lanes := (s.lanes.map (fun (e : Nat × Lane) => (e.1, if e.2.task = some i then { e.2 with task := none, asLane := none } else e.2))).filter (fun e => decide (e.2 ≠ Lane.reset)) }
  let s := forEach lanes (fun n s => if s.laneOk n then s.setLane n { s.lane n with task := some i, asLane := none } else s) s
  forEach lanes (fun n s => replaceLane (n, i) s) s

/-- The objects of a task as its carried state (R154). -/
def carryContent (new : Image) (i : Nat) (objects : Tab ObjState) : List Nat :=
  (new.objects.filter (fun e => decide (e.2.task = i))).flatMap (fun e => match Tab.get? objects e.1 with
    | some o => [e.1, o.sig.toNat, b2n o.running, o.acc, o.preset, b2n o.done, b2n o.out, o.words.length] ++ o.words.map BitVec.toNat
    | none => [])

/-- The switch of task i as state (R154): objects carried, overlay presets taken, those dropped discarded, the task under its new programs. -/
def switchObjects (i : Nat) (old new : Image) (switchQ qs : Nat) (s : State) : State :=
  let lastQ := match findKey old.tasks i with | some c => (lastFreezeBelow c qs).getD switchQ | none => switchQ
  let overlay := carryOverlay (constType old) new s.ctl.overlay
  let dropped (p : Nat) : Bool := (match findKey old.objects p with | some d => decide (d.task = i) | none => false) && (findKey new.objects p).isNone
  let objects := (carryObjects new overlay ((switchQ - lastQ) * 250000) (fun t => decide (t = i)) s.ctl.objects).filter (fun e => !dropped e.1)
  let expired := (new.objects.filter (fun e => decide (e.2.task = i) && matched old e)).filterMap (fun e =>
    match Tab.get? objects e.1 with | some o => if o.done then some (e.1, o.acc, o.preset) else none | none => none)
  let sw (t : Nat) : Bool := decide (t = i) || (s.task t).switched
  { s with ctl := { s.ctl with objects := objects }, exch := { s.exch with expired := s.exch.expired ++ expired },
           start := { s.start with running := some (mergeImage old new sw) } }.setTask i
    { s.task i with switched := true, carryCrc := some (Config.layoutCrc (carryContent new i objects)) }

/-- Every task of the new timetable runs its new programs. -/
def State.allSwitched (s : State) : Bool :=
  s.exchangeCommitted && (match s.exch.image with | some n => n.tasks.all (fun e => (s.task e.1).switched) | none => false)

/-! The last switch and the end (R148 step 7, R151, R155, R156, R158, R159). -/

/-- What a channel's mode and electrical settings are. -/
def electrical (c : ChanCfg) : ChanCfg :=
  { c with debounce := 0, liveZero := false, safeKind := .deEnergise, safeOn := false, safeUa := 0, inputTag := none, commandTag := none, readbackTag := none,
           readbackMaTag := none, characteristic := .none, tagSourceFast := false, fastQueue := false, calSubstitute := none }

/-- A channel without a mode. -/
def unusedChan : ChanCfg :=
  { mode := .unused, type3 := false, pulsed := false, interval := 0, debounce := 0, limit := 0, bipolar := false, loopPower := false, liveZero := false,
    safeKind := .deEnergise, safeOn := false, safeUa := 0, inputTag := none, commandTag := none, readbackTag := none, readbackMaTag := none,
    characteristic := .none, tagSourceFast := false, fastQueue := false, calSubstitute := none }

/-- A channel whose settings change keeps its old ones until its next period boundary (R277). -/
def changeChannels (old new : Image) (s : State) : State :=
  forEach ((List.range 96).filter (fun n => decide ((findKey old.channels n).map electrical ≠ (findKey new.channels n).map electrical))) (fun n s =>
    s.setChan n { s.chan n with changeFrom := some (((s.chan n).changeFrom).getD ((findKey old.channels n).getD unusedChan)) }) s

/-- Record definitions that an exchange changes, adds or removes (R335). -/
def changeDefs (old new : Image) (s : State) : State :=
  forEach ((List.range 16).filter (fun d => decide (findKey old.defs d ≠ findKey new.defs d))) changeDef s

/-- Presets of objects whose overlay entry goes return to the image (R143, R144). -/
def imagePresets (new : Image) (overlay : Tab DWord) (objects : Tab ObjState) : Tab ObjState :=
  new.objects.foldl (fun t e => match e.2.presetConst, Tab.get? t e.1 with
    | some _, some o => if o.preset = presetOf new overlay e.2 then t else Tab.set t e.1 (takePreset e.2 (presetOf new overlay e.2) o)
    | _, _ => t) objects

/-- The tasks of an image, and those that it removes while their last old cycle has not closed (R150). -/
def State.tasksOf (s : State) (old new : Image) : List (Nat × TaskCfg) :=
  new.tasks ++ old.tasks.filter (fun e => (findKey new.tasks e.1).isNone && decide ((s.task e.1).phase ≠ .idle))

/-- Control state and configuration at the last switch (R151, R155, R156, R158): tags, forces, overlay, units and lanes as the new image declares them. -/
def takeNewImage (old new : Image) (s : State) : State :=
  let r := retireUnits new s.ctl.units s.mram.retiredIds s.mram.floor
  let forces := carryForces new s.ctl.forces
  let overlay := if s.dueFlags.1 then [] else carryOverlay (constType old) new s.ctl.overlay
  let objects := imagePresets new overlay (s.ctl.objects.filter (fun e => (findKey new.objects e.1).isSome))
  let ctl := { s.ctl with tags := markOrphans forces (carryTags new (keepForced forces s.ctl)), forces := forces, overlay := overlay, objects := objects,
                          units := s.ctl.units.filter (fun e => decide (e.1 = 0) || (findKey new.units e.1).isSome) }
  let gone (l : Lane) : Bool := l.task.any (fun t => (findKey (s.tasksOf old new) t).isNone)
  { s with ctl := ctl, start := { s.start with running := some { new with tasks := s.tasksOf old new } },
           lanes := (s.lanes.map (fun (e : Nat × Lane) => (e.1, if gone e.2 then { e.2 with task := none, asLane := none } else e.2))).filter (fun e => decide (e.2 ≠ Lane.reset)),
           mram := { s.mram with retiredIds := r.1, floor := r.2 } }

/-- The last task has switched: the report is drawn up over what the change meets, and then made. The box of a signal box exchange keeps its table until it
restarts (R162). -/
def lastSwitch (old new : Image) (a : Announcement) (s : State) : State :=
  let s := if s.mode = .active then closeRemoved old new s else s
  let rep := exchangeReport old new a s.ctl s.mram.retiredIds s.mram.floor s.dueFlags.1 (!s.exch.alone) s.exch.expired s.exch.closed s.exch.lastSwitch
  let restructure := s.dueFlags.2
  let s := changeDefs old new (changeChannels old new (takeNewImage old new { s with exch := { s.exch with report := some rep } }))
  if restructure then s else { s with sbox := { s.sbox with table := boxOf new } }

/-- The switch of task i at its switch freeze (R148 step 6), and with the last of them what the last switch brings. -/
def switchTask (i : Nat) (s : State) : State :=
  match s.exch.image, s.mram.running, s.exch.announcement with
  | some new, some old, some a =>
    match findKey a.switches i, findKey new.tasks i with
    | some (q, _), some c =>
      let s := if s.exch.mixed then s else beginMixed old new s
      let s := moveLanes i c.lanes s
      let s := switchObjects i old new q a.qs s
      let s := { s with exch := { s.exch with lastSwitch := s.ts } }
      if s.allSwitched then lastSwitch old new a s else s
    | _, _ => s
  | _, _, _ => s

/-- Step 7 of R148: the new image is the running image in MRAM, the report is written, and on the active module the waybill closes with the report's counts.
A signal box exchange closes only when both boxes have restarted (R162). -/
def finishExchange (s : State) : State :=
  match s.exch.image with
  | some new =>
    let rep := s.exch.report.map (fun r => { r with workClosed := s.exch.closed })
    let due := s.exchangeDue
    let restructure := s.dueFlags.2
    let s := { s with start := { s.start with running := some new },
                      tasks := (s.tasks.filter (fun e => (findKey new.tasks e.1).isSome)).map (fun (e : Nat × Task) => (e.1, { e.2 with switched := false })),
                      mram := { s.mram with running := some new, pending := none, announcement := none, progress := .complete,
                                            reports := lastN 16 (s.mram.reports ++ rep.toList) },
                      exch := Exchange.reset }
    match due with
    | some w => if s.mode = .active ∧ !restructure then closeWaybill w 0 (match rep with | some r => reportCounts r | none => 0) s else s
    | none => s
  | none => s

/-- Step 7 may be taken: every task of the new timetable runs its new programs, and the last cycle of every task it removes has closed. -/
def State.exchangeEnds (s : State) : Bool :=
  s.allSwitched && (match s.exch.image with
    | some n => s.tasks.all (fun e => (findKey n.tasks e.1).isSome || decide (e.2.phase = .idle))
    | none => false)

/-! Commands. -/

/-- EXCHANGE_LOADED (R148 steps 1 and 2, R149): with the partner module in STANDBY the image goes to it; alone, the exchange is committed if it may be. -/
def execExchangeLoaded (s : State) : Host.Outcome State Fault Refusal :=
  .next (if s.mode ≠ .active then s
    else match s.exch.image with
      | some n =>
        if s.exch.progress ≠ .none then s
        else
          let s := loadShadow n s
          if s.pair.linkUp ∧ s.pair.partnerMode = some .standby then { s with exch := { s.exch with sent := true } }.sendFrames (framesFor n.imageLen) (.image n.digest true)
          else if s.exch.unpartneredOk then commitAlone (announceExchange s)
          else abandonExchange s
      | none => s)

/-- A page of the state image goes out: 16 frames of 4,096 bytes and one of 8 (R235). -/
def sendPage (n : Nat) (s : State) : State := s.sendFrames 17 (.resyncPage n)

/-- The active module answers a resynchronisation request (R234, R235 steps 1 and 2); a request waits while an exchange is committed (R160). The
pages travel at once, since commands take no time (assumption 3). -/
def answerResync (s : State) : State :=
  if s.exchangeCommitted then { s with pair := { s.pair with resyncAsked := true } }
  else
    let s := { s with pair := { s.pair with resyncAsked := false, resyncSending := true, pages := 768, controlSet := false } }.sendFrame .resyncAnswer
    forEach (List.range 768) sendPage s

/-- EXCHANGE_COMPLETE (R148 step 7, R159). -/
def execExchangeComplete (s : State) : Host.Outcome State Fault Refusal :=
  .next (if (decide (s.mode = .active) || decide (s.mode = .standby)) && s.exchangeEnds then
      let s := finishExchange s
      if s.mode = .active ∧ s.pair.resyncAsked then answerResync s else s
    else s)

/-- A module's signal box restarts with the equations of the image exchanged for, whose tasks may not all have switched yet; its evaluators and latches
begin anew (R162, R275). -/
def restartBox (s : State) : State :=
  let table := match (if s.exchangeCommitted then s.exch.image else s.img) with | some i => boxOf i | none => s.sbox.table
  let s := refreshOutputs { s with sbox := { s.sbox with running := false } }
  refreshOutputs { s with sbox := { Sbox.reset with running := true, evalOk := [0, 1, 2], table := table, gbit := s.sbox.gbit, svc := s.sbox.svc, acmp := s.sbox.acmp }
                          pair := { s.pair with sbxRestartDue := false } }

/-- SBX_EXCHANGE_RESTART (R162): a standby module restarts its own box; for an active one whose box has restarted, the partner module's has, and the waybill closes. -/
def execSbxExchangeRestart (s : State) : Host.Outcome State Fault Refusal :=
  .next (if s.mode = .standby ∧ s.pair.sbxRestartDue then restartBox s
    else if s.mode = .active ∧ !s.pair.sbxRestartDue ∧ s.exch.image.isNone then
      match s.exchangeWaybill s.digest with
      | some w => closeWaybill w 0 (match s.mram.reports.getLast? with | some r => reportCounts r | none => 0) s
      | none => s
    else s)

end Sys2Proof.Machine
end

