-- ==== Sys2Proof/Machine/Tasks.lean ====
section
/-! DEFINITION. The task cycle (R115 to R139): what a freeze delivers, what a program's stores mean, closure steps 2 to 4, the restart and
role exchange commands (R71, R250, R251), the overrun watchdog and lane pace. -/

namespace Sys2Proof.Machine

/-! Deliveries (R122, R142, R147, R157, R201, R506). -/

/-- What a delivery makes of a waybill: status, RESULT, whether its completion waits. -/
structure Verdict where
  status : Nat
  result : Nat
  later : Bool
  deriving DecidableEq, Repr

/-- SOURCE and WRITER of an accepted tag write (R85): a program-origin write carries the submitting unit (R205). -/
def waybillSource (w : Waybill) : Nat × Nat :=
  match w.origin with
  | .plant => (6, 0xFFFFFFF0)
  | .service => (7, 0xFFFFFFF1)
  | .program => (1, w.clientId % 2 ^ 32)

def addTagOp (i : Nat) (o : TagOp) (s : State) : State := s.setTask i { s.task i with tagOps := (s.task i).tagOps ++ [o] }

/-- The closing status of a tag check at delivery. -/
def tagStatus (code : Nat) : Nat := if code = 0 then 0 else if code = 1 then 0x11 else if code = 2 then 0x12 else 0x13

/-- The releases of a FORCE_RELEASE_ALL in one task: every force on its tags, and every force set earlier at this freeze (R506). -/
def State.releaseAllOps (s : State) (i : Nat) : List TagOp :=
  let mine (t : Nat) : Bool := match (s.viewFor i).tagDecl t with | some d => decide (ownerTask d = i) | none => false
  let inPlace := s.ctl.forces.map (·.1)
  let now := (s.task i).tagOps.filterMap (fun o => match o with | .forceSet t .. => some t | _ => none)
  (((inPlace ++ now).dedup).filter mine).map TagOp.forceRelease

/-- An object's state as the open cycle of its task leaves it. -/
def State.objectNow (s : State) (i path : Nat) : Option ObjState :=
  match ((s.task i).objOps.filter (fun e => decide (e.1 = path))).getLast? with
  | some e => some e.2
  | none => Tab.get? s.ctl.objects path

/-- A constant change as part of a freeze (R142, R144): overlay entries, and presets under the expiry rule of R154, a running timer counted on to this
freeze, one period after the last. -/
def constantOps (i : Nat) (img : Image) (pairs : List (Nat × DWord)) (s : State) : State :=
  let s := s.setTask i { s.task i with ovlOps := (s.task i).ovlOps ++ pairs }
  let dt := match findKey img.tasks i with | some c => c.periodQ * 250000 | none => 0
  forEach pairs (fun p s =>
    forEach (img.objects.filter (fun e => decide (e.2.presetConst = some p.1))) (fun e s =>
      match s.objectNow i e.1 with
      | some o =>
        let o := if (s.task i).objOps.any (fun x => decide (x.1 = e.1)) then o else countTimer e.2 dt o
        s.setTask i { s.task i with objOps := (s.task i).objOps ++ [(e.1, takePreset e.2 p.2.toNat o)] }
      | none => s) s) s

/-- The overlay after the constant changes of open cycles and new pairs. -/
def State.overlayWith (s : State) (pairs : List (Nat × DWord)) : Tab DWord :=
  (s.tasks.flatMap (fun e => e.2.ovlOps) ++ pairs).foldl (fun t p => Tab.set t p.1 p.2) s.ctl.overlay

/-- The slot that takes control at a hand-over: the partner module's. -/
def State.partnerSlot (s : State) : Nat := if s.carrier.slotB then 0 else 1

/-- Every task but T0 has reached closure step 3 of its latest cycle by quantum q, going by the timetable's budget instants (assumption 24). -/
def quietAt (i : Image) (q : Nat) : Bool :=
  (i.tasks.filter (fun e => decide (e.1 ≠ 0))).all (fun e => decide (qDone i q e.1 ≤ q))

/-- Search for the hand-over quantum from boundary q of T0 with n tries left; the boundary that ends the search otherwise (R251). -/
def findQuiet (i : Image) (period : Nat) : Nat → Nat → Nat
  | 0, q => q
  | n + 1, q => if quietAt i q then q else findQuiet i period n (q + period)

/-- The hand-over quantum (R251). -/
def State.handoverQuantum (s : State) (i : Image) : Nat :=
  match findKey i.tasks 0 with
  | none => s.gridQuantum + 8
  | some c =>
    let longest := i.tasks.foldl (fun m e => max m e.2.periodQ) 0
    findQuiet i c.periodQ (2 * longest / c.periodQ) (firstTick c.periodQ c.phaseQ (s.gridQuantum + 8))

/-- A signal box exchange that waits at its step 2 holds up no role exchange (R162, R250): it has ended here but for its restarts. -/
def deliverRoleExchange (s : State) : Verdict × State :=
  if !(s.pair.linkUp && decide (s.pair.partnerMode = some .standby) && s.pair.partnerReady && !s.pair.doubt) then (⟨0x40, 0, false⟩, s)
  else if s.exchangeCommitted || s.pair.handoverQ.isSome then (⟨0x41, 0, false⟩, s)
  else match s.img with
    | some i =>
      let q := s.handoverQuantum i
      (⟨0, q + 2 ^ 64 * s.partnerSlot, false⟩,
        { s with pair := { s.pair with handoverQ := some q, handoverAcked := false, handoverWait := false } }.sendFrame (.handover q))
    | none => (⟨0x40, 0, false⟩, s)

/-- Step 1 of a restart command at delivery (R71). A later command delivered at the same freeze replaces the one that waits (assumption 107). -/
def deliverRestart (w : Waybill) (scope : Nat) (cold : Bool) (s : State) : Verdict × State :=
  let own := decide (scope = 0) || decide (scope = 2)
  let partner := decide (scope = 1) || decide (scope = 2)
  let there := s.pair.linkUp && (decide (s.pair.partnerMode = some .standby) || decide (s.pair.partnerMode = some .halt))
  if partner && !there then (⟨0x40, 0, false⟩, s)
  else
    let r : RestartRec := ⟨cold, w.clientId, w.clientSeq, false⟩
    let s := if own then { s with mram := { s.mram with restart := some r } } else s
    let s := if partner then s.sendFrame (.restartReq r) else s
    (⟨0, 0, false⟩, { s with pair := { s.pair with restartWait := some (w, own, partner), restartAcked := false } })

/-- An exchange abandon at delivery (R147, R160). Nothing in hand for the digest closes with DONE (assumption 25). -/
def deliverAbandon (digest : Nat) (s : State) : Verdict × State :=
  match s.exch.image with
  | some n => if n.digest ≠ digest then (⟨0, 0, false⟩, s) else if s.exchangeCommitted then (⟨0x2D, 0, false⟩, s) else (⟨0, 0, false⟩, abandonExchange s)
  | none => (⟨0, 0, false⟩, s)

/-- One waybill taken at a freeze of task i: what it does within the cycle, and how it will close. -/
def takeWaybill (i : Nat) (w : Waybill) (s : State) : Verdict × State :=
  let v := s.viewFor i
  let instant := (s.task i).freezeAt
  let ok : Verdict := ⟨0, 0, false⟩
  match w.work with
  | .tagWrite tag type given q value =>
    let c := v.checkTagWrite true tag type value
    let src := waybillSource w
    if c = 0 then
      (ok, addTagOp i (.write tag (encodeValue type value) (storedQuality type value (if given then q else qGood)) instant.tagTs src.1 src.2 s.unsync) s)
    else (⟨tagStatus c, 0, false⟩, s)
  | .forceSet tag type given q value =>
    let c := v.checkTagWrite false tag type value
    if c = 0 then (ok, addTagOp i (.forceSet tag (encodeValue type value) (storedQuality type value (if given then q else qGood)) instant.tagTs s.unsync) s)
    else (⟨tagStatus c, 0, false⟩, s)
  | .forceRelease tag => if (v.tagDecl tag).isSome then (ok, addTagOp i (.forceRelease tag) s) else (⟨0x11, 0, false⟩, s)
  | .forceReleaseAll => (⟨0, 0, true⟩, s.setTask i { s.task i with tagOps := (s.task i).tagOps ++ s.releaseAllOps i })
  | .unitMessage unit epoch kind ri _ =>
    let m := v.messageDue s.ctl.units unit epoch kind ri
    (⟨m.1, m.2, false⟩, s)
  | .roleAssign unit role =>
    let c := v.checkRole (s.pendingUnits (s.task i)) unit role instant.nsTotal
    if c.1 = 0 then (ok, if c.2 then s.setTask i { s.task i with roleOps := (s.task i).roleOps ++ [(unit, role, instant.nsTotal)] } else s)
    else (⟨if c.1 = 1 then 2 else if c.1 = 2 then 0x14 else 0x10, 0, false⟩, s)
  | .constantChange digest _ pairs =>
    if v.digest ≠ digest then (⟨0x20, 0, false⟩, s)
    else if 65536 < (s.overlayWith pairs).length then (⟨0x23, 0, false⟩, s)
    else match v.img with
      | some img => (ok, constantOps i img pairs s)
      | none => (⟨0x20, 0, false⟩, s)
  | .exchangeRequest .. =>
    let r := beginExchange w s
    (match r.1 with | some c => ⟨c, 0, false⟩ | none => ⟨0, 0, true⟩, r.2)
  | .exchangeAbandon digest => deliverAbandon digest s
  | .restart scope cold => deliverRestart w scope cold s
  | .roleExchange => deliverRoleExchange s

/-- The sender's unit address or writer id that a waybill's message carries (R110, R205). -/
def waybillSender (w : Waybill) : Nat × Nat := match w.origin with | .program => (w.clientId % 2 ^ 32, w.clientId % 2 ^ 32) | _ => (0, (waybillSource w).2)

/-- A message is handed to the unit that takes it after routing (R102). -/
def handMessage (i : Nat) (m : UnitMsg) (s : State) : State :=
  match (s.viewFor i).takerOf s.ctl.units m.unit m.kind with
  | some u => s.setTask i { s.task i with handed := (s.task i).handed ++ [(u, m)] }
  | none => s

/-- A waybill enters the cycle's deliveries; a unit message is handed to its unit. -/
def deliverWaybill (i : Nat) (w : Waybill) (s : State) : State :=
  let r := takeWaybill i w s
  let s := r.2.setTask i { r.2.task i with deliveries := (r.2.task i).deliveries ++ [⟨w, r.1.status, r.1.result, r.1.later⟩] }
  match w.work with
  | .unitMessage unit epoch kind ri payload =>
    if r.1.status = 0 then handMessage i ⟨(waybillSender w).1, 0, (waybillSender w).2, i, unit, epoch, kind, ri, payload⟩ s else s
  | _ => s

/-- A program message is taken or returns to its sender (R112, R113). -/
def deliverMessage (i : Nat) (m : UnitMsg) (s : State) : State :=
  let c := (s.viewFor i).messageDue s.ctl.units m.unit m.epoch m.kind m.roleIndependent
  let s := s.setTask i { s.task i with taken := (s.task i).taken ++ [m] }
  returnMessage i m c.1 c.2 (if c.1 = 0 then handMessage i m s else s)

def isForceWork (w : Waybill) : Bool :=
  match w.work with
  | .forceSet .. => true
  | .forceRelease _ => true
  | .forceReleaseAll => true
  | _ => false

/-- Items up to the last force set or release that is due; they are outside the limit (R122). -/
def forcePrefix (l : List Waybill) : Nat := l.length - (l.reverse.takeWhile (fun w => !isForceWork w)).length

/-- Force operations go before tag writes in the order of R92. -/
def isForceOp : TagOp → Bool
  | .write .. => false
  | .forceSet .. => true
  | .forceRelease _ => true

/-- Due deliveries of a freeze (R122); inside the doubt window no waybill is delivered (R231). -/
def deliverAll (i limit : Nat) (s : State) : State :=
  let ws := if s.pair.doubt then [] else s.pendingFor i
  let ms := (s.task i).inbox
  let allow := forcePrefix ws + limit
  let takeW := ws.take allow
  let takeM := ms.take (allow - takeW.length)
  let rest := ws.length + ms.length - takeW.length - takeM.length
  let gate := (s.task i).tagOps
  let s := s.setTask i { s.task i with tagOps := [], inbox := ms.drop takeM.length }
  let s := forEach takeW (fun w s => deliverWaybill i w s) s
  let s := forEach takeM (fun m s => deliverMessage i m s) s
  let t := s.task i
  let s := s.setTask i { t with tagOps := gate ++ t.tagOps.filter isForceOp ++ t.tagOps.filter (fun o => !isForceOp o) }
  (s.put (Reg.EXEC_TASK_DEFER_DEFERRED i) (satTo 16 rest)).raiseIf (decide (rest ≠ 0)) Ev.EXEC_DELIVERY_DEFERRED

/-! The switch of a task closes what its new image no longer takes (R157). -/

/-- The closing status that the image of view v leaves a queued waybill; 0: none. -/
def State.removedStatus (v : State) (w : Waybill) : Nat :=
  match w.work with
  | .tagWrite tag type _ _ value => tagStatus (v.checkTagWrite true tag type value)
  | .forceSet tag type _ _ value => tagStatus (v.checkTagWrite false tag type value)
  | .forceRelease tag => if (v.tagDecl tag).isSome then 0 else 0x11
  | .unitMessage unit _ kind _ _ => if (v.unitDecl unit).isNone then 2 else if (v.routeOf unit kind).isNone then 3 else 0
  | .roleAssign unit role => if (v.unitDecl unit).isNone then 2 else if role ≠ 0 ∧ (findKey (v.cfgList (·.roles)) role).isNone then 0x14 else 0
  | .constantChange digest _ _ => if v.digest ≠ digest then 0x20 else 0
  | _ => 0

/-- Queued work of task i that its new image no longer takes is closed at its switch. -/
def closeInvalid (i : Nat) (s : State) : State :=
  let v := s.viewFor i
  let s := forEach (s.pendingFor i) (fun w s =>
    let c := v.removedStatus w
    if c = 0 then s else noteClosed w.waybillSeq c (closeWaybill w c 0 s)) s
  let bad (m : UnitMsg) : Nat := if (v.unitDecl m.unit).isNone then 2 else if (v.routeOf m.unit m.kind).isNone then 3 else 0
  let ms := (s.task i).inbox
  let s := forEach (ms.filter (fun m => decide (bad m ≠ 0))) (fun m s =>
    let s := returnMessage i m (bad m) 0 s
    s.setTask i { s.task i with goneOps := (s.task i).goneOps ++ [(i, m)] }) s
  s.setTask i { s.task i with inbox := ms.filter (fun m => decide (bad m = 0)) }

/-! The freeze. -/

/-- The present quantum is the switch freeze of task i, or a later freeze of its new timetable (R150). -/
def State.switchDue (s : State) (i : Nat) : Bool :=
  match s.exch.announcement, s.exch.image with
  | some a, some n =>
    s.exchangeCommitted && !(s.task i).switched && (match findKey a.switches i, findKey n.tasks i with
      | some (q, _), some c => decide (q ≤ s.gridQuantum) && decide ((s.gridQuantum - c.phaseQ) % c.periodQ = 0)
      | _, _ => false)
  | _, _ => false

/-- The present quantum is one at which task i freezes: no old cycle begins at or after Qs (R116, R150). -/
def State.freezeDue (s : State) (i : Nat) : Bool :=
  s.switchDue i || (s.dueNow i && (match s.exch.announcement with
    | some a => !s.exchangeCommitted || (s.task i).switched || decide (s.gridQuantum < a.qs)
    | none => true))

/-- A task as a freeze opens its cycle: number, instants, and the tag store as other tasks' last closures left it (R120). -/
def openTask (now : Stamp) (ran quantum : Nat) (tags : Tab Tag) (t : Task) : Task :=
  { t with cycle := t.cycle + 1, phase := .execute, freezeAt := now, freezeRan := ran, seen := tags, frozenQ := quantum + 1, blocksDone := [], deliveries := [], tagOps := [],
           handed := [], roleReturns := [], roleOps := [], msgOps := [], regOps := [], commits := [], postOps := [], wbOps := [], canOps := [], objOps := [], ovlOps := [], retOps := [],
           refusedOps := [], goneOps := [], taken := [], returns := t.nextReturns, nextReturns := [], carryCrc := none }

/-- A freeze of task i up to its deliveries (R120): number, instant, switch, inputs, CAN outcomes, due work. -/
def freezeCore (i : Nat) (s : State) : State :=
  let s := if i = 0 then execApplyHeld s else s
  let sw := s.switchDue i
  let cfg := if sw then (match s.exch.image with | some n => findKey n.tasks i | none => none) else s.taskCfg i
  match cfg with
  | none => s
  | some c =>
    let s := s.setTask i (openTask s.now s.time.ran s.gridQuantum s.ctl.tags (s.task i))
    let s := takeGone i (if sw then closeInvalid i (switchTask i s) else s)
    let s := canFreeze i s
    let s := s.setTask i { s.task i with tagOps := s.inputOps i }
    deliverAll i c.deliveryLimit s

/-! Stores of a program (R72, R81, R82, R87, R90, R104, R105, R107, R165). -/

/-- A rate or derivative block that has no history yet writes this tag (R72). -/
def State.withoutHistory (s : State) (tag : Nat) : Bool :=
  (s.cfgList (·.objects)).any (fun e => decide (e.2.kind = .rate) && decide (e.2.outTag = some tag) && (Tab.get? s.ctl.objects e.1).any (·.fresh))

/-- A state object as a block stores it: an edge detector without history gives no edge in its first cycle unless it declares one, and has a history from
then on (R72). -/
def State.storedObject (s : State) (path : Nat) (x : ObjState) : ObjState :=
  match findKey (s.cfgList (·.objects)) path, Tab.get? s.ctl.objects path with
  | some d, some o =>
    if d.kind = .edge then (if o.fresh && !d.firstCycleEdge then { x with fresh := false, out := false, done := false } else { x with fresh := false }) else x
  | _, _ => x

/-- What a role block returns (R104, R105, R107): OK, UNIT_UNKNOWN, ROLE_UNKNOWN or ROLE_RATE, by the codes of R201. -/
def roleCode (c : Nat) : Nat := if c = 0 then 0 else if c = 1 then 2 else if c = 2 then 0x14 else 0x10

/-- The works that a program may submit (R199). -/
def programWork : Work → Bool
  | .tagWrite .. => true
  | .roleAssign .. => true
  | _ => false

/-- What one store of a block of task i adds to the cycle. A submission of a work that no program may submit is none (R199; assumption 73). -/
def storeEffect (i lane block unit : Nat) (o : Store) (s : State) : State :=
  let t := s.task i
  let v := s.viewFor i
  match o with
  | .tag tag type q value wide =>
    match v.tagDecl tag with
    | none => s
    | some d =>
      let value := if wide && decide (type = .real32) then tagOfF64 .real32 value else value
      if d.writer ≠ .task i then s
      else if d.type ≠ type then s.setTask i { t with refusedOps := t.refusedOps ++ [(block, tag, 0)] }
      else if !validValue type d.enum value then s.setTask i { t with refusedOps := t.refusedOps ++ [(block, tag, 1)] }
      else if v.withoutHistory tag then addTagOp i (.write tag 0#64 qUncertainInitial t.freezeAt.tagTs 1 unit s.unsync) s
      else addTagOp i (.write tag (encodeValue type value) (storedQuality type value q) t.freezeAt.tagTs 1 unit s.unsync) s
  | .message sender dest epoch kind ri payload =>
    s.setTask i { t with msgOps := t.msgOps ++ [⟨sender, (unitOf s.ctl.units sender).epoch, sender, i, dest, epoch, kind, ri, payload⟩] }
  | .role dest role =>
    let c := v.checkRole (s.pendingUnits t) dest role t.freezeAt.nsTotal
    s.setTask i { t with roleReturns := t.roleReturns ++ [⟨3, roleCode c.1, block, dest⟩],
                         roleOps := if c.1 = 0 ∧ c.2 then t.roleOps ++ [(dest, role, t.freezeAt.nsTotal)] else t.roleOps }
  | .post sender work => if programWork work then s.setTask i { t with postOps := t.postOps ++ [(sender, work)] } else s
  | .reg addr value => s.setTask i { t with regOps := t.regOps ++ [(lane, addr, value)] }
  | .object path x => s.setTask i { t with objOps := t.objOps ++ [(path, v.storedObject path x)] }
  | .canSend .. => s.setTask i { t with canOps := t.canOps ++ [o] }
  | .canCancel .. => s.setTask i { t with canOps := t.canOps ++ [o] }

/-- A task as the stores that its blocks have committed leave it: its cycle write set (R165). -/
def applyCommits (i : Nat) (s : State) : State :=
  forEach (s.task i).commits (fun c s => storeEffect i c.1 c.2.1 c.2.2.1 c.2.2.2 s) (s.setTask i { s.task i with roleReturns := [], commits := [] })

/-- The stores of a clean checkpoint commit (R164, R165); role blocks among them have returned (R104, R105, R107). -/
def commitStores (i lane block unit : Nat) (l : List Store) (s : State) : State :=
  let s := s.setTask i { s.task i with commits := (s.task i).commits ++ l.map (fun o => (lane, block, unit, o)) }
  s.setTask i { s.task i with roleReturns := ((applyCommits i s).task i).roleReturns }

/-- The commits of a block whose lane is retired are discarded (R180 step 4). -/
def undoBlock (i lane block : Nat) (s : State) : State :=
  let s := s.setTask i { s.task i with commits := (s.task i).commits.filter (fun c => !(decide (c.1 = lane) && decide (c.2.1 = block))) }
  s.setTask i { s.task i with roleReturns := ((applyCommits i s).task i).roleReturns }

/-! Closure step 2 (R123, R126, R207, R228, R229). -/

/-- The task that receives a message sent from task i; none: the kind has no receiver. -/
def State.receiverOf (s : State) (i : Nat) (m : UnitMsg) : Option Nat := ((s.viewFor i).routeOf m.unit m.kind).map routeTask

/-- Program messages that wait for a task: queued, or sent by a cycle whose closure step 2 has begun and step 3 not taken place (R111). -/
def State.queuedFor (s : State) (i dest : Nat) : Nat :=
  s.tasks.foldl (fun n e => if e.1 = i ∨ e.2.phase ≠ .execute then n + (e.2.msgOps.filter (fun m => decide (s.receiverOf e.1 m = some dest))).length else n) (s.task dest).inbox.length

/-- Messages of the cycle are sorted into those entered at closure step 3 and those that return (R110, R111, R113). -/
def settleMessages (i : Nat) (s : State) : State :=
  let one (m : UnitMsg) (s : State) : State :=
    let code := (s.viewFor i).messageEntry m.unit m.kind m.payload.length
    let code := if code = 0 ∧ 4096 ≤ s.queuedFor i ((s.receiverOf i m).getD 0) then 4 else code
    if code = 0 then s.setTask i { s.task i with msgOps := (s.task i).msgOps ++ [m] } else returnMessage i m code 0 s
  let l := (s.task i).msgOps
  forEach l one (s.setTask i { s.task i with msgOps := [] })

/-- The units after the role changes of a closing cycle, and those changes that R107 refuses now, since another task's closure has changed a unit's role
meanwhile; a change that has become none is none (R105). -/
def State.applyRoles (s : State) (t : Task) : Tab UnitState × List (Nat × Nat) :=
  t.roleOps.foldl (fun r x =>
    let c := s.checkRole r.1 x.1 x.2.1 x.2.2
    (if c.1 = 0 ∧ c.2 then s.moveRole r.1 x.1 x.2.1 x.2.2 else r.1, if c.1 = 3 then r.2 ++ [(x.1, x.2.1)] else r.2)) (s.ctl.units, [])

/-- A role assignment of the cycle that is refused so late closes with ROLE_RATE (assumption 116). -/
def settleRoles (i : Nat) (s : State) : State :=
  let late := ((s.viewFor i).applyRoles (s.task i)).2
  let one (d : Delivery) : Delivery := match d.waybill.work with
    | .roleAssign u r => if d.status = 0 ∧ (u, r) ∈ late then { d with status := 0x10 } else d
    | _ => d
  s.setTask i { s.task i with deliveries := (s.task i).deliveries.map one }

/-- Role changes and submissions of a cycle that closes inside the doubt window wait for the first closure after it (R231). -/
def settleDoubt (i : Nat) (s : State) : State :=
  let t := s.task i
  let numbered : List (Nat × Nat × Work) := t.postOps.zipIdx.map (fun (p : (Nat × Work) × Nat) => (p.1.1, t.cycle * 65536 + p.2, p.1.2))
  if s.pair.doubt then
    s.setTask i { t with deferredRoles := t.deferredRoles ++ t.roleOps, roleOps := [], deferredPosts := t.deferredPosts ++ numbered, postOps := [] }
  else
    s.setTask i { t with roleOps := t.deferredRoles ++ t.roleOps, deferredRoles := [], deferredPosts := t.deferredPosts ++ numbered, postOps := [] }

/-- TARGET of a work kind (R506); none: 0xFF. -/
def State.targetOf (s : State) (w : Work) : Option Nat :=
  let tag (t : Nat) : Option Nat := (s.tagDecl t).map ownerTask
  match w with
  | .tagWrite t .. => tag t
  | .forceSet t .. => tag t
  | .forceRelease t => tag t
  | .unitMessage unit _ kind _ _ => (s.routeOf unit kind).map routeTask
  | .constantChange _ task _ => some task
  | _ => none

/-- The refusal code of a program submission (R207), in the codes of R384 and R201; 0: none (assumption 23). A program submits no other work (R199). -/
def State.postRefusal (s : State) (w : Work) : Nat :=
  if s.journalFull (contOf w) (s.limitTasks w (s.targetOf w)) then 3
  else match w with
    | .tagWrite tag type _ _ value =>
      let c := s.checkTagWrite true tag type value
      if c = 0 then 0 else if c = 1 then 0x0D else if c = 2 then 0x0E else if c = 3 then 0x0F else 0x13
    | .roleAssign unit role => if (s.unitDecl unit).isNone then 2 else if role ≠ 0 ∧ (findKey (s.cfgList (·.roles)) role).isNone then 0x14 else 0
    | _ => 0

/-- A program's waybill enters the ring (R207), or its refusal the task's queue. -/
def postWaybill (i unit clientSeq : Nat) (work : Work) (s : State) : State :=
  let c := (s.viewFor i).postRefusal work
  if c ≠ 0 then (s.setTask i { s.task i with retOps := (s.task i).retOps ++ [(i, ⟨2, c, 0, clientSeq⟩)] }).raiseIf (decide (c = 3)) Ev.JRN_RING_FULL
  else
    let before := s.openEntries
    let alone := !s.partnered
    let w : Waybill :=
      { seq := 0, carried := false, origin := .program, work := work, target := (s.viewFor i).targetOf work, unpartnered := alone, cont := contOf work,
        waybillSeq := 0, clientId := 0xFFFFFFFE * 2 ^ 32 + unit, clientSeq := clientSeq, state := if alone then .unpartnered else .mirrored, wordBad := false, acceptTime := s.ts }
    let q := s.nextEntry
    let s := pushWaybill w s
    carry (nearFull before (s.setTask i { s.task i with wbOps := (s.task i).wbOps ++ [{ w with seq := q, waybillSeq := q }] }))

/-- Every submission of the cycle, in store order. -/
def postAll (i : Nat) (s : State) : State :=
  if s.pair.doubt then s
  else
    let l := (s.task i).deferredPosts
    forEach l (fun p s => postWaybill i p.1 p.2.1 p.2.2 s) (s.setTask i { s.task i with deferredPosts := [] })

/-- The watermark that the cycle leaves: the highest WAYBILL_SEQ it delivered (R209). -/
def newWatermark (t : Task) : Nat := t.deliveries.foldl (fun m d => max m d.waybill.waybillSeq) t.watermark

/-- Outputs whose command tag the task owns, with the value the tags give them (R93, R95, R281, R308). -/
def State.outputsOf (s : State) (i : Nat) (tags : Tab Tag) : List (Nat × Nat) :=
  s.channels.filterMap (fun e =>
    match e.2.commandTag with
    | none => none
    | some t => match s.tagDecl t with
      | none => none
      | some d =>
        if ownerTask d ≠ i then none
        else
          let g := Tab.getD tags t Tag.zero
          match e.2.mode with
          | .dout => some (e.1, b2n (decide (g.value.toNat % 256 ≠ 0)))
          | .ao => (tagNumber d.type g.value).map (fun v => (e.1, commandUa e.2.characteristic v))
          | _ => none)

/-- The control state after the tag writes of an open cycle. -/
def openControl (t : Task) (c : Control) : Control := t.tagOps.foldl (fun c o => applyTagOp o c) c

/-- Units after the role changes the closing cycle makes. -/
def State.closedUnits (s : State) (t : Task) : Tab UnitState := (s.applyRoles t).1

/-- Statuses of the cycle as completion records; their SEQ comes with the mirror (R210). -/
def cycleStatuses (i : Nat) (t : Task) : List Completion :=
  (t.deliveries.filter (fun d => !d.later)).map (fun d =>
    ⟨0, d.status, some i, d.waybill.waybillSeq, d.waybill.clientId, d.waybill.clientSeq, t.cycle, d.result⟩)

/-- The records of a cycle's delta (R227). -/
def State.deltaRecords (s : State) (i : Nat) : List DeltaRec :=
  let t := s.task i
  let c := openControl t s.ctl
  let units := (s.viewFor i).closedUnits t
  let outs := s.outputsOf i c.tags
  (t.tagOps.map TagOp.tag).dedup.map (fun g => DeltaRec.tag g (Tab.getD c.tags g Tag.zero))
    ++ t.objOps.map (fun o => DeltaRec.data o.1 o.2)
    ++ (t.regOps.filter (fun r => decide (blockNum r.2.1 = 6))).map (fun r => DeltaRec.sbx r.2.1 r.2.2)
    ++ t.canOps.filterMap (fun o => match o with | .canSend p r => some (DeltaRec.canRequest p i r) | _ => none)
    ++ outs.map (fun o => DeltaRec.output o.1 o.2)
    ++ ((t.tagOps.map TagOp.tag).dedup.filter (fun g => decide (Tab.get? c.forces g ≠ Tab.get? s.ctl.forces g))).map (fun g => DeltaRec.force g (Tab.get? c.forces g))
    ++ (units.filter (fun e => decide (Tab.get? s.ctl.units e.1 ≠ some e.2))).map (fun e => DeltaRec.role e.1 e.2)
    ++ t.msgOps.map (fun m => DeltaRec.message ((s.receiverOf i m).getD 0) m)
    ++ t.canArea.map (fun o => DeltaRec.canOutcome i o.1)
    ++ (if t.returns = [] then [] else [DeltaRec.returnsTaken i t.returns.length])
    ++ t.goneOps.map (fun g => DeltaRec.messageGone g.1 g.2)
    ++ (if t.taken = [] then [] else [DeltaRec.messageTaken i t.taken.length])
    ++ t.retOps.map (fun r => DeltaRec.returnEntry r.1 r.2.kind r.2.code r.2.detail r.2.ref)
    ++ t.wbOps.map DeltaRec.waybill ++ (cycleStatuses i t).map DeltaRec.completion ++ t.ovlOps.map (fun o => DeltaRec.overlay o.1 o.2)
    ++ [DeltaRec.mark t.cycle (newWatermark t) s.jrn.head]
    ++ (match t.carryCrc with | some c => [DeltaRec.carry c] | none => [])
    ++ (outs.filter (fun o => decide (s.chanMode o.1 = .ao))).map (fun o => DeltaRec.supply o.1 (s.chan o.1).supplyMv)
    ++ (s.cfgList (·.net.pubs)).map (fun e => DeltaRec.pub e.1 (s.pub e.1).stNum (s.pub e.1).sqNum)

/-- Closure step 2 ends: the release mark is written, and step 3 may follow (R215). -/
def endStep2 (i : Nat) (s : State) : State :=
  let t := s.task i
  let s := writeMark i t.cycle (newWatermark t) s.jrn.head s
  s.setTask i { s.task i with phase := .ready, step2At := s.now }

/-- The cycle's wait for the partner module's RESTART_ACK (R71 step 2). -/
def State.restartAwaited (s : State) (i : Nat) : Bool :=
  decide (i = 0) && (match s.pair.restartWait with | some r => r.2.2 && !s.pair.restartAcked | none => false)

/-- A cycle that closes under R126 leaves its program-origin waybills UNPARTNERED (R207). -/
def closesAlone (i : Nat) (s : State) : State := forEach (s.task i).wbOps (fun w s => setWbState w.waybillSeq .unpartnered s) s

/-- The delta needs no more acknowledgement; a delivering cycle of a restart command still waits for RESTART_ACK. -/
def deltaDone (i : Nat) (s : State) : State :=
  let s := { s with pair := { s.pair with awaitingDelta := s.pair.awaitingDelta.filter (fun k => decide (k ≠ i)) } }
  if s.restartAwaited i then s.setTask i { s.task i with phase := .awaitDelta } else endStep2 i s

/-- RESTART_ACK has not come in time (R71 step 2): PARTNER_NOT_READY, the record cleared, CANCEL sent. -/
def restartFailed (s : State) : State :=
  match s.pair.restartWait with
  | some r =>
    let fail (d : Delivery) : Delivery := if d.waybill.waybillSeq = r.1.waybillSeq then { d with status := 0x40 } else d
    let s := s.setTask 0 { s.task 0 with deliveries := (s.task 0).deliveries.map fail }
    let s := if r.2.1 then { s with mram := { s.mram with restart := none } } else s
    { s with pair := { s.pair with restartWait := none, restartAcked := false } }.sendFrame (.restartGo true)
  | none => s

/-- Closure step 2 of task i (R123, R126, R228): the cycle write set, CLOSE_SEQ, submissions, and the delta where the partner module holds a current copy. -/
def closureStep2 (i : Nat) (s : State) : State :=
  let s := settleRoles i (settleDoubt i (settleMessages i (applyCommits i s)))
  let s := { s with pair := { s.pair with closeSeq := s.pair.closeSeq + 1 } }
  let s := postAll i (s.setTask i { s.task i with closeSeq := s.pair.closeSeq })
  let l := s.deltaRecords i
  let d : DeltaMsg := ⟨i, (s.task i).cycle, s.pair.closeSeq, deltaCrc l, l.length, (s.task i).carryCrc, l⟩
  let s := s.setTask i { s.task i with deltaCrc := d.crc }
  if s.partnered then
    ({ s with pair := { s.pair with awaitingDelta := addOnce i s.pair.awaitingDelta, unpartneredRun := false } }.setTask i { s.task i with phase := .awaitDelta }).sendDelta d
  else
    let s := if s.pair.resyncSending then s.sendDelta d else s
    let s := s.raiseIf (!s.pair.unpartneredRun) Ev.EXEC_UNPARTNERED_CLOSE
    deltaDone i { s with pair := { s.pair with unpartneredRun := true } }

/-- Every block of the cycle has compared clean (R123 step 1). -/
def State.step1Ended (s : State) (i : Nat) : Bool :=
  match s.taskCfg i with
  | some c => (List.range c.blocks.length).all (fun b => decide (b ∈ (s.task i).blocksDone))
  | none => false

/-! Lanes and blocks (R121). -/

/-- The next block of the cycle on a lane: the first of its timetable lane's blocks that has not compared clean. -/
def State.nextBlock (s : State) (i n : Nat) : Option Nat :=
  match s.taskCfg i with
  | some c => (List.range c.blocks.length).find? (fun b => decide (c.blocks[b]? = some ((s.lane n).asLane.getD n)) && decide (b ∉ (s.task i).blocksDone))
  | none => none

/-- The blocks that a block waits for have all compared clean (R121). -/
def State.barrierOpen (s : State) (i b : Nat) : Bool :=
  match s.taskCfg i with
  | some c => (match findKey c.barriers b with | some l => l.all (fun x => decide (x ∈ (s.task i).blocksDone)) | none => true)
  | none => true

/-- A lane goes on to its next block, or waits at the block's barrier. Its copies keep their register files (R171). -/
def startBlock (i n : Nat) (s : State) : State :=
  let b := s.nextBlock i n
  s.setLane n { s.lane n with block := b, waiting := (match b with | some k => !s.barrierOpen i k | none => false), ckpt := 0, gateLog := [], gotA := [], gotB := [],
                              mismatch := none, since := s.time.ran }

/-- The lanes of a task begin its cycle. -/
def startLanes (i : Nat) (s : State) : State := forEach (s.taskLanes i) (fun n s => startBlock i n s) s

/-! Closure steps 3 and 4 (R81, R92, R93, R105, R106, R111, R123, R210). -/

/-- Refused program writes of the cycle are recorded (R81). -/
def recordRefusals (i : Nat) (l : List (Nat × Nat × Nat)) (s : State) : State :=
  forEach l (fun r s =>
    let s := (((s.put Reg.EXEC_PROG_FAULT_TASK i).put Reg.EXEC_PROG_FAULT_VALID 1).put Reg.EXEC_PROG_FAULT_REASON r.2.2).put Reg.EXEC_PROG_FAULT_TAG r.2.1
    ((s.put Reg.EXEC_PROG_BLOCK_BLOCK r.1).inc Reg.EXEC_PROG_COUNT_COUNT).raise Ev.EXEC_PROGRAM_FAULT) s

/-- A return entry enters a task's queue for its next freeze. -/
def enterReturn (task : Nat) (e : ReturnEntry) (s : State) : State :=
  if (s.taskCfg task).isSome then s.setTask task { s.task task with nextReturns := (s.task task).nextReturns ++ [e] } else s

/-- A message enters the queue of the task that receives its kind. -/
def enterMessage (task : Nat) (m : UnitMsg) (s : State) : State := s.setTask task { s.task task with inbox := (s.task task).inbox ++ [m] }

/-- One output takes the value the cycle releases. -/
def releaseOutput (n value : Nat) (s : State) : State :=
  s.setChan n { s.chan n with hasReleased := true, lastOn := decide (value ≠ 0), lastUa := if s.chanMode n = .ao then value else (s.chan n).lastUa }

/-- Closure step 3: the cycle's writes become visible together, and its outputs leave. -/
def closureStep3 (i : Nat) (s : State) : State :=
  let v := s.viewFor i
  let t := s.task i
  let s := applyTagOps t.tagOps s
  let s := { s with ctl := { s.ctl with units := v.closedUnits t } }
  let s := forEach t.msgOps (fun m s => enterMessage ((s.receiverOf i m).getD 0) m s) s
  let s := forEach t.retOps (fun r s => enterReturn r.1 r.2 s) s
  let s := { s with ctl := { s.ctl with objects := t.objOps.foldl (fun o x => Tab.set o x.1 x.2) s.ctl.objects,
                                        overlay := t.ovlOps.foldl (fun o x => Tab.set o x.1 x.2) s.ctl.overlay } }
  let s := forEach t.regOps (fun r s => writeBy (.lane r.1) r.2.1 r.2.2 s) s
  let s := canStores i t.canOps s
  let s := recordRefusals i t.refusedOps s
  let s := forEach (s.outputsOf i s.ctl.tags) (fun o s => releaseOutput o.1 o.2 s) s
  pubCheckAll (refreshOutputs s)

/-- Every configured task has taken a FORCE_RELEASE_ALL (R506). -/
def State.allTook (s : State) (wseq : Nat) : Bool := s.taskIds.all (fun k => decide (wseq ≤ (s.task k).watermark))

/-- Closure step 4: completions in delivery order, mirrored without a wait (R210). -/
def closureStep4 (i : Nat) (s : State) : State :=
  let t := s.task i
  let s := s.setTask i { t with watermark := newWatermark t }
  let before := s.jrn.head
  let s := forEach t.deliveries (fun d s =>
    if d.later then
      (match d.waybill.work with
      | .forceReleaseAll => if s.allTook d.waybill.waybillSeq then pushCompletion d.waybill 0 (some i) t.cycle 0 s else s
      | _ => s)
    else if (s.completionOf d.waybill.waybillSeq).isSome then s
    else pushCompletion d.waybill d.status (some i) t.cycle d.result s) s
  let mine := s.mram.ring.filterMap (fun e => match e.2 with | .completion c => if before < c.seq then some (Entry.completion c) else none | .cont .. => none | .waybill _ => none)
  carry (if mine = [] then s else mirrorOut mine s)

/-- A module that took control writes the completions of acknowledged cycles whose mirror it never received, at its first closure (R210). -/
def writeStatuses (s : State) : State :=
  let l := s.pair.statuses
  let s := { s with pair := { s.pair with statuses := [] } }
  forEach l (fun c s =>
    if (s.completionOf c.waybillSeq).isSome then s
    else match Tab.get? s.waybills c.waybillSeq with
      | some w => pushCompletion w c.status c.task c.cycle c.result s
      | none => s) s

/-- Load of a cycle in per mille of its period, rounded up. -/
def loadPm (c : TaskCfg) (freeze end_ : Stamp) : Nat :=
  let p := c.periodQ * 250000
  let d := end_.nsTotal - freeze.nsTotal
  (d * 1000 + p - 1) / p

/-- LAST_PM, MAX_PM and LOAD_HIGH. -/
def recordLoad (i : Nat) (c : TaskCfg) (t : Task) (s : State) : State :=
  let pm := satTo 10 (loadPm c t.freezeAt (if c.aligned then t.step2At else s.now))
  let s := (s.put (Reg.EXEC_TASK_LOAD_LAST_PM i) pm).atLeast (Reg.EXEC_TASK_LOAD_MAX_PM i) pm
  s.raiseIf (decide (s.get Reg.EXEC_CTRL_LOAD_ALARM_PCT * c.budgetPct < 10 * pm)) Ev.EXEC_LOAD_HIGH

/-- The control set as this module holds it (R235). -/
def State.controlSet (s : State) : ControlSet :=
  { forces := s.ctl.forces, units := s.ctl.units, overlay := s.ctl.overlay,
    queued := s.tasks.map (fun (e : Nat × Task) => (e.1, e.2.taken ++ e.2.inbox)),
    cycles := s.tasks.map (fun (e : Nat × Task) => (e.1, e.2.lastClosed)), watermarks := s.tasks.map (fun (e : Nat × Task) => (e.1, e.2.watermark)),
    openEntries := (s.openWaybills.filter (fun w => !s.notYetDue w.waybillSeq)).map (fun w => (w.seq, w)), clients := s.jrn.clients,
    retired := s.mram.retiredIds, floor := s.mram.floor, closeSeq := s.pair.closeSeq, head := s.jrn.head }

/-- The first closure of T0 after the last page ends a resynchronisation that this module serves (R235 steps 3 to 5). The number
of frames of the control set, at most 4,096, is a free value: the spec gives it no layout (assumption 4). -/
def resyncCapture (s : State) : State :=
  if s.pair.resyncSending && decide (768 ≤ s.pair.pages) then
    let n := s.free
    let s := (n.2.sendFrames (n.1.toNat % 4096 + 1) (.resyncControl n.2.controlSet)).sendFrame (.resyncDone s.pair.closeSeq)
    let s := { s with pair := { s.pair with resyncSending := false, resync := false, controlSet := true, partnerCurrent := true, captureSeq := s.pair.closeSeq } }
    let s := ((s.inc Reg.CPL_RESYNC_COUNT).raise Ev.CPL_RESYNC_DONE).raise Ev.CPL_PARTNER_JOINED
    match s.exch.image with
    | some n => if s.exch.progress = .loaded ∧ s.exch.announcement = none then { s with exch := { s.exch with sent := true } }.sendFrames (framesFor n.imageLen) (.image n.digest true) else s
    | none => s
  else s

/-- Step 4 of a restart command (R71), after the completion of its delivering cycle: RESTART_GO to a partner module it names, and where it names this module
alone, control is released first. -/
def restartStep4 (s : State) : State :=
  match s.pair.restartWait with
  | some r =>
    let s := if r.2.2 then s.sendFrame (.restartGo false) else s
    let s := { s with pair := { s.pair with restartWait := none, restartAcked := false } }
    if r.2.1 then
      (if r.2.2 then { s with pair := { s.pair with restartGoDue := some false } }
      else
        let s := dropClaim (stopLanes (cancelHandover s))
        { s with pair := { s.pair with restartGoDue := some true } })
    else s
  | none => s

/-- Closure steps 3 and 4 of a cycle whose step 2 has ended. -/
def releaseCycle (i : Nat) (s : State) : State :=
  let t0 := s.task i
  let s := closureStep4 i (writeStatuses (closureStep3 i s))
  let s := match s.taskCfg i with | some c => recordLoad i c t0 s | none => s
  let t := s.task i
  let s := s.setTask i { t with phase := .idle, lastClosed := t.cycle, released := t.cycle, deliveries := [], tagOps := [], roleOps := [], msgOps := [], regOps := [], commits := [],
                                postOps := [], wbOps := [], canOps := [], objOps := [], ovlOps := [], retOps := [], refusedOps := [], goneOps := [], taken := [] }
  if i = 0 then restartStep4 (resyncCapture s) else s

/-! Commands. -/

/-- A module that runs cycles: ACTIVE with a confirmed claim, and not about to restart. -/
def State.running (s : State) : Bool := decide (s.mode = .active) && s.claim.confirmed

/-- The present quantum is the hand-over quantum or later: no task freezes (R252). -/
def State.handingOver (s : State) : Bool := s.pair.handoverWait || (match s.pair.handoverQ with | some q => s.pair.handoverAcked && decide (q ≤ s.gridQuantum) | none => false)

/-- Task i is due to freeze on the present quantum and has not. -/
def State.mayFreeze (s : State) (i : Nat) : Bool := s.freezeDue i && decide ((s.task i).phase = .idle) && decide ((s.task i).frozenQ ≠ s.gridQuantum + 1)

/-- TASK_FREEZE (R116, R120, R122, R509): of the freezes on one quantum the lower-numbered task's comes first. A task without blocks closes at once. In STANDBY the
timetable ticks and no cycle runs; the freeze of T0 is where module-wide buffered writes take effect (R132, R414). -/
def execTaskFreeze (task : Fin 8) (s : State) : Host.Outcome State Fault Refusal :=
  let i := task.val
  .next (if s.running && s.mayFreeze i && (List.range i).all (fun j => !s.mayFreeze j) && !s.handingOver then
      let s := startLanes i (freezeCore i s)
      if s.step1Ended i then closureStep2 i s else s
    else if s.mode = .standby ∧ i = 0 ∧ s.dueNow 0 then execApplyHeld s
    else s)

/-- The budget instant of task i's open cycle has come: the freeze instant plus the budget share of the period, on the counter's own running time (R124, R136). -/
def State.budgetOver (s : State) (i : Nat) (c : TaskCfg) : Bool := decide ((s.task i).freezeRan + c.budgetPct * c.periodQ * 2500 * 2 ^ 32 ≤ s.time.ran)

/-- CLOSURE_RELEASE (R123, R124): step 3 follows step 2 in release mode immediate. -/
def execClosureRelease (task : Fin 8) (s : State) : Host.Outcome State Fault Refusal :=
  let i := task.val
  .next (match s.taskCfg i with
    | some c => if s.running && decide ((s.task i).phase = .ready) && !c.aligned then releaseCycle i s else s
    | none => s)

/-- ALIGNED_RELEASE (R124): step 3 at the budget instant in release mode aligned. -/
def execAlignedRelease (task : Fin 8) (s : State) : Host.Outcome State Fault Refusal :=
  let i := task.val
  .next (match s.taskCfg i with
    | some c => if s.running && decide ((s.task i).phase = .ready) && c.aligned && s.budgetOver i c then releaseCycle i s else s
    | none => s)

/-- PHASE code of EXEC_OVERRUN: execute, compare while a lane of the task compares a re-execution, or closure step 2. -/
def State.overrunPhase (s : State) (i : Nat) : Nat :=
  if (s.task i).phase = .execute then (if (s.taskLanes i).any (fun n => (s.lane n).mismatch.isSome) then 2 else 1) else 3

/-- The fault record of a retirement whose migration is in progress carries OVERRAN (R181). -/
def markOverran (i : Nat) (s : State) : State :=
  let lanes := (s.taskLanes i).flatMap (fun n => (s.lane n).restartOn)
  { s with mram := { s.mram with faultRing := s.mram.faultRing.map (fun f =>
      if f.lane ∈ lanes ∧ f.outcome = 1 ∧ f.task = i ∧ f.cycle = (s.task i).cycle then { f with outcome := 4 } else f) } }

/-- OVERRUN_WATCHDOG (R136, R137): at the budget instant a cycle that has not reached its closure step 3, or in release mode aligned the end of step 2. -/
def execOverrunWatchdog (task : Fin 8) (lane : Fin 16) (s : State) : Host.Outcome State Fault Refusal :=
  let i := task.val
  let t := s.task i
  .next (match s.taskCfg i with
    | some c =>
      if s.running && decide (t.phase ≠ .idle) && !(c.aligned && decide (t.phase = .ready)) && s.budgetOver i c then
        let s := { s with mram := { s.mram with overrun := some (i, s.overrunPhase i, lane.val, t.cycle % 65536) } }
        enterHalt 1 ((markOverran i s).raise Ev.EXEC_OVERRUN)
      else s
    | none => s)

/-- The slowest of the measured paces: lane, copy, Mop/s. -/
def slowest : List (Nat × Nat × Nat) → Option (Nat × Nat × Nat)
  | [] => none
  | p :: t => match slowest t with
    | some q => if q.2.2 < p.2.2 then some q else some p
    | none => some p

/-- PACE_WINDOW (R135). -/
def execPaceWindow (paces : List (Nat × Nat × Nat)) (s : State) : Host.Outcome State Fault Refusal :=
  .next (match slowest paces with
    | some p =>
      if s.mode = .active ∨ s.mode = .standby then
        let first := decide (s.get Reg.EXEC_PACE_MIN_PACE_MIN = 0xFFFF)
        let was := s.get Reg.EXEC_PACE_MARGIN_PCT
        let m := satTo 16 (p.2.2 * 100 / 700)
        let s := (s.put Reg.EXEC_PACE_PACE_NOW (satTo 16 p.2.2)).put Reg.EXEC_PACE_MARGIN_PCT m
        let s := if satTo 16 p.2.2 < s.get Reg.EXEC_PACE_MIN_PACE_MIN then
            ((s.put Reg.EXEC_PACE_MIN_PACE_MIN (satTo 16 p.2.2)).put Reg.EXEC_PACE_MIN_LANE p.1).put Reg.EXEC_PACE_MIN_COPY p.2.1
          else s
        let s := s.raiseIf (decide (m < 107) && (first || decide (107 ≤ was))) Ev.EXEC_PACE_LOW
        s.raiseIf (decide (m < 100) && (first || decide (100 ≤ was))) Ev.EXEC_PACE_BELOW_GUARANTEE
      else s
    | none => s)

end Sys2Proof.Machine
end

