-- ==== Sys2Proof/Machine/Lanes.lean ====
section
/-! DEFINITION. Paired copies inside each lane (R121, R163 to R187): the input gate, checkpoints, rollback, retirement and migration, memory
errors, the scrubber and the background built-in test. -/

namespace Sys2Proof.Machine

/-! Store buffers and comparison (R166, R170). -/

/-- The bits that a byte mask selects. -/
def maskBits (m : Nat) : DWord := BitVec.ofNat 64 ((List.range 8).foldl (fun n k => if m.testBit k then n + 255 * 2 ^ (8 * k) else n) 0)

/-- A store enters a buffer in address order: stores to the same aligned 8-byte word merge into one entry (R166). -/
def bufferPut (e : Nat × Nat × DWord) : List (Nat × Nat × DWord) → List (Nat × Nat × DWord)
  | [] => [e]
  | x :: t =>
    if e.1 < x.1 then e :: x :: t
    else if e.1 = x.1 then (x.1, x.2.1 ||| e.2.1, (x.2.2 &&& ~~~ maskBits e.2.1) ||| (e.2.2 &&& maskBits e.2.1)) :: t
    else x :: bufferPut e t

/-- The store buffer that a copy's stores leave: word address, mask, data (R164, R166). -/
def storeBuffer (l : List (Nat × Nat × DWord)) : List (Nat × Nat × DWord) := l.foldl (fun b e => bufferPut (e.1 / 8 * 8, e.2.1 % 256, e.2.2) b) []

/-- A register-file write as the signature takes it: number in 2 bytes, 2 bytes of 0, value in 8. -/
def regRecord (w : Nat × DWord) : List Byte := leBytes 2 w.1 ++ leBytes 2 0 ++ leBytes 8 w.2.toNat

/-- A store buffer entry: word address, mask, 7 bytes of 0, data. -/
def storeRecord (e : Nat × Nat × DWord) : List Byte := leBytes 8 e.1 ++ leBytes 1 e.2.1 ++ leBytes 7 0 ++ leBytes 8 e.2.2.toNat

/-- Register signature of a copy. -/
def regSignature (r : CopyReport) : Word := crc32c (r.regWrites.flatMap regRecord)

/-- Store content check of a copy, entries in address order. -/
def storeCheck (r : CopyReport) : Word := crc32c ((storeBuffer r.stores).flatMap storeRecord)

/-- Gate request check of a copy: each request word in 8 bytes, low byte first (assumption 111). -/
def gateCheck (r : CopyReport) : Word := crc32c (r.gates.flatMap (fun g => leBytes 8 g.toNat))

/-- The DIFF bits of a comparison (R170, R187); injA and injB invert bit 0 of a copy's signature (R185). -/
def compareCopies (a b : CopyReport) (injA injB : Bool) : Nat :=
  let flip (x : Bool) (w : Word) : Word := if x then w ^^^ 1#32 else w
  b2n (decide (flip injA (regSignature a) ≠ flip injB (regSignature b))) + 2 * b2n (decide ((storeBuffer a.stores).length ≠ (storeBuffer b.stores).length))
    + 4 * b2n (decide (storeCheck a ≠ storeCheck b)) + 8 * b2n (decide (gateCheck a ≠ gateCheck b))

/-! Retirement (R131, R180, R182, R183). -/

/-- Recovered mismatches of a lane within the last 10 s (R179). -/
def State.recoveredCount (s : State) (n : Nat) : Nat := ((s.lane n).recovered.filter (fun t => decide (s.time.tick < t + ticksOfMs 10000))).length

/-- The lane has reached FLAKY_LIMIT within some 10 s (R179). -/
def State.flaky (s : State) (n : Nat) : Bool := (s.lane n).flakyDue || decide (s.get Reg.CMP_CTRL_FLAKY_LIMIT ≤ s.recoveredCount n)

/-- What a fault record says of the place and the instant of its fault (R187). -/
structure FaultAt where
  block : Nat
  ckpt : Nat
  time : DWord
  deriving DecidableEq, Repr

/-- The block in progress, its checkpoint and the present instant. -/
def State.faultNow (s : State) (n : Nat) : FaultAt := ⟨(s.lane n).block.getD 0, (s.lane n).ckpt, s.ts⟩

/-- Work of a retired lane passes to a spare (R180): the block in progress restarts from its beginning, its commits discarded, once the spare has left its
self-test, and the remaining blocks follow. A migration that was in progress on the retired lane goes on. -/
def migrateTo (n spare : Nat) (s : State) : State :=
  let l := s.lane n
  let s := match l.task, l.block with | some i, some b => undoBlock i n b s | _, _ => s
  s.setLane spare { s.lane spare with
    task := l.task, asLane := some (l.asLane.getD n), block := l.block, waiting := l.waiting, starting := l.block.isSome,
    restartOn := if l.block.isSome then n :: l.restartOn else [], ckpt := 0, shadowA := [], shadowB := [], gateLog := [], gotA := [], gotB := [], mismatch := none,
    since := s.time.ran }

/-- A lane serving a task is retired in an active module: a spare takes its blocks, or self-diagnosis gives up control (R131, R180). -/
def retireServing (n i : Nat) (kinds : List Nat) (diff : Nat) (p : FaultAt) (s : State) : State :=
  let spare := s.lowestSpare
  let rec_ (kind : Nat) : FaultRec := ⟨kind, n, i, if spare.isSome then 1 else 2, p.block, (s.task i).cycle, p.time, diff, spare.getD 0xFF, p.ckpt⟩
  let s := match spare with | some k => (migrateTo n k s).raise Ev.EXEC_LANE_MIGRATED | none => s
  let s := (retireMark n (forEach kinds (fun k s => writeFault (rec_ k) s) s)).raise Ev.CMP_LANE_RETIRED
  let s := s.raiseIf (decide (128 ≤ diff)) Ev.CMP_INJECT_DONE
  if spare.isSome then s else enterHalt 2 s

/-- A free spare, or a lane of a module that runs no program, is retired (R183): SPARE_LOST, and in STANDBY HALT when the lanes no longer cover
the timetable. -/
def retireIdle (n : Nat) (kinds : List Nat) (diff : Nat) (s : State) : State :=
  let l := s.lane n
  let spare := if l.task.isSome then s.lowestSpare else none
  let rec_ (kind : Nat) : FaultRec := ⟨kind, n, 0xFF, 3, 0, 0, s.ts, diff, spare.getD 0xFF, 0⟩
  let s := match spare with | some k => migrateTo n k s | none => s
  let s := (retireMark n (forEach kinds (fun k s => writeFault (rec_ k) s) s)).raise Ev.CMP_LANE_RETIRED
  let s := s.raiseIf (decide (128 ≤ diff)) Ev.CMP_INJECT_DONE
  let required := match s.img with | some i => i.spares | none => 0
  let s := s.raiseIf ((l.task.isNone || spare.isSome) && decide (s.freeSpares.length < required)) Ev.EXEC_SPARE_LOST
  if (s.mode = .standby ∨ s.mode = .starting) ∧ !s.lanesCover then enterHalt 9 s else s

/-- A lane is retired, with a fault record of each kind given (R175, R177, R179, R184). -/
def retireLane (n : Nat) (kinds : List Nat) (diff : Nat) (p : FaultAt) (s : State) : State :=
  match (s.lane n).task with
  | some i => if s.mode = .active then retireServing n i kinds diff p s else retireIdle n kinds diff s
  | none => retireIdle n kinds diff s

/-! Checkpoints (R164 to R171, R177 to R179, R184, R185). -/

/-- The injection that meets the lane's next checkpoint (R185), as flags for copies A and B. -/
def State.injected (s : State) (n : Nat) : Bool × Bool :=
  match (s.lane n).inject with
  | some (c, _) => (decide (c = 0), decide (c = 1))
  | none => (false, false)

/-- The register file after an interval, in the checkpoint shadow (R171). -/
def shadowAfter (old : List (Nat × DWord)) (w : List (Nat × DWord)) : List (Nat × DWord) :=
  w.foldl (fun r x => (r.filter (fun (e : Nat × DWord) => decide (e.1 ≠ x.1))) ++ [x]) old

/-- Lane time of 4 µs, counted on the counter's running time (R169). -/
def intervalTime : Nat := 4000 * 2 ^ 32

/-- A checkpoint can fall here (R166, R167, R169, R174): neither copy holds more than 512 buffered words or leads by more than 4,096 operations, and the cause
stands: 4 µs have passed, a store buffer or the gate log is full. -/
def State.ckptFalls (s : State) (c : Checkpoint) : Bool :=
  let l := s.lane c.lane
  let a := (storeBuffer c.copyA.stores).length
  let b := (storeBuffer c.copyB.stores).length
  decide (a ≤ 512) && decide (b ≤ 512) && decide (c.lead ≤ 4096) && (match c.cause with
    | .blockEnd => true
    | .interval => decide (l.since + intervalTime ≤ s.time.ran)
    | .storeFull => decide (a = 512) || decide (b = 512)
    | .gateFull => decide (l.gateLog.length = 256))

/-- LEAD_MAX and GATE_MAX take in an interval, however it ends (R168). -/
def noteLag (c : Checkpoint) (s : State) : State :=
  (s.atLeast (Reg.CMP_LANE_LAG_LEAD_MAX c.lane) c.lead).atLeast (Reg.CMP_LANE_LAG_GATE_MAX c.lane) (s.lane c.lane).gateLog.length

/-- A copy's report with the request words that the gate took from it. -/
def withGates (r : CopyReport) (got : List (DWord × DWord)) : CopyReport := { r with gates := got.map (·.1) }

/-- A comparison at a checkpoint of a block. -/
def State.compareAt (s : State) (c : Checkpoint) (inj : Bool × Bool) : Nat :=
  let l := s.lane c.lane
  compareCopies (withGates c.copyA l.gotA) (withGates c.copyB l.gotB) inj.1 inj.2

/-- A checkpoint that compares clean (R164, R171): copy A's stores commit, its register file goes into both shadows, and the gate log is released. A block end
leads to the lane's next block, on the spare if the lane is due for retirement (R176, R180 step 5). -/
def commitCheckpoint (i : Nat) (c : Checkpoint) (s : State) : State :=
  let s := commitStores i c.lane c.block c.unit c.effects (takeUnits c s)
  let l := s.lane c.lane
  let regs := shadowAfter l.shadowA c.copyA.regWrites
  let s := s.setLane c.lane { l with ckpt := l.ckpt + 1, shadowA := regs, shadowB := regs, gateLog := [], gotA := [], gotB := [], since := s.time.ran }
  match c.cause with
  | .blockEnd =>
    let s := s.setLane c.lane { s.lane c.lane with restartOn := [] }
    let s := s.setTask i { s.task i with blocksDone := addOnce c.block (s.task i).blocksDone }
    let p : FaultAt := ⟨c.block, l.ckpt, s.ts⟩
    let s := startBlock i c.lane s
    let s := if l.dueRetire then retireLane c.lane [4] 0 p s else s
    if s.mode = .active ∧ s.step1Ended i then closureStep2 i s else s
  | _ => s

/-- A mismatch (R177 steps 1 and 2): the buffers are discarded, the copies take their register files from the shadow and re-execute from the gate log. -/
def mismatchAt (n diff kind : Nat) (s : State) : State :=
  let l := s.lane n
  s.setLane n { l with mismatch := some ⟨diff, kind, s.ts, l.ckpt⟩, shadowB := l.shadowA, gotA := [], gotB := [] }

/-- The lane runs a block now. -/
def State.laneRuns (s : State) (n : Nat) : Option Nat :=
  let l := s.lane n
  if s.running && s.laneOk n && l.block.isSome && !l.waiting && !l.starting then
    (match l.task with | some i => if (s.task i).phase = .execute then some i else none | none => none)
  else none

/-- Both copies were refused alike (R184, R442). -/
def State.bothRefused (s : State) (c : Checkpoint) : Bool := (s.laneUnits c).1.2.isSome && decide ((s.laneUnits c).1.2 = (s.laneUnits c).2.2)

/-- One copy was refused what the other was not. -/
def State.oneRefused (s : State) (c : Checkpoint) : Bool := decide ((s.laneUnits c).1.2 ≠ (s.laneUnits c).2.2)

/-- Comparison at a checkpoint that has not yet rolled back. A refusal in one copy shows no DIFF bit (assumption 110). -/
def firstCompare (i : Nat) (c : Checkpoint) (s : State) : State :=
  if s.bothRefused c then enterHalt 7 (noteRefusals c s)
  else if s.oneRefused c then (mismatchAt c.lane 0 7 (noteRefusals c s)).raise Ev.CMP_PROT_ONE_COPY
  else
    let inj := s.injected c.lane
    let armed := inj.1 || inj.2
    let diff := s.compareAt c inj
    if diff = 0 then commitCheckpoint i c s
    else
      let repeats := match (s.lane c.lane).inject with | some (_, r) => r | none => false
      let s := if armed && !repeats then s.setLane c.lane { s.lane c.lane with inject := none } else s
      mismatchAt c.lane (diff + 128 * b2n armed) 1 s

/-- CHECKPOINT (R169, R170): a flaky lane is retired; otherwise the copies are compared. -/
def execCheckpoint (c : Checkpoint) (s : State) : Host.Outcome State Fault Refusal :=
  .next (match s.laneRuns c.lane with
    | some i =>
      if (s.lane c.lane).mismatch.isSome ∨ (s.lane c.lane).block ≠ some c.block ∨ !s.ckptFalls c then s
      else if s.flaky c.lane then retireLane c.lane [3] 0 (s.faultNow c.lane) (noteLag c s)
      else firstCompare i c (noteLag c s)
    | none => s)

/-- Fault record kinds of a mismatch (R177, R184): that of its outcome, and before it that of a cause with a kind of its own, a refusal in one copy or a
divergence at the gate (assumption 61). -/
def mismatchKinds (m : Mismatch) (outcome : Nat) : List Nat := if m.kind = 1 then [outcome] else [m.kind, outcome]

/-- A lane has recovered from a mismatch: counted toward FLAKY_LIMIT (R179). -/
def noteRecovered (n : Nat) (s : State) : State :=
  let l := s.lane n
  let s := s.setLane n { l with mismatch := none, recovered := (l.recovered.filter (fun t => decide (s.time.tick < t + ticksOfMs 10000))) ++ [s.time.tick] }
  s.setLane n { s.lane n with flakyDue := s.flaky n }

/-- A recovered mismatch (R177 step 4). -/
def recordRecovered (i n diff : Nat) (m : Mismatch) (s : State) : State :=
  let f (kind : Nat) : FaultRec := ⟨kind, n, i, 0, (s.lane n).block.getD 0, (s.task i).cycle, m.time, diff, 0xFF, m.ckpt⟩
  let s := forEach (mismatchKinds m 1) (fun k s => writeFault (f k) s) (noteRecovered n s)
  ((s.inc Reg.CMP_ROLLBACKS_COUNT).raise Ev.CMP_ROLLBACK).raiseIf (decide (128 ≤ diff)) Ev.CMP_INJECT_DONE

/-- The second comparison of an interval (R177 steps 4 and 5, R178). -/
def secondCompare (i : Nat) (c : Checkpoint) (m : Mismatch) (s : State) : State :=
  let inj := s.injected c.lane
  let armed := inj.1 || inj.2
  let p : FaultAt := ⟨c.block, m.ckpt, m.time⟩
  let bit7 := if armed || decide (128 ≤ m.diff) then 128 else 0
  let again := s.compareAt c inj
  let s := if armed then s.setLane c.lane { s.lane c.lane with inject := none } else s
  if s.bothRefused c then enterHalt 7 (noteRefusals c s)
  else if s.oneRefused c then retireLane c.lane (mismatchKinds { m with kind := 7 } 2) bit7 p ((noteRefusals c s).raise Ev.CMP_PROT_ONE_COPY)
  else if again = 0 then commitCheckpoint i c (recordRecovered i c.lane (m.diff % 128 + bit7) m s)
  else retireLane c.lane (mismatchKinds m 2) (again + bit7) p s

/-- REEXECUTION_COMPARE (R177 steps 4 and 5, R178). -/
def execReexecutionCompare (c : Checkpoint) (s : State) : Host.Outcome State Fault Refusal :=
  .next (match s.laneRuns c.lane, (s.lane c.lane).mismatch with
    | some i, some m => if (s.lane c.lane).block ≠ some c.block ∨ !s.ckptFalls c then s else secondCompare i c m (noteLag c s)
    | _, _ => s)

/-! The input gate (R172 to R174). -/

/-- A copy's reads through the gate in the interval. -/
def gotOf (copy : Fin 2) (l : Lane) : List (DWord × DWord) := if copy = 0 then l.gotA else l.gotB

/-- A copy has been returned a value. -/
def giveValue (copy : Fin 2) (request value : DWord) (l : Lane) : Lane :=
  if copy = 0 then { l with gotA := l.gotA ++ [(request, value)] } else { l with gotB := l.gotB ++ [(request, value)] }

/-- GATED_READ (R173, R174): a read for which the log holds no entry yet commits the sample; any other is checked against its entry and takes the committed
value. A re-execution reads the log from its first entry on. A full log waits for a checkpoint. A divergence is a mismatch at once, and in a re-execution it
retires the lane (R178). -/
def execGatedRead (lane : Fin 16) (copy : Fin 2) (request sample : DWord) (s : State) : Host.Outcome State Fault Refusal :=
  let n := lane.val
  let l := s.lane n
  .next (if (s.laneRuns n).isNone then s
    else match l.gateLog[(gotOf copy l).length]? with
      | some e =>
        if e.request = request then s.setLane n (giveValue copy request e.value l)
        else (match l.mismatch with
          | none => (mismatchAt n 8 6 s).raise Ev.CMP_GATE_DIVERGE
          | some m => retireLane n (mismatchKinds { m with kind := 6 } 2) (8 + m.diff / 128 * 128) ⟨l.block.getD 0, m.ckpt, m.time⟩ (s.raise Ev.CMP_GATE_DIVERGE))
      | none =>
        if l.gateLog.length < 256 then s.setLane n (giveValue copy request sample { l with gateLog := l.gateLog ++ [⟨request, sample⟩] }) else s)

/-! Barriers and spares. -/

/-- BARRIER_RELEASE (R121); the wait is no lane time (R169). -/
def execBarrierRelease (lane : Fin 16) (s : State) : Host.Outcome State Fault Refusal :=
  let l := s.lane lane.val
  .next (match l.task, l.block with
    | some i, some b => if l.waiting && s.barrierOpen i b then s.setLane lane.val { l with waiting := false, since := s.time.ran } else s
    | _, _ => s)

/-- SPARE_TAKEOVER (R180): the spare has left its self-test and starts the retired lane's block. -/
def execSpareTakeover (lane : Fin 16) (s : State) : Host.Outcome State Fault Refusal :=
  let l := s.lane lane.val
  .next (if l.starting then s.setLane lane.val { l with starting := false, since := s.time.ran } else s)

/-! Memory errors (R175, R176, R192). -/

/-- Lanes and shared memory are in use: in STANDBY and ACTIVE, and from step 10 of a start (R65). -/
def State.memoryUp (s : State) : Bool :=
  decide (s.mode = .standby) || decide (s.mode = .active) || (decide (s.mode = .starting) && decide (s.start.step = 10))

/-- The standby's answer to an unreadable word: its copy is stale and it asks for resynchronisation. -/
def askAgain (s : State) : State := if s.pair.linkUp then { s with pair := { s.pair with resync := true } }.sendFrame (.resyncReq none) else s

/-- An uncorrectable error in shared memory. A fault record names no lane for it, and in ACTIVE no outcome of the table fits: both are free values
(assumption 4). Outside ACTIVE, STANDBY and a start from step 10 on the table gives it no handling: it is raised only. -/
def sharedUncorrectable (word : Nat) (s : State) : State :=
  let s := s.raise Ev.CMP_ECC_SHARED_UNCORR
  let a := s.free
  let b := a.2.free
  let s := b.2
  let f (outcome : Nat) : FaultRec := ⟨5, a.1.toNat % 16, 0xFF, outcome, 0, 0, s.ts, 0, 0xFF, 0⟩
  let seen := decide (word ∈ s.pair.unreadable)
  if s.mode = .active then enterHalt 4 (writeFault (f (b.1.toNat % 7)) s)
  else if s.mode = .standby then
    let s := writeFault (f 6) s
    if seen ∧ s.pair.copyCurrent then enterHalt 8 s
    else askAgain (markStale { s with pair := { s.pair with unreadable := addOnce word s.pair.unreadable } })
  else if s.mode = .starting ∧ s.start.path11b then startFault 0xB (writeFault (f (b.1.toNat % 7)) s)
  else if s.mode = .starting ∧ s.start.path11a then
    let s := writeFault (f 6) s
    if seen then startFault 8 s else askAgain { s with pair := { s.pair with unreadable := addOnce word s.pair.unreadable } }
  else s

/-- One error: corrected and counted, or handled as uncorrectable; the scrubber retires a serving lane only at its next block end. An uncorrectable word of
MRAM is a failed check of the structure that holds it (R192). -/
def eccHandle (scrub : Bool) (f : EccFinding) (s : State) : State :=
  match f.site, f.correctable with
  | .laneLocal n, true => if 16 ≤ n then s else ((s.inc Reg.CMP_ECC_COUNT_LOCAL).inc (Reg.CMP_LANE_STAT_ECC_LOCAL n)).raise Ev.CMP_ECC_CORRECTED
  | .shared _, true => (s.inc Reg.CMP_ECC_COUNT_SHARED).raise Ev.CMP_ECC_CORRECTED
  | .mram _, true => s
  | .mramWord _, true => s
  | .laneLocal n, false =>
    if !s.laneOk n ∨ 16 ≤ n then s
    else
      let s := s.raise Ev.CMP_ECC_LANE_UNCORR
      if scrub && decide (s.mode = .active) && (s.lane n).task.isSome then s.setLane n { s.lane n with dueRetire := true }
      else if s.memoryUp then retireLane n [4] 0 (s.faultNow n) s
      else s
  | .shared w, false => sharedUncorrectable w s
  | .mram x, false => spoil x s
  | .mramWord a, false => spoilAt a s

/-- ECC_ERROR (R175). -/
def execEccError (f : EccFinding) (s : State) : Host.Outcome State Fault Refusal :=
  .next (if s.powered then eccHandle false f s else s)

/-- SCRUB_PASS (R176). -/
def execScrubPass (findings : List EccFinding) (s : State) : Host.Outcome State Fault Refusal :=
  .next (if s.mode = .standby ∨ s.mode = .active then forEach findings (fun f s => eccHandle true f s) s else s)

/-! Background built-in test (R183, R185). -/

/-- A lane that the background test visits: every lane in STANDBY, free spares in ACTIVE. -/
def State.visits (s : State) (n : Nat) : Bool :=
  s.laneOk n && (decide (s.mode = .standby) || (decide (s.mode = .active) && (s.lane n).task.isNone))

/-- The DIFF bits of a vector's run: the copies compared with each other, and each with what the vector asks for (R183). -/
def vectorDiff (v : VectorRun) (inj : Bool × Bool) : Nat :=
  compareCopies v.copyA v.copyB inj.1 inj.2 ||| compareCopies v.copyA v.known inj.1 false ||| compareCopies v.copyB v.known inj.2 false

/-- A vector that fails runs again; clean the second time is a recovered mismatch. -/
def bistVerdict (n : Nat) (first second : VectorRun) (s : State) : State :=
  let inj := s.injected n
  let armed := inj.1 || inj.2
  let repeats := match (s.lane n).inject with | some (_, r) => r | none => false
  let bit7 := if armed then 128 else 0
  let one := vectorDiff first inj
  let two := vectorDiff second (if repeats then inj else (false, false))
  let s := if armed then s.setLane n { s.lane n with inject := none } else s
  if one = 0 then s
  else if two = 0 then
    let f : FaultRec := ⟨1, n, 0xFF, 0, 0, 0, s.ts, one + bit7, 0xFF, 0⟩
    let s := writeFault f (noteRecovered n s)
    ((s.inc Reg.CMP_ROLLBACKS_COUNT).raise Ev.CMP_ROLLBACK).raiseIf armed Ev.CMP_INJECT_DONE
  else retireIdle n [2] (two + bit7) s

/-- BIST_VISIT (R183): a flaky lane is retired at this comparison too (R179). -/
def execBistVisit (lane : Fin 16) (first second : VectorRun) (s : State) : Host.Outcome State Fault Refusal :=
  let n := lane.val
  .next (if s.visits n then (if s.flaky n then retireIdle n [3] 0 s else bistVerdict n first second s) else s)

end Sys2Proof.Machine
end

