-- ==== Sys2Proof/Machine/Journal.lean ====
section
/-! DEFINITION. Commands of the journal engine (R202 to R206, R214, R216): the end of the mirror wait,
expiry, client checkpoints and eviction, and snapshots. -/

namespace Sys2Proof.Machine

/-- The waybill in the slot of a SEQ, while its STATE is LOCAL. -/
def State.localAt (s : State) (seq : Nat) : Option Waybill :=
  match Tab.get? s.mram.ring (seq % ringSlots) with
  | some (.waybill w) => if w.seq = seq ∧ w.state = .localOnly then some w else none
  | _ => none

/-- A client waits for the outcome of a waybill: it is between steps 2 and 5 of R202. -/
def State.inAcceptance (s : State) (wseq : Nat) : Bool := s.jrn.waiters.any (fun x => decide (x.waybillSeq = wseq))

/-- MIRROR_TIMEOUT (R203): the wait of 2 ms ends; inside the doubt window the submission waits on (R231). -/
def execMirrorTimeout (seq : Nat) (s : State) : Host.Outcome State Fault Refusal :=
  .next (match s.localAt seq with
    | some w => if s.mode = .active ∧ s.inAcceptance w.waybillSeq ∧ !s.pair.doubt then (withoutPartner w.waybillSeq s).raise Ev.JRN_MIRROR_TIMEOUT else s
    | none => s)

/-- UNCONFIRMED_EXPIRY (R214). -/
def execUnconfirmedExpiry (seq : Nat) (s : State) : Host.Outcome State Fault Refusal :=
  .next (match s.localAt seq with
    | some w => if s.mode = .active ∧ !s.inAcceptance w.waybillSeq ∧ (s.completionOf w.waybillSeq).isNone then expire w s else s
    | none => s)

/-- Modes in which the journal engine works. -/
def State.journalUp (s : State) : Bool := decide (s.mode = .standby) || decide (s.mode = .active)

/-- CLIENT_CHECKPOINT (R206). -/
def execClientCheckpoint (s : State) : Host.Outcome State Fault Refusal := .next (if s.journalUp then writeCheckpoint s else s)

/-- CLIENT_EVICTION (R205): an identity silent for longer than CLIENT_RETAIN, in operating minutes (R206). -/
def execClientEviction (clientId : Nat) (s : State) : Host.Outcome State Fault Refusal :=
  .next (match Tab.get? s.jrn.clients clientId with
    | some x => if s.journalUp && decide (x.lastMinute + 60 * s.policy.retainH < s.mram.opMinutes) then
        { s with jrn := { s.jrn with clients := Tab.erase s.jrn.clients clientId } } else s
    | none => s)

/-- SNAPSHOT_CAPTURE (R216): at a quantum tick, into the older slot. A copy under resynchronisation is not captured (assumption 26). -/
def execSnapshotCapture (s : State) : Host.Outcome State Fault Refusal :=
  .next (if s.journalUp && s.ctlLoaded && !(decide (s.mode = .standby) && s.pair.resync) then writeSnapshot s else s)

end Sys2Proof.Machine
end

