-- ==== Sys2Proof/Machine/Link.lean ====
section
/-! DEFINITION. The coupling (R221 to R237, R357, R377): accepting frames, deltas at the standby module, mirrors, images, the coupling counted
down, the doubt window, and resynchronisation. -/

namespace Sys2Proof.Machine

/-! What the partner module's state means (R126, R160, R233, R237, R253). -/

/-- Cycles that wait for an acknowledgement close without it (R126). -/
def releaseWaits (waiting : List Nat) (s : State) : State := forEach waiting (fun i s => deltaDone i (closesAlone i s)) s

/-- Before commitment the partner module left STANDBY or the coupling went down (R160). -/
def leaveExchange (s : State) : State :=
  if s.mode = .active ∧ s.exch.image.isSome ∧ !s.exchangeCommitted then
    (if !s.exch.unpartneredOk then abandonExchange s
    else if s.exch.progress = .loaded then commitAlone (if s.exch.announcement.isSome then s else announceExchange s)
    else s)
  else s

/-- The partner module no longer holds a current copy: it counts as absent and no acknowledgement is awaited (R233). -/
def countAbsent (s : State) : State := releaseWaits s.pair.awaitingDelta (partnerLost s)

/-- The partner module leaves STANDBY. -/
def partnerLeaves (m : Mode) (s : State) : State :=
  let s := leaveExchange s
  let s := if s.pair.handoverWait then s else cancelHandover s
  if m = .standby ∨ m = .active then s else countAbsent s

/-- A resynchronisation ends without result (R237). -/
def resyncEnds (s : State) : State :=
  { s with pair := { s.pair with resync := false, resyncSending := false, resyncAsked := false, pages := 0, pagesHeld := [], heldRecs := [], controlSet := false } }

/-- What a change of the partner module's state means for a module at step 10, which chooses again by it, or for a stale one, which asks for
resynchronisation (R62, R234). -/
def joinPartner (m : Mode) (s : State) : State :=
  match s.pair.partnerHello with
  | some h => decideAgain h m s
  | none => requestResync s

/-- The partner module's state and STALE flag as a frame carries them. -/
def partnerIs (m : Mode) (stale : Bool) (s : State) : State :=
  let was := s.pair.partnerMode
  let s := { s with pair := { s.pair with partnerMode := some m } }
  let s := if stale && s.pair.partnerCurrent then countAbsent s else s
  if was = some m then s
  else
    let s := if was = some .standby then partnerLeaves m s else s
    let s := if m ≠ .active ∧ s.mode ≠ .active then resyncEnds s else s
    joinPartner m s

/-! Frames (R225). -/

/-- A message of that KIND is accepted (R224, R225): the check verifies, LINK_SEQ is the next expected, SESSION and PAIR_TAG match; its frames are whole
and in order. -/
def State.takes (s : State) (kind : Nat) (h : LinkHdr) : Bool :=
  frameCrcOk h && decide (h.hdr.kind = kind) && decide (h.payload.length ≤ 4096) && h.hdr.last && decide (h.hdr.chunk + 1 = h.hdr.chunks)
    && decide (h.hdr.first = decide (h.hdr.chunks = 1)) && decide (h.hdr.linkSeq = (s.pair.rxNext + h.hdr.chunk) % 2 ^ 32)
    && decide (h.hdr.session = s.pair.session) && decide (h.hdr.pairTag = s.pairTag)

/-- An accepted message has its effect f; every other is discarded (R225), and so is one whose STATE does not exist, which is corrupt (R2). -/
def frame (kind : Nat) (h : LinkHdr) (f : State → State) (s : State) : State :=
  if !s.powered ∨ s.mode = .terminus ∨ !s.pair.linkUp then s
  else match s.takes kind h, modeOfCode h.hdr.state with
    | true, some m => f (partnerIs m h.hdr.stale { s with pair := { s.pair with rxNext := (h.hdr.linkSeq + 1) % 2 ^ 32, peerAck := h.hdr.ack } })
    | _, _ => s.inc Reg.CPL_LINK_ERR_CRC_ERR

/-- IDLE (R225): sent where nothing has been sent for 1 µs, or received. -/
def execIdle (received : Option LinkHdr) (s : State) : Host.Outcome State Fault Refusal :=
  .next (match received with
    | some h => frame 0x00 h (fun s => s) s
    | none => if s.powered && s.pair.linkUp then s.sendFrame .idle else s)

/-- Frames sent that ACK_LINK_SEQ has not covered (R225). -/
def State.uncovered (s : State) : Nat := (s.pair.txNext + 2 ^ 32 - (s.pair.peerAck + 1) % 2 ^ 32) % 2 ^ 32

/-- FRAME_RESEND (R225): every frame from the first that ACK_LINK_SEQ has not covered. -/
def execFrameResend (s : State) : Host.Outcome State Fault Refusal :=
  .next (if s.powered && s.pair.linkUp && decide (s.uncovered ≠ 0) then
      (s.put Reg.CPL_LINK_ERR_RESENT (satTo 16 (s.get Reg.CPL_LINK_ERR_RESENT + s.uncovered))).send (.resent ((s.pair.peerAck + 1) % 2 ^ 32) s.uncovered)
    else s)

/-- The conditions of R244 that a standby module does not meet, in their order, as its STATUS frames report them. -/
def State.notReady (s : State) : List Nat :=
  [s.pair.copyCurrent, !s.critical, s.lanesCover, decide (s.sbox.evalOk.length = 3) && !s.sbox.voteLost && s.sbox.running].zipIdx.filterMap (fun e => if e.1 then none else some e.2)

/-- The partner module's time (R357): this module's counter less the partner module's in ns, from the two directions of the coupling. -/
def State.pairOffset (s : State) (f : StatusFrame) : Option Int :=
  match s.pair.statusSent, f.arrivedNs with
  | some sent, some arrived => some ((((s.now.nsTotal : Int) - (f.sentNs : Int)) - ((arrived : Int) - (sent : Int))) / 2)
  | _, _ => none

/-- A measurement of the partner module's time (R354, R357): PAIR_TIME_DISAGREE at the tenth consecutive one beyond 1 µs; a servo that follows it steers or steps. -/
def takePairTime (f : StatusFrame) (s : State) : State :=
  match s.pairOffset f with
  | some d =>
    let n := if 1000 < d.natAbs then s.pair.disagree + 1 else 0
    let s := { s with pair := { s.pair with disagree := min n 11 } }.raiseIf (decide (n = 10)) Ev.TIME_PAIR_TIME_DISAGREE
    let s := servoSelect s
    if s.servoRuns && decide (s.time.source = 2) then servoFollow (d * 65536) s else s
  | none => s

/-- What a STATUS frame says (R224, R354, R357, R377). -/
def takeStatus (f : StatusFrame) (s : State) : State :=
  let mismatch := decide (f.testMode ≠ s.net.testMode)
  let first := mismatch && !(decide (s.pair.partnerTest ≠ s.net.testMode))
  let s := { s with pair := { s.pair with partnerReady := f.ready, partnerTest := f.testMode, partnerOnPtp := f.lockedOnPtp, statusArrived := some s.now.nsTotal } }
  let s := takePairTime f (s.raiseIf first Ev.PBUS_MODE_MISMATCH)
  if !f.ready ∧ !s.pair.handoverWait ∧ s.mode = .active then cancelHandover s else s

/-- This module's STATUS frame: readiness, what is missing to it, the lane map, and its time (R224, R357). -/
def sendStatus (s : State) : State :=
  let f : StatusFrame := ⟨s.ready, s.net.testMode, decide (s.time.quality = 0) && decide (s.time.source = 1), s.now.nsTotal, s.pair.statusArrived⟩
  { s with pair := { s.pair with statusSent := some f.sentNs } }.sendFrame
    (.status f s.notReady ((List.range 16).map (fun n => (n, (s.lane n).task))))

/-- STATUS (R224, R244, R357): received, and this module's own sent. -/
def execStatus (h : LinkHdr) (f : StatusFrame) (s : State) : Host.Outcome State Fault Refusal := .next (frame 0x02 h (fun s => sendStatus (takeStatus f s)) s)

/-! Deltas at the standby module (R227 to R229, R236). -/

/-- A tag as the partner module's record gives it; the recorder sees the change (R324). -/
def copyTag (t : Nat) (g : Tag) (s : State) : State :=
  let old := Tab.getD s.ctl.tags t Tag.zero
  let s := { s with ctl := { s.ctl with tags := Tab.set s.ctl.tags t g } }
  if old = g then s else acqTagChanged t old g s

/-- Requests of the partner module's copy that have an outcome are gone (R406). -/
def copiedOutcome (task handle p : Nat) (s : State) : State :=
  s.setCanPort p { s.canPort p with copied := (s.canPort p).copied.filter (fun e => !(decide (e.1 = task) && decide (e.2.handle = handle))) }

/-- One record applied to the copy (R227, R228 step 4). -/
def applyRec (task : Nat) (r : DeltaRec) (s : State) : State :=
  match r with
  | .tag t g => copyTag t g s
  | .data p o => { s with ctl := { s.ctl with objects := Tab.set s.ctl.objects p o } }
  | .sbx a v => laneRegWrite a v s
  | .canRequest p t q => s.setCanPort (p % 2) { s.canPort (p % 2) with copied := (s.canPort (p % 2)).copied ++ [(t, q)] }
  | .canOutcome t h => copiedOutcome t h 1 (copiedOutcome t h 0 s)
  | .returnsTaken t n => s.setTask t { s.task t with nextReturns := (s.task t).nextReturns.drop n }
  | .output ch v => { s with ctl := { s.ctl with image := Tab.set s.ctl.image ch v } }
  | .force t (some f) => { s with ctl := { s.ctl with forces := Tab.set s.ctl.forces t f } }
  | .force t none => { s with ctl := { s.ctl with forces := Tab.erase s.ctl.forces t } }
  | .role u x => { s with ctl := { s.ctl with units := Tab.set s.ctl.units u x } }
  | .message t m => enterMessage t m s
  | .messageGone t m => s.setTask t { s.task t with inbox := (s.task t).inbox.erase m }
  | .messageTaken t n => s.setTask t { s.task t with inbox := (s.task t).inbox.drop n }
  | .returnEntry t k c d q => enterReturn t ⟨k, c, d, q⟩ s
  | .waybill w => ringWaybill w (rateAdd (1 + w.cont) s)
  | .completion c => { s with pair := { s.pair with statuses := s.pair.statuses ++ [c] } }
  | .overlay i v => { s with ctl := { s.ctl with overlay := Tab.set s.ctl.overlay i v } }
  | .mark c w h =>
    writeMark task c w h (s.setTask task { s.task task with cycle := c, lastClosed := c, released := c, watermark := max (s.task task).watermark w })
  | .carry _ => s
  | .supply ch mv => { s.setChan ch { s.chan ch with supplyMv := mv, levelMv := mv } with ctl := { s.ctl with supplies := Tab.set s.ctl.supplies ch mv } }
  | .pub p st sq => { s with ctl := { s.ctl with pubs := Tab.set s.ctl.pubs p (st, sq) } }

/-- The copy is discarded and resynchronisation asked for (R154, R229, R233). -/
def loseCopy (s : State) : State := requestResync (markStale s)

/-- The switch of the delta's task, if this is its switch cycle; the carried state must match the delta's check (R154). -/
def switchFor (d : DeltaMsg) (s : State) : Bool × State :=
  let due := s.exchangeCommitted && !(s.task d.task).switched && (match s.exch.announcement with
    | some a => (match findKey a.switches d.task with | some (_, c) => decide (c = d.cycle) | none => false)
    | none => false)
  let s := if due then switchTask d.task s else s
  (match d.carryCrc with
    | some c => due && decide ((s.task d.task).carryCrc = some c)
    | none => !due, s)

/-- A delta at a standby module with a current copy (R228 steps 2 and 4, R229). -/
def takeDelta (d : DeltaMsg) (s : State) : State :=
  if d.count ≠ d.records.length ∨ d.crc ≠ deltaCrc d.records ∨ d.closeSeq ≠ s.pair.closeSeq + 1 ∨ d.cycle ≠ (s.task d.task).cycle + 1 then (loseCopy s).raise Ev.CPL_DELTA_BAD
  else
    let w := switchFor d s
    if !w.1 then loseCopy s
    else
      let s := { w.2 with pair := { w.2.pair with closeSeq := d.closeSeq } }.sendFrame (.deltaAck d.task d.cycle d.closeSeq d.crc)
      refreshOutputs (forEach d.records (applyRec d.task) s)

/-! Records during resynchronisation (R236). -/

/-- Pages a record belongs to: tags by index, 2,048 to a page; objects and signal box settings by the page that brings them (768, 769). -/
def recPage : DeltaRec → Option Nat
  | .tag t _ => some (t / 2048)
  | .data .. => some 768
  | .sbx .. => some 769
  | _ => none

/-- Records of the control set. -/
def controlRec : DeltaRec → Bool
  | .force .. => true
  | .role .. => true
  | .message .. => true
  | .messageTaken .. => true
  | .messageGone .. => true
  | .returnsTaken .. => true
  | .returnEntry .. => true
  | .waybill _ => true
  | .completion _ => true
  | .overlay .. => true
  | .mark .. => true
  | _ => false

/-- The page of a record is held. -/
def State.pageHeld (s : State) (r : DeltaRec) : Bool :=
  decide (768 ≤ s.pair.pagesHeld.length) || (match r with
    | .tag t _ => decide (t / 2048 ∈ s.pair.pagesHeld)
    | .data p _ => (Tab.get? s.ctl.objects p).isSome
    | .sbx a _ => (Tab.get? s.ctl.sbx a).isSome
    | _ => true)

/-- The page brings what the record is about. -/
def pageBrings (p : Page) (r : DeltaRec) : Bool :=
  match r with
  | .tag t _ => decide (t / 2048 = p.number)
  | .data q _ => (findKey p.objects q).isSome
  | .sbx a _ => (findKey p.sbx a).isSome
  | _ => false

/-- A record that arrives during resynchronisation is applied, or held for its page or for the control set. -/
def resyncRec (task closeSeq : Nat) (r : DeltaRec) (s : State) : State :=
  if controlRec r then { s with pair := { s.pair with heldRecs := s.pair.heldRecs ++ [⟨none, closeSeq, r⟩] } }
  else if s.pageHeld r then applyRec task r s
  else { s with pair := { s.pair with heldRecs := s.pair.heldRecs ++ [⟨recPage r, closeSeq, r⟩] } }

/-- The task of a held record, as its mark needs it: records of one delta are held in order, and a mark is kept with its task in its place. -/
def markTask (task : Nat) : DeltaRec → DeltaRec
  | .mark c w h => .returnEntry 0xFF c w h task
  | r => r

/-- A held control record applied after the control set. -/
def applyHeldRec (r : DeltaRec) (s : State) : State :=
  match r with
  | .returnEntry 0xFF c w h t => applyRec t (.mark c w h) s
  | r => applyRec 0 r s

/-- A delta during resynchronisation. -/
def resyncDelta (d : DeltaMsg) (s : State) : State :=
  let s := { s with pair := { s.pair with closeSeq := max s.pair.closeSeq d.closeSeq } }
  forEach d.records (fun r s => resyncRec d.task d.closeSeq (markTask d.task r) s) s

/-- A module that receives a resynchronisation: a standby module with a stale copy, or one on path 11a. -/
def State.resyncing (s : State) : Bool :=
  s.pair.resync && !s.pair.copyCurrent && (decide (s.mode = .standby) || (decide (s.mode = .starting) && s.start.path11a))

/-- DELTA (R228, R229, R236). -/
def execDelta (h : LinkHdr) (d : DeltaMsg) (s : State) : Host.Outcome State Fault Refusal :=
  .next (frame 0x10 h (fun s =>
    if s.resyncing then resyncDelta d s
    else if s.mode = .standby ∧ s.pair.copyCurrent then takeDelta d s
    else s) s)

/-- DELTA_ACK (R228 step 3): the echo is checked; the acknowledged outputs are those the partner module would drive. -/
def execDeltaAck (h : LinkHdr) (task : Fin 8) (cycle closeSeq : Nat) (crc : Word) (s : State) : Host.Outcome State Fault Refusal :=
  let i := task.val
  .next (frame 0x11 h (fun s =>
    let t := s.task i
    if s.mode = .active ∧ i ∈ s.pair.awaitingDelta ∧ t.phase = .awaitDelta ∧ t.cycle = cycle ∧ t.closeSeq = closeSeq ∧ t.deltaCrc = crc then
      let outs := s.outputsOf i (openControl t s.ctl).tags
      let s := { s with pair := { s.pair with ackedSeq := closeSeq }, ctl := { s.ctl with image := outs.foldl (fun m o => Tab.set m o.1 o.2) s.ctl.image } }
      deltaDone i s
    else s) s)

/-! Mirrors and images. -/

/-- One mirrored entry, written at its SEQ (R195, R202, R210, R228). A completion that ABANDONS an exchange clears the partner module's shadow. -/
def mirrorEntry (e : Entry) (s : State) : State :=
  match e with
  | .waybill w =>
    let w := if w.carried then w else { w with state := .mirrored }
    (replayEntry (.waybill w) (ringWaybill w (rateAdd (1 + w.cont) s))).sendFrame (.mirrorAck w.seq)
  | .cont .. => s
  | .completion c =>
    let s := ringPut c.seq (.completion c) (rateAdd 1 s)
    let s := { s with pair := { s.pair with statuses := s.pair.statuses.filter (fun x => decide (x.waybillSeq ≠ c.waybillSeq)) } }
    let s := if c.status = 0x2E ∧ s.exch.image.isSome ∧ !s.exchangeCommitted then clearExchange s else s
    reportCompletion c s

/-- MIRROR (R202, R210). -/
def execMirror (h : LinkHdr) (entries : List Entry) (s : State) : Host.Outcome State Fault Refusal :=
  .next (frame 0x20 h (fun s => if s.mode = .standby ∧ s.pair.copyCurrent then forEach entries mirrorEntry s else s) s)

/-- The partner module's check of an exchange image under R147: against the running image's project and pair, and the checks of its content. -/
def State.exchangeImageOk (s : State) (n : Image) : Bool :=
  match s.img with
  | some old => s.imageOk old.projectId old.pairId n && s.ownerOk n && decide (s.exchangeCheck old n s.dueFlags.2 = 0)
  | none => false

/-- IMAGE (R58, R148 step 2): an exchange image is checked, loaded into the shadow bank and answered with the map's check; one that fails its check is
ignored and nothing is sent (assumption 109). A module at step 10 takes the partner module's running image. -/
def execImage (h : LinkHdr) (i : Image) (forExchange : Bool) (s : State) : Host.Outcome State Fault Refusal :=
  .next (frame 0x30 h (fun s =>
    if forExchange then
      (if s.mode = .standby ∧ s.pair.copyCurrent ∧ s.exchangeImageOk i then let s := loadShadow i s; s.sendFrame (.mapAck s.exch.mapCrc) else s)
    else if s.mode = .starting ∧ s.start.step = 10 ∧ !s.start.imageChosen then
      match s.start.key, s.pair.partnerHello, s.pair.partnerMode with
      | some k, some p, some m => chooseAgainst m (if p.staleCopy then none else p.lastClosed) k i s
      | _, _, _ => s
    else s) s)

/-- MIRROR_ACK (R202 steps 4 and 5). -/
def execMirrorAck (f : LinkHdr × Nat) (s : State) : Host.Outcome State Fault Refusal :=
  .next (frame 0x21 f.1 (fun s => match s.localAt f.2 with
    | some w => if s.mode = .active ∧ s.inAcceptance w.waybillSeq then acceptWaybill w.waybillSeq .mirrored s else s
    | none => s) s)

/-- MAP_ACK (R148 steps 3 and 4): a mismatch raises EXCHANGE_MAP_MISMATCH, which is counted, since no register has it (assumption 43). -/
def execMapAck (f : LinkHdr × Word) (s : State) : Host.Outcome State Fault Refusal :=
  .next (frame 0x31 f.1 (fun s => if s.mode = .active ∧ s.exch.sent ∧ s.exch.progress = .loaded ∧ s.exch.announcement = none then
      if f.2 ≠ s.exch.mapCrc then (let s := abandonExchange s; { s with pair := { s.pair with mapMismatches := s.pair.mapMismatches + 1 } })
      else
        let s := announceExchange s
        match s.exch.announcement with
        | some a => s.sendFrame (.announce a)
        | none => s
    else s) s)

/-- ANNOUNCE (R148 step 5): the partner module records the announcement in MRAM and acknowledges it. -/
def execAnnounce (f : LinkHdr × Announcement) (s : State) : Host.Outcome State Fault Refusal :=
  .next (frame 0x32 f.1 (fun s => if s.mode = .standby ∧ s.exch.progress = .loaded then
      (commitExchange f.2 s).sendFrame .announceAck
    else s) s)

/-- ANNOUNCE_ACK (R148 step 5): committed for the pair. -/
def execAnnounceAck (s : State) (h : LinkHdr := LinkHdr.blank) : Host.Outcome State Fault Refusal :=
  .next (frame 0x33 h (fun s => match s.exch.announcement with
    | some a =>
      if s.mode = .active ∧ s.exch.sent ∧ s.exch.progress = .loaded then
        commitExchange a s
      else s
    | none => s) s)

/-! Down and up (R230 to R233). -/

/-- The coupling is counted down. A module on path 11a stays in STARTING and chooses anew (R62, R237). -/
def couplingDown (s : State) : State :=
  if !s.pair.linkUp then s
  else
    let inDoubt := decide (s.mode = .active) && decide (s.pair.partnerMode = some .standby) && s.pair.partnerCurrent
    let holds := s.pair.restartAcked && decide (s.mode ≠ .active)
    let s := { s with pair := { s.pair with linkUp := false, trained := [], partnerMode := none, partnerReady := false, partnerHello := none, doubt := s.pair.doubt || inDoubt },
                       start := { s.start with path11a := s.start.path11a && decide (s.mode ≠ Mode.starting) } }
    let s := s.raise Ev.CPL_COUPLING_DOWN
    let s := if s.time.source = 2 then servoSelect s else s
    let s := if s.mode = .active then (let s := leaveExchange s; let s := if s.pair.handoverWait then s else cancelHandover s; countAbsent s) else s
    let s := resyncEnds s
    if holds then { s with pair := { s.pair with restartGoDue := some false, restartAcked := false } } else s

/-- COUPLING_DOWN (R230): the end of an acknowledgement wait counts only for an active module. -/
def execCouplingDown (cause : Fin 3) (s : State) : Host.Outcome State Fault Refusal :=
  .next (if s.powered && (decide (cause.val ≠ 2) || decide (s.mode = .active)) then couplingDown s else s)

/-- DELTA_ACK_TIMEOUT (R125, R230, R233): a frame carrying STALE makes the partner module absent; else the coupling counts as down. -/
def execDeltaAckTimeout (task : Fin 8) (staleSeen : Bool) (s : State) : Host.Outcome State Fault Refusal :=
  .next (if s.mode = .active ∧ task.val ∈ s.pair.awaitingDelta then (if staleSeen then countAbsent s else couplingDown s) else s)

/-- COUPLING_RETRAIN (R230): after the silence, once all four lanes hold block lock, a new session begins and HELLO goes out. -/
def execCouplingRetrain (session : Nat) (locked : Bool) (s : State) : Host.Outcome State Fault Refusal :=
  .next (if s.powered && decide (s.mode ≠ .terminus) && !s.pair.linkUp && (decide (s.mode ≠ .starting) || decide (s.start.step = 10)) && locked then
      let s := { s with pair := { s.pair with trained := [0, 1, 2, 3], session := session, rxNext := 0, txNext := 0, peerAck := 0xFFFFFFFF } }
      s.sendFrame (.hello s.hello)
    else s)

/-- DOUBT_WINDOW_END (R231): submissions that waited in acceptance step 3 meet R203. -/
def execDoubtWindowEnd (s : State) : Host.Outcome State Fault Refusal :=
  .next (if s.pair.doubt then
      let s := { s with pair := { s.pair with doubt := false } }
      let waiting := (s.jrn.waiters.map (·.waybillSeq)).dedup
      forEach waiting (fun w s => match s.localAt w with | some _ => withoutPartner w s | none => s) s
    else s)

/-- STANDBY_LINK_WAIT_END (R232): the active module's claim has not dropped within 1 ms. -/
def execStandbyLinkWaitEnd (s : State) : Host.Outcome State Fault Refusal :=
  .next (if s.mode = .standby ∧ !s.pair.linkUp ∧ s.pair.copyCurrent ∧ s.claim.partner then markStale s else s)

/-! Resynchronisation (R234 to R237). -/

/-- The answer arrives: pages follow. -/
def resyncAnswered (s : State) : State :=
  { s with pair := { s.pair with resync := true, pages := 0, pagesHeld := [], heldRecs := [], controlSet := false },
           ctl := { s.ctl with tags := [], objects := [], sbx := [] } }

/-- RESYNC_REQ (R234, R235 step 2): a request, which only an active module answers, for the whole or again for one page, or the answer. -/
def execResyncReq (h : LinkHdr) (ask : ResyncAsk) (s : State) : Host.Outcome State Fault Refusal :=
  .next (frame 0x40 h (fun s =>
    match ask with
    | .reply => if s.resyncing then resyncAnswered s else s
    | .page n => if s.mode = .active ∧ s.pair.resyncSending then sendPage n s else s
    | .all => if s.mode = .active then answerResync s else s) s)

/-- A page as received (R236): its tags, objects and settings, then the records held for it that are later than its stamp. -/
def takePage (p : Page) (s : State) : State :=
  let s := forEach p.tags (fun e s => copyTag e.1 e.2 s) s
  let s := { s with ctl := { s.ctl with objects := p.objects.foldl (fun (t : Tab ObjState) (e : Nat × ObjState) => Tab.set t e.1 e.2) s.ctl.objects, sbx := p.sbx.foldl (fun (t : Tab Word) (e : Nat × Word) => Tab.set t e.1 e.2) s.ctl.sbx } }
  let mine := s.pair.heldRecs.filter (fun r => decide (r.page.isSome) && pageBrings p r.rcd)
  let held := addOnce p.number s.pair.pagesHeld
  let s := { s with pair := { s.pair with pagesHeld := held, pages := min 768 held.length, heldRecs := s.pair.heldRecs.filter (fun r => !(decide (r.page.isSome) && pageBrings p r.rcd)) } }
  forEach (mine.filter (fun r => decide (p.stamp < r.closeSeq))) (fun r s => applyRec 0 r.rcd s) s

/-- RESYNC_PAGE (R235 step 2): a page that fails its check is asked for again. -/
def execResyncPage (h : LinkHdr) (p : Page) (s : State) : Host.Outcome State Fault Refusal :=
  .next (frame 0x41 h (fun s => if s.resyncing && decide (p.number < 768) then (if h.payload = pageTail p then takePage p s else s.sendFrame (.resyncReq (some p.number))) else s) s)

/-- The control set replaces what this module holds as a whole (R235 step 3). -/
def takeControl (c : ControlSet) (s : State) : State :=
  let closed (q : Nat) : Bool := (s.completionOf q).isSome
  let keep : Tab Entry := s.mram.ring.filter (fun (e : Nat × Entry) => decide (entrySeq e.2 ≤ c.head) && (match e.2 with
    | .waybill w => closed w.waybillSeq
    | .cont _ q _ _ => closed q
    | .completion _ => true))
  let ring : Tab Entry := (forEach (c.openEntries.map (·.2)) ringWaybill { s with mram := { s.mram with ring := keep } }).mram.ring
  let task (e : Nat × Nat) : Nat × Task :=
    (e.1, { Task.reset with cycle := e.2, lastClosed := e.2, released := e.2, watermark := (findKey c.watermarks e.1).getD 0, inbox := (findKey c.queued e.1).getD [] })
  clearExchange { s with
    ctl := { s.ctl with forces := Tab.ofList c.forces, units := Tab.ofList c.units, overlay := Tab.ofList c.overlay },
    tasks := Tab.ofList (c.cycles.map task), jrn := { s.jrn with head := c.head, clients := Tab.ofList c.clients },
    mram := { s.mram with ring := ring, retiredIds := c.retired, floor := c.floor },
    pair := { s.pair with controlSet := true, captureSeq := c.closeSeq, statuses := [] } }

/-- RESYNC_CONTROL (R235 step 3). -/
def execResyncControl (h : LinkHdr) (c : ControlSet) (s : State) : Host.Outcome State Fault Refusal :=
  .next (frame 0x42 h (fun s => if s.resyncing then takeControl c s else s) s)

/-- Step 4 (R235): held deltas are applied, the copy is current, and a joining module enters STANDBY (R61 step 11a). -/
def resyncComplete (closeSeq : Nat) (s : State) : State :=
  let held := s.pair.heldRecs.filter (fun r => decide (r.page.isNone) && decide (closeSeq < r.closeSeq))
  let s := forEach held (fun r s => applyHeldRec r.rcd s) s
  let s := { s with pair := { s.pair with heldRecs := [], pagesHeld := [], resync := false, copyCurrent := true, stale := false, closeSeq := max closeSeq s.pair.closeSeq } }
  let s := (s.inc Reg.CPL_RESYNC_COUNT).raise Ev.CPL_RESYNC_DONE
  if s.mode = .starting then refreshOutputs (serviceEntry (setMode .standby s)) else s

/-- RESYNC_DONE (R235 step 4). -/
def execResyncDone (h : LinkHdr) (closeSeq : Nat) (s : State) : Host.Outcome State Fault Refusal :=
  .next (frame 0x43 h (fun s => if s.resyncing && s.pair.controlSet && decide (768 ≤ s.pair.pagesHeld.length) then resyncComplete closeSeq s else s) s)

/-- HELD_RECORD_EXPIRY (R236). -/
def execHeldRecordExpiry (page : Nat) (s : State) : Host.Outcome State Fault Refusal :=
  .next { s with pair := { s.pair with heldRecs := s.pair.heldRecs.filter (fun r => decide (r.page ≠ some page)) } }

end Sys2Proof.Machine
end

