-- ==== Sys2Proof/Machine/Pair.lean ====
section
/-! DEFINITION. The claim, takeover, hand-over and restarts of the pair (R71, R238 to R255). -/

namespace Sys2Proof.Machine

/-! Taking control (R238, R245, R246). -/

/-- Assert the claim, with the time since the partner module's claim was read deasserted (CPL_HANDOFF). Confirmation follows after 10 µs. -/
def takeClaim (forHandover : Bool) (s : State) : State :=
  let us := match s.claim.droppedAt with | some t => (s.time.tick - t) / 125 | none => 0
  let s := ((s.put Reg.CPL_HANDOFF_TAKE_US (satTo 24 us)).put Reg.CPL_HANDOFF_KIND (b2n forHandover)).put Reg.CPL_HANDOFF_VALID 1
  { s with claim := { s.claim with drive := true, own := true, confirmed := false, taking := true, releasing := false, forHandover := forHandover, refreshed := s.time.tick } }

/-- Neither claim line is asserted, and the own claim path is sound. -/
def State.mayClaim (s : State) : Bool := !s.claim.partner && !s.claim.drive && !s.claim.stuck

/-- Task 0 freezes from the copy (R246 step 4, R252 step 5). -/
def freezeCopy (s : State) : State := startLanes 0 (freezeCore 0 s)

/-- PARTNER_CLAIM_DROPPED (R246 steps 2 and 3, R252 step 5). A module that is not ready stays in STANDBY (R244). -/
def execPartnerClaimDropped (s : State) : Host.Outcome State Fault Refusal :=
  .next (
    let s := { s with claim := { s.claim with partner := false } }
    if s.mode = .standby then
      let s := { s with claim := { s.claim with droppedAt := some s.time.tick } }
      if s.pair.handoverWait then (if s.mayClaim then takeClaim true s else s)
      else if s.ready && s.mayClaim then { s with claim := { s.claim with taking := true } }
      else s
    else s)

/-- STANDBY_READY (R245). -/
def execStandbyReady (s : State) : Host.Outcome State Fault Refusal :=
  .next (if s.ready && s.mayClaim && !s.claim.taking && !s.pair.handoverWait && decide (s.pair.partnerMode ≠ some .active) then
      { s with claim := { s.claim with taking := true, droppedAt := some (s.claim.droppedAt.getD s.time.tick) } }
    else s)

/-- TAKEOVER_CLAIM (R246 step 4): at a boundary of task 0. -/
def execTakeoverClaim (s : State) : Host.Outcome State Fault Refusal :=
  .next (if s.ready && s.claim.taking && s.mayClaim && s.dueNow 0 then takeClaim false (freezeCopy s) else s)

/-- The output image becomes what the module last released (R127, R248). -/
def adoptImage (s : State) : State :=
  forEach s.ctl.image (fun e s =>
    s.setChan e.1 (match s.chanMode e.1 with
      | .ao => { s.chan e.1 with hasReleased := true, lastUa := e.2 }
      | _ => { s.chan e.1 with hasReleased := true, lastOn := decide (e.2 ≠ 0) })) s

/-- A standby module enters ACTIVE (R246 step 5): outputs from the image; an exchange that was not committed is abandoned (R160); a restart record held for the
partner module's command is cleared (R71 step 4). -/
def enterActive (s : State) : State :=
  let s := serviceEntry (setMode .active (adoptImage s))
  let current := s.claim.forHandover && s.pair.linkUp
  let s := if s.pair.restartAcked || s.pair.restartGoDue.isSome then { s with mram := { s.mram with restart := none } } else s
  let s := { s with pair := { s.pair with partnerCurrent := current, copyCurrent := false, stale := false, handoverQ := none, handoverAcked := false, handoverWait := false,
                                          restartAcked := false, restartGoDue := none, unpartneredRun := false, awaitingDelta := [] } }
  if !s.exchangeCommitted && s.exchangeDue.isSome then abandonExchange s
  else if !s.exchangeCommitted && s.exch.image.isSome then clearExchange s
  else s

/-- CLAIM_CONFIRMED (R61 step 11b, R238, R246 step 5, R249, R271, R376, R379). -/
def execClaimConfirmed (s : State) : Host.Outcome State Fault Refusal :=
  .next (if s.claim.drive && s.claim.own && !s.claim.partner && !s.claim.confirmed && (decide (s.mode = .standby) || decide (s.mode = .active) || (decide (s.mode = .starting) && s.start.path11b)) then
      let s := { s with claim := { s.claim with confirmed := true, taking := false, releasing := false, partnerAbsent := false },
                        mram := { s.mram with lastHolder := true }, mil := { s.mil with now := { s.mil.now with tookControl := satInc 32 s.mil.now.tookControl } } }
      let s := s.raise Ev.CPL_TOOK_CONTROL
      let s := if s.mode = .standby then enterActive s else s
      let s := sendPorts [.pla, .plb] .pairAddress { s with pair := { s.pair with pairAddr := true, pairSince := s.time.tick, pairRepeats := 0 } }
      refreshOutputs (pubOnConfirm (s.raise Ev.PLNT_PAIR_ADDR_TAKEN))
    else s)

/-! Giving up control (R239, R240, R247, R249). -/

/-- The releasing module of a hand-over enters STANDBY (R252 step 6): its copy is current unless a cycle was in flight at the hand-over quantum. -/
def handedOver (s : State) : State :=
  let inFlight := s.pair.inFlight
  let s := setMode .standby { s with pair := { s.pair with handoverQ := none, handoverAcked := false, handoverWait := false, inFlight := false, partnerCurrent := false,
                                                           awaitingDelta := [], copyCurrent := !inFlight, stale := inFlight, partnerReady := false,
                                                           closeSeq := max s.pair.closeSeq s.pair.ackedSeq } }
  if inFlight then requestResync s else s

/-- PARTNER_CLAIM_ASSERTED (R246 step 6, R247, R249). -/
def execPartnerClaimAsserted (s : State) : Host.Outcome State Fault Refusal :=
  .next (
    let s := { s with claim := { s.claim with partner := true } }
    if s.powered && !s.claim.drive then
      let s := { s with claim := { s.claim with taking := false, releasing := false, partnerAbsent := false }, mram := { s.mram with lastHolder := false } }
      let s := if s.mode = .active ∧ s.pair.handoverWait then handedOver s else s
      refreshOutputs s
    else s)

/-- A module in slot B gives up its claim in a contest (R239, R240). -/
def loseContest (s : State) : State :=
  let was := s.mode
  let s := canUnclaim { s with claim := { s.claim with drive := false, own := false, confirmed := false, taking := false, releasing := false },
                               pair := { s.pair with pairAddr := false } }
  let s := s.raise Ev.CPL_GAVE_CONTROL
  let s := stopLanes s
  let s := if was = .active then
      let s := partnerLost (resyncEnds (cancelHandover s))
      requestResync (markStale (setMode .standby { s with pair := { s.pair with copyCurrent := true } }))
    else { s with pair := { s.pair with handoverQ := none, handoverAcked := false, handoverWait := false } }
  refreshOutputs s

/-- CLAIM_CONTEST (R239, R240): both lines are asserted. -/
def execClaimContest (s : State) : Host.Outcome State Fault Refusal :=
  .next (if s.powered && s.claim.drive then
      let s := { s with claim := { s.claim with partner := true } }.raise Ev.CPL_CLAIM_CONTEST
      if s.carrier.slotB then loseContest s else s
    else s)

/-- PARTNER_ABSENT_TIMEOUT (R249): one T0 period and 2 ms after the own claim drop, the partner module's claim is not asserted. -/
def execPartnerAbsentTimeout (s : State) : Host.Outcome State Fault Refusal :=
  .next (if s.claim.releasing && !s.claim.partner && !s.claim.drive then refreshOutputs { s with claim := { s.claim with releasing := false, partnerAbsent := true } } else s)

/-! Role exchange (R250 to R253). -/

/-- HANDOVER (R252 step 2): the partner module records Qh and acknowledges. -/
def execHandover (h : LinkHdr) (qh : Nat) (s : State) : Host.Outcome State Fault Refusal :=
  .next (frame 0x50 h (fun s =>
    if s.mode = .standby then { s with pair := { s.pair with handoverQ := some qh, handoverAcked := true } }.sendFrame .handoverAck else s) s)

/-- HANDOVER_ACK (R252 step 2). -/
def execHandoverAck (h : LinkHdr) (s : State) : Host.Outcome State Fault Refusal :=
  .next (frame 0x51 h (fun s => if s.mode = .active ∧ s.pair.handoverQ.isSome then { s with pair := { s.pair with handoverAcked := true } } else s) s)

/-- A cycle is open. -/
def State.cycleOpen (s : State) : Bool := s.tasks.any (fun (e : Nat × Task) => decide (e.2.phase ≠ .idle))

/-- The active module at Qh (R252 step 4): no task freezes, lanes stop, the claim drops, and the outputs are held. -/
def releaseAtQh (s : State) : State :=
  let s := dropClaim (stopLanes { s with pair := { s.pair with inFlight := s.cycleOpen, awaitingDelta := [] } })
  refreshOutputs { s with pair := { s.pair with handoverWait := true } }

/-- HANDOVER_QUANTUM (R252 steps 4 and 5). -/
def execHandoverQuantum (s : State) : Host.Outcome State Fault Refusal :=
  .next (match s.pair.handoverQ with
    | some q =>
      if s.gridQuantum < q ∨ s.pair.handoverWait then s
      else if s.running then
        (if s.pair.handoverAcked && s.pair.partnerReady && decide (s.pair.partnerMode = some .standby) then releaseAtQh s else cancelHandover s)
      else if s.ready then
        let s := freezeCopy { s with pair := { s.pair with handoverWait := true } }
        if s.mayClaim then takeClaim true s else s
      else s
    | none => s)

/-- What ends a scheduled hand-over before Qh (R253): the partner module has left STANDBY or readiness, the coupling is down, or a cause of R241 has arisen. -/
def State.handoverEnds (s : State) : Bool :=
  decide (s.pair.partnerMode ≠ some .standby) || !s.pair.partnerReady || !s.pair.linkUp || s.critical || s.sbox.voteLost || !s.lanesCover

/-- HANDOVER_CANCEL (R253). -/
def execHandoverCancel (s : State) : Host.Outcome State Fault Refusal :=
  .next (if s.mode = .active ∧ s.pair.handoverQ.isSome ∧ !s.pair.handoverWait ∧ s.handoverEnds then cancelHandover s else s)

/-- HANDOVER_FAIL_TIMEOUT (R253): 1 ms after Qh the releasing module re-asserts its claim, and resumes control from its own state. Its outputs stay held
until the claim is confirmed (R238, R247). -/
def execHandoverFailTimeout (s : State) : Host.Outcome State Fault Refusal :=
  .next (if s.mode = .active ∧ s.pair.handoverWait ∧ !s.claim.drive ∧ !s.claim.partner ∧ !s.claim.stuck then
      let s := { s with claim := { s.claim with drive := true, own := true, confirmed := false, taking := true, refreshed := s.time.tick },
                        pair := { s.pair with inFlight := false } }
      cancelHandover s
    else s)

/-- HANDOVER_CLAIM_WAIT_END (R253): 100 µs after Qh the partner module has not asserted its claim, and stays in STANDBY. -/
def execHandoverClaimWaitEnd (s : State) : Host.Outcome State Fault Refusal :=
  .next (if s.mode = .standby ∧ s.pair.handoverWait ∧ !s.claim.drive then
      let s := stopLanes s
      { s with pair := { s.pair with handoverQ := none, handoverAcked := false, handoverWait := false }, claim := { s.claim with taking := false } }
    else s)

/-! Restarts (R71). -/

/-- RESTART_REQ (R71 step 2): the record is written before the acknowledgement goes out. -/
def execRestartReq (h : LinkHdr) (r : RestartRec) (s : State) : Host.Outcome State Fault Refusal :=
  .next (frame 0x52 h (fun s =>
    if s.mode = .standby ∨ s.mode = .halt then
      { s with mram := { s.mram with restart := some { r with used := false } }, pair := { s.pair with restartAcked := true } }.sendFrame .restartAck
    else s) s)

/-- The delivering cycle of a restart command has what it waited for, unless its delta still waits. -/
def endRestartWait (s : State) : State := if (s.task 0).phase = .awaitDelta ∧ 0 ∉ s.pair.awaitingDelta then endStep2 0 s else s

/-- RESTART_ACK (R71 step 2). -/
def execRestartAck (h : LinkHdr) (s : State) : Host.Outcome State Fault Refusal :=
  .next (frame 0x53 h (fun s =>
    if s.mode = .active ∧ s.pair.restartWait.isSome then endRestartWait { s with pair := { s.pair with restartAcked := true } } else s) s)

/-- RESTART_ACK_TIMEOUT (R71 step 2): 50 µs beyond the delta acknowledgement. -/
def execRestartAckTimeout (s : State) : Host.Outcome State Fault Refusal :=
  .next (if s.mode = .active ∧ s.restartAwaited 0 then endRestartWait (restartFailed s) else s)

/-- RESTART_GO (R71 steps 2 and 4): restart, or CANCEL, on which the record is cleared. -/
def execRestartGo (h : LinkHdr) (cancel : Bool) (s : State) : Host.Outcome State Fault Refusal :=
  .next (frame 0x54 h (fun s =>
    if s.pair.restartAcked ∧ s.mode ≠ .active then
      (if cancel then { s with mram := { s.mram with restart := none }, pair := { s.pair with restartAcked := false } }
      else { s with pair := { s.pair with restartAcked := false, restartGoDue := some false } })
    else s) s)

/-- The restart itself (R71 step 6): the writes of R217, then step 1 of R61. -/
def restartNow (i : StartInput) (s : State) : State := startModule i (dropClaim (stopLanes (writePlr (if s.mram.lastHolder then writeStatuses s else s))))

/-- MODULE_RESTART (R71 steps 5 and 6). While hold-up runs no restart takes place: R37's sequence ends it (assumption 103). -/
def execModuleRestart (i : StartInput) (s : State) : Host.Outcome State Fault Refusal :=
  .next (match s.pair.restartGoDue with
    | some wait => if s.powered && !s.carrier.holdup && (!wait || s.claim.partner || s.claim.partnerAbsent) then restartNow i s else s
    | none => s)

/-! The claim fibres (R48, R255). -/

/-- CLAIM_FIBRE_SAMPLE (R255): on a split carrier, outside STARTING. -/
def execClaimFibreSample (dark1 dark2 : Bool) (s : State) : Host.Outcome State Fault Refusal :=
  .next (if s.powered && s.carrier.split && decide (s.mode ≠ .starting) then
      let turned := (dark1 && decide (s.get Reg.CPL_CLAIM_LINK_FIBRE1_DARK = 0)) || (dark2 && decide (s.get Reg.CPL_CLAIM_LINK_FIBRE2_DARK = 0))
      let s := ((s.put Reg.CPL_CLAIM_LINK_FIBRE1_DARK (b2n dark1)).put Reg.CPL_CLAIM_LINK_FIBRE2_DARK (b2n dark2)).put Reg.CPL_CLAIM_LINK_VALID 1
      s.raiseIf turned Ev.CPL_CLAIM_FIBRE_DARK
    else s)

end Sys2Proof.Machine
end

