-- ==== Sys2Proof/Machine/Networks.lean ====
section
/-! DEFINITION. The process bus and the plant bus below the Derent Plant Protocol (R366 to R379): frames and their second copies, sampled-value
and GOOSE subscriptions, publications, links, test mode, and the pair address. -/

namespace Sys2Proof.Machine

/-! Frames of a redundant port pair (R367, R368). -/

/-- The networks serve: step 9 has passed, and the module is powered. -/
def State.netRuns (s : State) : Bool := s.chansRun && decide (s.mode ≠ .terminus)

/-- One identity number of a frame. -/
def frameKey (f : FrameId) : Nat := f.src * 65536 + f.seq % 65536

/-- Reception at a process-bus port (R367): a wrong-LAN frame is counted; the first copy passes, a second within 400 ms does not. -/
def receive (f : FrameId) (s : State) : Bool × State :=
  let n := if f.port = .pbb then 1 else 0
  let s := if f.wrongLan then (s.inc (Reg.PBUS_PORT_ERR_WRONG_LAN n)).raise Ev.PBUS_PRP_WRONG_LAN else s
  let seen := s.net.seen.filter (fun e => decide (s.time.tick ≤ e.2 + ticksOfMs 400))
  if seen.any (fun e => decide (e.1 = frameKey f)) then (false, { s with net := { s.net with seen := seen } })
  else (true, { s with net := { s.net with seen := seen ++ [(frameKey f, s.time.tick)] } })

/-- A frame on the process bus is handled if its port is up and it is the first copy. -/
def onBus (sv : Bool) (f : FrameId) (g : State → State) (s : State) : State :=
  if s.netRuns && (decide (f.port = .pba) || decide (f.port = .pbb)) && decide (f.port ∈ s.net.up) then
    let r := receive f (receiveStamp f.port f.stamp sv (pbusBoundary s))
    if r.1 then g r.2 else r.2
  else s

/-- A port loses its link (R368). -/
def portDown (p : Port) (s : State) : State :=
  if p ∈ s.net.up then
    let s := { s with net := { s.net with up := s.net.up.filter (fun q => decide (q ≠ p)) } }
    if p = .pba ∨ p = .pbb then
      (s.raise Ev.PBUS_LINK_DOWN).raiseIf (match s.img with | some i => i.net.hsr | none => false) Ev.PBUS_RING_BROKEN
    else s.raise Ev.PLNT_LINK_DOWN
  else s

/-- LINK_DOWN (R368). -/
def execLinkDown (port : Port) (s : State) : Host.Outcome State Fault Refusal := .next (if s.powered then portDown port s else s)

/-- SUPERVISION_FRAME (R367). -/
def execSupervisionFrame (s : State) : Host.Outcome State Fault Refusal :=
  .next (if s.netRuns && decide (s.net.up.filter (fun p => decide (p ≠ .svc)) ≠ []) then sendPorts [.pba, .pbb, .pla, .plb] .supervision (pbusBoundary s) else s)

/-! Sampled values (R369 to R371). -/

def State.svSub (s : State) (k : Nat) : Option SvSub := findKey (s.cfgList (·.net.svSubs)) k
def State.sv (s : State) (k : Nat) : SvState := Tab.getD s.net.sv k SvState.reset
def State.setSv (s : State) (k : Nat) (x : SvState) : State := { s with net := { s.net with sv := Tab.put SvState.reset s.net.sv k x } }

/-- The instant of a sample: its count against the network second nearest to now (R87). -/
def State.sampleStamp (s : State) (rate cnt : Nat) : Stamp :=
  let ns := if rate = 0 then 0 else cnt * 1000000000 / rate
  let now := s.now
  if now.ns + 500000000 < ns then ⟨now.sec - 1, ns, 0⟩ else if ns + 500000000 < now.ns then ⟨now.sec + 1, ns, 0⟩ else ⟨now.sec, ns, 0⟩

/-- A sample is good for the signal box and as a last good value: validity good, test flag as the module's mode (R263, R371). -/
def State.goodSample (s : State) (x : SvSample) : Bool := decide (x.validity = 0) && decide (x.test = s.net.testMode)

/-- Threshold and hysteresis of a sampled-value comparator in effect (R273). -/
def State.svcThr (s : State) (c : Nat) (g : SvcCfg) : Nat × Nat :=
  (match Tab.get? s.ctl.sbx (svcThrAddr c) with | some w => w.toNat | none => g.threshold,
   match Tab.get? s.ctl.sbx (svcHystAddr c) with | some w => w.toNat % 2 ^ 24 | none => g.hyst)

/-- Samples in half a nominal mains period (R263). -/
def State.halfPeriod (s : State) (rate : Nat) : Nat := match s.img with | some i => if i.mains60 then rate / 120 else rate / 100 | none => rate / 100

/-- One value of a comparator: n values of the window whose squares add up to q. The value exceeds the threshold, or falls below it less the hysteresis. -/
def svcValue (q n thr hyst count : Nat) (x : SvcState) : SvcState :=
  if n * (thr * thr) < q then { x with overRun := min count (x.overRun + 1), state := x.state || decide (count ≤ x.overRun + 1) }
  else { x with overRun := 0, state := x.state && !(decide (hyst ≤ thr) && decide (q < n * ((thr - hyst) * (thr - hyst)))) }

/-- A good sample at a comparator (R263): the second in a row ends FAIL_VALUE; an RMS window is refilled before it is used again. -/
def svcGood (c : Nat) (g : SvcCfg) (v : Int) (len : Nat) (s : State) : State :=
  let x := Tab.getD s.sbox.svc c SvcState.reset
  let x := { x with missing := 0, goodRun := min 2 (x.goodRun + 1) }
  let x := if x.failed ∧ 2 ≤ x.goodRun then { x with failed := false, state := g.failValue } else x
  let x := if g.rms then { x with window := lastN len (x.window ++ [v]) } else x
  let t := s.svcThr c g
  let x := if x.failed then x
    else if g.rms then (if len ≤ x.window.length then svcValue (x.window.foldl (fun a k => a + k.natAbs * k.natAbs) 0) len t.1 t.2 g.count x else x)
    else svcValue (v.natAbs * v.natAbs) 1 t.1 t.2 g.count x
  { s with sbox := { s.sbox with svc := Tab.put SvcState.reset s.sbox.svc c x } }

/-- A missing sample at a comparator (R263): the fourth in a row makes it fail. -/
def svcMissing (c : Nat) (s : State) : State :=
  let x := Tab.getD s.sbox.svc c SvcState.reset
  let s := { s with sbox := { s.sbox with svc := Tab.put SvcState.reset s.sbox.svc c { x with missing := min 4 (x.missing + 1), goodRun := 0 } } }
  if 4 ≤ x.missing + 1 then svcFail c s else s

/-- Comparators of a subscription. -/
def State.svcOf (s : State) (k : Nat) : List (Nat × SvcCfg) := s.sbox.table.svcs.filter (fun e => decide (e.2.sub = k))

/-- n samples of a subscription are missing. -/
def svMissing (k n : Nat) (s : State) : State :=
  let s := s.addSat (Reg.PBUS_SV_STAT_MISSED k) n
  let s := if n = 0 then s else acqSvGap k s
  forEach (List.range (min 4 n)) (fun _ s => forEach (s.svcOf k) (fun e s => svcMissing e.1 s) s) s

/-- The frame of one sample count of an SV definition (R322): a missing sample holds 0, and each subscription has its flag word. -/
def svFrame (c : DefCfg) (test : Bool) (p : SvPart) : Frame :=
  let value (e : Nat × Nat) : Option SvSample := (findKey p.got e.1).bind (fun l => l[e.2]?)
  let sample (e : Nat × Nat) : FrameSample := match value e with
    | some x => ⟨x.value, decide (x.validity = 0) && decide (x.test = test)⟩
    | none => ⟨0, false⟩
  let flag (j : Nat) : Nat :=
    let l := (c.channels.filter (fun e => decide (e.1 = j))).map value
    b2n (l.any (·.isNone)) + 2 * b2n (l.any (fun o => match o with | some x => decide (x.validity ≠ 0) | none => false))
      + 4 * b2n (l.any (fun o => match o with | some x => decide (x.test ≠ test) | none => false))
  ⟨p.time, c.channels.map sample, (c.channels.map (·.1)).dedup.map flag⟩

/-- Samples of subscription k join the frame of their count; a frame is complete with its last subscription, or when a later count arrives, and counts
between hold nothing (R322). -/
def svFrameOf (k rate cnt : Nat) (at_ : Stamp) (samples : List SvSample) (d : Nat) (c : DefCfg) (s : State) : State :=
  if c.sv ∧ c.channels.any (fun e => decide (e.1 = k)) then
    let wrap := max 1 rate
    let x := s.defState d
    let fresh (n : Nat) : SvPart := ⟨n, s.sampleStamp rate n, []⟩
    let open_ := match x.part with | some p => p | none => fresh cnt
    let gap := (cnt + wrap - open_.cnt % wrap) % wrap
    if gap ≠ 0 ∧ wrap ≤ 2 * gap then s
    else
      let old := if gap = 0 then [] else (if open_.got = [] then [] else [open_]) ++ (List.range (gap - 1)).map (fun i => fresh ((open_.cnt + 1 + i) % wrap))
      let now : SvPart := if gap = 0 then { open_ with got := open_.got ++ [(k, samples)] } else ⟨cnt, at_, [(k, samples)]⟩
      let full := (c.channels.map (·.1)).all (fun j => (findKey now.got j).isSome)
      let s := forEach (old ++ (if full then [now] else [])) (fun p s => addFrame d c (svFrame c s.net.testMode p) s) s
      s.setDef d { s.defState d with part := some (if full then { now with got := [] } else now) }
  else s

/-- An ASDU is taken (R370). -/
def takeAsdu (k : Nat) (c : SvSub) (a : Asdu) (s : State) : State :=
  let at_ := s.sampleStamp c.rate a.smpCnt
  let x := s.sv k
  let good := (a.samples.zipIdx).map (fun (p : SvSample × Nat) => if s.goodSample p.1 then p.1 else (x.good[p.2]?).getD p.1)
  let s := s.setSv k { x with state := 1, last := some a.smpCnt, samples := a.samples, good := good, ts := at_.tagTs, unsync := s.unsync, expired := false,
                              goodAt := if a.samples.any (fun p => s.goodSample p) then s.time.tick else x.goodAt }
  let one (e : Nat × SvcCfg) (s : State) : State := match a.samples[e.2.chan]? with
    | some v => if s.goodSample v then svcGood e.1 e.2 v.value (s.halfPeriod c.rate) s else svcMissing e.1 s
    | none => svcMissing e.1 s
  let s := forEach (s.svcOf k) one s
  let s := forEach a.samples.zipIdx (fun (p : SvSample × Nat) s =>
    acqSvSample c.rate at_ k p.2 (if s.goodSample p.1 then some p.1.value else none) s) s
  if s.acqRuns then forEach s.defsNow (fun e s => svFrameOf k c.rate a.smpCnt at_ a.samples e.1 e.2 s) s else s

/-- One ASDU (R370): repeats and those behind are discarded, gaps count as missing, a wrong SmpSynch counts as missing. -/
def svAsdu (k : Nat) (c : SvSub) (a : Asdu) (s : State) : State :=
  let x := s.sv k
  let wrap := max 1 c.rate
  let ahead := match x.last with
    | some l => if x.expired then 1 else (a.smpCnt + wrap - l % wrap) % wrap
    | none => 1
  if ahead = 0 ∨ wrap ≤ 2 * ahead then s
  else
    let s := if 1 < ahead then svMissing k (ahead - 1) s else s
    if a.smpSynch = 2 ∨ (a.smpSynch = 1 ∧ c.localSync) then takeAsdu k c a s
    else svMissing k 1 (s.setSv k { s.sv k with last := some a.smpCnt, state := if x.expired then 2 else 4 })

/-- An ASDU placed among others by how far its count lies ahead. -/
def insertAsdu (key : Asdu → Nat) (a : Asdu) : List Asdu → List Asdu
  | [] => [a]
  | b :: t => if key a ≤ key b then a :: b :: t else b :: insertAsdu key a t

/-- The ASDUs of a frame in SmpCnt order, counted on from the sample expected next (R369). -/
def asdusInOrder (rate : Nat) (last : Option Nat) (l : List Asdu) : List Asdu :=
  let wrap := max 1 rate
  l.foldr (insertAsdu (fun a => match last with | some n => (a.smpCnt % wrap + wrap - (n + 1) % wrap) % wrap | none => a.smpCnt)) []

/-- The stream of a subscription, or one that differs from it: MISMATCH (R369). -/
def svTake (f : SvFrame) (k : Nat) (c : SvSub) (s : State) : State :=
  if f.dest ≠ c.dest ∨ f.appid ≠ c.appid then s
  else if f.svId = c.svId ∧ f.confRev = c.confRev ∧ f.entries = c.entries then forEach (asdusInOrder c.rate (s.sv k).last f.asdus) (fun a s => svAsdu k c a s) s
  else
    let was := (s.sv k).state
    (svMissing k f.asdus.length (s.setSv k { s.sv k with state := 3 })).raiseIf (decide (was ≠ 3)) Ev.PBUS_SV_MISMATCH

/-- SV_FRAME (R369, R370). -/
def execSvFrame (f : SvFrame) (s : State) : Host.Outcome State Fault Refusal :=
  .next (onBus true f.id (fun s => forEach (s.cfgList (·.net.svSubs)) (fun e s => svTake f e.1 e.2 s) s) s)

/-- SV_HOLD_EXPIRY (R371). -/
def execSvHoldExpiry (subscription : Fin 512) (s : State) : Host.Outcome State Fault Refusal :=
  let k := subscription.val
  .next (if s.netRuns && (s.svSub k).isSome && !(s.sv k).expired && (s.sv k).last.isSome
        && (match s.svSub k with | some c => decide ((s.sv k).goodAt + ticksOfMs c.holdMs ≤ s.time.tick) | none => false) then
      (s.setSv k { s.sv k with expired := true, state := if (s.sv k).state = 3 then 3 else 2 }).raise Ev.PBUS_SV_LOST
    else s)

/-! GOOSE subscriptions (R264, R372, R373). -/

def State.gooseSub (s : State) (g : Nat) : Option GooseSub := findKey (s.cfgList (·.net.gooseSubs)) g
def State.goose (s : State) (g : Nat) : GooseState := Tab.getD s.net.goose g GooseState.reset
def State.setGoose (s : State) (g : Nat) (x : GooseState) : State := { s with net := { s.net with goose := Tab.put GooseState.reset s.net.goose g x } }

/-- A bit slot takes its FAIL_VALUE, or resumes with a value (R264). -/
def gbitSet (b : Nat) (v : Option Bool) (s : State) : State :=
  let x := Tab.getD s.sbox.gbit b GbitState.reset
  let y : GbitState := match v with | some v => ⟨v, false⟩ | none => { x with failed := true }
  { s with sbox := { s.sbox with gbit := Tab.put GbitState.reset s.sbox.gbit b y } }.raiseIf (!x.failed && y.failed) Ev.SBX_GBIT_FAIL

/-- Bit slots of a subscription. -/
def State.gbitsOf (s : State) (g : Nat) : List (Nat × GbitCfg) := s.sbox.table.gbits.filter (fun e => decide (e.2.sub = g))

/-- Every bit slot of a subscription fails. -/
def gbitsFail (g : Nat) (s : State) : State := forEach (s.gbitsOf g) (fun e s => gbitSet e.1 none s) s

/-- The items that identify a subscription agree (R372). -/
def gooseMatches (m : GooseMsg) (c : GooseSub) : Bool :=
  decide (m.appid = c.appid) && decide (m.gocbRef = c.gocbRef) && decide (m.datSet = c.datSet) && decide (m.confRev = c.confRev) && decide (m.entries = c.entries)

/-- The quality class of a member is good. -/
def memberGood (q : BitVec 16) : Bool := decide (q.toNat / 2 ^ 14 = 3)

/-- A message of a subscription (R373). -/
def gooseTake (m : GooseMsg) (g : Nat) (s : State) : State :=
  let x := s.goose g
  if m.ndsCom then
    (s.setGoose g { x with state := 3 }).raiseIf (decide (x.state ≠ 3)) Ev.PBUS_GOOSE_MISMATCH
  else if x.state ≠ 1 ∨ m.stNum ≠ x.stNum then
    let s := s.setGoose g { x with state := 1, stNum := m.stNum, sqNum := m.sqNum, tal := m.tal, arrived := s.time.tick, members := m.members, ts := m.eventTime, unsync := s.unsync, holdOver := false }
    forEach (s.gbitsOf g) (fun e s => gbitSet e.1 (match m.members[e.2.member]? with
      | some v => if memberGood v.2 then some (v.1.getLsbD 0) else none
      | none => none) s) s
  else if x.sqNum < m.sqNum then s.setGoose g { x with sqNum := m.sqNum, tal := m.tal, arrived := s.time.tick }
  else s

/-- A message that differs from its subscription, the one with its gocbRef or, without one, its APPID (R372). -/
def gooseMismatch (m : GooseMsg) (s : State) : State :=
  let l := s.cfgList (·.net.gooseSubs)
  let own := l.filter (fun e => decide (e.2.gocbRef = m.gocbRef))
  let own := if own = [] then l.filter (fun e => decide (e.2.appid = m.appid)) else own
  forEach own (fun e s => (s.setGoose e.1 { s.goose e.1 with state := 3 }).raiseIf (decide ((s.goose e.1).state ≠ 3)) Ev.PBUS_GOOSE_MISMATCH) s

/-- GOOSE_MESSAGE (R264, R372, R373): one whose test field differs from the module's mode is discarded, and its bit slots fail. -/
def execGooseMessage (m : GooseMsg) (s : State) : Host.Outcome State Fault Refusal :=
  .next (onBus false m.id (fun s =>
    let mine := (s.cfgList (·.net.gooseSubs)).filter (fun e => gooseMatches m e.2)
    if m.test ≠ s.net.testMode then forEach mine (fun e s => gbitsFail e.1 s) s
    else if mine = [] then gooseMismatch m s
    else forEach mine (fun e s => gooseTake m e.1 s) s) s)

/-- GOOSE_EXPIRY (R264, R373). -/
def execGooseExpiry (subscription : Fin 1024) (s : State) : Host.Outcome State Fault Refusal :=
  let g := subscription.val
  let x := s.goose g
  .next (match s.gooseSub g with
    | some c =>
      if s.netRuns && (decide (x.state = 1) || decide (x.state = 3)) && decide (x.members ≠ []) && !x.holdOver
          && decide (x.arrived + ticksOfMs x.tal ≤ s.time.tick) then
        let s := s.setGoose g { x with state := if x.state = 3 then 3 else if c.holdMs = 0 then 2 else 4, holdOver := decide (c.holdMs = 0), expiredAt := s.time.tick }
        gbitsFail g (s.raise Ev.PBUS_GOOSE_LOST)
      else s
    | none => s)

/-- GOOSE_HOLD_EXPIRY (R373). -/
def execGooseHoldExpiry (subscription : Fin 1024) (s : State) : Host.Outcome State Fault Refusal :=
  let g := subscription.val
  .next (if s.netRuns && decide ((s.goose g).state = 4)
        && (match s.gooseSub g with | some c => decide ((s.goose g).expiredAt + ticksOfMs c.holdMs ≤ s.time.tick) | none => false) then s.setGoose g { s.goose g with state := 2, holdOver := true } else s)

/-! Publications (R375). -/

def State.pubCfg (s : State) (p : Nat) : Option PubCfg := findKey (s.cfgList (·.net.pubs)) p

/-- GOOSE_DEFERRED_SEND (R375). -/
def execGooseDeferredSend (publication : Fin 256) (s : State) : Host.Outcome State Fault Refusal :=
  let p := publication.val
  .next (match s.pubCfg p with
    | some c =>
      if !(s.pub p).deferred ∨ (s.pub p).lastNew.any (fun t => decide (s.time.tick < t + ticksOfUs 20)) then s
      else if s.claim.confirmed then pubSendNew p 1 c s
      else s.setPub p { s.pub p with deferred := false }
    | none => s)

/-- GOOSE_RETRANSMIT (R375): after 2 ms, 2 ms, 4 ms and so on up to T_MAX; the time allowed to live is twice the interval that follows. -/
def execGooseRetransmit (publication : Fin 256) (s : State) : Host.Outcome State Fault Refusal :=
  let p := publication.val
  let x := s.pub p
  .next (match s.pubCfg p with
    | some c =>
      if s.claim.confirmed && x.lastNew.isSome then
        let next := min c.tMaxMs (if x.sqNum = 0 then 2 else 2 * x.intervalMs)
        let sq := (x.sqNum + 1) % 2 ^ 32
        let s := pbusBoundary s
        sendPorts [.pba, .pbb] (.goose p x.stNum sq (2 * next) s.net.testMode x.values) (s.setPub p { x with sqNum := sq, intervalMs := next })
      else s
    | none => s)

/-! Mode and addresses (R377, R379). -/

/-- TEST_MODE (R377): the bit of PBUS_CTRL beside its MULTIWORD_MODE. -/
def execTestMode (origin : Origin) (on : Bool) (s : State) : Host.Outcome State Fault Refusal :=
  .next (if s.powered then writeBy origin 0x120004 (BitVec.ofNat 32 (s.get ⟨0x120004, 0, 1⟩ + 2 * b2n on)) s else s)

/-- PAIR_ADDRESS_REPEAT (R379): 100 ms and 500 ms after the confirmation. -/
def execPairAddressRepeat (s : State) : Host.Outcome State Fault Refusal :=
  let p := s.pair
  .next (if p.pairAddr && ((decide (p.pairRepeats = 0) && decide (p.pairSince + ticksOfMs 100 ≤ s.time.tick)) || (decide (p.pairRepeats = 1) && decide (p.pairSince + ticksOfMs 500 ≤ s.time.tick))) then
      sendPorts [.pla, .plb] .pairAddress { s with pair := { p with pairRepeats := p.pairRepeats + 1 } }
    else s)

end Sys2Proof.Machine
end

