-- ==== Sys2Proof/Machine/Power.lean ====
section
/-! DEFINITION. Seating, supplies, the standby domain, hold-up and the claim keeper (R16 to R49, R217). -/

namespace Sys2Proof.Machine

/-! Seating and the standby domain (R42, R44, R46, R49). -/

/-- SEATED_MADE (R17, R44): every other contact has made; outputs and claim stay as they are. -/
def execSeatedMade (s : State) : Host.Outcome State Fault Refusal := .next { s with carrier := { s.carrier with seated := true, leverOpen := false } }

/-- UNPLUGGED (bit 0) or CELL_LOW (bit 1) is set, SEQ advances (R42), and EVENT messages go out (R390). -/
def sbyFlag (bit : Nat) (f : Standby → Standby) (s : State) : State :=
  if s.standby.stopped then s
  else
    let q := nextSeq s.standby.seq
    let s := { s with standby := { f s.standby with seq := q } }
    if s.powered then forEach s.net.sessions (fun (x : Nat × Session) s => eventTo 0x1A0000 0x28 bit q x.1 x.2 s) s else s

/-- CELL_LOW (R42). -/
def execCellLow (s : State) : Host.Outcome State Fault Refusal := .next (sbyFlag 1 (fun b => { b with cellLow := true }) s)

/-- COUNT_LOST (R42): the standby domain stops and loses its content, which restarts when the module is next powered. -/
def execCountLost (s : State) : Host.Outcome State Fault Refusal :=
  .next { s with standby := { sec := 0, frac := 0, acc := 0, unplugged := false, cellLow := false, countLost := false, seq := 0, stopped := true } }

/-- LEVER_OPENED (R46). -/
def execLeverOpened (s : State) : Host.Outcome State Fault Refusal :=
  .next ({ s with carrier := { s.carrier with leverOpen := true } }.raiseIf (s.powered && !s.carrier.leverOpen) Ev.PWR_LEVER_OPENED)

/-! Supplies (R20, R31, R32). -/

/-- MOD_SUPPLY_LOST (R32): the reading, and the event as it falls below 19.2 V. -/
def execModSupplyLost (input : Fin 2) (mv : Nat) (s : State) : Host.Outcome State Fault Refusal :=
  let was := if input.val = 0 then s.carrier.mod1Mv else s.carrier.mod2Mv
  let s := { s with carrier := if input.val = 0 then { s.carrier with mod1Mv := mv } else { s.carrier with mod2Mv := mv } }
  .next (s.raiseIf (s.powered && decide (19200 ≤ was) && decide (mv < 19200)) (if input.val = 0 then Ev.PWR_MOD1_LOST else Ev.PWR_MOD2_LOST))

/-- FIELD_SUPPLY_LOST (R32). -/
def execFieldSupplyLost (input : Fin 2) (mv : Nat) (s : State) : Host.Outcome State Fault Refusal :=
  let was := if input.val = 0 then s.carrier.fld1Mv else s.carrier.fld2Mv
  let s := { s with carrier := if input.val = 0 then { s.carrier with fld1Mv := mv } else { s.carrier with fld2Mv := mv } }
  .next (if s.powered && decide (19200 ≤ was) && decide (mv < 19200) then
      fieldBad input.val (s.raise (if input.val = 0 then Ev.PWR_FLD1_LOST else Ev.PWR_FLD2_LOST))
    else s)

/-- FIELD_FUSE_TRIP (R31): more than 13 A. FLD1_MA and FLD2_MA are measurements that no command delivers (assumption 11). -/
def execFieldFuseTrip (input : Fin 2) (ma : Nat) (s : State) : Host.Outcome State Fault Refusal :=
  let closed := if input.val = 0 then !s.carrier.fuse1Open else !s.carrier.fuse2Open
  .next (if s.powered && closed && decide (13000 < ma) then
      let s := { s with carrier := if input.val = 0 then { s.carrier with fuse1Open := true } else { s.carrier with fuse2Open := true } }
      fieldBad input.val (s.raise (if input.val = 0 then Ev.PWR_FLD1_OVERLOAD else Ev.PWR_FLD2_OVERLOAD))
    else s)

/-- The tries to reclose within the last 60 s; a fourth entry says that the fuse stays open until the module restarts (R31). -/
def fuseTry (now : Nat) (tries : List Nat) : Bool × List Nat :=
  if 4 ≤ tries.length then (false, tries)
  else
    let recent := tries.filter (fun t => decide (now ≤ t + ticksOfMs 60000))
    (decide (recent.length < 3), recent ++ [now])

/-- FIELD_FUSE_RECLOSE (R31). -/
def execFieldFuseReclose (input : Fin 2) (s : State) : Host.Outcome State Fault Refusal :=
  let c := s.carrier
  .next (if !s.powered then s
    else if input.val = 0 then
      (if c.fuse1Open then let r := fuseTry s.time.tick c.fuse1Tries; { s with carrier := { c with fuse1Open := !r.1, fuse1Tries := r.2 } } else s)
    else (if c.fuse2Open then let r := fuseTry s.time.tick c.fuse2Tries; { s with carrier := { c with fuse2Open := !r.1, fuse2Tries := r.2 } } else s))

/-- CAGE_OVERLOAD (R20): the cage is disabled and its port reported down. SVC has no cage. -/
def execCageOverload (port : Port) (s : State) : Host.Outcome State Fault Refusal :=
  .next (if s.powered && decide (port ≠ .svc) then portDown port { s with carrier := { s.carrier with cagesOff := addOnce port s.carrier.cagesOff } } else s)

/-- RESERVOIR_HEALTH_TEST (R36). -/
def execReservoirHealthTest (healthPct holdupMs : Nat) (s : State) : Host.Outcome State Fault Refusal :=
  .next (if s.powered && !s.carrier.holdup then
      ((s.put Reg.PWR_RESERVOIR_RES_HEALTH (satTo 8 healthPct)).put Reg.PWR_RESERVOIR_HOLDUP_MS (satTo 8 holdupMs)).raiseIf (decide (holdupMs < 22)) Ev.PWR_RES_WEAK
    else s)

/-! Hold-up (R35 to R39, R45). -/

/-- Steps 1 to 4 of R37, once: HOLDUP, load shed, SUPPLY_LOST recorded, the claim dropped. The network cages are switched off. A module already in HALT or
TERMINUS keeps its mode and records no new reason (assumption 102). -/
def enterHoldup (s : State) : State :=
  if !s.powered ∨ s.carrier.holdup then s
  else
    let s := { s with carrier := { s.carrier with holdup := true, resFull := false },
                      mil := { s.mil with now := { s.mil.now with holdupEntries := satInc 32 s.mil.now.holdupEntries } } }.raise Ev.PWR_HOLDUP_ENTERED
    let s := panelOff { s with carrier := { s.carrier with shed := true }, net := { s.net with up := s.net.up.filter (fun p => decide (p = .svc)) } }
    refreshOutputs (acqStop (enterHalt 5 (holdupVisits s)))

/-- HOLDUP_ENTERED (R35, R37). -/
def execHoldupEntered (s : State) : Host.Outcome State Fault Refusal := .next (enterHoldup s)

/-- SEATED_BREAK (R42, R45): hold-up at once, and UNPLUGGED, powered or not. -/
def execSeatedBreak (s : State) : Host.Outcome State Fault Refusal :=
  .next (if s.carrier.seated then enterHoldup (sbyFlag 0 (fun b => { b with unplugged := true }) { s with carrier := { s.carrier with seated := false } }) else s)

/-- POWER_LOSS_RECORD (R37 step 5, R217): completions of cycles that this module released or took over, then the record. -/
def execPowerLossRecord (s : State) : Host.Outcome State Fault Refusal :=
  .next (if s.powered && s.carrier.holdup && !s.carrier.recordWritten then
      let s := writePlr (if s.mram.lastHolder then writeStatuses s else s)
      { s with carrier := { s.carrier with recordWritten := true } }
    else s)

/-- Without power nothing but MRAM, the record area, the standby domain and the pins stays. -/
def powerOff (s : State) : State :=
  let s := clearWorking s
  { s with mode := .off, start := Start.reset, panel := { s.panel with on := false, driveMv := 0 }, time := { s.time with tick := 0, counter := Stamp.zero } }

/-- HOLDUP_RAILS_DOWN (R37 step 6, R38, R73): every output de-energises, and the module is OFF. Outside hold-up the reservoir is empty, an abrupt stop
(R191); the structures whose writes it cut short are found torn by the next start (R218, assumption 56). -/
def execHoldupRailsDown (s : State) : Host.Outcome State Fault Refusal := .next (if s.powered then powerOff s else s)

/-! The claim keeper and the own claim line (R27, R28). -/

/-- CLAIM_KEEPER_REFRESH (R27). -/
def execClaimKeeperRefresh (s : State) : Host.Outcome State Fault Refusal :=
  .next (if s.powered && s.claim.drive then { s with claim := { s.claim with refreshed := s.time.tick } } else s)

/-- CLAIM_KEEPER_RELEASE (R27): the claim is no longer asserted, whatever the die commands, so it is not confirmed (R238). -/
def execClaimKeeperRelease (s : State) : Host.Outcome State Fault Refusal :=
  .next (if s.powered && s.claim.own && s.claim.drive then
      let s := { s with claim := { s.claim with own := false, confirmed := false }, pair := { s.pair with pairAddr := false } }
      refreshOutputs (canUnclaim s)
    else s)

/-- A module with an unsound claim path stays out of ACTIVE (R28): outside ACTIVE it gives up the claim it was asserting. R73 lists no way out of
ACTIVE for this cause, so an active module keeps its state (assumption 75). -/
def stayOut (s : State) : State :=
  if s.claim.drive && decide (s.mode ≠ .active) then refreshOutputs (dropClaim (stopLanes s))
  else { s with claim := { s.claim with taking := false } }

/-- CLAIM_STUCK_HIGH (R28): the own line reads deasserted while the driver is on. -/
def execClaimStuckHigh (s : State) : Host.Outcome State Fault Refusal :=
  .next (if s.powered && s.claim.drive then
      stayOut ({ s with claim := { s.claim with own := false, stuck := true } }.raise Ev.CPL_CLAIM_STUCK_HIGH)
    else s)

/-- CLAIM_STUCK_LOW (R28): the own line reads asserted while the driver is off. -/
def execClaimStuckLow (s : State) : Host.Outcome State Fault Refusal :=
  .next (if s.powered && !s.claim.drive then
      stayOut ({ s with claim := { s.claim with own := true, stuck := true } }.raise Ev.CPL_CLAIM_STUCK_LOW)
    else s)

end Sys2Proof.Machine
end

