-- ==== Sys2Proof/Machine/Export.lean ====
section
/-! DEFINITION. What the files that the module serves hold (R159, R187, R336 to R339, R341, R344, R345, R392): disturbance records as bytes, their
alignment and their COMTRADE form, exchange reports, fault records and mileage records. -/

namespace Sys2Proof.Machine

/-! Disturbance records (R336 to R339). -/

/-- A counter stamp of 12 bytes (R336). -/
def stampBytes (t : Stamp) : List Byte := leBytes 2 (t.frac / 65536) ++ leBytes 4 t.ns ++ leBytes 6 t.sec

/-- Frames per second of a definition (R322). -/
def frameRate (c : DefCfg) : Nat := if !c.sv then 9600 else if c.rate = 1 then 4800 else 14400

/-- A channel table entry (R337). -/
def chanEntryBytes (e : ChanEntry) : List Byte :=
  leBytes 1 e.kind ++ leBytes 1 e.unit ++ leBytes 2 e.source ++ leBytes 4 e.tag ++ leBytes 4 e.gain.toNat ++ leBytes 4 e.offset.toNat ++ padTo 16 (e.name.take 16)

/-- A frame, padded to a multiple of 8 bytes (R322). -/
def frameBytes (c : DefCfg) (f : Frame) : List Byte :=
  let w := if c.sv then 4 else 2
  padTo (frameLen c) (f.samples.flatMap (fun x => leBytes w (twos (8 * w) x.value)) ++ f.flags.flatMap (leBytes 2))

/-- A tag entry of 24 bytes (R339). -/
def tagEntryBytes (e : Nat × Tag) : List Byte :=
  leBytes 4 e.1 ++ leBytes 2 e.2.quality.toNat ++ leBytes 1 e.2.type ++ zeros 1 ++ leBytes 8 e.2.value.toNat ++ leBytes 8 e.2.ts.toNat

/-- A segment's data: raw frames, reduced frames, tag entries (R336). -/
def segBytes (c : DefCfg) (g : Segment) : List Byte :=
  g.raw.flatMap (frameBytes c) ++ g.reduced.flatMap (fun p => frameBytes c p.1 ++ frameBytes c p.2) ++ g.tagEntries.flatMap tagEntryBytes

/-- TRIG_SAMPLE (R330): the last frame at or before the trigger instant; a free value where there is none. -/
def trigSample (g : Segment) : Nat :=
  match framesTo g.trigger.time g.raw with
  | 0 => (Config.freeValue g.freeId).toNat % 2 ^ 32
  | n + 1 => n

/-- TRIG_FRAC (R330): the trigger's place after that frame, in 1/65,536 of a frame interval, truncated. -/
def trigFrac (rate : Nat) (g : Segment) : Nat :=
  match g.raw[trigSample g]? with
  | some f => (g.trigger.time.fine - f.time.fine) * rate * 65536 / (1000000000 * 2 ^ 32) % 65536
  | none => (Config.freeValue g.freeId).toNat / 2 ^ 32 % 65536

/-- FLAGS of a segment (R338). -/
def segFlags (g : Segment) : Nat :=
  flagByte [g.extended, g.cut, decide (segMissing g ≠ 0), decide (g.quality = 3), g.preShort, g.tagsCut, g.stepped]

/-- A segment descriptor (R338): the segment's index, and where its data begins in the record. -/
def descBytes (r : Record) (index off : Nat) (g : Segment) : List Byte :=
  let data := segBytes r.cfg g
  let first := match g.raw.head? with | some f => f.time | none => Stamp.zero
  let body := leBytes 1 r.definition ++ leBytes 1 (segFlags g) ++ leBytes 2 index ++ leBytes 1 g.trigger.kind ++ leBytes 1 g.trigger.trigger ++ leBytes 2 g.retrigCount
    ++ stampBytes g.trigger.time ++ leBytes 4 (trigSample g) ++ leBytes 2 (trigFrac (frameRate r.cfg) g) ++ zeros 2 ++ leBytes 4 g.raw.length ++ stampBytes first
    ++ leBytes 2 r.cfg.reduceN ++ leBytes 2 g.reduced.length ++ leBytes 4 g.tagEntries.length ++ leBytes 4 (segMissing g)
    ++ padTo 48 (g.retriggers.flatMap stampBytes) ++ leBytes 8 off ++ leBytes 4 data.length ++ leBytes 4 (crc32c data).toNat ++ leBytes 1 g.quality ++ zeros 3
  body ++ leBytes 4 (crc32c body).toNat

/-- Descriptors of the segments from an index on, the first segment's data at an offset. -/
def descsFrom (r : Record) : Nat → Nat → List Segment → List Byte
  | _, _, [] => []
  | i, off, g :: l => descBytes r i off g ++ descsFrom r (i + 1) (off + (segBytes r.cfg g).length) l

/-- Offsets of the first descriptor and of the first segment's data (R336). -/
def descOffset (r : Record) : Nat := 0x100 + 32 * r.table.length
def dataOffset (r : Record) : Nat := descOffset r + 128 * r.segments.length

/-- The record header (R336). -/
def recordHeader (r : Record) : List Byte :=
  let body := leBytes 4 0x44524352 ++ leBytes 2 1 ++ leBytes 1 r.definition ++ leBytes 1 (b2n r.cfg.sv) ++ leBytes 8 r.id ++ leBytes 8 r.serial.toNat ++ leBytes 1 (b2n r.slotB)
    ++ leBytes 1 r.closeReason ++ leBytes 2 r.segments.length ++ leBytes 2 r.cfg.channels.length ++ leBytes 2 r.cfg.tags.length ++ leBytes 4 (frameRate r.cfg) ++ leBytes 4 r.lost
    ++ stampBytes r.openTime ++ zeros 12 ++ hashBytes r.digest ++ padTo 64 (r.cfg.name.take 64) ++ leBytes 4 (descOffset r) ++ leBytes 4 (dataOffset r) ++ leBytes 4 (recordLen r) ++ zeros 64
  body ++ leBytes 4 (crc32c body).toNat

/-- A record as it is laid out in working memory and in the record area (R336). -/
def recordBytes (r : Record) : List Byte :=
  recordHeader r ++ r.table.flatMap chanEntryBytes ++ descsFrom r 0 (dataOffset r) r.segments ++ r.segments.flatMap (segBytes r.cfg)

/-- Block k of a record's commit, or its opened note (R341). -/
def blockBytes (x : StoredRec) (k : Nat) : List Byte :=
  let stream := if x.opened then leBytes 8 x.rcd.id ++ leBytes 1 x.rcd.definition ++ stampBytes x.rcd.openTime else recordBytes x.rcd
  let head := leBytes 8 (x.firstBlock + k) ++ leBytes 1 (if x.opened then 3 else if k = 0 then 1 else 2) ++ zeros 3
  let rest := padTo 4080 ((stream.drop (4080 * k)).take 4080)
  head ++ leBytes 4 (crc32c (head ++ rest)).toNat ++ rest

/-! COMTRADE (R344, R345). The text of its files is that of IEEE C37.111; what they say is given here. -/

/-- A column of a COMTRADE file: name, a and b, whether it is a status channel, and its samples, none where missing, as binary64 of the code. -/
structure Column where
  name : List Byte
  a : Word
  b : Word
  status : Bool
  samples : List (Option DWord)
  deriving DecidableEq, Repr

/-- The content of a COMTRADE file set (R345). -/
structure Comtrade where
  station : Nat
  device : Nat
  serial : DWord
  rate : Nat
  /-- Data type: BINARY32, else BINARY. -/
  float : Bool
  startUtc : Stamp
  trigUtc : Stamp
  /-- For the .hdr file: TRIG_FRAC and the fraction below 1 ns. -/
  trigFrac : Nat
  subNs : Nat
  tmqCode : Nat
  columns : List Column
  deriving DecidableEq, Repr

/-- An instant on UTC: leap seconds applied, only here (R6). -/
def State.utc (s : State) (t : Stamp) : Stamp :=
  let leap := s.time.leap.getD Config.leapSeconds
  { t with sec := ((t.sec : Int) - leap).toNat }

/-- The smallest time quality code of IEEE C37.118 whose bound covers an error in ns; 0xF where the quality is UNCERTAIN (R345, assumption 128). -/
def tmqCode (quality errNs : Nat) : Nat :=
  if quality = 3 then 0xF else match (List.range 11).find? (fun k => decide (errNs ≤ 10 ^ k)) with | some k => k + 1 | none => 0xF

/-- The value that a tag source shows at an instant, from its entries: sample and hold. -/
def heldTag (g : Segment) (tag : Nat) (t : Stamp) : Option Tag :=
  let l := (g.tagEntries.filter (fun e => decide (e.1 = tag))).map (·.2)
  (l.filter (fun x => decide ((tsStamp x.ts).fine ≤ t.fine))).getLast?.or l.head?

/-- The columns of a segment over some of its frames: channels, then tags, BOOL tags as status channels. -/
def columnsOf (r : Record) (g : Segment) (frames : List Frame) : List Column :=
  let chan (p : ChanEntry × Nat) : Column :=
    ⟨p.1.name, p.1.gain, p.1.offset, false, frames.map (fun f => match f.samples[p.2]? with | some x => if x.good then some (f64OfInt x.value) else none | none => none)⟩
  let tag (e : ChanEntry) : Column :=
    ⟨e.name, 0x3F800000#32, 0#32, e.bit, frames.map (fun f => (heldTag g e.tag f.time).bind (fun x =>
      (tagTypes.find? (fun t => decide (typeCode t = x.type))).bind (fun t => tagNumber t x.value)))⟩
  ((r.table.take r.cfg.channels.length).zipIdx).map chan ++ (r.table.drop r.cfg.channels.length).map tag

/-- A file set's heading. -/
def State.comtrade (s : State) (r : Record) (g : Segment) (frames : List Frame) : Comtrade :=
  let first := match frames.head? with | some f => f.time | none => g.trigger.time
  { station := s.mram.pairName, device := s.mram.slotName, serial := r.serial, rate := frameRate r.cfg, float := r.cfg.sv || decide (r.cfg.tags ≠ []),
    startUtc := s.utc first, trigUtc := s.utc g.trigger.time, trigFrac := trigFrac (frameRate r.cfg) g, subNs := g.trigger.time.frac / 65536,
    tmqCode := tmqCode g.quality g.errNs, columns := columnsOf r g frames }

/-- One file set for a segment's raw part, and one for its reduced part (R345). -/
def State.segmentSets (s : State) (r : Record) (g : Segment) : List Comtrade :=
  let reduced := g.reduced.flatMap (fun p => [p.1, p.2])
  s.comtrade r g g.raw :: (if reduced = [] then [] else [s.comtrade r g reduced])

/-- A point of a source channel: offset from t0 in 2^-32 ns, and its good sample. -/
abbrev Point := Int × Option DWord

/-- A channel resampled at an offset (R344): linear between its two neighbouring good samples, none where neither lies within one source interval. -/
def resample (interval : Nat) (l : List Point) (x : Int) : Option DWord :=
  let good := l.filterMap (fun p => p.2.map (fun v => (p.1, v)))
  let before := (good.filter (fun p => decide (p.1 ≤ x))).getLast?
  let after := (good.filter (fun p => decide (x ≤ p.1))).head?
  let near (p : Int × DWord) : Bool := decide ((p.1 - x).natAbs ≤ interval)
  match before, after with
  | some a, some b =>
    if !near a && !near b then none
    else if a.1 = b.1 then some a.2
    else some (f64Add a.2 (f64Div (f64Mul (f64Sub b.2 a.2) (f64OfInt (x - a.1))) (f64OfInt (b.1 - a.1))))
  | some a, none => if near a then some a.2 else none
  | none, some b => if near b then some b.2 else none
  | none, none => none

/-- Chosen segments, each with its record. -/
def State.chosenSegs (s : State) (l : List (Nat × Nat)) : List (Record × Segment) :=
  l.filterMap (fun e => ((s.acq.stored.find? (fun r => !r.opened && decide (r.rcd.id = e.1))).bind (fun r => (r.rcd.segments[e.2]?).map (fun g => (r.rcd, g)))))

/-- The aligned set (R344): placed against t0, resampled to the highest rate, with the worst time quality. -/
def State.alignedSet (s : State) (l : List (Nat × Nat)) (t0 : Option Nat) : List Comtrade :=
  let segs := s.chosenSegs l
  let rate := (segs.map (fun p => frameRate p.1.cfg)).foldl max 0
  match segs.find? (fun p => decide (frameRate p.1.cfg = rate)), segs.map (fun p => p.2.trigger.time.fine) with
  | some lead, t :: ts =>
    let zero : Int := match t0 with | some x => (x : Int) | none => ((ts.foldl min t : Nat) : Int)
    let grid := lead.2.raw.map (fun f => (f.time.fine : Int) - zero)
    let column (p : Record × Segment) (c : Column) : Column :=
      { c with samples := grid.map (resample (1000000000 * 2 ^ 32 / frameRate p.1.cfg) ((p.2.raw.map (fun f => (f.time.fine : Int) - zero)).zip c.samples)) }
    let head := s.comtrade lead.1 lead.2 lead.2.raw
    let quality := (segs.map (fun p => p.2.quality)).foldl max 0
    let err := (segs.map (fun p => p.2.errNs)).foldl max 0
    [{ head with float := true, tmqCode := tmqCode quality err, columns := segs.flatMap (fun p => (columnsOf p.1 p.2 p.2.raw).map (column p)) }]
  | _, _ => []

def stampCode (t : Stamp) : List Nat := [t.sec, t.ns, t.frac]

/-- A file set as the list of numbers that its text presents. -/
def Comtrade.code (c : Comtrade) : List Nat :=
  [c.station, c.device, c.serial.toNat, c.rate, b2n c.float] ++ stampCode c.startUtc ++ stampCode c.trigUtc ++ [c.trigFrac, c.subNs, c.tmqCode, c.columns.length]
    ++ c.columns.flatMap (fun x => (x.name.length :: x.name.map (·.toNat)) ++ [x.a.toNat, x.b.toNat, b2n x.status, x.samples.length]
      ++ x.samples.map (fun v => match v with | some w => w.toNat + 1 | none => 0))

/-- The text of a file set. -/
def comtradeText (c : Comtrade) : List Byte := (List.range (Config.textLength c.code)).map (Config.textByte c.code)

/-! Other files (R392). Where the manual names a file's fields and gives no offsets, they follow one another in its order (assumption 125). -/

/-- The record index: RECORD_ID, definition, OPEN_TIME and status (0 whole, 1 LOST) of every record. -/
def State.indexBytes (s : State) : List Byte :=
  (s.acq.stored.filter (fun r => !r.opened || decide (r.rcd.id ∈ s.acq.lostIds))).flatMap (fun r =>
    leBytes 8 r.rcd.id ++ leBytes 1 r.rcd.definition ++ stampBytes r.rcd.openTime ++ leBytes 1 (b2n r.opened))

/-- An exchange report (R159): a header, then one record per item, its kind in the order of the rule's table. -/
def reportBytes (x : Report) : List Byte :=
  let item (kind : Nat) (l : List Byte) : List Byte := leBytes 1 kind ++ l
  leBytes 4 x.oldRevision ++ leBytes 4 x.newRevision ++ hashBytes x.oldDigest ++ hashBytes x.newDigest ++ leBytes 8 x.qs
    ++ x.switches.flatMap (fun e => leBytes 1 e.1 ++ leBytes 8 e.2.1 ++ leBytes 8 e.2.2) ++ leBytes 8 x.lastSwitch.toNat ++ leBytes 1 (b2n x.partnered)
    ++ x.newInstance.flatMap (fun e => item 1 (leBytes 8 e.1 ++ leBytes 8 e.2.toNat))
    ++ x.dropped.flatMap (fun e => item 2 (leBytes 8 e.1 ++ leBytes 8 e.2.toNat))
    ++ x.signatureChanged.flatMap (fun e => item 3 (leBytes 8 e.1 ++ leBytes 8 e.2.1.toNat ++ leBytes 8 e.2.2.toNat))
    ++ x.expired.flatMap (fun e => item 4 (leBytes 8 e.1 ++ leBytes 8 e.2.1 ++ leBytes 8 e.2.2))
    ++ x.orphanForce.flatMap (fun e => item 5 (leBytes 4 e.1 ++ leBytes 8 e.2.1.toNat ++ leBytes 2 e.2.2.toNat))
    ++ x.forceDropped.flatMap (fun e => item 6 (leBytes 4 e)) ++ x.noLongerOrphan.flatMap (fun e => item 7 (leBytes 4 e))
    ++ x.constantKept.flatMap (fun e => item 8 (leBytes 4 e.1 ++ leBytes 8 e.2.1.toNat ++ leBytes 8 e.2.2.toNat))
    ++ x.constantDiscarded.flatMap (fun e => item 9 (leBytes 4 e))
    ++ x.tagAdded.flatMap (fun e => item 10 (leBytes 4 e.1 ++ leBytes 1 e.2)) ++ x.tagRemoved.flatMap (fun e => item 11 (leBytes 4 e.1 ++ leBytes 1 e.2))
    ++ x.unitAdded.flatMap (fun e => item 12 (leBytes 4 e.1 ++ leBytes 4 e.2)) ++ x.unitRemoved.flatMap (fun e => item 13 (leBytes 4 e.1 ++ leBytes 4 e.2))
    ++ x.workClosed.flatMap (fun e => item 14 (leBytes 8 e.1 ++ leBytes 2 e.2))

/-- The content of a file that can be read. -/
def State.fileContent (s : State) (name : FileName) : List Byte :=
  let whole (id : Nat) : Option Record := (s.acq.stored.find? (fun r => !r.opened && decide (r.rcd.id = id))).map (·.rcd)
  match name with
  | .recordsIndex => s.indexBytes
  | .record id comtrade => match whole id with
    | some r => if comtrade then (r.segments.flatMap (s.segmentSets r)).flatMap comtradeText else recordBytes r
    | none => []
  | .aligned l t0 => (s.alignedSet l t0).flatMap comtradeText
  | .exchangeReport k => match s.mram.reports.reverse[k]? with | some x => reportBytes x | none => []
  | .faults => (s.mram.faultRing.flatMap faultWords).flatMap (fun w => leBytes 4 w.toNat)
  | .mileage => match s.newestMil with | some e => (e.2.records.flatMap (·.2)).flatMap (fun w => leBytes 4 w.toNat) | none => []
  | .imagePending => []
  | .update _ => []

end Sys2Proof.Machine
end

