-- ==== Sys2Proof/Machine/Dpp.lean ====
section
/-! DEFINITION. The Derent Plant Protocol (R378 to R392, R507): sessions, submissions, tags, events, registers and files. -/

namespace Sys2Proof.Machine

/-! Sessions (R378, R379, R381 to R383). -/

/-- The module answers on a port (R379, R445, R467). -/
def State.answers (s : State) (p : Port) : Bool :=
  s.powered && decide (p ∈ s.net.up) && !s.mpu.restarting && (decide (p = .svc) || ((decide (p = .pla) || decide (p = .plb)) && decide (s.mode ≠ .terminus)))

/-- A client's certificate chains to the owner anchor (R57, R378); in TERMINUS without an anchor, to the service root (R467). -/
def State.clientOk (s : State) (c : ClientChain) : Bool :=
  (if s.mode = .terminus ∧ s.mram.anchor.isNone then decide (c.owner.key = s.fixed.serviceKey) else decide (s.mram.anchor = some (keyHash c.owner.key)))
    && certOk c.owner.key c.leaf

/-- A frame of the plant bus that arrives on the wrong LAN is raised (R367). -/
def plantFrame (port : Port) (wrongLan : Bool) (s : State) : State := s.raiseIf (wrongLan && decide (port ≠ .svc)) Ev.PLNT_PRP_WRONG_LAN

/-- DTLS_HANDSHAKE (R378): mutual authentication; the module presents its identity certificate. -/
def execDtlsHandshake (arrival : PlantArrival) (client : Option ClientChain) (s : State) : Host.Outcome State Fault Refusal :=
  .next (if s.answers arrival.port then
      let s := plantFrame arrival.port arrival.wrongLan s
      match client with
      | some c =>
        if s.clientOk c then
          let h : Handshake := ⟨arrival.port, c.role⟩
          ({ s with net := { s.net with handshakes := s.net.handshakes ++ [h] } } : State).send (.certificates s.chain)
        else s.raise Ev.PLNT_AUTH_FAILED
      | none => s.raise Ev.PLNT_AUTH_FAILED
    else s)

/-- Update transfers of a session are lost with it (R457). -/
def lostTransfers (x : Session) (s : State) : State :=
  forEach x.files (fun f s => match f.name, f.write with
    | .update r, true => (match s.sessionOfRegion r 1 with | some n => s.setUpdSession n { s.updSession n with state := 9, opened := false } | none => s)
    | _, _ => s) s

/-- A session ends, and its subscriptions with it (R382, R389). -/
def endSession (k : Nat) (s : State) : State :=
  match Tab.get? s.net.sessions k with
  | some x =>
    let s := lostTransfers x s
    { s with net := { s.net with sessions := Tab.erase s.net.sessions k, subs := s.net.subs.filter (fun e => decide (e.2.session ≠ k)) },
             jrn := { s.jrn with waiters := s.jrn.waiters.map (fun w => if w.session = k then { w with session := 0 } else w) } }
  | none => s

/-- The recorded highest CLIENT_SEQ of a client (R205, R382). -/
def State.clientHigh (s : State) (id : Nat) : Nat := match Tab.get? s.jrn.clients id with | some x => x.high | none => 0

/-- Numbers of sessions, subscriptions and handles are 32 bits, and never 0. -/
def nextNumber (n : Nat) : Nat := if n + 1 < 2 ^ 32 then n + 1 else 1

/-- The PAIR_ID of the key in use. -/
def State.pairId (s : State) : Nat := match s.start.key with | some k => k.pairId | none => s.mram.pairServed.getD 0

/-- A new session, and the reply to its OPEN (R382); the widths of its payload are the model's (assumption 8). -/
def newSession (port : Port) (reqId clientId : Nat) (role : ClientRole) (viaPair events : Bool) (s : State) : State :=
  let k := s.net.nextSession
  let x : Session := { port := port, clientId := clientId, role := role, events := events, replies := [], files := [], eventSecond := s.second, eventCount := 0, eventDropped := 0,
                       viaPair := viaPair, lastHeard := s.time.tick }
  let s := { s with net := { s.net with sessions := Tab.set s.net.sessions k x, nextSession := nextNumber k } }
  let body := leBytes 4 k ++ leBytes 8 (s.clientHigh clientId) ++ leBytes 4 s.policy.clientWindow ++ leBytes 1 (modeCode s.mode) ++ leBytes 1 (b2n s.carrier.slotB)
    ++ leBytes 16 s.pairId ++ hashBytes s.digest
  (reply k reqId ⟨1, 0, 0, body⟩ s).raise Ev.PLNT_SESSION_OPENED

/-- OPEN (R382, R383, R467): a second OPEN of an identity closes its older session; a certificate with no role opens none. The pair address is answered only
while the claim is confirmed (R379). -/
def execOpenSession (r : Req) (connection : Nat) (pairAddress : Bool) (clientId : Nat) (events : Bool) (s : State) : Host.Outcome State Fault Refusal :=
  let refuse (code : Nat) (s : State) : State := (s.send (.reply 0 r.reqId ⟨1, code, 0, []⟩)).raise Ev.PLNT_SESSION_REFUSED
  .next (match s.net.handshakes[connection]? with
    | none => s
    | some h =>
      if !s.answers h.port || !dppOk 0x01 r || (pairAddress && (!s.pair.pairAddr || decide (h.port = .svc))) then s
      else match h.role with
        | none => refuse 0xB s
        | some role =>
          if s.mode = .terminus ∧ role ≠ .service then refuse 0xB s
          else
            let s := match s.sessionOfClient clientId with | some k => endSession k (s.send (.closed k)) | none => s
            let full := if h.port = .svc then decide (4 ≤ s.sessionsOn true) else decide (64 ≤ s.sessionsOn false)
            if full then refuse 0xC s else newSession h.port r.reqId clientId role pairAddress events s)

/-- The module answers a session: on its port, and one opened at the pair address only while that address is this module's (R379). -/
def State.answersSession (s : State) (x : Session) : Bool := s.answers x.port && (!x.viaPair || s.pair.pairAddr)

/-- A message of a session's client holds off its end (R382). -/
def heard (k : Nat) (x : Session) (s : State) : State := { s with net := { s.net with sessions := Tab.set s.net.sessions k { x with lastHeard := s.time.tick } } }

/-- A session's request of one kind is served if it is not discarded; a repeated REQ_ID gets its cached reply (R380, R381). -/
def serve (kind : Nat) (r : Req) (f : Session → State → State) (s : State) : State :=
  match Tab.get? s.net.sessions r.session with
  | some x =>
    if !s.answersSession x || !dppOk kind r then s
    else
      let s := heard r.session x s
      match x.replies.find? (fun (e : Nat × Reply) => decide (e.1 = r.reqId)) with
      | some e => s.send (.reply r.session r.reqId e.2)
      | none => f { x with lastHeard := s.time.tick } s
  | none => s

/-- The reply to a request: kind, code, DETAIL, payload. -/
def answer (r : Req) (kind code detail : Nat) (body : List Byte) (s : State) : State := reply r.session r.reqId ⟨kind, code, detail, body⟩ s

/-- The reply BUSY of a request shed by load (R446). -/
def shedReply (r : Req) (kind : Nat) (s : State) : State := answer r kind 3 0 [] (s.inc Reg.MPU_LOAD_BUSY_REPLIES)

/-- Reads of an ENGINEER or SERVICE session are shed from level 4 on (R446). -/
def readShed (x : Session) (s : State) : Bool := decide (4 ≤ s.shed) && decide (x.role ≠ .operator)

/-- In TERMINUS the protocol is limited to what R467 lists. -/
def State.limited (s : State) : Bool := decide (s.mode = .terminus)

/-- CLOSE (R381). -/
def execCloseSession (r : Req) (s : State) : Host.Outcome State Fault Refusal :=
  .next (serve 0x02 r (fun _ s => endSession r.session (answer r 2 0 0 [] s)) s)

/-- KEEPALIVE (R381, R382): the one message that is not answered; it holds off the session's end. -/
def execKeepalive (r : Req) (s : State) : Host.Outcome State Fault Refusal :=
  .next (match Tab.get? s.net.sessions r.session with
    | some x => if s.answersSession x && dppOk 0x03 r then heard r.session x s else s
    | none => s)

/-- SESSION_TIMEOUT (R382): 10 s without a message from its client. -/
def execSessionTimeout (session : Nat) (s : State) : Host.Outcome State Fault Refusal :=
  .next (match Tab.get? s.net.sessions session with
    | some x => if x.lastHeard + ticksOfMs 10000 ≤ s.time.tick then endSession session (s.send (.closed session)) else s
    | none => s)

/-! Submissions (R75, R94, R385, R506). -/

/-- State code of the partner module, 0 while unknown. -/
def State.partnerCode (s : State) : Nat := match s.pair.partnerMode with | some m => modeCode m | none => 0

/-- Tags that forces in place and accepted, undelivered force sets name (R94). -/
def State.forceTags (s : State) : List Nat :=
  let held := (s.ctl.forces.map (fun (e : Nat × Force) => e.1))
  let due := (s.taskIds.flatMap (fun t => s.pendingFor t)).filterMap (fun w => match w.work with | .forceSet t .. => some t | _ => none)
  due.foldl (fun l t => addOnce t l) held

/-- A constant's value lies within its bounds, compared as its type orders them (R141). -/
def inBounds (t : TagType) (lo hi v : DWord) : Bool :=
  let signedLe (a b : DWord) : Bool := decide ((encodeValue t a).toInt ≤ (encodeValue t b).toInt)
  match t with
  | .real32 => f64Le (f64OfF32 (lo.toNat % 2 ^ 32)) (f64OfF32 (v.toNat % 2 ^ 32)) && f64Le (f64OfF32 (v.toNat % 2 ^ 32)) (f64OfF32 (hi.toNat % 2 ^ 32))
  | .real64 => f64Le lo v && f64Le v hi
  | .int8 => signedLe lo v && signedLe v hi
  | .int16 => signedLe lo v && signedLe v hi
  | .int32 => signedLe lo v && signedLe v hi
  | .int64 => signedLe lo v && signedLe v hi
  | .duration => signedLe lo v && signedLe v hi
  | _ => decide ((encodeValue t lo).toNat ≤ (encodeValue t v).toNat) && decide ((encodeValue t v).toNat ≤ (encodeValue t hi).toNat)

/-- A value is valid for a constant's type (R81); the image gives a constant no enumeration. -/
def validConst (t : TagType) (v : DWord) : Bool := match t with | .enum16 => true | _ => validValue t [] v

/-- A constant change at submission (R141); 0: no refusal. -/
def State.constantRefusal (s : State) (digest task : Nat) (pairs : List (Nat × DWord)) : Nat :=
  let decl (i : Nat) : Option ConstDecl := findKey (s.cfgList (·.constants)) i
  if digest ≠ s.digest then 0x20
  else if pairs.length = 0 ∨ 256 < pairs.length then 0x2F
  else if pairs.any (fun p => match decl p.1 with | some d => !d.changeable || decide (d.task ≠ task) | none => true) then 0x22
  else if pairs.any (fun p => match decl p.1 with | some d => !validConst d.type p.2 || !inBounds d.type d.lo d.hi p.2 | none => true) then 0x21
  else if 65536 < (s.overlayWith pairs).length then 0x23
  else 0

/-- The checks of a work's own chapter (R385 step 3): REPLY code and DETAIL; (0, 0): none fails. -/
def State.chapterCheck (s : State) (w : Work) : Nat × Nat :=
  let refused (d : Nat) : Nat × Nat := if d = 0 then (0, 0) else (2, d)
  match w with
  | .tagWrite tag type _ _ value =>
    let c := s.checkTagWrite true tag type value
    if c = 0 then (0, 0) else if c = 1 then (0xD, 0) else if c = 2 then (0xE, 0) else if c = 3 then (0xF, 0) else (2, 0x13)
  | .forceSet tag type _ _ value =>
    let c := s.checkTagWrite false tag type value
    if c = 0 then (if 4096 < (addOnce tag s.forceTags).length then (0x10, 0) else (0, 0)) else if c = 1 then (0xD, 0) else if c = 3 then (0xF, 0) else (2, 0x13)
  | .forceRelease tag => if (s.tagDecl tag).isSome then (0, 0) else (0xD, 0)
  | .unitMessage unit _ kind _ payload =>
    let c := s.messageEntry unit kind payload.length
    if c = 5 then (0x11, 0) else refused c
  | .roleAssign unit role => if (s.unitDecl unit).isNone then (2, 2) else if role ≠ 0 ∧ (findKey (s.cfgList (·.roles)) role).isNone then (2, 0x14) else (0, 0)
  | .constantChange digest task pairs => refused (s.constantRefusal digest task pairs)
  | .exchangeRequest digest alone _ restructure => refused (s.exchangeRefusal digest alone restructure)
  | .restart scope _ => if 2 < scope then (2, 0) else (0, 0)
  | _ => (0, 0)

/-- Work kinds an OPERATOR may submit (R383). -/
def operatorWork : Work → Bool
  | .tagWrite .. => true
  | .unitMessage .. => true
  | .roleAssign .. => true
  | _ => false

/-- RESTART outside the journal (R75). -/
def restartOutside (r : Req) (x : Session) (clientSeq scope : Nat) (cold : Bool) (s : State) : State :=
  if x.role = .operator then answer r 0x10 0xB 0 [] s
  else if scope ≠ 0 then (answer r 0x10 9 s.partnerCode [] s).inc Reg.PLNT_REFUSED_NOT_ACTIVE
  else
    let same := match s.mram.restart with | some o => decide (o.clientId = x.clientId) && decide (o.clientSeq = clientSeq) | none => false
    let s' := if same then s
      else { s with mram := { s.mram with restart := some ⟨cold, x.clientId, clientSeq, false⟩ }, pair := { s.pair with restartGoDue := some false } }
    answer r 0x10 1 0 (leBytes 8 0 ++ leBytes 1 0) s'

/-- A submission, step by step (R385, R446). -/
def submitBody (r : Req) (clientSeq : Nat) (work : Work) (x : Session) (s : State) : State :=
  let notActive (code detail : Nat) : State := (answer r 0x10 code detail [] s).inc Reg.PLNT_REFUSED_NOT_ACTIVE
  if s.limited then answer r 0x10 0xB 0 [] s
  else if 6 ≤ s.shed then (shedReply r 0x10 s).inc Reg.PLNT_REFUSED_BUSY
  else if s.mode = .active then
    (if x.role = .operator ∧ !operatorWork work then answer r 0x10 0xB 0 [] s
    else
      let c := s.chapterCheck work
      if c.1 ≠ 0 then answer r 0x10 c.1 c.2 [] s
      else journalSubmit r.session r.reqId (if x.port = .svc then .service else .plant) x.clientId clientSeq work (s.targetOf work) s)
  else match work with
    | .restart scope cold => restartOutside r x clientSeq scope cold s
    | _ => if s.mode = .halt then notActive 0xA 0 else notActive 9 s.partnerCode

/-- SUBMIT (R385). -/
def execSubmit (r : Req) (clientSeq : Nat) (work : Work) (s : State) : Host.Outcome State Fault Refusal :=
  .next (serve 0x10 r (submitBody r clientSeq work) s)

/-- The payload of QUERY (R507): STATE, 7 bytes of 0, WAYBILL_SEQ, and the completion's STATUS, CYCLE and RESULT where it is closed. -/
def State.queryBody (s : State) (id clientSeq : Nat) : List Byte :=
  let head (state w : Nat) : List Byte := leBytes 1 state ++ zeros 7 ++ leBytes 8 w
  let closed (w : Nat) : Option (List Byte) := (s.completionOf w).map (fun c => head 2 w ++ leBytes 2 c.status ++ leBytes 8 c.cycle ++ leBytes 64 c.result)
  match s.entryOf id clientSeq with
  | some w => if acceptedState w.state then (closed w.waybillSeq).getD (head 1 w.waybillSeq) else head 0 0
  | none =>
    match (match Tab.get? s.jrn.clients id with | some x => x.window.find? (fun (e : Accepted) => decide (e.seq = clientSeq)) | none => none) with
    | some e => (closed e.waybillSeq).getD (head 3 e.waybillSeq)
    | none => head 0 0

/-- QUERY (R507): served where a journal runs. -/
def execQuery (r : Req) (clientSeq : Nat) (s : State) : Host.Outcome State Fault Refusal :=
  .next (serve 0x12 r (fun x s =>
    if s.limited then answer r 0x12 0xB 0 [] s
    else if s.mode = .starting then answer r 0x12 9 s.partnerCode [] s
    else if clientSeq + s.policy.clientWindow ≤ s.clientHigh x.clientId then answer r 0x12 6 0 [] s
    else answer r 0x12 0 0 (s.queryBody x.clientId clientSeq) s) s)

/-! Tags (R388, R389). -/

/-- What an index of a read gives (R79, R388): its status and, where the tag is declared, its 32 bytes. -/
def State.tagAnswer (s : State) (t : Nat) : List Byte :=
  if (s.tagDecl t).isSome then leBytes 2 0 ++ tagBytes (Tab.getD s.ctl.tags t Tag.zero) else leBytes 2 0xD

/-- TAG_READ (R388): for each index OK and the visible tag, or TAG_UNDECLARED. -/
def execTagRead (r : Req) (tags : List Nat) (s : State) : Host.Outcome State Fault Refusal :=
  .next (serve 0x20 r (fun x s =>
    if s.limited then answer r 0x20 0xB 0 [] s
    else if readShed x s then shedReply r 0x20 s
    else if s.mode = .starting then answer r 0x20 9 s.partnerCode [] s
    else if tags = [] ∨ 32 < tags.length then answer r 0x20 2 0 [] s
    else answer r 0x20 0 0 (tags.flatMap s.tagAnswer) s) s)

def State.sub (s : State) (n : Nat) : Option Subscription := Tab.get? s.net.subs n
def State.setSub (s : State) (n : Nat) (x : Subscription) : State := { s with net := { s.net with subs := Tab.set s.net.subs n x } }

/-- Tags subscribed by one session, and by all. -/
def State.subscribed (s : State) (session : Option Nat) : Nat :=
  (s.net.subs.filter (fun e => session.all (fun k => decide (e.2.session = k)))).foldl (fun n e => n + e.2.tags.length) 0

/-- The CHANGE that no tag has: nothing notified yet. -/
def neverNotified : Nat := 2 ^ 32

/-- SUBSCRIBE (R389, R446). -/
def execSubscribe (r : Req) (minIntervalMs : Nat) (tags : List Nat) (s : State) : Host.Outcome State Fault Refusal :=
  .next (serve 0x21 r (fun _ s =>
    if s.limited then answer r 0x21 0xB 0 [] s
    else if 5 ≤ s.shed then shedReply r 0x21 s
    else if minIntervalMs < 10 ∨ 60000 < minIntervalMs then answer r 0x21 2 0 [] s
    else if tags.any (fun t => (s.tagDecl t).isNone) then answer r 0x21 0xD 0 [] s
    else if 16384 < s.subscribed (some r.session) + tags.length ∨ 65536 < s.subscribed none + tags.length then answer r 0x21 3 0 [] s
    else
      let n := s.net.nextSub
      let s := { s with net := { s.net with nextSub := nextNumber n } }
      answer r 0x21 0 0 (leBytes 4 n) (s.setSub n ⟨r.session, minIntervalMs, tags.map (fun t => (t, neverNotified)), 0, none⟩)) s)

/-- The subscription a session names as its own. -/
def State.ownSub (s : State) (r : Req) (n : Nat) : Bool := (s.sub n).any (fun x => decide (x.session = r.session))

/-- UNSUBSCRIBE (R381). -/
def execUnsubscribe (r : Req) (subscription : Nat) (s : State) : Host.Outcome State Fault Refusal :=
  .next (serve 0x22 r (fun _ s =>
    if s.limited then answer r 0x22 0xB 0 [] s
    else if s.ownSub r subscription then answer r 0x22 0 0 [] { s with net := { s.net with subs := Tab.erase s.net.subs subscription } }
    else answer r 0x22 2 0 [] s) s)

/-- What a subscription last notified of a tag that an exchange has since removed (R79). -/
def goneNotified : Nat := 2 ^ 32 + 1

/-- The value of a subscribed tag as its notification marks it: its CHANGE, or that it is declared no more. -/
def State.noted (s : State) (t : Nat) : Nat := if (s.tagDecl t).isSome then (Tab.getD s.ctl.tags t Tag.zero).change else goneNotified

/-- One NOTIFY message; NOTIFY_SEQ advances by 1 per message. A tag that is declared no more gives TAG_UNDECLARED and no bytes. -/
def notifyMsg (n : Nat) (tags : List Nat) (s : State) : State :=
  match s.sub n with
  | some x =>
    let seq := (x.seq + 1) % 2 ^ 32
    let full := tags.map (fun t => (t, if (s.tagDecl t).isSome then some (Tab.getD s.ctl.tags t Tag.zero) else none))
    (s.setSub n { x with seq := seq, sentAt := some s.time.tick, tags := x.tags.map (fun e => if e.1 ∈ tags then (e.1, s.noted e.1) else e) }).send
      (.notify x.session n seq full)
  | none => s

/-- A batch, split over as many messages as it needs: 30 indices with status and tag fit in 1,152 bytes (R380, R389). -/
def notifyBatch (n : Nat) (tags : List Nat) (s : State) : State :=
  forEach (List.range ((tags.length + 29) / 30)) (fun i s => notifyMsg n ((tags.drop (30 * i)).take 30) s) s

/-- RESEND (R389): every tag of the subscription. -/
def execResend (r : Req) (subscription : Nat) (s : State) : Host.Outcome State Fault Refusal :=
  .next (serve 0x24 r (fun _ s =>
    if s.limited then answer r 0x24 0xB 0 [] s
    else if s.ownSub r subscription then
      let tags := match s.sub subscription with | some x => x.tags.map (·.1) | none => []
      notifyBatch subscription tags (answer r 0x24 0 0 [] s)
    else answer r 0x24 2 0 [] s) s)

/-- NOTIFY (R389): the tags whose CHANGE differs from the value last notified, at most one batch in MIN_INTERVAL. -/
def execNotify (subscription : Nat) (s : State) : Host.Outcome State Fault Refusal :=
  .next (match s.sub subscription with
    | some x =>
      if s.powered && !s.mpu.restarting && x.sentAt.all (fun t => decide (t + ticksOfMs x.minMs ≤ s.time.tick)) then
        notifyBatch subscription ((x.tags.filter (fun e => decide (s.noted e.1 ≠ e.2))).map (·.1)) s
      else s
    | none => s)

/-- The bytes of a message of the protocol that the module sends (R380, R381, R387, R389, R390); a message beyond it has none here. -/
def dppBytes : Msg → List Byte
  | .reply session reqId r => dppMessage r.kind session reqId r.code r.detail r.body
  | .completion session c => dppMessage 0x11 session 0 0 0 (leBytes 8 c.waybillSeq ++ leBytes 8 c.clientSeq ++ leBytes 2 c.status ++ leBytes 8 c.cycle ++ leBytes 64 c.result)
  | .notify session n seq tags => dppMessage 0x23 session 0 0 0 (leBytes 4 n ++ leBytes 4 seq ++ tags.flatMap (fun e => leBytes 4 e.1 ++
      (match e.2 with | some g => leBytes 2 0 ++ tagBytes g | none => leBytes 2 0xD)))
  | .event session base offset bit seq time dropped =>
    dppMessage 0x30 session 0 0 0 (leBytes 4 base ++ leBytes 4 offset ++ leBytes 1 bit ++ leBytes 2 seq ++ leBytes 8 time.toNat ++ leBytes 4 dropped)
  | .closed session => dppMessage 0x02 session 0 0 0 []
  | _ => []

/-! Events (R390, R417). -/

/-- Event bits of the event register of each block, in block order. -/
def eventBits : List Nat := [4, 8, 10, 8, 10, 14, 7, 0] ++ List.replicate 8 10 ++ [7, 6, 8, 6, 5, 5, 7, 8, 3, 3, 9]

/-- The event register of a block has this bit. -/
def eventExists (base offset bit : Nat) : Bool :=
  eventAddr (base + offset) && decide (base = blockBase (base + offset)) && decide (bit < eventBits.getD (base / 0x10000) 0)

/-- EVENT (R390): an event bit becomes set, SEQ advances, and EVENT messages go out. -/
def execEvent (base offset : Nat) (bit : Fin 16) (s : State) : Host.Outcome State Fault Refusal :=
  .next (if s.powered && eventExists base offset bit.val then s.raise ⟨base + offset, bit.val⟩ else s)

/-! Registers (R391, R412). -/

/-- The origin of a session's register access. -/
def Session.origin (x : Session) (k : Nat) : Origin := if x.port = .svc then .svc k else .plant k

/-- Words read in ascending order. -/
def readWords (o : Origin) (addr : Nat) : Nat → State → List Nat × State
  | 0, s => ([], s)
  | n + 1, s =>
    let w := readBy o addr s
    let rest := readWords o (addr + 4) n w.2
    (w.1.toNat :: rest.1, rest.2)

/-- REG_READ (R391, R412). -/
def execRegRead (r : Req) (addr count : Nat) (s : State) : Host.Outcome State Fault Refusal :=
  .next (serve 0x40 r (fun x s =>
    if x.role = .operator then answer r 0x40 0xB 0 [] s
    else if readShed x s then shedReply r 0x40 s
    else if count = 0 ∨ 64 < count then answer r 0x40 2 0 [] s
    else
      let w := readWords (x.origin r.session) addr count s
      answer r 0x40 0 0 (w.1.flatMap (leBytes 4)) w.2) s)

/-- A word that the origin rules refuse (R391, R413). -/
def State.writeRefused (s : State) (o : Origin) (addr : Nat) (v : Word) : Bool :=
  shapeOk addr && !(decide (s.mode = .terminus) && decide (blockNum addr ≠ 0) && decide (blockNum addr ≠ 0x17)) && !s.writeAllowed o addr v

/-- Words written in ascending order, and whether one was refused. -/
def writeWords (o : Origin) (addr : Nat) : List Word → State → Bool × State
  | [], s => (false, s)
  | v :: l, s =>
    let bad := s.writeRefused o addr v
    let rest := writeWords o (addr + 4) l (writeBy o addr v s)
    (bad || rest.1, rest.2)

/-- REG_WRITE (R383, R391, R412, R413). -/
def execRegWrite (r : Req) (addr : Nat) (words : List Word) (s : State) : Host.Outcome State Fault Refusal :=
  .next (serve 0x41 r (fun x s =>
    if x.role ≠ .service then answer r 0x41 0xB 0 [] s
    else if s.limited && !(decide (addr = 0x17000C) && decide (words.length = 1)) then answer r 0x41 0xB 0 [] s
    else if words = [] ∨ 16 < words.length then answer r 0x41 2 0 [] s
    else
      let w := writeWords (x.origin r.session) addr words s
      answer r 0x41 (if w.1 then 0xE else 0) 0 [] w.2) s)

/-! Files (R345, R392, R456). -/

def State.setSession (s : State) (k : Nat) (x : Session) : State := { s with net := { s.net with sessions := Tab.set s.net.sessions k x } }

/-- Exports running: record files open for reading. -/
def State.exportsOpen (s : State) : Nat :=
  s.net.sessions.foldl (fun n e => n + (e.2.files.filter (fun f => match f.name with | .record .. => !f.write | .aligned .. => !f.write | _ => false)).length) 0

/-- The record index lists a record as stored whole. -/
def State.recordStored (s : State) (id : Nat) : Bool := s.acq.stored.any (fun r => !r.opened && decide (r.rcd.id = id))

/-- Why a file does not open: REPLY code and DETAIL; (0, 0): it opens. -/
def State.openRefusal (s : State) (name : FileName) (write : Bool) : Nat × Nat :=
  match name with
  | .imagePending => if !write then (0x12, 0) else if s.recent10 s.mram.imageWrittenAt then (3, 0) else (0, 0)
  | .update r =>
    if !write ∨ 5 < r then (0x12, 0)
    else if s.sessionsRunning.any (fun n => decide ((s.updSession n).region = r)) then (0x12, 0x20)
    else if 2 ≤ s.sessionsRunning.length then (0x12, 0x21)
    else if s.recent10 s.upd.lastOpen then (3, 0)
    else (0, 0)
  | .recordsIndex => if write then (0x12, 0) else if s.acq.indexReady then (0, 0) else (3, 0)
  | .record id _ =>
    if write then (0x12, 0)
    else if !s.acq.indexReady ∨ 4 ≤ s.exportsOpen ∨ 2 ≤ s.shed then (3, 0)
    else if s.recordStored id then (0, 0)
    else (0x12, 0)
  | .aligned l _ =>
    if write ∨ l = [] ∨ 8 < l.length then (0x12, 0)
    else if !s.acq.indexReady ∨ 4 ≤ s.exportsOpen ∨ 2 ≤ s.shed then (3, 0)
    else if l.all (fun e => s.recordStored e.1) then (0, 0)
    else (0x12, 0)
  | .exchangeReport k => if write ∨ s.mram.reports.length ≤ k then (0x12, 0) else (0, 0)
  | .faults => if write then (0x12, 0) else (0, 0)
  | .mileage => if write then (0x12, 0) else (0, 0)

/-- What the opening of a file begins: an update session (R456), or the write into the pending-image area (R194). -/
def openBegins (name : FileName) (s : State) : State :=
  match name with
  | .imagePending => { s with mram := { s.mram with imageWrittenAt := some s.sbyNow } }
  | .update r =>
    let n := if sessionRunning (s.updSession 0) then 1 else 0
    let s := s.setUpdSession n { region := r, state := 1, siding := none, spoilt := false, opened := true }
    { s with upd := { s.upd with lastOpen := some s.sbyNow } }.put (Reg.UPD_SESSION_PROGRESS n) 0
  | _ => s

/-- Files that TERMINUS serves (R467). -/
def terminusFile : FileName → Bool
  | .update r => decide (r ≤ 1)
  | _ => false

/-- FILE_OPEN (R392): at most 4 open files a session. -/
def execFileOpen (r : Req) (name : FileName) (write : Bool) (s : State) : Host.Outcome State Fault Refusal :=
  .next (serve 0x50 r (fun x s =>
    if x.role = .operator ∨ (s.limited ∧ !(terminusFile name && write)) then answer r 0x50 0xB 0 [] s
    else if 4 ≤ x.files.length then answer r 0x50 0x12 0 [] s
    else
      let c := s.openRefusal name write
      if c.1 ≠ 0 then answer r 0x50 c.1 c.2 [] (if c.1 = 3 ∧ 2 ≤ s.shed then s.inc Reg.MPU_LOAD_BUSY_REPLIES else s)
      else
        let s := openBegins name s
        let h := s.net.nextHandle
        let s := (s.setSession r.session { x with files := x.files ++ [⟨h, name, write, []⟩] })
        answer r 0x50 0 0 (leBytes 4 h) { s with net := { s.net with nextHandle := nextNumber h } }) s)

/-- Bytes of a file at an offset. -/
def State.fileBytes (s : State) (name : FileName) (offset : Nat) : List Byte := ((s.fileContent name).drop offset).take 1024

/-- An open file of a session. -/
def Session.file (x : Session) (h : Nat) : Option OpenFile := x.files.find? (fun f => decide (f.handle = h))

def Session.without (x : Session) (h : Nat) : Session := { x with files := x.files.filter (fun f => decide (f.handle ≠ h)) }

/-- FILE_READ (R392, R346, R446): a record that a commit has overwritten ends its export. -/
def execFileRead (r : Req) (handle offset : Nat) (s : State) : Host.Outcome State Fault Refusal :=
  .next (serve 0x51 r (fun x s =>
    if s.limited then answer r 0x51 0xB 0 [] s
    else if readShed x s then shedReply r 0x51 s
    else match x.file handle with
      | some f =>
        let records := match f.name with | .record id _ => [id] | .aligned l _ => l.map (·.1) | _ => []
        if f.write then answer r 0x51 0x12 0 [] s
        else if records.any (fun id => !s.recordStored id) then
          answer r 0x51 0x12 0 [] ((s.setSession r.session (x.without handle)).raise Ev.ACQ_RECORD_OVERWRITTEN)
        else if records ≠ [] ∧ 2 ≤ s.shed then shedReply r 0x51 s
        else answer r 0x51 0 0 (s.fileBytes f.name offset) s
      | none => answer r 0x51 0x12 0 [] s) s)

/-- Blocks of 4,096 bytes that an update session has received (UPD_SESSION PROGRESS). -/
def noteProgress (name : FileName) (bytes : Nat) (s : State) : State :=
  match name with
  | .update g => (match s.sessionOfRegion g 1 with | some n => s.put (Reg.UPD_SESSION_PROGRESS n) (satTo 16 (bytes / 4096)) | none => s)
  | _ => s

/-- FILE_WRITE (R392): chunks of at most 1,024 bytes, in ascending offset order. -/
def execFileWrite (r : Req) (handle offset : Nat) (data : List Byte) (s : State) : Host.Outcome State Fault Refusal :=
  .next (serve 0x52 r (fun x s =>
    match x.file handle with
    | some f =>
      if !f.write ∨ offset ≠ f.data.length ∨ data = [] ∨ 1024 < data.length then answer r 0x52 0x12 0 [] s
      else
        let moved := x.files.map (fun g => if g.handle = handle then { g with data := g.data ++ data } else g)
        answer r 0x52 0 0 [] (noteProgress f.name (offset + data.length) (s.setSession r.session { x with files := moved }))
    | none => answer r 0x52 0x12 0 [] s) s)

/-- The image that the bytes of an update file are, with what its certificate says. -/
def firmwareOf (data : List Byte) (content : Option FileContent) : FwImage :=
  match content with
  | some (.firmware f) => { f with bytes := data }
  | _ => { bytes := data, cert := ⟨[], (0, 0), (0, 0)⟩, signingUse := false }

/-- The image that the bytes of a pending-image file spell. -/
def imageOf (data : List Byte) (content : Option FileContent) : Option Image :=
  match content with
  | some (.image i) => if imageBytes i = data then some i else none
  | _ => none

/-- A written file whose CRC matched is kept (R147, R392, R457); otherwise it is discarded. -/
def closeWritten (name : FileName) (crcOk : Bool) (data : List Byte) (content : Option FileContent) (s : State) : State :=
  match name with
  | .imagePending =>
    if crcOk then { s with mram := { s.mram with pending := imageOf data content } } else s
  | .update g =>
    (match s.sessionOfRegion g 1 with
    | some n =>
      let s := s.put (Reg.UPD_SESSION_PROGRESS n) 0
      let x := s.updSession n
      if crcOk then s.setUpdSession n { x with state := 2, opened := false, siding := some (firmwareOf data content) }
      else s.setUpdSession n { x with state := 9, opened := false }
    | none => s)
  | _ => s

/-- FILE_CLOSE (R392): after a write it carries the CRC-32C of the whole file; content is what the bytes spell. -/
def execFileClose (r : Req) (handle : Nat) (crc : Word) (content : Option FileContent) (s : State) : Host.Outcome State Fault Refusal :=
  .next (serve 0x53 r (fun x s =>
    match x.file handle with
    | some f =>
      let s := s.setSession r.session (x.without handle)
      if f.write then
        let ok := decide (crc = crc32c f.data)
        answer r 0x53 (if ok then 0 else 0x12) 0 [] (closeWritten f.name ok f.data content s)
      else answer r 0x53 0 0 [] s
    | none => answer r 0x53 0x12 0 [] s) s)

end Sys2Proof.Machine
end

