-- ==== Sys2Proof/Machine/Dispatch.lean ====
section
/-! DEFINITION. Dispatch: one arm per command, each a direct call of its meaning. -/

namespace Sys2Proof.Machine

open Sys2Proof

/-- The effect of a command on everything but the queue. -/
def exec (i : Instr) (s : State) : Host.Outcome State Fault Refusal :=
  match i with
  | .seatedMade => Sys2Proof.Machine.execSeatedMade s
  | .insertionStart inp => Sys2Proof.Machine.execInsertionStart inp s
  | .seatedBreak => Sys2Proof.Machine.execSeatedBreak s
  | .cellLow => Sys2Proof.Machine.execCellLow s
  | .countLost => Sys2Proof.Machine.execCountLost s
  | .modSupplyLost input mv => Sys2Proof.Machine.execModSupplyLost input mv s
  | .fieldSupplyLost input mv => Sys2Proof.Machine.execFieldSupplyLost input mv s
  | .fieldFuseTrip input ma => Sys2Proof.Machine.execFieldFuseTrip input ma s
  | .fieldFuseReclose input => Sys2Proof.Machine.execFieldFuseReclose input s
  | .cageOverload port => Sys2Proof.Machine.execCageOverload port s
  | .holdupEntered => Sys2Proof.Machine.execHoldupEntered s
  | .powerLossRecord => Sys2Proof.Machine.execPowerLossRecord s
  | .holdupRailsDown => Sys2Proof.Machine.execHoldupRailsDown s
  | .supplyReturnRestart inp => Sys2Proof.Machine.execSupplyReturnRestart inp s
  | .leverOpened => Sys2Proof.Machine.execLeverOpened s
  | .reservoirHealthTest healthPct holdupMs => Sys2Proof.Machine.execReservoirHealthTest healthPct holdupMs s
  | .claimKeeperRefresh => Sys2Proof.Machine.execClaimKeeperRefresh s
  | .claimKeeperRelease => Sys2Proof.Machine.execClaimKeeperRelease s
  | .claimStuckHigh => Sys2Proof.Machine.execClaimStuckHigh s
  | .claimStuckLow => Sys2Proof.Machine.execClaimStuckLow s
  | .couplingHello h => Sys2Proof.Machine.execCouplingHello h s
  | .partnerWindowExpiry => Sys2Proof.Machine.execPartnerWindowExpiry s
  | .startHoldRetry inp => Sys2Proof.Machine.execStartHoldRetry inp s
  | .startEnterActive => Sys2Proof.Machine.execStartEnterActive s
  | .taskFreeze task => Sys2Proof.Machine.execTaskFreeze task s
  | .gatedRead lane copy request sample => Sys2Proof.Machine.execGatedRead lane copy request sample s
  | .barrierRelease lane => Sys2Proof.Machine.execBarrierRelease lane s
  | .checkpoint c => Sys2Proof.Machine.execCheckpoint c s
  | .reexecutionCompare c => Sys2Proof.Machine.execReexecutionCompare c s
  | .spareTakeover lane => Sys2Proof.Machine.execSpareTakeover lane s
  | .eccError f => Sys2Proof.Machine.execEccError f s
  | .scrubPass findings => Sys2Proof.Machine.execScrubPass findings s
  | .bistVisit lane first second => Sys2Proof.Machine.execBistVisit lane first second s
  | .closureRelease task => Sys2Proof.Machine.execClosureRelease task s
  | .alignedRelease task => Sys2Proof.Machine.execAlignedRelease task s
  | .overrunWatchdog task lane => Sys2Proof.Machine.execOverrunWatchdog task lane s
  | .paceWindow paces => Sys2Proof.Machine.execPaceWindow paces s
  | .clearMax origin task => Sys2Proof.Machine.execClearMax origin task s
  | .cmpInject origin lane copy repeated arm => Sys2Proof.Machine.execCmpInject origin lane copy repeated arm s
  | .faultSelect origin index => Sys2Proof.Machine.execFaultSelect origin index s
  | .exchangeLoaded => Sys2Proof.Machine.execExchangeLoaded s
  | .mapAck f => Sys2Proof.Machine.execMapAck f s
  | .announce f => Sys2Proof.Machine.execAnnounce f s
  | .announceAck h => Sys2Proof.Machine.execAnnounceAck s h
  | .exchangeComplete => Sys2Proof.Machine.execExchangeComplete s
  | .sbxExchangeRestart => Sys2Proof.Machine.execSbxExchangeRestart s
  | .submit r clientSeq work => Sys2Proof.Machine.execSubmit r clientSeq work s
  | .mirrorAck f => Sys2Proof.Machine.execMirrorAck f s
  | .mirrorTimeout seq => Sys2Proof.Machine.execMirrorTimeout seq s
  | .unconfirmedExpiry seq => Sys2Proof.Machine.execUnconfirmedExpiry seq s
  | .clientCheckpoint => Sys2Proof.Machine.execClientCheckpoint s
  | .clientEviction clientId => Sys2Proof.Machine.execClientEviction clientId s
  | .snapshotCapture => Sys2Proof.Machine.execSnapshotCapture s
  | .couplingDown cause => Sys2Proof.Machine.execCouplingDown cause s
  | .deltaAckTimeout task staleSeen => Sys2Proof.Machine.execDeltaAckTimeout task staleSeen s
  | .couplingRetrain session locked => Sys2Proof.Machine.execCouplingRetrain session locked s
  | .frameResend => Sys2Proof.Machine.execFrameResend s
  | .idle received => Sys2Proof.Machine.execIdle received s
  | .status h f => Sys2Proof.Machine.execStatus h f s
  | .delta h d => Sys2Proof.Machine.execDelta h d s
  | .deltaAck h task cycle closeSeq crc => Sys2Proof.Machine.execDeltaAck h task cycle closeSeq crc s
  | .mirror h entries => Sys2Proof.Machine.execMirror h entries s
  | .image h inp forExchange => Sys2Proof.Machine.execImage h inp forExchange s
  | .doubtWindowEnd => Sys2Proof.Machine.execDoubtWindowEnd s
  | .standbyLinkWaitEnd => Sys2Proof.Machine.execStandbyLinkWaitEnd s
  | .resyncReq h ask => Sys2Proof.Machine.execResyncReq h ask s
  | .resyncPage h p => Sys2Proof.Machine.execResyncPage h p s
  | .resyncControl h c => Sys2Proof.Machine.execResyncControl h c s
  | .resyncDone h closeSeq => Sys2Proof.Machine.execResyncDone h closeSeq s
  | .heldRecordExpiry page => Sys2Proof.Machine.execHeldRecordExpiry page s
  | .partnerClaimDropped => Sys2Proof.Machine.execPartnerClaimDropped s
  | .standbyReady => Sys2Proof.Machine.execStandbyReady s
  | .takeoverClaim => Sys2Proof.Machine.execTakeoverClaim s
  | .claimConfirmed => Sys2Proof.Machine.execClaimConfirmed s
  | .partnerClaimAsserted => Sys2Proof.Machine.execPartnerClaimAsserted s
  | .claimContest => Sys2Proof.Machine.execClaimContest s
  | .partnerAbsentTimeout => Sys2Proof.Machine.execPartnerAbsentTimeout s
  | .handover h qh => Sys2Proof.Machine.execHandover h qh s
  | .handoverAck h => Sys2Proof.Machine.execHandoverAck h s
  | .handoverQuantum => Sys2Proof.Machine.execHandoverQuantum s
  | .handoverCancel => Sys2Proof.Machine.execHandoverCancel s
  | .handoverFailTimeout => Sys2Proof.Machine.execHandoverFailTimeout s
  | .restartReq h r => Sys2Proof.Machine.execRestartReq h r s
  | .restartAck h => Sys2Proof.Machine.execRestartAck h s
  | .restartAckTimeout => Sys2Proof.Machine.execRestartAckTimeout s
  | .restartGo h cancel => Sys2Proof.Machine.execRestartGo h cancel s
  | .moduleRestart inp => Sys2Proof.Machine.execModuleRestart inp s
  | .claimFibreSample dark1 dark2 => Sys2Proof.Machine.execClaimFibreSample dark1 dark2 s
  | .sbxPass levels flips timerFault => Sys2Proof.Machine.execSbxPass levels flips timerFault s
  | .pickupExpiry equation => Sys2Proof.Machine.execPickupExpiry equation s
  | .dropoutExpiry equation => Sys2Proof.Machine.execDropoutExpiry equation s
  | .latchReset origin equation => Sys2Proof.Machine.execLatchReset origin equation s
  | .sbxEvalFault evaluator => Sys2Proof.Machine.execSbxEvalFault evaluator s
  | .acmpDisagree comparator => Sys2Proof.Machine.execAcmpDisagree comparator s
  | .svcmpFail comparator => Sys2Proof.Machine.execSvcmpFail comparator s
  | .diInputEdge channel level => Sys2Proof.Machine.execDiInputEdge channel level s
  | .diDebounceExpiry channel => Sys2Proof.Machine.execDiDebounceExpiry channel s
  | .diSampleWindow channel steady level => Sys2Proof.Machine.execDiSampleWindow channel steady level s
  | .doLimitEnter channel => Sys2Proof.Machine.execDoLimitEnter channel s
  | .doLimitClear channel => Sys2Proof.Machine.execDoLimitClear channel s
  | .doThermalEnter channel => Sys2Proof.Machine.execDoThermalEnter channel s
  | .doThermalRetry channel => Sys2Proof.Machine.execDoThermalRetry channel s
  | .doLockedRelease channel => Sys2Proof.Machine.execDoLockedRelease channel s
  | .adaptiveSupplyStep channel loopMv => Sys2Proof.Machine.execAdaptiveSupplyStep channel loopMv s
  | .compliance channel achievedUa => Sys2Proof.Machine.execCompliance channel achievedUa s
  | .openLoop channel achievedUa => Sys2Proof.Machine.execOpenLoop channel achievedUa s
  | .liveZeroLost channel => Sys2Proof.Machine.execLiveZeroLost channel s
  | .commonFaultSet platform readbacks => Sys2Proof.Machine.execCommonFaultSet platform readbacks s
  | .commonFaultCleared platform readbacks => Sys2Proof.Machine.execCommonFaultCleared platform readbacks s
  | .locate origin platform => Sys2Proof.Machine.execLocate origin platform s
  | .localisationRepeat platform readbacks => Sys2Proof.Machine.execLocalisationRepeat platform readbacks s
  | .converterPeriodBoundary results tt => Sys2Proof.Machine.execConverterPeriodBoundary results tt s
  | .fastSample samples => Sys2Proof.Machine.execFastSample samples s
  | .periodMeasurement secondary periodNs amplitudePct qualityGood => Sys2Proof.Machine.execPeriodMeasurement secondary periodNs amplitudePct qualityGood s
  | .periodNominal => Sys2Proof.Machine.execPeriodNominal s
  | .qpop origin => Sys2Proof.Machine.execQpop origin s
  | .calStart origin channel => Sys2Proof.Machine.execCalStart origin channel s
  | .takeZero origin channel => Sys2Proof.Machine.execTakeZero origin channel s
  | .takeSpan origin channel => Sys2Proof.Machine.execTakeSpan origin channel s
  | .calTakeDone => Sys2Proof.Machine.execCalTakeDone s
  | .commit origin channel => Sys2Proof.Machine.execCommit origin channel s
  | .calEnd origin channel => Sys2Proof.Machine.execCalEnd origin channel s
  | .abort origin channel => Sys2Proof.Machine.execAbort origin channel s
  | .calTimeout => Sys2Proof.Machine.execCalTimeout s
  | .turntableVisitStart platform => Sys2Proof.Machine.execTurntableVisitStart platform s
  | .testReq origin channel => Sys2Proof.Machine.execTestReq origin channel s
  | .coefficientBatchWrite => Sys2Proof.Machine.execCoefficientBatchWrite s
  | .acqTrigger e => Sys2Proof.Machine.execAcqTrigger e s
  | .acqTrig origin defMask => Sys2Proof.Machine.execAcqTrig origin defMask s
  | .segmentClose definition => Sys2Proof.Machine.execSegmentClose definition s
  | .rearm definition => Sys2Proof.Machine.execRearm definition s
  | .recordGapClose definition => Sys2Proof.Machine.execRecordGapClose definition s
  | .close origin definition => Sys2Proof.Machine.execClose origin definition s
  | .recordCommit => Sys2Proof.Machine.execRecordCommit s
  | .recordIndexRebuild => Sys2Proof.Machine.execRecordIndexRebuild s
  | .incCommit origin intNs => Sys2Proof.Machine.execIncCommit origin intNs s
  | .stepGo origin fraction => Sys2Proof.Machine.execStepGo origin fraction s
  | .timeLatch origin => Sys2Proof.Machine.execTimeLatch origin s
  | .timeServo origin quality source port errNs => Sys2Proof.Machine.execTimeServo origin quality source port errNs s
  | .holdoverExpired => Sys2Proof.Machine.execHoldoverExpired s
  | .holdoverSteer temp => Sys2Proof.Machine.execHoldoverSteer temp s
  | .ptpMessage m => Sys2Proof.Machine.execPtpMessage m s
  | .standbyCounterCopy => Sys2Proof.Machine.execStandbyCounterCopy s
  | .oscillatorSample temp => Sys2Proof.Machine.execOscillatorSample temp s
  | .oscillatorModelWrite => Sys2Proof.Machine.execOscillatorModelWrite s
  | .svFrame f => Sys2Proof.Machine.execSvFrame f s
  | .svHoldExpiry subscription => Sys2Proof.Machine.execSvHoldExpiry subscription s
  | .gooseMessage m => Sys2Proof.Machine.execGooseMessage m s
  | .gooseExpiry subscription => Sys2Proof.Machine.execGooseExpiry subscription s
  | .gooseHoldExpiry subscription => Sys2Proof.Machine.execGooseHoldExpiry subscription s
  | .gooseDeferredSend publication => Sys2Proof.Machine.execGooseDeferredSend publication s
  | .gooseRetransmit publication => Sys2Proof.Machine.execGooseRetransmit publication s
  | .supervisionFrame => Sys2Proof.Machine.execSupervisionFrame s
  | .linkDown port => Sys2Proof.Machine.execLinkDown port s
  | .testMode origin on => Sys2Proof.Machine.execTestMode origin on s
  | .pairAddressRepeat => Sys2Proof.Machine.execPairAddressRepeat s
  | .openSession r connection pairAddress clientId events => Sys2Proof.Machine.execOpenSession r connection pairAddress clientId events s
  | .closeSession r => Sys2Proof.Machine.execCloseSession r s
  | .keepalive r => Sys2Proof.Machine.execKeepalive r s
  | .sessionTimeout session => Sys2Proof.Machine.execSessionTimeout session s
  | .query r clientSeq => Sys2Proof.Machine.execQuery r clientSeq s
  | .tagRead r tags => Sys2Proof.Machine.execTagRead r tags s
  | .subscribe r minIntervalMs tags => Sys2Proof.Machine.execSubscribe r minIntervalMs tags s
  | .unsubscribe r subscription => Sys2Proof.Machine.execUnsubscribe r subscription s
  | .resend r subscription => Sys2Proof.Machine.execResend r subscription s
  | .notify subscription => Sys2Proof.Machine.execNotify subscription s
  | .event base offset bit => Sys2Proof.Machine.execEvent base offset bit s
  | .regRead r addr count => Sys2Proof.Machine.execRegRead r addr count s
  | .regWrite r addr words => Sys2Proof.Machine.execRegWrite r addr words s
  | .fileOpen r name write => Sys2Proof.Machine.execFileOpen r name write s
  | .fileRead r handle offset => Sys2Proof.Machine.execFileRead r handle offset s
  | .fileWrite r handle offset data => Sys2Proof.Machine.execFileWrite r handle offset data s
  | .fileClose r handle crc content => Sys2Proof.Machine.execFileClose r handle crc content s
  | .canFrameReceived port f sofTick => Sys2Proof.Machine.execCanFrameReceived port f sofTick s
  | .canTxEnd port outcome handle sofTick => Sys2Proof.Machine.execCanTxEnd port outcome handle sofTick s
  | .canTxTimeout port handle => Sys2Proof.Machine.execCanTxTimeout port handle s
  | .canCancel port handle => Sys2Proof.Machine.execCanCancel port handle s
  | .canBusOff port => Sys2Proof.Machine.execCanBusOff port s
  | .busOffRecovered port => Sys2Proof.Machine.execBusOffRecovered port s
  | .canMappingHoldExpiry port mapping twice => Sys2Proof.Machine.execCanMappingHoldExpiry port mapping twice s
  | .rxpop origin port => Sys2Proof.Machine.execRxpop origin port s
  | .registerWrite origin addr value => Sys2Proof.Machine.execRegisterWrite origin addr value s
  | .misalignedAccess origin span write => Sys2Proof.Machine.execMisalignedAccess origin span write s
  | .eventRegisterClear origin addr value => Sys2Proof.Machine.execEventRegisterClear origin addr value s
  | .multiwordMode origin block on => Sys2Proof.Machine.execMultiwordMode origin block on s
  | .multiwordLowRead origin addr => Sys2Proof.Machine.execMultiwordLowRead origin addr s
  | .mpuRegionWrite origin unit set region word value => Sys2Proof.Machine.execMpuRegionWrite origin unit set region word value s
  | .arm origin unit => Sys2Proof.Machine.execArm origin unit s
  | .swap origin unit => Sys2Proof.Machine.execSwap origin unit s
  | .swapAck unit => Sys2Proof.Machine.execSwapAck unit s
  | .protectionException a => Sys2Proof.Machine.execProtectionException a s
  | .impreciseNotice a set => Sys2Proof.Machine.execImpreciseNotice a set s
  | .release origin => Sys2Proof.Machine.execRelease origin s
  | .mgmtWatchdogRestart => Sys2Proof.Machine.execMgmtWatchdogRestart s
  | .loadWindow busyPct => Sys2Proof.Machine.execLoadWindow busyPct s
  | .verifyComplete session unreadable => Sys2Proof.Machine.execVerifyComplete session unreadable s
  | .activate origin session unreadable => Sys2Proof.Machine.execActivate origin session unreadable s
  | .imageTakesEffect session => Sys2Proof.Machine.execImageTakesEffect session s
  | .confirm origin session => Sys2Proof.Machine.execConfirm origin session s
  | .fallback origin session => Sys2Proof.Machine.execFallback origin session s
  | .updateAbort origin session => Sys2Proof.Machine.execUpdateAbort origin session s
  | .anchorClear origin session => Sys2Proof.Machine.execAnchorClear origin session s
  | .leaveTerminus origin inp => Sys2Proof.Machine.execLeaveTerminus origin inp s
  | .attestGo origin => Sys2Proof.Machine.execAttestGo origin s
  | .reportSigned randomiser => Sys2Proof.Machine.execReportSigned randomiser s
  | .nextTreeBuilt => Sys2Proof.Machine.execNextTreeBuilt s
  | .panelRefresh => Sys2Proof.Machine.execPanelRefresh s
  | .pixelShift => Sys2Proof.Machine.execPixelShift s
  | .contrastUpdate temp => Sys2Proof.Machine.execContrastUpdate temp s
  | .labelUpdateStart => Sys2Proof.Machine.execLabelUpdateStart s
  | .labelUpdateEnd => Sys2Proof.Machine.execLabelUpdateEnd s
  | .redraw origin => Sys2Proof.Machine.execRedraw origin s
  | .operatingMinute => Sys2Proof.Machine.execOperatingMinute s
  | .mileageSample values => Sys2Proof.Machine.execMileageSample values s
  | .milSel origin series live => Sys2Proof.Machine.execMilSel origin series live s
  | .syncInterval => Sys2Proof.Machine.execSyncInterval s
  | .dtlsHandshake arrival client => Sys2Proof.Machine.execDtlsHandshake arrival client s
  | .canFrameError port tec recv => Sys2Proof.Machine.execCanFrameError port tec recv s
  | .handoverClaimWaitEnd => Sys2Proof.Machine.execHandoverClaimWaitEnd s
  | .canErrRead => Sys2Proof.Machine.execCanErrRead s
  | .mgmtRestartEnd => Sys2Proof.Machine.execMgmtRestartEnd s

end Sys2Proof.Machine
end

