-- ==== Sys2Proof/Safety.lean ====
section
/-! DEFINITION. What counts as a safe run, and the terms the statements use: the parts of the state, what a command may touch of
them, and the invariants of the module. -/

namespace Sys2Proof.Machine

open Sys2Proof

/-- The parts of the state. -/
inductive Part where
  | pending | mode | bank | heldWrites | shadows | carrier | standby | fixed | start | claim | pair | tasks | lanes | ctl | jrn | exch
  | mram | sbox | chans | conv | acq | time | net | can0 | can1 | mpu | upd | panel | mil | outbox | freeCount
  deriving DecidableEq, Repr

/-- Part p is the same in both states. -/
def Part.same (p : Part) (s t : State) : Prop :=
  match p with
  | .pending => s.pending = t.pending
  | .mode => s.mode = t.mode
  | .bank => s.bank = t.bank
  | .heldWrites => s.heldWrites = t.heldWrites
  | .shadows => s.shadows = t.shadows
  | .carrier => s.carrier = t.carrier
  | .standby => s.standby = t.standby
  | .fixed => s.fixed = t.fixed
  | .start => s.start = t.start
  | .claim => s.claim = t.claim
  | .pair => s.pair = t.pair
  | .tasks => s.tasks = t.tasks
  | .lanes => s.lanes = t.lanes
  | .ctl => s.ctl = t.ctl
  | .jrn => s.jrn = t.jrn
  | .exch => s.exch = t.exch
  | .mram => s.mram = t.mram
  | .sbox => s.sbox = t.sbox
  | .chans => s.chans = t.chans
  | .conv => s.conv = t.conv
  | .acq => s.acq = t.acq
  | .time => s.time = t.time
  | .net => s.net = t.net
  | .can0 => s.can0 = t.can0
  | .can1 => s.can1 = t.can1
  | .mpu => s.mpu = t.mpu
  | .upd => s.upd = t.upd
  | .panel => s.panel = t.panel
  | .mil => s.mil = t.mil
  | .outbox => s.outbox = t.outbox
  | .freeCount => s.freeCount = t.freeCount

/-- t differs from s in the listed parts at most. -/
def KeepsBut (l : List Part) (s t : State) : Prop := ∀ p, p ∉ l → p.same s t

/-- The register bank is in canonical form: keys strictly rising, no field listed with the value an unlisted one reads as. -/
def BankOk (s : State) : Prop := Tab.wf 0 s.bank = true

/-- The main counter and the standby counter hold legal instants, and the increment fits its 8.32 bits (R7, R42, R347, R348). -/
def ClockOk (s : State) : Prop :=
  s.time.counter.sec < 2 ^ 48 ∧ s.time.counter.ns < 1000000000 ∧ s.time.counter.frac < 2 ^ 32 ∧ s.time.inc < 2 ^ 40
    ∧ s.standby.sec < 2 ^ 48 ∧ s.standby.frac < 32768

/-- Whether a state of R1 may drive the claim: a module in OFF, HALT or TERMINUS does not. -/
def mayDrive : Mode → Bool
  | .starting => true
  | .standby => true
  | .active => true
  | _ => false

/-- A module that is out of service does not drive its claim (R1, R241). -/
def ClaimOk (s : State) : Prop := s.claim.drive = true → mayDrive s.mode = true

/-- One step leads from s to t. -/
def Steps (s t : State) : Prop := step s = .next t

/-- A state some run reaches from reset, whatever commands are queued on the way. -/
inductive Reachable : State → Prop where
  | reset : Reachable State.reset
  | queue {s : State} (c : Instr) : Reachable s → Reachable { s with pending := s.pending ++ [c] }
  | step {s t : State} : Reachable s → Steps s t → Reachable t

/-- A run is safe when no step of it stops. -/
def SafeAt (s : State) : Prop := ∃ t, Steps s t

/-- Command c completes on s, and what it leaves meets P. -/
def Completes (c : Instr) (s : State) (P : State → Prop) : Prop := ∃ t, exec c s = .next t ∧ P t

/-- The bit and the sequence number of the event register of an event (R417). -/
def EvBit.flds (e : EvBit) : List Fld := [⟨e.addr, e.bit, 1⟩, ⟨e.addr, 16, 16⟩]

/-- From s to t the event e was raised once, and no other event of its register (R417). -/
def Raised (e : EvBit) (s t : State) : Prop :=
  t.get ⟨e.addr, e.bit, 1⟩ = 1 ∧ t.get ⟨e.addr, 16, 16⟩ = nextSeq (s.get ⟨e.addr, 16, 16⟩)

/-- Every register field of the bank but the listed ones reads in t as in s. -/
def RegsBut (l : List Fld) (s t : State) : Prop := ∀ f : Fld, (∀ g ∈ l, g.key ≠ f.key) → t.get f = s.get f

/-- An EVENT message of R390. -/
def Msg.isEvent : Msg → Bool
  | .event .. => true
  | _ => false

/-- From s to t the module sent EVENT messages at most, and of its networks only their counts per session may differ. -/
def EventsOnly (s t : State) : Prop :=
  (∃ l, t.outbox = s.outbox ++ l ∧ ∀ m ∈ l, m.isEvent = true) ∧ { t.net with sessions := [] } = { s.net with sessions := [] }

/-- From s to t the event e was raised once, the fields of l changed, and nothing else but the listed parts did. -/
def RaisedBut (e : EvBit) (l : List Fld) (ps : List Part) (s t : State) : Prop :=
  Raised e s t ∧ RegsBut (l ++ e.flds) s t ∧ EventsOnly s t ∧ KeepsBut ([.bank, .net, .outbox] ++ ps) s t

/-- A coupling message of that KIND is accepted from a partner module in state m (R2, R224, R225): the link is up, the check verifies, the frames are whole
and in order, LINK_SEQ is the next expected, SESSION and PAIR_TAG match, and STATE is a code of R2. -/
def FrameTaken (kind : Nat) (h : LinkHdr) (m : Mode) (s : State) : Prop :=
  s.powered = true ∧ s.mode ≠ .terminus ∧ s.pair.linkUp = true ∧ frameCrcOk h = true ∧ h.hdr.kind = kind ∧ h.payload.length ≤ 4096
    ∧ h.hdr.last = true ∧ h.hdr.chunk + 1 = h.hdr.chunks ∧ h.hdr.first = decide (h.hdr.chunks = 1)
    ∧ h.hdr.linkSeq = (s.pair.rxNext + h.hdr.chunk) % 2 ^ 32 ∧ h.hdr.session = s.pair.session ∧ h.hdr.pairTag = s.pairTag
    ∧ modeOfCode h.hdr.state = some m

/-- What the header of an accepted message makes of the state: the sequence moves on, and the partner module's state is noted (R225). -/
def afterHeader (h : LinkHdr) (m : Mode) (s : State) : State :=
  partnerIs m h.hdr.stale { s with pair := { s.pair with rxNext := (h.hdr.linkSeq + 1) % 2 ^ 32, peerAck := h.hdr.ack } }

/-- KIND and header of a command that is a message of the coupling (R224). -/
def frameHeader : Instr → Option (Nat × LinkHdr)
  | .idle h => h.map fun h => (0x00, h)
  | .status h _ => some (0x02, h)
  | .delta h _ => some (0x10, h)
  | .deltaAck h _ _ _ _ => some (0x11, h)
  | .mirror h _ => some (0x20, h)
  | .mirrorAck f => some (0x21, f.1)
  | .image h _ _ => some (0x30, h)
  | .mapAck f => some (0x31, f.1)
  | .announce f => some (0x32, f.1)
  | .announceAck h => some (0x33, h)
  | .resyncReq h _ => some (0x40, h)
  | .resyncPage h _ => some (0x41, h)
  | .resyncControl h _ => some (0x42, h)
  | .resyncDone h _ => some (0x43, h)
  | .handover h _ => some (0x50, h)
  | .handoverAck h => some (0x51, h)
  | .restartReq h _ => some (0x52, h)
  | .restartAck h => some (0x53, h)
  | .restartGo h _ => some (0x54, h)
  | _ => none

/-- A request of that KIND comes on an open session x whose port answers, is a good message of its protocol (R378, R380), and has not been answered before (R384). -/
def Asks (kind : Nat) (r : Req) (x : Session) (s : State) : Prop :=
  Tab.get? s.net.sessions r.session = some x ∧ s.answersSession x = true ∧ dppOk kind r = true
    ∧ x.replies.find? (fun (e : Nat × Reply) => decide (e.1 = r.reqId)) = none

/-- From s to t the module sent these messages on the coupling, in this order and nothing else. -/
def Sends (l : List Msg) (s t : State) : Prop :=
  ∃ hs : List FrameHdr, hs.length = l.length ∧ (∀ e ∈ hs.zip l, e.1.kind = frameKindOf e.2) ∧ t.outbox = s.outbox ++ (hs.zip l).map (fun e => Msg.frame e.1 e.2)

/-- The parts of the state a command may touch; every other part it leaves alone. -/
def touches : Instr → List Part
  | .seatedMade => [.carrier]
  | .insertionStart _ => [.mode, .bank, .heldWrites, .shadows, .carrier, .standby, .start, .claim, .pair, .tasks, .lanes, .ctl, .jrn, .exch, .mram, .sbox, .chans, .conv, .acq, .time, .net, .can0, .can1, .mpu, .upd, .panel, .mil, .outbox, .freeCount]
  | .seatedBreak => [.mode, .bank, .carrier, .standby, .claim, .pair, .tasks, .lanes, .mram, .chans, .conv, .acq, .net, .can0, .can1, .panel, .mil, .outbox, .freeCount]
  | .cellLow => [.standby, .net, .outbox]
  | .countLost => [.standby]
  | .modSupplyLost _ _ => [.bank, .carrier, .net, .outbox]
  | .fieldSupplyLost _ _ => [.mode, .bank, .carrier, .claim, .pair, .tasks, .lanes, .mram, .chans, .conv, .net, .can0, .can1, .panel, .mil, .outbox, .freeCount]
  | .fieldFuseTrip _ _ => [.mode, .bank, .carrier, .claim, .pair, .tasks, .lanes, .mram, .chans, .conv, .net, .can0, .can1, .panel, .mil, .outbox, .freeCount]
  | .fieldFuseReclose _ => [.carrier]
  | .cageOverload _ => [.bank, .carrier, .net, .outbox]
  | .holdupEntered => [.mode, .bank, .carrier, .claim, .pair, .tasks, .lanes, .mram, .chans, .conv, .acq, .net, .can0, .can1, .panel, .mil, .outbox, .freeCount]
  | .powerLossRecord => [.bank, .carrier, .pair, .jrn, .mram, .outbox]
  | .holdupRailsDown => [.mode, .bank, .heldWrites, .shadows, .carrier, .start, .claim, .pair, .tasks, .lanes, .ctl, .jrn, .exch, .mram, .sbox, .chans, .conv, .acq, .time, .net, .can0, .can1, .mpu, .upd, .panel, .mil]
  | .supplyReturnRestart _ => [.mode, .bank, .heldWrites, .shadows, .carrier, .standby, .start, .claim, .pair, .tasks, .lanes, .ctl, .jrn, .exch, .mram, .sbox, .chans, .conv, .acq, .time, .net, .can0, .can1, .mpu, .upd, .panel, .mil, .outbox, .freeCount]
  | .leverOpened => [.bank, .carrier, .net, .outbox]
  | .reservoirHealthTest _ _ => [.bank, .net, .outbox]
  | .claimKeeperRefresh => [.claim]
  | .claimKeeperRelease => [.bank, .claim, .pair, .tasks, .chans, .net, .can0, .can1, .mil, .outbox, .freeCount]
  | .claimStuckHigh => [.bank, .claim, .pair, .tasks, .lanes, .chans, .net, .can0, .can1, .mil, .outbox, .freeCount]
  | .claimStuckLow => [.bank, .claim, .pair, .tasks, .lanes, .chans, .net, .can0, .can1, .mil, .outbox, .freeCount]
  | .couplingHello _ => [.mode, .bank, .start, .claim, .pair, .tasks, .lanes, .ctl, .jrn, .mram, .sbox, .chans, .conv, .acq, .time, .net, .can0, .can1, .panel, .mil, .outbox, .freeCount]
  | .partnerWindowExpiry => [.mode, .bank, .start, .claim, .pair, .tasks, .lanes, .ctl, .jrn, .mram, .sbox, .chans, .conv, .acq, .net, .can0, .can1, .panel, .mil, .outbox, .freeCount]
  | .startHoldRetry _ => [.mode, .bank, .carrier, .start, .claim, .pair, .tasks, .lanes, .jrn, .mram, .sbox, .chans, .conv, .acq, .time, .net, .can0, .can1, .upd, .panel, .mil, .outbox, .freeCount]
  | .startEnterActive => [.mode, .bank, .claim, .chans, .upd, .panel, .mil]
  | .taskFreeze _ => [.bank, .heldWrites, .start, .pair, .tasks, .lanes, .ctl, .jrn, .exch, .mram, .sbox, .chans, .acq, .net, .can0, .can1, .outbox]
  | .gatedRead _ _ _ _ => [.mode, .bank, .start, .claim, .pair, .tasks, .lanes, .mram, .chans, .conv, .net, .can0, .can1, .panel, .mil, .outbox, .freeCount]
  | .barrierRelease _ => [.lanes]
  | .checkpoint _ => [.mode, .bank, .start, .claim, .pair, .tasks, .lanes, .jrn, .mram, .chans, .conv, .net, .can0, .can1, .mpu, .panel, .mil, .outbox, .freeCount]
  | .reexecutionCompare _ => [.mode, .bank, .start, .claim, .pair, .tasks, .lanes, .jrn, .mram, .chans, .conv, .net, .can0, .can1, .mpu, .panel, .mil, .outbox, .freeCount]
  | .spareTakeover _ => [.lanes]
  | .eccError _ => [.mode, .bank, .start, .claim, .pair, .tasks, .lanes, .mram, .chans, .conv, .net, .can0, .can1, .upd, .panel, .mil, .outbox, .freeCount]
  | .scrubPass _ => [.mode, .bank, .start, .claim, .pair, .tasks, .lanes, .mram, .chans, .conv, .net, .can0, .can1, .upd, .panel, .mil, .outbox, .freeCount]
  | .bistVisit _ _ _ => [.mode, .bank, .start, .claim, .pair, .tasks, .lanes, .mram, .chans, .conv, .net, .can0, .can1, .panel, .mil, .outbox, .freeCount]
  | .closureRelease _ => [.mode, .bank, .heldWrites, .shadows, .carrier, .standby, .start, .claim, .pair, .tasks, .lanes, .ctl, .jrn, .exch, .mram, .sbox, .chans, .conv, .acq, .time, .net, .can0, .can1, .mpu, .upd, .panel, .mil, .outbox, .freeCount]
  | .alignedRelease _ => [.mode, .bank, .heldWrites, .shadows, .carrier, .standby, .start, .claim, .pair, .tasks, .lanes, .ctl, .jrn, .exch, .mram, .sbox, .chans, .conv, .acq, .time, .net, .can0, .can1, .mpu, .upd, .panel, .mil, .outbox, .freeCount]
  | .overrunWatchdog _ _ => [.mode, .bank, .claim, .pair, .tasks, .lanes, .mram, .chans, .conv, .net, .can0, .can1, .panel, .mil, .outbox, .freeCount]
  | .paceWindow _ => [.bank, .net, .outbox]
  | .clearMax _ _ => [.bank, .net, .outbox]
  | .cmpInject _ _ _ _ _ => [.bank, .lanes, .net, .outbox]
  | .faultSelect _ _ => [.bank, .net, .outbox]
  | .exchangeLoaded => [.bank, .pair, .jrn, .exch, .mram, .outbox, .freeCount]
  | .mapAck _ => [.mode, .bank, .start, .claim, .pair, .tasks, .lanes, .ctl, .jrn, .exch, .mram, .sbox, .chans, .conv, .acq, .net, .can0, .can1, .panel, .mil, .outbox, .freeCount]
  | .announce _ => [.mode, .bank, .start, .claim, .pair, .tasks, .lanes, .ctl, .jrn, .exch, .mram, .sbox, .chans, .conv, .acq, .net, .can0, .can1, .panel, .mil, .outbox, .freeCount]
  | .announceAck _ => [.mode, .bank, .start, .claim, .pair, .tasks, .lanes, .ctl, .jrn, .exch, .mram, .sbox, .chans, .conv, .acq, .net, .can0, .can1, .panel, .mil, .outbox, .freeCount]
  | .exchangeComplete => [.bank, .start, .pair, .tasks, .jrn, .exch, .mram, .outbox]
  | .sbxExchangeRestart => [.bank, .pair, .jrn, .mram, .sbox, .chans, .mil, .outbox]
  | .submit _ _ _ => [.bank, .pair, .jrn, .mram, .net, .outbox]
  | .mirrorAck _ => [.mode, .bank, .start, .claim, .pair, .tasks, .lanes, .ctl, .jrn, .exch, .mram, .sbox, .chans, .conv, .acq, .net, .can0, .can1, .panel, .mil, .outbox, .freeCount]
  | .mirrorTimeout _ => [.bank, .jrn, .mram, .net, .outbox]
  | .unconfirmedExpiry _ => [.bank, .pair, .jrn, .mram, .net, .outbox]
  | .clientCheckpoint => [.mram]
  | .clientEviction _ => [.jrn]
  | .snapshotCapture => [.mram]
  | .couplingDown _ => [.bank, .start, .pair, .tasks, .jrn, .exch, .mram, .time, .net, .outbox, .freeCount]
  | .deltaAckTimeout _ _ => [.bank, .start, .pair, .tasks, .jrn, .exch, .mram, .time, .net, .outbox, .freeCount]
  | .couplingRetrain _ _ => [.pair, .outbox]
  | .frameResend => [.bank, .outbox]
  | .idle _ => [.mode, .bank, .start, .claim, .pair, .tasks, .lanes, .ctl, .jrn, .exch, .mram, .sbox, .chans, .conv, .acq, .net, .can0, .can1, .panel, .mil, .outbox, .freeCount]
  | .status _ _ => [.mode, .bank, .start, .claim, .pair, .tasks, .lanes, .ctl, .jrn, .exch, .mram, .sbox, .chans, .conv, .acq, .time, .net, .can0, .can1, .panel, .mil, .outbox, .freeCount]
  | .delta _ _ => [.mode, .bank, .heldWrites, .start, .claim, .pair, .tasks, .lanes, .ctl, .jrn, .exch, .mram, .sbox, .chans, .conv, .acq, .net, .can0, .can1, .panel, .mil, .outbox, .freeCount]
  | .deltaAck _ _ _ _ _ => [.mode, .bank, .start, .claim, .pair, .tasks, .lanes, .ctl, .jrn, .exch, .mram, .sbox, .chans, .conv, .acq, .net, .can0, .can1, .panel, .mil, .outbox, .freeCount]
  | .mirror _ _ => [.mode, .bank, .start, .claim, .pair, .tasks, .lanes, .ctl, .jrn, .exch, .mram, .sbox, .chans, .conv, .acq, .net, .can0, .can1, .panel, .mil, .outbox, .freeCount]
  | .image _ _ _ => [.mode, .bank, .start, .claim, .pair, .tasks, .lanes, .ctl, .jrn, .exch, .mram, .sbox, .chans, .conv, .acq, .net, .can0, .can1, .panel, .mil, .outbox, .freeCount]
  | .doubtWindowEnd => [.bank, .pair, .jrn, .mram, .net, .outbox]
  | .standbyLinkWaitEnd => [.bank, .pair, .net, .outbox]
  | .resyncReq _ _ => [.mode, .bank, .start, .claim, .pair, .tasks, .lanes, .ctl, .jrn, .exch, .mram, .sbox, .chans, .conv, .acq, .net, .can0, .can1, .panel, .mil, .outbox, .freeCount]
  | .resyncPage _ _ => [.mode, .bank, .heldWrites, .start, .claim, .pair, .tasks, .lanes, .ctl, .jrn, .exch, .mram, .sbox, .chans, .conv, .acq, .net, .can0, .can1, .panel, .mil, .outbox, .freeCount]
  | .resyncControl _ _ => [.mode, .bank, .start, .claim, .pair, .tasks, .lanes, .ctl, .jrn, .exch, .mram, .sbox, .chans, .conv, .acq, .net, .can0, .can1, .panel, .mil, .outbox, .freeCount]
  | .resyncDone _ _ => [.mode, .bank, .heldWrites, .start, .claim, .pair, .tasks, .lanes, .ctl, .jrn, .exch, .mram, .sbox, .chans, .conv, .acq, .net, .can0, .can1, .upd, .panel, .mil, .outbox, .freeCount]
  | .heldRecordExpiry _ => [.pair]
  | .partnerClaimDropped => [.bank, .claim]
  | .standbyReady => [.claim]
  | .takeoverClaim => [.bank, .heldWrites, .start, .claim, .pair, .tasks, .lanes, .ctl, .jrn, .exch, .mram, .sbox, .chans, .acq, .net, .can0, .can1, .outbox]
  | .claimConfirmed => [.mode, .bank, .heldWrites, .claim, .pair, .jrn, .exch, .mram, .chans, .net, .upd, .panel, .mil, .outbox]
  | .partnerClaimAsserted => [.mode, .bank, .claim, .pair, .mram, .chans, .panel, .mil, .outbox]
  | .claimContest => [.mode, .bank, .claim, .pair, .tasks, .lanes, .chans, .net, .can0, .can1, .panel, .mil, .outbox, .freeCount]
  | .partnerAbsentTimeout => [.bank, .claim, .chans, .mil]
  | .handover _ _ => [.mode, .bank, .start, .claim, .pair, .tasks, .lanes, .ctl, .jrn, .exch, .mram, .sbox, .chans, .conv, .acq, .net, .can0, .can1, .panel, .mil, .outbox, .freeCount]
  | .handoverAck _ => [.mode, .bank, .start, .claim, .pair, .tasks, .lanes, .ctl, .jrn, .exch, .mram, .sbox, .chans, .conv, .acq, .net, .can0, .can1, .panel, .mil, .outbox, .freeCount]
  | .handoverQuantum => [.bank, .heldWrites, .start, .claim, .pair, .tasks, .lanes, .ctl, .jrn, .exch, .mram, .sbox, .chans, .acq, .net, .can0, .can1, .mil, .outbox, .freeCount]
  | .handoverCancel => [.bank, .pair, .net, .outbox]
  | .handoverFailTimeout => [.bank, .claim, .pair, .net, .outbox]
  | .restartReq _ _ => [.mode, .bank, .start, .claim, .pair, .tasks, .lanes, .ctl, .jrn, .exch, .mram, .sbox, .chans, .conv, .acq, .net, .can0, .can1, .panel, .mil, .outbox, .freeCount]
  | .restartAck _ => [.mode, .bank, .start, .claim, .pair, .tasks, .lanes, .ctl, .jrn, .exch, .mram, .sbox, .chans, .conv, .acq, .net, .can0, .can1, .panel, .mil, .outbox, .freeCount]
  | .restartAckTimeout => [.pair, .tasks, .mram, .outbox]
  | .restartGo _ _ => [.mode, .bank, .start, .claim, .pair, .tasks, .lanes, .ctl, .jrn, .exch, .mram, .sbox, .chans, .conv, .acq, .net, .can0, .can1, .panel, .mil, .outbox, .freeCount]
  | .moduleRestart _ => [.mode, .bank, .heldWrites, .shadows, .carrier, .standby, .start, .claim, .pair, .tasks, .lanes, .ctl, .jrn, .exch, .mram, .sbox, .chans, .conv, .acq, .time, .net, .can0, .can1, .mpu, .upd, .panel, .mil, .outbox, .freeCount]
  | .claimFibreSample _ _ => [.bank, .net, .outbox]
  | .sbxPass _ _ _ => [.mode, .bank, .heldWrites, .claim, .pair, .tasks, .lanes, .ctl, .mram, .sbox, .chans, .conv, .acq, .net, .can0, .can1, .panel, .mil, .outbox, .freeCount]
  | .pickupExpiry _ => [.bank, .heldWrites, .sbox, .chans, .net, .mil, .outbox]
  | .dropoutExpiry _ => [.bank, .heldWrites, .sbox, .chans, .net, .mil, .outbox]
  | .latchReset _ _ => [.bank, .sbox, .net, .outbox]
  | .sbxEvalFault _ => [.bank, .sbox, .net, .outbox]
  | .acmpDisagree _ => [.bank, .sbox, .net, .outbox]
  | .svcmpFail _ => [.bank, .sbox, .net, .outbox]
  | .diInputEdge _ _ => [.chans]
  | .diDebounceExpiry _ => [.chans]
  | .diSampleWindow _ _ _ => [.chans]
  | .doLimitEnter _ => [.chans]
  | .doLimitClear _ => [.chans]
  | .doThermalEnter _ => [.bank, .chans, .net, .outbox]
  | .doThermalRetry _ => [.chans]
  | .doLockedRelease _ => [.bank, .chans]
  | .adaptiveSupplyStep _ _ => [.chans]
  | .compliance _ _ => [.bank, .chans, .net, .outbox]
  | .openLoop _ _ => [.bank, .chans, .net, .outbox]
  | .liveZeroLost _ => [.bank, .chans, .net, .outbox]
  | .commonFaultSet _ _ => [.mode, .bank, .claim, .pair, .tasks, .lanes, .mram, .chans, .conv, .net, .can0, .can1, .panel, .mil, .outbox, .freeCount]
  | .commonFaultCleared _ _ => [.mode, .bank, .claim, .pair, .tasks, .lanes, .mram, .chans, .conv, .net, .can0, .can1, .panel, .mil, .outbox, .freeCount]
  | .locate _ _ => [.mode, .bank, .claim, .pair, .tasks, .lanes, .mram, .chans, .conv, .net, .can0, .can1, .panel, .mil, .outbox, .freeCount]
  | .localisationRepeat _ _ => [.mode, .bank, .claim, .pair, .tasks, .lanes, .mram, .chans, .conv, .net, .can0, .can1, .panel, .mil, .outbox, .freeCount]
  | .converterPeriodBoundary _ _ => [.bank, .mram, .chans, .conv, .net, .mil, .outbox]
  | .fastSample _ => [.bank, .chans, .conv, .acq, .net, .outbox]
  | .periodMeasurement _ _ _ _ => [.bank, .conv, .net, .outbox]
  | .periodNominal => [.bank, .conv, .net, .outbox]
  | .qpop _ => [.bank, .conv, .net, .outbox]
  | .calStart _ _ => [.bank, .conv, .net, .outbox]
  | .takeZero _ _ => [.bank, .conv, .net, .outbox]
  | .takeSpan _ _ => [.bank, .conv, .net, .outbox]
  | .calTakeDone => [.bank, .conv, .net, .outbox]
  | .commit _ _ => [.bank, .conv, .net, .outbox]
  | .calEnd _ _ => [.bank, .conv, .net, .outbox]
  | .abort _ _ => [.bank, .conv, .net, .outbox]
  | .calTimeout => [.bank, .conv, .net, .outbox]
  | .turntableVisitStart _ => [.bank, .conv]
  | .testReq _ _ => [.bank, .conv, .net, .outbox]
  | .coefficientBatchWrite => [.mram, .conv]
  | .acqTrigger _ => [.bank, .acq, .net, .outbox, .freeCount]
  | .acqTrig _ _ => [.bank, .acq, .net, .outbox, .freeCount]
  | .segmentClose _ => [.bank, .heldWrites, .acq, .net, .outbox]
  | .rearm _ => [.bank, .acq, .net, .outbox, .freeCount]
  | .recordGapClose _ => [.heldWrites, .acq]
  | .close _ _ => [.bank, .heldWrites, .acq, .net, .outbox]
  | .recordCommit => [.bank, .acq, .net, .outbox]
  | .recordIndexRebuild => [.bank, .acq, .net, .outbox]
  | .incCommit _ _ => [.bank, .time, .net, .outbox]
  | .stepGo _ _ => [.bank, .acq, .time, .net, .outbox]
  | .timeLatch _ => [.bank, .net, .outbox]
  | .timeServo _ _ _ _ _ => [.bank, .time, .net, .outbox]
  | .holdoverExpired => [.bank, .time, .net, .outbox]
  | .holdoverSteer _ => [.bank, .time, .net, .outbox]
  | .ptpMessage _ => [.bank, .acq, .time, .net, .outbox, .freeCount]
  | .standbyCounterCopy => [.standby, .time]
  | .oscillatorSample _ => [.bank, .time]
  | .oscillatorModelWrite => [.bank, .mram, .time, .net, .outbox]
  | .svFrame _ => [.bank, .heldWrites, .sbox, .acq, .net, .outbox]
  | .svHoldExpiry _ => [.bank, .net, .outbox]
  | .gooseMessage _ => [.bank, .heldWrites, .sbox, .net, .outbox]
  | .gooseExpiry _ => [.bank, .sbox, .net, .outbox]
  | .gooseHoldExpiry _ => [.net]
  | .gooseDeferredSend _ => [.heldWrites, .net, .outbox]
  | .gooseRetransmit _ => [.heldWrites, .net, .outbox]
  | .supervisionFrame => [.heldWrites, .net, .outbox]
  | .linkDown _ => [.bank, .net, .outbox]
  | .testMode _ _ => [.mode, .bank, .heldWrites, .shadows, .carrier, .standby, .start, .claim, .pair, .tasks, .lanes, .ctl, .jrn, .exch, .mram, .sbox, .chans, .conv, .acq, .time, .net, .can0, .can1, .mpu, .upd, .panel, .mil, .outbox, .freeCount]
  | .pairAddressRepeat => [.pair, .net, .outbox]
  | .openSession _ _ _ _ _ => [.bank, .jrn, .net, .upd, .outbox]
  | .closeSession _ => [.jrn, .net, .upd, .outbox]
  | .keepalive _ => [.net]
  | .sessionTimeout _ => [.jrn, .net, .upd, .outbox]
  | .query _ _ => [.net, .outbox]
  | .tagRead _ _ => [.bank, .net, .outbox]
  | .subscribe _ _ _ => [.bank, .net, .outbox]
  | .unsubscribe _ _ => [.net, .outbox]
  | .resend _ _ => [.net, .outbox]
  | .notify _ => [.net, .outbox]
  | .event _ _ _ => [.bank, .net, .outbox]
  | .regRead _ _ _ => [.bank, .shadows, .net, .outbox]
  | .regWrite _ _ _ => [.mode, .bank, .heldWrites, .shadows, .carrier, .standby, .start, .claim, .pair, .tasks, .lanes, .ctl, .jrn, .exch, .mram, .sbox, .chans, .conv, .acq, .time, .net, .can0, .can1, .mpu, .upd, .panel, .mil, .outbox, .freeCount]
  | .fileOpen _ _ _ => [.bank, .mram, .net, .upd, .outbox]
  | .fileRead _ _ _ => [.bank, .net, .outbox]
  | .fileWrite _ _ _ _ => [.bank, .net, .outbox]
  | .fileClose _ _ _ _ => [.bank, .mram, .net, .upd, .outbox]
  | .canFrameReceived _ _ _ => [.bank, .can0, .can1, .freeCount]
  | .canTxEnd _ _ _ _ => [.bank, .tasks, .net, .can0, .can1, .outbox]
  | .canTxTimeout _ _ => [.bank, .tasks, .net, .can0, .can1, .outbox]
  | .canCancel _ _ => [.bank, .tasks, .net, .can0, .can1, .outbox, .freeCount]
  | .canBusOff _ => [.bank, .tasks, .net, .can0, .can1, .mil, .outbox, .freeCount]
  | .busOffRecovered _ => [.bank, .net, .can0, .can1, .outbox]
  | .canMappingHoldExpiry _ _ _ => [.can0, .can1]
  | .rxpop _ _ => [.bank, .net, .can0, .can1, .outbox]
  | .registerWrite _ _ _ => [.mode, .bank, .heldWrites, .shadows, .carrier, .standby, .start, .claim, .pair, .tasks, .lanes, .ctl, .jrn, .exch, .mram, .sbox, .chans, .conv, .acq, .time, .net, .can0, .can1, .mpu, .upd, .panel, .mil, .outbox, .freeCount]
  | .misalignedAccess _ _ _ => [.bank, .net, .outbox]
  | .eventRegisterClear _ _ _ => [.mode, .bank, .heldWrites, .shadows, .carrier, .standby, .start, .claim, .pair, .tasks, .lanes, .ctl, .jrn, .exch, .mram, .sbox, .chans, .conv, .acq, .time, .net, .can0, .can1, .mpu, .upd, .panel, .mil, .outbox, .freeCount]
  | .multiwordMode _ _ _ => [.bank, .shadows, .net, .outbox]
  | .multiwordLowRead _ _ => [.bank, .shadows, .net, .outbox]
  | .mpuRegionWrite _ _ _ _ _ _ => [.bank, .net, .mpu, .outbox]
  | .arm _ _ => [.bank, .net, .mpu, .outbox]
  | .swap _ _ => [.bank, .net, .mpu, .outbox]
  | .swapAck _ => [.mpu]
  | .protectionException _ => [.bank, .net, .outbox]
  | .impreciseNotice _ _ => [.bank, .net, .mpu, .outbox]
  | .release _ => [.bank, .net, .mpu, .outbox]
  | .mgmtWatchdogRestart => [.mode, .bank, .claim, .pair, .tasks, .lanes, .jrn, .mram, .sbox, .chans, .conv, .time, .net, .can0, .can1, .mpu, .upd, .panel, .mil, .outbox, .freeCount]
  | .loadWindow _ => [.bank, .net, .mpu, .outbox]
  | .verifyComplete _ _ => [.bank, .net, .upd, .outbox]
  | .activate _ _ _ => [.mode, .bank, .claim, .pair, .tasks, .lanes, .jrn, .mram, .sbox, .chans, .conv, .time, .net, .can0, .can1, .mpu, .upd, .panel, .mil, .outbox, .freeCount]
  | .imageTakesEffect _ => [.mode, .bank, .claim, .pair, .tasks, .lanes, .jrn, .mram, .sbox, .chans, .conv, .time, .net, .can0, .can1, .mpu, .upd, .panel, .mil, .outbox, .freeCount]
  | .confirm _ _ => [.bank, .mram, .conv, .net, .upd, .outbox]
  | .fallback _ _ => [.mode, .bank, .claim, .pair, .tasks, .lanes, .jrn, .mram, .sbox, .chans, .conv, .time, .net, .can0, .can1, .mpu, .upd, .panel, .mil, .outbox, .freeCount]
  | .updateAbort _ _ => [.bank, .net, .upd, .outbox]
  | .anchorClear _ _ => [.bank, .mram, .net, .outbox]
  | .leaveTerminus _ _ => [.mode, .bank, .heldWrites, .shadows, .carrier, .standby, .start, .claim, .pair, .tasks, .lanes, .ctl, .jrn, .exch, .mram, .sbox, .chans, .conv, .acq, .time, .net, .can0, .can1, .mpu, .upd, .panel, .mil, .outbox, .freeCount]
  | .attestGo _ => [.bank, .net, .upd, .outbox]
  | .reportSigned _ => [.bank, .net, .upd, .outbox]
  | .nextTreeBuilt => [.upd]
  | .panelRefresh => [.bank, .heldWrites, .panel, .outbox]
  | .pixelShift => [.panel]
  | .contrastUpdate _ => [.panel]
  | .labelUpdateStart => [.carrier, .mram, .panel]
  | .labelUpdateEnd => [.bank, .mram, .net, .panel, .outbox]
  | .redraw _ => [.bank, .net, .panel, .outbox]
  | .operatingMinute => [.bank, .mram, .net, .mil, .outbox]
  | .mileageSample _ => [.mil]
  | .milSel _ _ _ => [.bank, .net, .outbox]
  | .syncInterval => [.time, .net, .outbox]
  | .dtlsHandshake _ _ => [.bank, .net, .outbox]
  | .canFrameError _ _ _ => [.bank, .net, .can0, .can1, .mil, .outbox]
  | .handoverClaimWaitEnd => [.claim, .pair, .tasks, .lanes]
  | .canErrRead => [.mil]
  | .mgmtRestartEnd => [.mpu, .panel]

end Sys2Proof.Machine
end

