-- ==== Sys2Proof/Certificates/Slice0/Obligations.lean ====
section
/-! DEFINITION. The statements for the provers. -/

open Sys2Proof Sys2Proof.Machine

/-! The queue, the reset state, the invariants and what every command leaves alone. -/

/-- A step takes the command at the front of the queue and has its effect on everything but the queue, of which the rest stays. -/
def Obligations.StepRunsFront : Prop :=
  ∀ (c : Instr) (s : State), step { s with pending := c :: s.pending } = exec c s

/-- No command of the table stops the model: every command has a next state, in every state, and so does the idle step. -/
def Obligations.NoCommandStops : Prop :=
  (∀ (c : Instr) (s : State), ∃ t, exec c s = .next t) ∧ ∀ s : State, SafeAt s

/-- The state after reset: an unpowered module with an empty queue that drives no claim, every register at the Reset column of its table (R409). The values of state that
the manual gives no reset value are the model's (assumption 1), and none of them is stated here. -/
def Obligations.ResetState : Prop :=
  State.reset.pending = [] ∧ State.reset.mode = .off ∧ State.reset.powered = false ∧ State.reset.claim.drive = false ∧ State.reset.bank = State.resetBank ∧
  State.reset.get Reg.CMP_CTRL_FLAKY_LIMIT = 16 ∧ State.reset.get Reg.EXEC_PACE_MIN_PACE_MIN = 0xFFFF ∧ State.reset.get Reg.TIME_CTRL_SERVO_EN = 1

/-- The invariants hold after reset. -/
def Obligations.ResetInvariants : Prop :=
  BankOk State.reset ∧ ClockOk State.reset ∧ ClaimOk State.reset

/-- Every step keeps the register bank in canonical form. -/
def Obligations.StepKeepsBankOk : Prop :=
  ∀ s t : State, BankOk s → step s = .next t → BankOk t

/-- Every step keeps the main counter and the standby counter at legal instants, and the increment within its 8.32 bits (R7, R42, R347, R348). -/
def Obligations.StepKeepsClockOk : Prop :=
  ∀ s t : State, ClockOk s → step s = .next t → ClockOk t

/-- Every step keeps a module that is out of service from driving its claim (R1, R241). -/
def Obligations.StepKeepsClaimOk : Prop :=
  ∀ s t : State, ClaimOk s → step s = .next t → ClaimOk t

/-- What each command leaves alone: every part of the state that its row of the table of touched parts does not name, and the queue always. -/
def Obligations.CommandsTouchOnly : Prop :=
  (∀ (c : Instr) (s t : State), exec c s = .next t → KeepsBut (touches c) s t) ∧ ∀ c : Instr, Part.pending ∉ touches c ∧ Part.fixed ∉ touches c

/-- R417: an event sets its bit and moves the SEQ of its register on by 1, a recurrence too; after 0xFFFF SEQ goes on at 1, so that 0 stands only before the first event. -/
def Obligations.EventRaised : Prop :=
  (∀ (e : EvBit) (s : State), e.bit < 16 → RaisedBut e [] [] s (s.raise e)) ∧ nextSeq 0xFFFF = 1 ∧ (∀ n, n < 0xFFFF → nextSeq n = n + 1) ∧
  (∀ n, n ≤ 0xFFFF → nextSeq n ≠ 0 ∧ nextSeq n ≤ 0xFFFF) ∧
  (∀ (e d : EvBit) (s : State), d.addr = e.addr → d.bit ≠ e.bit → d.bit < 16 → (s.raise e).get ⟨d.addr, d.bit, 1⟩ = s.get ⟨d.addr, d.bit, 1⟩)

/-- A module without power answers nothing: no register access, no session request and no coupling frame changes it (R1: OFF is the state without power). That
a command to an unpowered module is ignored rather than stopped on is the model's choice (assumption 35). -/
def Obligations.UnpoweredServesNothing : Prop :=
  ∀ s : State, s.mode = .off →
    (∀ (o : Origin) (a : Nat) (v : Word), Completes (.registerWrite o a v) s fun t => t = s) ∧
    (∀ (o : Origin) (a n : Nat) (w : Bool), Completes (.misalignedAccess o ⟨a, n⟩ w) s fun t => t = s) ∧
    (∀ (r : Req) (a n : Nat), Completes (.regRead r a n) s fun t => t = s) ∧
    (∀ (r : Req) (q : Nat) (w : Work), Completes (.submit r q w) s fun t => t = s) ∧
    (∀ (c : Instr) (k : Nat) (h : LinkHdr), frameHeader c = some (k, h) → Completes c s fun t => t = s)

/-! Carrier, supplies and standby domain. -/

/-- R46: opening the ejector lever sets LEVER_OPEN and raises LEVER_OPENED, and changes nothing else.
Under conditions on the state and the operands alone, exec answers a next state with its own effect of: leverOpened. -/
def Obligations.LeverOpened : Prop :=
  ∀ s : State, s.powered = true → s.carrier.leverOpen = false →
    Completes .leverOpened s fun t =>
      t.carrier = { s.carrier with leverOpen := true } ∧ RaisedBut Ev.PWR_LEVER_OPENED [] [.carrier] s t

/-- Seating, the cell and the standby domain (R42, R44, R45). That SEATED_MADE finds the lever closed is the model's choice (assumption 30).
The claim keeper, and the own claim line read against the driver (R27, R28).
Under conditions on the state and the operands alone, exec answers a next state with its own effect of: seatedMade, seatedBreak, cellLow, countLost, claimKeeperRefresh,
claimKeeperRelease, claimStuckHigh, claimStuckLow. -/
def Obligations.StandbyAndClaimKeeper : Prop :=
  ((∀ s : State, Completes .seatedMade s fun t => t = { s with carrier := { s.carrier with seated := true, leverOpen := false } }) ∧
  (∀ s : State, s.standby.stopped = false → Completes .cellLow s fun t =>
    t.standby = { s.standby with cellLow := true, seq := nextSeq s.standby.seq } ∧ EventsOnly s t ∧ KeepsBut [.standby, .net, .outbox] s t) ∧
  (∀ s : State, Completes .countLost s fun t =>
    t.standby = ⟨0, 0, 0, false, false, false, 0, true⟩ ∧ KeepsBut [.standby] s t) ∧
  (∀ s : State, s.carrier.seated = true → s.powered = true → s.carrier.holdup = false → Completes .seatedBreak s fun t =>
    t.carrier = { s.carrier with seated := false, holdup := true, resFull := false, shed := true } ∧
    (s.standby.stopped = false → t.standby = { s.standby with unplugged := true, seq := nextSeq s.standby.seq })) ∧
  (∀ s : State, s.carrier.seated = true → s.powered = false → s.standby.stopped = false → Completes .seatedBreak s fun t =>
    t.carrier = { s.carrier with seated := false } ∧ t.standby = { s.standby with unplugged := true, seq := nextSeq s.standby.seq } ∧
    KeepsBut [.carrier, .standby] s t)) ∧
  ((∀ s : State, s.powered = true → s.claim.drive = true → Completes .claimKeeperRefresh s fun t =>
    t = { s with claim := { s.claim with refreshed := s.time.tick } }) ∧
  (∀ s : State, s.powered = true → s.claim.own = true → s.claim.drive = true → Completes .claimKeeperRelease s fun t =>
    t.claim = { s.claim with own := false, confirmed := false } ∧ t.pair = { s.pair with pairAddr := false } ∧ KeepsBut (touches .claimKeeperRelease) s t) ∧
  (∀ s : State, s.powered = true → s.claim.drive = true → Completes .claimStuckHigh s fun t =>
    t.claim.stuck = true ∧ t.claim.own = false ∧ t.claim.taking = false ∧ t.get ⟨Ev.CPL_CLAIM_STUCK_HIGH.addr, Ev.CPL_CLAIM_STUCK_HIGH.bit, 1⟩ = 1 ∧
    t.mode = s.mode ∧ (s.mode ≠ .active → t.claim.drive = false) ∧ (s.mode = .active → t.claim.drive = true) ∧
    KeepsBut (touches .claimStuckHigh) s t) ∧
  (∀ s : State, s.powered = true → s.claim.drive = false → Completes .claimStuckLow s fun t =>
    t.claim = { s.claim with own := true, stuck := true, taking := false } ∧ RaisedBut Ev.CPL_CLAIM_STUCK_LOW [] [.claim] s t))

/-- Supply inputs and their fuses (R31, R32): the reading, and the event as the reading falls below 19.2 V; a fuse that trips opens; a try to reclose
succeeds unless three have been made in 60 s, after which the fuse stays open.
The cages and the reservoir (R20, R36).
Under conditions on the state and the operands alone, exec answers a next state with its own effect of: modSupplyLost, fieldSupplyLost, fieldFuseTrip, fieldFuseReclose,
cageOverload, reservoirHealthTest. -/
def Obligations.SuppliesAndReservoir : Prop :=
  ((∀ (k : Fin 2) (mv : Nat) (s : State), s.powered = true → 19200 ≤ (if k.val = 0 then s.carrier.mod1Mv else s.carrier.mod2Mv) → mv < 19200 →
    Completes (.modSupplyLost k mv) s fun t =>
      t.carrier = (if k.val = 0 then { s.carrier with mod1Mv := mv } else { s.carrier with mod2Mv := mv }) ∧
      RaisedBut (if k.val = 0 then Ev.PWR_MOD1_LOST else Ev.PWR_MOD2_LOST) [] [.carrier] s t) ∧
  (∀ (k : Fin 2) (mv : Nat) (s : State), s.powered = true → 19200 ≤ (if k.val = 0 then s.carrier.fld1Mv else s.carrier.fld2Mv) → mv < 19200 →
    Completes (.fieldSupplyLost k mv) s fun t =>
      t.carrier = (if k.val = 0 then { s.carrier with fld1Mv := mv } else { s.carrier with fld2Mv := mv }) ∧
      (s.chansRun = false → RaisedBut (if k.val = 0 then Ev.PWR_FLD1_LOST else Ev.PWR_FLD2_LOST) [] [.carrier] s t)) ∧
  (∀ (k : Fin 2) (ma : Nat) (s : State), s.powered = true → (if k.val = 0 then s.carrier.fuse1Open else s.carrier.fuse2Open) = false → 13000 < ma →
    Completes (.fieldFuseTrip k ma) s fun t =>
      t.carrier = (if k.val = 0 then { s.carrier with fuse1Open := true } else { s.carrier with fuse2Open := true }) ∧
      (s.chansRun = false → RaisedBut (if k.val = 0 then Ev.PWR_FLD1_OVERLOAD else Ev.PWR_FLD2_OVERLOAD) [] [.carrier] s t)) ∧
  (∀ (k : Fin 2) (s : State), s.powered = true → (if k.val = 0 then s.carrier.fuse1Open else s.carrier.fuse2Open) = true →
    Completes (.fieldFuseReclose k) s fun t =>
      let tries := if k.val = 0 then s.carrier.fuse1Tries else s.carrier.fuse2Tries
      let fresh := tries.filter (fun x => decide (s.time.tick ≤ x + ticksOfMs 60000))
      KeepsBut [.carrier] s t ∧
      (4 ≤ tries.length → t.carrier = s.carrier) ∧
      (tries.length < 4 → 3 ≤ fresh.length → (if k.val = 0 then t.carrier.fuse1Open else t.carrier.fuse2Open) = true ∧
        4 ≤ (if k.val = 0 then t.carrier.fuse1Tries else t.carrier.fuse2Tries).length) ∧
      (tries.length < 4 → fresh.length < 3 → (if k.val = 0 then t.carrier.fuse1Open else t.carrier.fuse2Open) = false ∧
        (if k.val = 0 then t.carrier.fuse1Tries else t.carrier.fuse2Tries) = fresh ++ [s.time.tick]))) ∧
  ((∀ (p : Port) (s : State), s.powered = true → p ≠ .svc → Completes (.cageOverload p) s fun t =>
    t.carrier = { s.carrier with cagesOff := addOnce p s.carrier.cagesOff } ∧ p ∉ t.net.up ∧ KeepsBut [.bank, .carrier, .net, .outbox] s t) ∧
  (∀ (pct ms : Nat) (s : State), s.powered = true → s.carrier.holdup = false → Completes (.reservoirHealthTest pct ms) s fun t =>
    t.get Reg.PWR_RESERVOIR_RES_HEALTH = satTo 8 pct ∧ t.get Reg.PWR_RESERVOIR_HOLDUP_MS = satTo 8 ms ∧
    (ms < 22 → RaisedBut Ev.PWR_RES_WEAK [Reg.PWR_RESERVOIR_RES_HEALTH, Reg.PWR_RESERVOIR_HOLDUP_MS] [] s t) ∧
    (22 ≤ ms → RegsBut [Reg.PWR_RESERVOIR_RES_HEALTH, Reg.PWR_RESERVOIR_HOLDUP_MS] s t ∧ KeepsBut [.bank] s t)))

/-- Entry to HALT (R4, R241): from STARTING, STANDBY and ACTIVE, with the reason recorded, the claim deasserted and the lanes stopped; in any other state nothing happens. -/
def Obligations.HaltEntry : Prop :=
  (∀ (reason : Nat) (s : State), s.mode = .starting ∨ s.mode = .standby ∨ s.mode = .active →
    (enterHalt reason s).mode = .halt ∧ (enterHalt reason s).claim.drive = false ∧ (enterHalt reason s).mram.haltReason = reason ∧
    (enterHalt reason s).mram.haltValid = true ∧ (enterHalt reason s).mram.ring = s.mram.ring ∧ (enterHalt reason s).ctl = s.ctl ∧
    (∀ n, ((enterHalt reason s).lane n).block = none) ∧ (∀ i, ((enterHalt reason s).task i).phase = .idle)) ∧
  (∀ (reason : Nat) (s : State), s.mode = .off ∨ s.mode = .halt ∨ s.mode = .terminus → enterHalt reason s = s)

/-- The hold-up sequence (R37, R38): HOLDUP, the load shed, SUPPLY_LOST, HALT and no claim; the power-loss record, after the completions
that a module in control had still to write; OFF, with what it had stored as it was: a write cut short is found torn by the next start (R192, R218).
Under conditions on the state and the operands alone, exec answers a next state with its own effect of: holdupEntered, powerLossRecord, holdupRailsDown. -/
def Obligations.HoldUpSequence : Prop :=
  (∀ s : State, s.mode = .starting ∨ s.mode = .standby ∨ s.mode = .active → s.carrier.holdup = false → Completes .holdupEntered s fun t =>
    t.carrier = { s.carrier with holdup := true, resFull := false, shed := true } ∧ t.mode = .halt ∧ t.claim.drive = false ∧
    t.mram.haltReason = 5 ∧ t.mram.haltValid = true ∧ t.panel.on = false ∧ t.acq.running = false ∧
    KeepsBut (touches .holdupEntered) s t) ∧
  (∀ s : State, s.powered = true → s.carrier.holdup = true → s.carrier.recordWritten = false → Completes .powerLossRecord s fun t =>
    t.carrier = { s.carrier with recordWritten := true } ∧
    t.mram = (writePlr (if s.mram.lastHolder then writeStatuses s else s)).mram ∧ KeepsBut (touches .powerLossRecord) s t) ∧
  (∀ s : State, s.powered = true → Completes .holdupRailsDown s fun t =>
    t.mode = .off ∧ t.claim.drive = false ∧ t.chans = [] ∧ t.tasks = [] ∧ t.lanes = [] ∧ t.ctl = Control.reset ∧ t.bank = State.resetBank ∧
    t.mram = s.mram ∧ t.acq.stored = s.acq.stored ∧ KeepsBut (touches .holdupRailsDown) s t)

/-! Starts. -/

/-- A seated module with a module supply of at least 19.2 V starts (R39, R44); a module in TERMINUS starts on a download of a SERVICE session (R468);
a restart takes place once its hour has come (R71). Each start leaves OFF, and the standby domain restarts if it had stopped (R42).
Waiting at a start (R61 to R63): a retry counts and runs steps 3 to 10 again, a HELLO at step 10 decides, an expired window decides alone, a report of a
state that does not exist is discarded (R2), and a module on path 11b asserts its claim and, with the claim confirmed, enters ACTIVE at a boundary of task 0
(the order of the two is the model's reading, assumption 75).
Under conditions on the state and the operands alone, exec answers a next state with its own effect of: insertionStart, supplyReturnRestart, couplingHello,
partnerWindowExpiry, startHoldRetry, startEnterActive, moduleRestart, leaveTerminus. -/
def Obligations.StartsProceed : Prop :=
  ((∀ (i : StartInput) (s : State), s.mode = .off → s.carrier.seated = true → 19200 ≤ i.mod1Mv ∨ 19200 ≤ i.mod2Mv →
    (Completes (.insertionStart i) s fun t => t = startModule i s ∧ t.mode ≠ .off ∧
      (s.standby.stopped = false → t.standby = s.standby)) ∧
    (Completes (.supplyReturnRestart i) s fun t => t = startModule i s ∧ t.mode ≠ .off ∧
      (s.standby.stopped = true → t.standby = ⟨0, 0, 0, true, true, true, 3, false⟩))) ∧
  (∀ (k : Nat) (x : Session) (i : StartInput) (s : State), s.mode = .terminus → Tab.get? s.net.sessions k = some x → x.role = .service →
    Completes (.leaveTerminus (.svc k) i) s fun t => t = startModule i s ∧ t.mode ≠ .off) ∧
  (∀ (w : Bool) (i : StartInput) (s : State), s.powered = true → s.carrier.holdup = false → s.pair.restartGoDue = some w →
    w = false ∨ s.claim.partner = true ∨ s.claim.partnerAbsent = true →
    Completes (.moduleRestart i) s fun t =>
      t = startModule i (dropClaim (stopLanes (writePlr (if s.mram.lastHolder then writeStatuses s else s)))) ∧ t.mode ≠ .off)) ∧
  ((∀ (i : StartInput) (s : State), s.mode = .starting → s.get Reg.ID_START_HOLD ≠ 0 →
    Completes (.startHoldRetry i) s fun t => t = steps3to10 i (s.inc Reg.ID_START_ATTEMPTS)) ∧
  (∀ (h : Hello) (m : Mode) (k : SlotKey) (s : State), modeOfCode h.state = some m → s.mode = .starting → s.start.step = 10 → s.start.path11b = false →
    s.pair.resync = false → s.start.key = some k → m ≠ .terminus → m ≠ .starting ∨ h.atStep10 = true →
    Completes (.couplingHello h) s fun t =>
      let u := seedAt10 h (takeHello h m s)
      t = decideStep10 h m k { u with start := { u.start with path11a := false } } ∧ u.pair.linkUp = true ∧ u.pair.partnerHello = some h ∧ u.pair.session = h.session) ∧
  (∀ (h : Hello) (m : Mode) (s : State), modeOfCode h.state = some m → s.mode = .standby ∨ s.mode = .active ∨ s.mode = .halt → m ≠ .terminus →
    Completes (.couplingHello h) s fun t =>
      t = requestResync (takeHello h m s) ∧ t.pair.linkUp = true ∧ t.pair.partnerMode = some m ∧ t.pair.session = h.session ∧ t.pair.rxNext = 1 ∧ t.mode = s.mode) ∧
  (∀ (h : Hello) (s : State), modeOfCode h.state = none → Completes (.couplingHello h) s fun t => t = s) ∧
  (∀ (k : SlotKey) (img : Image) (s : State), s.mode = .starting → s.start.step = 10 → s.start.path11a = false → s.start.path11b = false → s.pair.linkUp = false →
    s.start.key = some k → s.start.keyImage = some img → s.start.imageChosen = true → s.start.running = some (s.aloneImage k img) → s.mram.anchor ≠ none →
    s.ownerOk (s.aloneImage k img) = true → Completes .partnerWindowExpiry s fun t =>
      t = (if s.claim.partner then startHold 7 s else takePathB (s.aloneImage k img) s)) ∧
  (∀ s : State, s.mode = .starting → s.start.path11b = true → s.critical = false → s.claim.partner = false → s.claim.stuck = false → s.claim.drive = false →
    Completes .startEnterActive s fun t =>
      t = { s with claim := { s.claim with drive := true, own := true, confirmed := false, taking := true, refreshed := s.time.tick } }) ∧
  (∀ s : State, s.mode = .starting → s.start.path11b = true → s.critical = false → s.claim.partner = false → s.claim.stuck = false → s.claim.drive = true →
    s.claim.confirmed = true → s.dueNow 0 = true → Completes .startEnterActive s fun t =>
      t.mode = .active ∧ t.claim = s.claim ∧ KeepsBut (touches .startEnterActive) s t))

/-! Claim, takeover and hand-over. -/

/-- Taking control over (R244 to R246): a ready module takes the drop of the partner module's claim, or finds neither claim, and asserts at a boundary of task 0; at a hand-over
it asserts at once.
The claim confirmed, answered and contested (R238 to R240, R246 to R249).
Under conditions on the state and the operands alone, exec answers a next state with its own effect of: partnerClaimDropped, standbyReady, takeoverClaim, claimConfirmed,
partnerClaimAsserted, claimContest, partnerAbsentTimeout, claimFibreSample. -/
def Obligations.TakingControl : Prop :=
  ((∀ s : State, s.ready = true → s.claim.drive = false → s.claim.stuck = false → s.pair.handoverWait = false → Completes .partnerClaimDropped s fun t =>
    t.claim = { s.claim with partner := false, droppedAt := some s.time.tick, taking := true } ∧ KeepsBut [.claim] s t) ∧
  (∀ s : State, s.mode = .standby → s.claim.drive = false → s.claim.stuck = false → s.pair.handoverWait = true → Completes .partnerClaimDropped s fun t =>
    t.claim.partner = false ∧ t.claim.drive = true ∧ t.claim.own = true ∧ t.claim.confirmed = false ∧ t.claim.taking = true ∧ t.claim.forHandover = true ∧
    t.get Reg.CPL_HANDOFF_TAKE_US = 0 ∧ t.get Reg.CPL_HANDOFF_KIND = 1 ∧ t.get Reg.CPL_HANDOFF_VALID = 1 ∧
    RegsBut [Reg.CPL_HANDOFF_TAKE_US, Reg.CPL_HANDOFF_KIND, Reg.CPL_HANDOFF_VALID] s t ∧ KeepsBut [.claim, .bank] s t) ∧
  (∀ s : State, s.ready = true → s.mayClaim = true → s.claim.taking = false → s.pair.handoverWait = false → s.pair.partnerMode ≠ some .active →
    Completes .standbyReady s fun t =>
      t.claim = { s.claim with taking := true, droppedAt := some (s.claim.droppedAt.getD s.time.tick) } ∧ KeepsBut [.claim] s t) ∧
  (∀ s : State, s.ready = true → s.claim.taking = true → s.mayClaim = true → s.dueNow 0 = true → Completes .takeoverClaim s fun t =>
    t.claim.drive = true ∧ t.claim.own = true ∧ t.claim.confirmed = false ∧ t.claim.taking = true ∧ t.claim.forHandover = false ∧
    t.get Reg.CPL_HANDOFF_KIND = 0 ∧ t.get Reg.CPL_HANDOFF_VALID = 1 ∧ t.mode = .standby ∧ KeepsBut (touches .takeoverClaim) s t)) ∧
  ((∀ s : State, s.claim.drive = true → s.claim.own = true → s.claim.partner = false → s.claim.confirmed = false → s.mode = .standby ∨ s.mode = .active →
    Completes .claimConfirmed s fun t =>
      t.mode = .active ∧ t.claim = { s.claim with confirmed := true, taking := false, releasing := false, partnerAbsent := false } ∧ t.mram.lastHolder = true ∧
      t.pair.pairAddr = true ∧ KeepsBut (touches .claimConfirmed) s t) ∧
  (∀ s : State, s.claim.drive = true → s.claim.own = true → s.claim.partner = false → s.claim.confirmed = false → s.mode = .starting → s.start.path11b = true →
    Completes .claimConfirmed s fun t =>
      t.mode = .starting ∧ t.claim = { s.claim with confirmed := true, taking := false, releasing := false, partnerAbsent := false } ∧ t.mram.lastHolder = true ∧
      t.pair.pairAddr = true ∧ KeepsBut (touches .claimConfirmed) s t) ∧
  (∀ s : State, s.powered = true → s.claim.drive = false → Completes .partnerClaimAsserted s fun t =>
    t.claim = { s.claim with partner := true, taking := false, releasing := false, partnerAbsent := false } ∧ t.mram.lastHolder = false ∧
    (s.mode = .active → s.pair.handoverWait = true → t.mode = .standby ∧ t.pair.copyCurrent = !s.pair.inFlight ∧ t.pair.handoverQ = none) ∧
    (s.mode ≠ .active ∨ s.pair.handoverWait = false → t.mode = s.mode) ∧ KeepsBut (touches .partnerClaimAsserted) s t) ∧
  (∀ s : State, s.powered = false ∨ s.claim.drive = true → Completes .partnerClaimAsserted s fun t =>
    t = { s with claim := { s.claim with partner := true } }) ∧
  (∀ s : State, s.powered = true → s.claim.drive = true → s.carrier.slotB = false → Completes .claimContest s fun t =>
    t.claim = { s.claim with partner := true } ∧ RaisedBut Ev.CPL_CLAIM_CONTEST [] [.claim] s t) ∧
  (∀ s : State, s.powered = true → s.claim.drive = true → s.carrier.slotB = true → Completes .claimContest s fun t =>
    t.claim.drive = false ∧ t.claim.own = false ∧ t.claim.partner = true ∧ t.pair.pairAddr = false ∧ t.pair.handoverQ = none ∧
    (s.mode = .active → t.mode = .standby ∧ t.pair.copyCurrent = false ∧ t.pair.stale = true) ∧ (s.mode ≠ .active → t.mode = s.mode) ∧
    KeepsBut (touches .claimContest) s t) ∧
  (∀ s : State, s.claim.releasing = true → s.claim.partner = false → s.claim.drive = false → Completes .partnerAbsentTimeout s fun t =>
    t.claim = { s.claim with releasing := false, partnerAbsent := true } ∧ KeepsBut (touches .partnerAbsentTimeout) s t) ∧
  (∀ (d1 d2 : Bool) (s : State), s.powered = true → s.carrier.split = true → s.mode ≠ .starting → Completes (.claimFibreSample d1 d2) s fun t =>
    t.get Reg.CPL_CLAIM_LINK_FIBRE1_DARK = b2n d1 ∧ t.get Reg.CPL_CLAIM_LINK_FIBRE2_DARK = b2n d2 ∧ t.get Reg.CPL_CLAIM_LINK_VALID = 1 ∧
    (s.get Reg.CPL_CLAIM_LINK_FIBRE1_DARK = 0 → d1 = true →
      RaisedBut Ev.CPL_CLAIM_FIBRE_DARK [Reg.CPL_CLAIM_LINK_FIBRE1_DARK, Reg.CPL_CLAIM_LINK_FIBRE2_DARK, Reg.CPL_CLAIM_LINK_VALID] [] s t)))

/-- The role exchange (R250 to R253): scheduled, acknowledged, carried out or given up.
Under conditions on the state and the operands alone, exec answers a next state with its own effect of: handover, handoverAck, handoverQuantum, handoverCancel,
handoverFailTimeout, handoverClaimWaitEnd. -/
def Obligations.HandOver : Prop :=
  (∀ (h : LinkHdr) (m : Mode) (q : Nat) (s : State), FrameTaken 0x50 h m s → Completes (.handover h q) s fun t =>
    let u := afterHeader h m s
    (u.mode = .standby → t = { u with pair := { u.pair with handoverQ := some q, handoverAcked := true } }.sendFrame .handoverAck) ∧ (u.mode ≠ .standby → t = u)) ∧
  (∀ (h : LinkHdr) (m : Mode) (s : State), FrameTaken 0x51 h m s → Completes (.handoverAck h) s fun t =>
    let u := afterHeader h m s
    (u.mode = .active → u.pair.handoverQ ≠ none → t = { u with pair := { u.pair with handoverAcked := true } }) ∧
    (u.mode ≠ .active ∨ u.pair.handoverQ = none → t = u)) ∧
  (∀ (q : Nat) (s : State), s.mode = .active → s.pair.handoverQ = some q → q ≤ s.gridQuantum → s.pair.handoverWait = false → s.running = true →
    s.pair.handoverAcked = true → s.pair.partnerReady = true → s.pair.partnerMode = some .standby → Completes .handoverQuantum s fun t =>
      t.claim.drive = false ∧ t.pair.handoverWait = true ∧ t.pair.inFlight = s.cycleOpen ∧ t.pair.awaitingDelta = [] ∧ t.mode = .active ∧
      KeepsBut (touches .handoverQuantum) s t) ∧
  (∀ (q : Nat) (s : State), s.pair.handoverQ = some q → q ≤ s.gridQuantum → s.pair.handoverWait = false → s.running = false → s.ready = true → s.mayClaim = true →
    Completes .handoverQuantum s fun t =>
      t.claim.drive = true ∧ t.claim.taking = true ∧ t.claim.forHandover = true ∧ t.get Reg.CPL_HANDOFF_KIND = 1 ∧ t.mode = .standby) ∧
  (∀ s : State, s.mode = .active → s.pair.handoverQ ≠ none → s.pair.handoverWait = false → s.handoverEnds = true → Completes .handoverCancel s fun t =>
    t.pair = { s.pair with handoverQ := none, handoverAcked := false, handoverWait := false } ∧ RaisedBut Ev.CPL_ROLE_EXCHANGE_FAILED [] [.pair] s t) ∧
  (∀ s : State, s.mode = .active → s.pair.handoverWait = true → s.pair.handoverQ ≠ none → s.claim.drive = false → s.claim.partner = false → s.claim.stuck = false →
    Completes .handoverFailTimeout s fun t =>
      t.claim = { s.claim with drive := true, own := true, confirmed := false, taking := true, refreshed := s.time.tick } ∧
      t.pair = { s.pair with inFlight := false, handoverQ := none, handoverAcked := false, handoverWait := false } ∧
      RaisedBut Ev.CPL_ROLE_EXCHANGE_FAILED [] [.claim, .pair] s t) ∧
  (∀ s : State, s.mode = .standby → s.pair.handoverWait = true → s.claim.drive = false → Completes .handoverClaimWaitEnd s fun t =>
    t.pair = { s.pair with handoverQ := none, handoverAcked := false, handoverWait := false } ∧ t.claim = { s.claim with taking := false } ∧
    KeepsBut [.claim, .pair, .tasks, .lanes] s t)

/-- Restarts across the coupling (R71): the record is written before it is acknowledged, and GO or CANCEL ends the wait.
Under conditions on the state and the operands alone, exec answers a next state with its own effect of: restartReq, restartAck, restartAckTimeout, restartGo. -/
def Obligations.PairRestart : Prop :=
  (∀ (h : LinkHdr) (m : Mode) (r : RestartRec) (s : State), FrameTaken 0x52 h m s → Completes (.restartReq h r) s fun t =>
    let u := afterHeader h m s
    (u.mode = .standby ∨ u.mode = .halt → t = { u with mram := { u.mram with restart := some { r with used := false } },
                                                       pair := { u.pair with restartAcked := true } }.sendFrame .restartAck) ∧
    (u.mode ≠ .standby → u.mode ≠ .halt → t = u)) ∧
  (∀ (h : LinkHdr) (m : Mode) (s : State), FrameTaken 0x53 h m s → Completes (.restartAck h) s fun t =>
    let u := afterHeader h m s
    (u.mode = .active → u.pair.restartWait ≠ none → t.pair.restartAcked = true) ∧ (u.mode ≠ .active ∨ u.pair.restartWait = none → t = u)) ∧
  (∀ (w : Waybill × Bool × Bool) (s : State), s.mode = .active → s.restartAwaited 0 = true → s.pair.restartWait = some w → Completes .restartAckTimeout s fun t =>
    t = endRestartWait (restartFailed s) ∧ (w.2.1 = true → t.mram.restart = none) ∧ t.pair.restartWait = none ∧ KeepsBut [.pair, .tasks, .mram, .outbox] s t) ∧
  (∀ (h : LinkHdr) (m : Mode) (c : Bool) (s : State), FrameTaken 0x54 h m s → Completes (.restartGo h c) s fun t =>
    let u := afterHeader h m s
    (u.pair.restartAcked = true → u.mode ≠ .active → c = true → t = { u with mram := { u.mram with restart := none }, pair := { u.pair with restartAcked := false } }) ∧
    (u.pair.restartAcked = true → u.mode ≠ .active → c = false → t = { u with pair := { u.pair with restartAcked := false, restartGoDue := some false } }) ∧
    (u.pair.restartAcked = false ∨ u.mode = .active → t = u))

/-! On-line exchange and the journal. -/

/-- The exchange up to its commitment (R148, R160): the image is loaded and sent; the map's check is compared, and a wrong one abandons the exchange; the announcement
lies more than 400 quanta ahead; each module records it. That a mismatch is counted, since no register holds its event, is the model's choice (assumption 43).
The end of an exchange (R148 step 7, R159, R162): the new image runs, a report is kept, the exchange is over; a standby module whose box must restart does so
with the settings of the image.
Under conditions on the state and the operands alone, exec answers a next state with its own effect of: exchangeLoaded, mapAck, announce, announceAck, exchangeComplete,
sbxExchangeRestart. -/
def Obligations.ExchangeOfPrograms : Prop :=
  ((∀ (n : Image) (s : State), s.mode = .active → s.exch.image = some n → s.exch.progress = .none → s.pair.linkUp = true → s.pair.partnerMode = some .standby →
    Completes .exchangeLoaded s fun t =>
      t.exch = { s.exch with progress := .loaded, shadow := some n, mapCrc := (loadShadow n s).exch.mapCrc, sent := true } ∧
      t.mram = { s.mram with progress := .loaded, pending := some n } ∧ Sends [.image n.digest true] s t ∧ KeepsBut [.exch, .mram, .outbox, .pair] s t) ∧
  (∀ (h : LinkHdr) (m : Mode) (n old : Image) (s : State), FrameTaken 0x31 h m s →
    let u := afterHeader h m s
    u.mode = .active → u.exch.sent = true → u.exch.progress = .loaded → u.exch.announcement = none → u.exch.image = some n → u.img = some old →
    Completes (.mapAck (h, u.exch.mapCrc)) s fun t =>
      ∃ a : Announcement, u.gridQuantum + 400 < a.qs ∧ t.exch = { u.exch with announcement := some a } ∧ Sends [.announce a] u t ∧
        KeepsBut [.exch, .freeCount, .outbox, .pair] u t) ∧
  (∀ (h : LinkHdr) (m : Mode) (crc : Word) (s : State), FrameTaken 0x31 h m s →
    let u := afterHeader h m s
    u.mode = .active → u.exch.sent = true → u.exch.progress = .loaded → u.exch.announcement = none → crc ≠ u.exch.mapCrc →
    Completes (.mapAck (h, crc)) s fun t => t.exch = Exchange.reset ∧ t.pair.mapMismatches = u.pair.mapMismatches + 1) ∧
  (∀ (h : LinkHdr) (m : Mode) (a : Announcement) (s : State), FrameTaken 0x32 h m s →
    let u := afterHeader h m s
    u.mode = .standby → u.exch.progress = .loaded → Completes (.announce (h, a)) s fun t =>
      t.exch = { u.exch with progress := .committed, announcement := some a } ∧ t.mram = { u.mram with progress := .committed, announcement := some a } ∧
      t.pair.sbxRestartDue = (u.pair.sbxRestartDue || u.dueFlags.2) ∧ Sends [.announceAck] u t ∧ KeepsBut [.exch, .mram, .pair, .outbox] u t) ∧
  (∀ (h : LinkHdr) (m : Mode) (a : Announcement) (s : State), FrameTaken 0x33 h m s →
    let u := afterHeader h m s
    u.mode = .active → u.exch.sent = true → u.exch.progress = .loaded → u.exch.announcement = some a → Completes (.announceAck h) s fun t =>
      t.exch = { u.exch with progress := .committed } ∧ t.mram = { u.mram with progress := .committed, announcement := some a } ∧
      t.pair = { u.pair with sbxRestartDue := u.pair.sbxRestartDue || u.dueFlags.2 } ∧ KeepsBut [.exch, .mram, .pair] u t)) ∧
  ((∀ (new : Image) (s : State), s.mode = .active → s.exchangeEnds = true → s.exch.image = some new → s.pair.resyncAsked = false →
    Completes .exchangeComplete s fun t => t = finishExchange s ∧ t.start.running = some new ∧ t.mram.running = some new ∧ t.exch = Exchange.reset ∧
      t.mram.progress = .complete ∧ t.mode = .active) ∧
  (∀ (new : Image) (s : State), s.mode = .standby → s.exchangeEnds = true → s.exch.image = some new →
    Completes .exchangeComplete s fun t =>
      t.start.running = some new ∧ t.mram.running = some new ∧ t.mram.pending = none ∧ t.mram.announcement = none ∧ t.mram.progress = .complete ∧
      t.mram.ring = s.mram.ring ∧ t.exch = Exchange.reset ∧ t.mode = .standby) ∧
  (∀ (new : Image) (s : State), s.mode = .standby → s.pair.sbxRestartDue = true → (if s.exchangeCommitted then s.exch.image else s.img) = some new →
    Completes .sbxExchangeRestart s fun t =>
      t.sbox = { Sbox.reset with running := true, evalOk := [0, 1, 2], table := boxOf new, gbit := s.sbox.gbit, svc := s.sbox.svc, acmp := s.sbox.acmp } ∧
      t.pair = { s.pair with sbxRestartDue := false } ∧ KeepsBut (touches .sbxExchangeRestart) s t))

/-- A submission is served step by step (R385, R446): in TERMINUS it is not permitted, a module in HALT answers HALTED and counts it,
and an active one checks the work against its chapter and hands it to the journal engine.
Under conditions on the state and the operands alone, exec answers a next state with its own effect of: submit. -/
def Obligations.SubmissionsServed : Prop :=
  ∀ (r : Req) (x : Session) (clientSeq : Nat) (work : Work) (s : State), Asks 0x10 r x s → Completes (.submit r clientSeq work) s fun t =>
    let u := heard r.session x s
    t = submitBody r clientSeq work { x with lastHeard := s.time.tick } u ∧ t.mode = s.mode ∧
    (u.limited = true → t = answer r 0x10 0xB 0 [] u) ∧
    (u.limited = false → u.shed < 6 → u.mode = .halt → (∀ a b, work ≠ .restart a b) → t = (answer r 0x10 0xA 0 [] u).inc Reg.PLNT_REFUSED_NOT_ACTIVE) ∧
    (u.limited = false → u.shed < 6 → u.mode = .active → x.role ≠ .operator → u.chapterCheck work = (0, 0) →
      t = journalSubmit r.session r.reqId (if x.port = .svc then .service else .plant) x.clientId clientSeq work (u.targetOf work) u)

/-- What the journal engine does with a waybill in hand (R202, R203, R214): the partner module's acknowledgement accepts it as MIRRORED; the end of the wait leaves it to
the pair policy; one that nobody waits for any more expires.
The client table's checkpoints and evictions, and snapshots (R205, R206, R216): a checkpoint takes the next of 16 slots, an identity silent longer than
CLIENT_RETAIN is forgotten, a snapshot takes a slot and spares the other.
Under conditions on the state and the operands alone, exec answers a next state with its own effect of: mirrorAck, mirrorTimeout, unconfirmedExpiry, clientCheckpoint,
clientEviction, snapshotCapture. -/
def Obligations.JournalWork : Prop :=
  ((∀ (h : LinkHdr) (m : Mode) (seq : Nat) (w : Waybill) (s : State), FrameTaken 0x21 h m s →
    let u := afterHeader h m s
    u.localAt seq = some w → u.mode = .active → u.inAcceptance w.waybillSeq = true →
    Completes (.mirrorAck (h, seq)) s fun t => t = acceptWaybill w.waybillSeq .mirrored u ∧ KeepsBut [.bank, .jrn, .mram, .net, .outbox] u t) ∧
  (∀ (seq : Nat) (w : Waybill) (s : State), s.localAt seq = some w → s.mode = .active → s.inAcceptance w.waybillSeq = true → s.pair.doubt = false →
    Completes (.mirrorTimeout seq) s fun t => t = (withoutPartner w.waybillSeq s).raise Ev.JRN_MIRROR_TIMEOUT ∧
      (s.acceptsUnpartnered = true → withoutPartner w.waybillSeq s = acceptWaybill w.waybillSeq .unpartnered s) ∧
      t.get ⟨Ev.JRN_MIRROR_TIMEOUT.addr, Ev.JRN_MIRROR_TIMEOUT.bit, 1⟩ = 1) ∧
  (∀ (seq : Nat) (w : Waybill) (s : State), s.localAt seq = some w → s.mode = .active → s.inAcceptance w.waybillSeq = false → s.completionOf w.waybillSeq = none →
    Completes (.unconfirmedExpiry seq) s fun t => t = expire w s ∧ t.get ⟨Ev.JRN_UNCONFIRMED_EXPIRED.addr, Ev.JRN_UNCONFIRMED_EXPIRED.bit, 1⟩ = 1) ∧
  (∀ (wseq : Nat) (st : WbState) (s : State) (seq : Nat) (w : Waybill), w.waybillSeq = wseq → (seq, Entry.waybill w) ∈ (setWbState wseq st s).mram.ring → w.state = st)) ∧
  ((∀ s : State, s.mode = .standby ∨ s.mode = .active → Completes .clientCheckpoint s fun t =>
    t.mram = { s.mram with checkpoints := Tab.set s.mram.checkpoints s.mram.ckptNext ⟨s.jrn.head, s.jrn.clients, true, s.fmtAt 2 s.mram.ckptNext⟩,
                            ckptNext := (s.mram.ckptNext + 1) % 16 } ∧
    KeepsBut [.mram] s t) ∧
  (∀ (id : Nat) (x : ClientState) (s : State), s.mode = .standby ∨ s.mode = .active → Tab.get? s.jrn.clients id = some x →
    (x.lastMinute + 60 * s.policy.retainH < s.mram.opMinutes → Completes (.clientEviction id) s fun t =>
      t = { s with jrn := { s.jrn with clients := Tab.erase s.jrn.clients id } }) ∧
    (s.mram.opMinutes ≤ x.lastMinute + 60 * s.policy.retainH → Completes (.clientEviction id) s fun t => t = s)) ∧
  (∀ s : State, s.mode = .active → s.ctlLoaded = true → Completes .snapshotCapture s fun t =>
    KeepsBut [.mram] s t ∧
    (s.snapSlot = 0 → t.mram = { s.mram with snap0 := some { s.saved with format := s.fmtAt 1 0 } }) ∧
    (s.snapSlot ≠ 0 → t.mram = { s.mram with snap1 := some { s.saved with format := s.fmtAt 1 s.snapSlot } }) ∧
    (s.mram.snap0 = none → s.snapSlot = 0) ∧ (s.mram.snap0 ≠ none → s.mram.snap1 = none → s.snapSlot = 1)))

/-! The coupling. -/

/-- R225, R2: a message whose check does not verify, whose KIND is not its own, that is not the next expected, that is not whole, whose session or pair tag does not match, or
whose STATE is no code of R2 is discarded: it changes nothing but the count CRC_ERR; a module whose coupling is down takes no frame at all; a frame that is taken
moves the sequence on.
Under conditions on the state and the operands alone, exec answers a next state with its own effect of: idle. -/
def Obligations.FramesDiscarded : Prop :=
  (∀ (c : Instr) (k : Nat) (h : LinkHdr) (s : State), frameHeader c = some (k, h) → s.powered = true → s.mode ≠ .terminus → s.pair.linkUp = true →
    (frameCrcOk h = false ∨ h.hdr.kind ≠ k ∨ h.hdr.linkSeq ≠ (s.pair.rxNext + h.hdr.chunk) % 2 ^ 32 ∨ h.hdr.session ≠ s.pair.session ∨ h.hdr.pairTag ≠ s.pairTag ∨
      modeOfCode h.hdr.state = none ∨ 4096 < h.payload.length ∨ h.hdr.last = false ∨ h.hdr.chunk + 1 ≠ h.hdr.chunks) →
    Completes c s fun t => t.get Reg.CPL_LINK_ERR_CRC_ERR = satInc Reg.CPL_LINK_ERR_CRC_ERR.w (s.get Reg.CPL_LINK_ERR_CRC_ERR) ∧
      RegsBut [Reg.CPL_LINK_ERR_CRC_ERR] s t ∧ KeepsBut [.bank] s t) ∧
  (∀ (c : Instr) (k : Nat) (h : LinkHdr) (s : State), frameHeader c = some (k, h) → s.pair.linkUp = false → Completes c s fun t => t = s) ∧
  (∀ (h : LinkHdr) (m : Mode) (s : State), FrameTaken 0x00 h m s → Completes (.idle (some h)) s fun t => t = afterHeader h m s)

/-- The coupling down and up (R225, R230 to R233): what counting it down leaves, the doubt window of an active module, the standby module's copy, and the retraining.
Under conditions on the state and the operands alone, exec answers a next state with its own effect of: couplingDown, deltaAckTimeout, couplingRetrain, frameResend, idle,
doubtWindowEnd, standbyLinkWaitEnd. -/
def Obligations.CouplingDownAndUp : Prop :=
  (∀ (cause : Fin 3) (s : State), s.powered = true → s.pair.linkUp = true → cause.val ≠ 2 ∨ s.mode = .active → Completes (.couplingDown cause) s fun t =>
    t = couplingDown s ∧ t.pair.linkUp = false ∧ t.pair.trained = [] ∧ t.pair.partnerMode = none ∧ t.pair.resync = false ∧ t.mode = s.mode ∧ t.claim = s.claim ∧
    t.pair.doubt = (s.pair.doubt || (decide (s.mode = .active) && decide (s.pair.partnerMode = some .standby) && s.pair.partnerCurrent))) ∧
  (∀ (task : Fin 8) (s : State), s.mode = .active → task.val ∈ s.pair.awaitingDelta →
    (Completes (.deltaAckTimeout task true) s fun t => t = countAbsent s ∧ t.pair.awaitingDelta = [] ∧ t.pair.partnerCurrent = false ∧ t.pair.linkUp = s.pair.linkUp) ∧
    (Completes (.deltaAckTimeout task false) s fun t => t = couplingDown s)) ∧
  (∀ (session : Nat) (s : State), s.powered = true → s.mode ≠ .terminus → s.mode ≠ .starting → s.pair.linkUp = false → Completes (.couplingRetrain session true) s fun t =>
    let u := { s with pair := { s.pair with trained := [0, 1, 2, 3], session := session, rxNext := 0, txNext := 0, peerAck := 0xFFFFFFFF } }
    t.pair = { s.pair with trained := [0, 1, 2, 3], session := session, rxNext := 0, txNext := 1, peerAck := 0xFFFFFFFF } ∧
    Sends [.hello u.hello] s t ∧ KeepsBut [.pair, .outbox] s t) ∧
  (∀ s : State, s.powered = true → s.pair.linkUp = true → s.uncovered ≠ 0 → Completes .frameResend s fun t =>
    t.get Reg.CPL_LINK_ERR_RESENT = satTo 16 (s.get Reg.CPL_LINK_ERR_RESENT + s.uncovered) ∧
    t.outbox = s.outbox ++ [.resent ((s.pair.peerAck + 1) % 2 ^ 32) s.uncovered] ∧ RegsBut [Reg.CPL_LINK_ERR_RESENT] s t ∧ KeepsBut [.bank, .outbox] s t) ∧
  (∀ s : State, s.powered = true → s.pair.linkUp = true → Completes (.idle none) s fun t =>
    t.pair = { s.pair with txNext := (s.pair.txNext + 1) % 2 ^ 32 } ∧ Sends [.idle] s t ∧ KeepsBut [.pair, .outbox] s t) ∧
  (∀ s : State, s.pair.doubt = true → Completes .doubtWindowEnd s fun t => t.pair = { s.pair with doubt := false } ∧ KeepsBut (touches .doubtWindowEnd) s t) ∧
  (∀ s : State, s.mode = .standby → s.pair.linkUp = false → s.pair.copyCurrent = true → s.claim.partner = true → Completes .standbyLinkWaitEnd s fun t =>
    t.pair = { s.pair with copyCurrent := false, stale := true } ∧ RaisedBut Ev.CPL_COPY_STALE [] [.pair] s t)

/-- Status and deltas (R224, R228, R229, R357, R377): a STATUS frame is answered in kind; a delta in sequence is acknowledged by its check and applied, one out of sequence
makes the copy stale, is not acknowledged and raises DELTA_BAD; an acknowledgement that echoes the delta lets the cycle go on.
Mirrored entries and images (R58, R148, R202, R210): a standby module with a current copy writes each entry at its SEQ and acknowledges waybills; an exchange image that
passes its checks is loaded and answered with the check of the map.
Under conditions on the state and the operands alone, exec answers a next state with its own effect of: status, delta, deltaAck, mirror, image. -/
def Obligations.DeltasAndImages : Prop :=
  ((∀ (h : LinkHdr) (m : Mode) (f : StatusFrame) (s : State), FrameTaken 0x02 h m s → Completes (.status h f) s fun t =>
    let u := takeStatus f (afterHeader h m s)
    t = sendStatus u ∧ u.net.testMode = (afterHeader h m s).net.testMode ∧ u.pair.partnerReady = f.ready ∧ u.pair.partnerTest = f.testMode) ∧
  (∀ (h : LinkHdr) (m : Mode) (d : DeltaMsg) (s : State), FrameTaken 0x10 h m s → Completes (.delta h d) s fun t =>
    let u := afterHeader h m s
    (u.mode = .standby → u.pair.copyCurrent = true → t = takeDelta d u) ∧ (u.resyncing = true → t = resyncDelta d u) ∧
    (u.resyncing = false → u.mode ≠ .standby → t = u)) ∧
  (∀ (d : DeltaMsg) (s : State), d.count ≠ d.records.length ∨ d.crc ≠ deltaCrc d.records ∨ d.closeSeq ≠ s.pair.closeSeq + 1 ∨ d.cycle ≠ (s.task d.task).cycle + 1 →
    (takeDelta d s).pair.copyCurrent = false ∧ (takeDelta d s).pair.stale = true ∧ (takeDelta d s).tasks = s.tasks ∧ (takeDelta d s).ctl = s.ctl ∧
    (takeDelta d s).get ⟨Ev.CPL_DELTA_BAD.addr, Ev.CPL_DELTA_BAD.bit, 1⟩ = 1) ∧
  (∀ (d : DeltaMsg) (s : State), d.count = d.records.length → d.crc = deltaCrc d.records → d.closeSeq = s.pair.closeSeq + 1 → d.cycle = (s.task d.task).cycle + 1 → s.exch.progress = .none → d.carryCrc = none →
    takeDelta d s = refreshOutputs (forEach d.records (applyRec d.task)
      ({ s with pair := { s.pair with closeSeq := d.closeSeq } }.sendFrame (.deltaAck d.task d.cycle d.closeSeq d.crc)))) ∧
  (∀ (h : LinkHdr) (task : Fin 8) (s : State), FrameTaken 0x11 h .standby s → h.hdr.stale = false → s.pair.partnerMode = some .standby → s.mode = .active →
    task.val ∈ s.pair.awaitingDelta → (s.task task).phase = .awaitDelta →
    Completes (.deltaAck h task (s.task task).cycle (s.task task).closeSeq (s.task task).deltaCrc) s fun t =>
      task.val ∉ t.pair.awaitingDelta ∧ t.pair.ackedSeq = (s.task task).closeSeq ∧ KeepsBut [.pair, .tasks, .ctl, .mram] s t)) ∧
  ((∀ (h : LinkHdr) (m : Mode) (entries : List Entry) (s : State), FrameTaken 0x20 h m s → Completes (.mirror h entries) s fun t =>
    let u := afterHeader h m s
    (u.mode = .standby → u.pair.copyCurrent = true → t = forEach entries mirrorEntry u) ∧ (u.mode ≠ .standby ∨ u.pair.copyCurrent = false → t = u)) ∧
  (∀ (w : Waybill) (s : State), ∃ h, .frame h (.mirrorAck w.seq) ∈ (mirrorEntry (.waybill w) s).outbox) ∧
  (∀ (h : LinkHdr) (m : Mode) (i : Image) (s : State), FrameTaken 0x30 h m s → Completes (.image h i true) s fun t =>
    let u := afterHeader h m s
    (u.mode = .standby → u.pair.copyCurrent = true → u.exchangeImageOk i = true →
      t.exch = { u.exch with progress := .loaded, image := some i, shadow := some i, mapCrc := (loadShadow i u).exch.mapCrc } ∧
      t.mram = { u.mram with progress := .loaded, pending := some i } ∧ Sends [.mapAck t.exch.mapCrc] u t) ∧
    (u.exchangeImageOk i = false → t = u)))

/-- Resynchronisation (R234 to R237): only an active module answers, at once unless an exchange is committed; a whole page is taken and a bad one asked for again; the
control set replaces what the module holds; with all pages and the set the copy is current; a record held for a page is dropped at its expiry.
Under conditions on the state and the operands alone, exec answers a next state with its own effect of: resyncReq, resyncPage, resyncControl, resyncDone,
heldRecordExpiry. -/
def Obligations.Resynchronisation : Prop :=
  (∀ (h : LinkHdr) (m : Mode) (s : State), FrameTaken 0x40 h m s → Completes (.resyncReq h .all) s fun t =>
    let u := afterHeader h m s
    (u.mode ≠ .active → t = u) ∧ (u.mode = .active → u.exchangeCommitted = true → t = { u with pair := { u.pair with resyncAsked := true } }) ∧
    (u.mode = .active → u.exchangeCommitted = false →
      t.pair = { u.pair with resyncAsked := false, resyncSending := true, pages := 768, controlSet := false, txNext := t.pair.txNext } ∧
      Sends (.resyncAnswer :: (List.range 768).map Msg.resyncPage) u t ∧ KeepsBut [.pair, .outbox] u t)) ∧
  (∀ (h : LinkHdr) (m : Mode) (n : Nat) (s : State), FrameTaken 0x40 h m s → Completes (.resyncReq h (.page n)) s fun t =>
    let u := afterHeader h m s
    (u.mode = .active → u.pair.resyncSending = true → Sends [.resyncPage n] u t ∧ KeepsBut [.pair, .outbox] u t) ∧
    (u.mode ≠ .active ∨ u.pair.resyncSending = false → t = u)) ∧
  (∀ (h : LinkHdr) (m : Mode) (s : State), FrameTaken 0x40 h m s → Completes (.resyncReq h .reply) s fun t =>
    let u := afterHeader h m s
    (u.resyncing = true → t = { u with pair := { u.pair with resync := true, pages := 0, pagesHeld := [], heldRecs := [], controlSet := false },
                                       ctl := { u.ctl with tags := [], objects := [], sbx := [] } }) ∧
    (u.resyncing = false → t = u)) ∧
  (∀ (h : LinkHdr) (m : Mode) (p : Page) (s : State), FrameTaken 0x41 h m s → Completes (.resyncPage h p) s fun t =>
    let u := afterHeader h m s
    (u.resyncing = true → p.number < 768 → h.payload = pageTail p → t = takePage p u) ∧
    (u.resyncing = true → p.number < 768 → h.payload ≠ pageTail p → t = u.sendFrame (.resyncReq (some p.number))) ∧
    (u.resyncing = false ∨ 768 ≤ p.number → t = u)) ∧
  (∀ (h : LinkHdr) (m : Mode) (c : ControlSet) (s : State), FrameTaken 0x42 h m s → Completes (.resyncControl h c) s fun t =>
    let u := afterHeader h m s
    (u.resyncing = false → t = u) ∧
    (u.resyncing = true → t.jrn = { u.jrn with head := c.head, clients := Tab.ofList c.clients } ∧ t.exch = Exchange.reset ∧
      t.mram.retiredIds = c.retired ∧ t.mram.floor = c.floor ∧
      t.ctl = { u.ctl with forces := Tab.ofList c.forces, units := Tab.ofList c.units, overlay := Tab.ofList c.overlay } ∧
      t.pair = { u.pair with controlSet := true, captureSeq := c.closeSeq, statuses := [] } ∧ KeepsBut [.pair, .tasks, .ctl, .jrn, .exch, .mram] u t)) ∧
  (∀ (h : LinkHdr) (m : Mode) (q : Nat) (s : State), FrameTaken 0x43 h m s → Completes (.resyncDone h q) s fun t =>
    let u := afterHeader h m s
    (u.resyncing = true → u.pair.controlSet = true → 768 ≤ u.pair.pagesHeld.length →
      t = resyncComplete q u ∧ (u.mode = .standby → t.mode = .standby) ∧ (u.mode = .starting → t.mode = .standby)) ∧
    (u.resyncing = false ∨ u.pair.controlSet = false ∨ u.pair.pagesHeld.length < 768 → t = u)) ∧
  (∀ (page : Nat) (s : State), Completes (.heldRecordExpiry page) s fun t =>
    t = { s with pair := { s.pair with heldRecs := s.pair.heldRecs.filter (fun r => decide (r.page ≠ some page)) } })

/-! Cyclic execution. -/

/-- A task's cycle (R116, R120, R123, R124, R509): it freezes at its quantum, no task of a lower number being due, and its lanes begin; closure step 3 follows step 2
at once in release mode immediate and from the budget instant on in release mode aligned, and leaves the task idle with the cycle closed. In STANDBY a quantum of task 0
applies held register writes.
R123, R126, R228: closure step 2 advances CLOSE_SEQ by one, and the delta goes to a partner module that holds a current copy; without one the cycle goes on at once.
Under conditions on the state and the operands alone, exec answers a next state with its own effect of: taskFreeze, closureRelease, alignedRelease. -/
def Obligations.CycleOfATask : Prop :=
  ((∀ (task : Fin 8) (s : State), s.mode = .active → s.claim.confirmed = true → s.mayFreeze task = true → (∀ j, j < task.val → s.mayFreeze j = false) →
    s.handingOver = false → Completes (.taskFreeze task) s fun t =>
      let u := startLanes task (freezeCore task s)
      (u.step1Ended task = false → t = u) ∧ (u.step1Ended task = true → t = closureStep2 task u) ∧ t.mode = .active ∧ t.claim = s.claim) ∧
  (∀ s : State, s.mode = .standby → s.dueNow 0 = true → Completes (.taskFreeze 0) s fun t => t = execApplyHeld s) ∧
  (∀ (task : Fin 8) (c : TaskCfg) (s : State), s.mode = .active → s.claim.confirmed = true → s.taskCfg task = some c → (s.task task).phase = .ready → c.aligned = false →
    (Completes (.closureRelease task) s fun t => t = releaseCycle task s ∧ (task.val ≠ 0 → (t.task task).phase = .idle ∧ (t.task task).deliveries = [])) ∧
    (Completes (.alignedRelease task) s fun t => t = s)) ∧
  (∀ (task : Fin 8) (c : TaskCfg) (s : State), s.mode = .active → s.claim.confirmed = true → s.taskCfg task = some c → (s.task task).phase = .ready → c.aligned = true →
    (s.budgetOver task c = true → Completes (.alignedRelease task) s fun t => t = releaseCycle task s) ∧
    (s.budgetOver task c = false → Completes (.alignedRelease task) s fun t => t = s) ∧
    (Completes (.closureRelease task) s fun t => t = s))) ∧
  (∀ (i : Nat) (s : State), i < 8 →
    (closureStep2 i s).pair.closeSeq = s.pair.closeSeq + 1 ∧
    (s.partnered = true → i ∈ (closureStep2 i s).pair.awaitingDelta ∧ ((closureStep2 i s).task i).phase = .awaitDelta ∧
      (closureStep2 i s).pair.unpartneredRun = false) ∧
    (s.partnered = false → (closureStep2 i s).pair.unpartneredRun = true))

/-- R136, R137: a running cycle that has not reached its closure step 3 at its budget instant raises OVERRUN and takes the module to HALT, which drops its claim; the phase,
lane and cycle are recorded in MRAM. Before its budget instant a cycle runs on.
The pace monitor (R135): a window sets PACE_NOW and MARGIN_PCT, and the lowest pace is kept with its lane and copy.
Under conditions on the state and the operands alone, exec answers a next state with its own effect of: overrunWatchdog, paceWindow. -/
def Obligations.OverrunAndPace : Prop :=
  (∀ (task : Fin 8) (lane : Fin 16) (c : TaskCfg) (s : State), s.mode = .active → s.claim.confirmed = true → s.taskCfg task = some c → (s.task task).phase ≠ .idle →
    c.aligned = false ∨ (s.task task).phase ≠ .ready →
    (s.budgetOver task c = true → Completes (.overrunWatchdog task lane) s fun t =>
      t.mode = .halt ∧ t.claim.drive = false ∧ t.mram.overrun = some (task.val, s.overrunPhase task, lane.val, (s.task task).cycle % 65536) ∧
      t.mram.haltReason = 1 ∧ t.mram.haltValid = true ∧ t.mram.ring = s.mram.ring) ∧
    (s.budgetOver task c = false → Completes (.overrunWatchdog task lane) s fun t => t = s)) ∧
  (∀ (l c m : Nat) (s : State), s.mode = .active ∨ s.mode = .standby → l < 16 → c < 2 → m < 65536 → Completes (.paceWindow [(l, c, m)]) s fun t =>
    t.get Reg.EXEC_PACE_PACE_NOW = m ∧ t.get Reg.EXEC_PACE_MARGIN_PCT = satTo 16 (m * 100 / 700) ∧
    (m < s.get Reg.EXEC_PACE_MIN_PACE_MIN →
      t.get Reg.EXEC_PACE_MIN_PACE_MIN = m ∧ t.get Reg.EXEC_PACE_MIN_LANE = l ∧ t.get Reg.EXEC_PACE_MIN_COPY = c) ∧
    (s.get Reg.EXEC_PACE_MIN_PACE_MIN ≤ m → t.get Reg.EXEC_PACE_MIN_PACE_MIN = s.get Reg.EXEC_PACE_MIN_PACE_MIN) ∧
    EventsOnly s t ∧ KeepsBut [.bank, .net, .outbox] s t)

/-! The lanes. -/

/-- The lane's own gates (R121, R173, R174, R178, R180): a read with no entry yet commits its sample, every other takes the committed value, and must ask the same; a full log
waits for a checkpoint; a barrier opens once its blocks have compared clean; a spare leaves its self-test.
Checkpoints (R164 to R171, R177 to R179, R184): one that cannot fall yet changes nothing; copies that compare equal commit; a difference takes both back to the last
checkpoint; a refusal in both copies takes the module to HALT; a clean re-execution commits and is recorded, a second difference retires the lane, and so does a flaky
lane's next comparison.
Under conditions on the state and the operands alone, exec answers a next state with its own effect of: gatedRead, barrierRelease, checkpoint, reexecutionCompare,
spareTakeover. -/
def Obligations.LanesCompared : Prop :=
  ((∀ (lane : Fin 16) (copy : Fin 2) (request sample : DWord) (s : State), s.laneRuns lane ≠ none →
    (s.lane lane).gateLog[(gotOf copy (s.lane lane)).length]? = none →
    ((s.lane lane).gateLog.length < 256 → Completes (.gatedRead lane copy request sample) s fun t =>
      t.lane lane = giveValue copy request sample { s.lane lane with gateLog := (s.lane lane).gateLog ++ [⟨request, sample⟩] } ∧ KeepsBut [.lanes] s t) ∧
    (256 ≤ (s.lane lane).gateLog.length → Completes (.gatedRead lane copy request sample) s fun t => t = s)) ∧
  (∀ (lane : Fin 16) (copy : Fin 2) (request sample : DWord) (e : GateEntry) (s : State), s.laneRuns lane ≠ none →
    (s.lane lane).gateLog[(gotOf copy (s.lane lane)).length]? = some e →
    (e.request = request → Completes (.gatedRead lane copy request sample) s fun t =>
      t.lane lane = giveValue copy request e.value (s.lane lane) ∧ KeepsBut [.lanes] s t) ∧
    (e.request ≠ request → (s.lane lane).mismatch = none → Completes (.gatedRead lane copy request sample) s fun t =>
      t.lane lane = { s.lane lane with mismatch := some ⟨8, 6, s.ts, (s.lane lane).ckpt⟩, shadowB := (s.lane lane).shadowA, gotA := [], gotB := [] } ∧
      RaisedBut Ev.CMP_GATE_DIVERGE [] [.lanes] s t) ∧
    (∀ m, e.request ≠ request → (s.lane lane).mismatch = some m → Completes (.gatedRead lane copy request sample) s fun t => lane.val ∉ t.healthy)) ∧
  (∀ (lane : Fin 16) (i b : Nat) (s : State), (s.lane lane).task = some i → (s.lane lane).block = some b → (s.lane lane).waiting = true →
    (s.barrierOpen i b = true → Completes (.barrierRelease lane) s fun t =>
      t.lane lane = { s.lane lane with waiting := false, since := s.time.ran } ∧ KeepsBut [.lanes] s t) ∧
    (s.barrierOpen i b = false → Completes (.barrierRelease lane) s fun t => t = s)) ∧
  (∀ (lane : Fin 16) (s : State), (s.lane lane).starting = true → Completes (.spareTakeover lane) s fun t =>
    t.lane lane = { s.lane lane with starting := false, since := s.time.ran } ∧ KeepsBut [.lanes] s t)) ∧
  ((∀ (c : Checkpoint) (i : Nat) (s : State), s.laneRuns c.lane = some i → (s.lane c.lane).mismatch = none → (s.lane c.lane).block = some c.block →
    let u := noteLag c s
    (s.ckptFalls c = false → Completes (.checkpoint c) s fun t => t = s) ∧
    (s.ckptFalls c = true → s.flaky c.lane = true → Completes (.checkpoint c) s fun t => t = retireLane c.lane [3] 0 (s.faultNow c.lane) u) ∧
    (s.ckptFalls c = true → s.flaky c.lane = false → u.bothRefused c = false → u.oneRefused c = false → u.injected c.lane = (false, false) →
      (u.compareAt c (false, false) = 0 → Completes (.checkpoint c) s fun t => t = commitCheckpoint i c u) ∧
      (u.compareAt c (false, false) ≠ 0 → Completes (.checkpoint c) s fun t =>
        t.lane c.lane = { s.lane c.lane with mismatch := some ⟨u.compareAt c (false, false), 1, s.ts, (s.lane c.lane).ckpt⟩, shadowB := (s.lane c.lane).shadowA,
                                             gotA := [], gotB := [] } ∧ KeepsBut [.bank, .lanes] s t)) ∧
    (s.ckptFalls c = true → s.flaky c.lane = false → u.bothRefused c = true → Completes (.checkpoint c) s fun t => t.mode = .halt ∧ t.claim.drive = false)) ∧
  (∀ (c : Checkpoint) (i : Nat) (m : Mismatch) (s : State), s.laneRuns c.lane = some i → (s.lane c.lane).mismatch = some m → (s.lane c.lane).block = some c.block →
    s.ckptFalls c = true → m.diff < 128 →
    let u := noteLag c s
    u.injected c.lane = (false, false) → u.bothRefused c = false → u.oneRefused c = false →
    (u.compareAt c (false, false) = 0 → Completes (.reexecutionCompare c) s fun t => t = commitCheckpoint i c (recordRecovered i c.lane m.diff m u)) ∧
    (u.compareAt c (false, false) ≠ 0 → Completes (.reexecutionCompare c) s fun t =>
      t = retireLane c.lane (mismatchKinds m 2) (u.compareAt c (false, false)) ⟨c.block, m.ckpt, m.time⟩ u ∧ c.lane ∉ t.healthy)) ∧
  (∀ a b : CopyReport, compareCopies a b false false = 0 →
    regSignature a = regSignature b ∧ (storeBuffer a.stores).length = (storeBuffer b.stores).length ∧ storeCheck a = storeCheck b ∧ gateCheck a = gateCheck b))

/-- Memory errors and the built-in test (R175, R176, R183, R192): a corrected error is counted; an uncorrectable one of a lane's own memory retires the lane; one of shared
memory takes an active module to HALT; one of persistent memory spoils the structure that holds it; a clean visit changes nothing, one that is clean the second time is
a recovered mismatch, and one that fails twice retires.
The registers of execution and comparison (R185, R186): CLEAR_MAX takes LAST_PM, an injection arms one lane and no other, and FAULT_SELECT latches the record
that the ring holds. A session that is not of role SERVICE is refused by origin.
Under conditions on the state and the operands alone, exec answers a next state with its own effect of: eccError, scrubPass, bistVisit, clearMax, cmpInject, faultSelect. -/
def Obligations.MemoryErrorsAndComparison : Prop :=
  ((∀ (n : Nat) (s : State), s.mode = .active ∨ s.mode = .standby → n < 16 → Completes (.eccError ⟨.laneLocal n, true⟩) s fun t =>
    t.get Reg.CMP_ECC_COUNT_LOCAL = satInc Reg.CMP_ECC_COUNT_LOCAL.w (s.get Reg.CMP_ECC_COUNT_LOCAL) ∧
    t.get (Reg.CMP_LANE_STAT_ECC_LOCAL n) = satInc (Reg.CMP_LANE_STAT_ECC_LOCAL n).w (s.get (Reg.CMP_LANE_STAT_ECC_LOCAL n)) ∧
    RaisedBut Ev.CMP_ECC_CORRECTED [Reg.CMP_ECC_COUNT_LOCAL, Reg.CMP_LANE_STAT_ECC_LOCAL n] [] s t) ∧
  (∀ (n : Nat) (s : State), s.mode = .active ∨ s.mode = .standby → n < 16 → s.laneOk n = true → Completes (.eccError ⟨.laneLocal n, false⟩) s fun t =>
    t = retireLane n [4] 0 ((s.raise Ev.CMP_ECC_LANE_UNCORR).faultNow n) (s.raise Ev.CMP_ECC_LANE_UNCORR)) ∧
  (∀ (w : Nat) (s : State), s.mode = .active → Completes (.eccError ⟨.shared w, false⟩) s fun t => t.mode = .halt ∧ t.claim.drive = false ∧ t.mram.haltReason = 4) ∧
  (∀ (x : MramSite) (s : State), s.powered = true → Completes (.eccError ⟨.mram x, false⟩) s fun t => t = spoil x s) ∧
  (∀ (a : Nat) (s : State), s.powered = true → Completes (.eccError ⟨.mramWord a, false⟩) s fun t => t = spoilAt a s) ∧
  (∀ (l : List EccFinding) (s : State), s.mode = .active ∨ s.mode = .standby → Completes (.scrubPass l) s fun t =>
    t = forEach l (fun f s => eccHandle true f s) s ∧ (l = [] → t = s)) ∧
  (∀ (lane : Fin 16) (first second : VectorRun) (s : State), s.visits lane = true → s.flaky lane = false → (s.lane lane).inject = none →
    (vectorDiff first (false, false) = 0 → Completes (.bistVisit lane first second) s fun t => t = s) ∧
    (vectorDiff first (false, false) ≠ 0 → vectorDiff second (false, false) = 0 → Completes (.bistVisit lane first second) s fun t =>
      t.get Reg.CMP_ROLLBACKS_COUNT = satInc Reg.CMP_ROLLBACKS_COUNT.w (s.get Reg.CMP_ROLLBACKS_COUNT) ∧ t.healthy = s.healthy ∧
      KeepsBut [.bank, .lanes, .mram, .net, .outbox] s t) ∧
    (vectorDiff first (false, false) ≠ 0 → vectorDiff second (false, false) ≠ 0 → Completes (.bistVisit lane first second) s fun t =>
      t = retireIdle lane [2] (vectorDiff second (false, false)) s ∧ lane.val ∉ t.healthy))) ∧
  ((∀ (o : Origin) (task : Fin 8) (s : State), s.powered = true →
    (serviceOk s o = true → Completes (.clearMax o task) s fun t =>
      t.get (Reg.EXEC_TASK_LOAD_MAX_PM task) = s.get (Reg.EXEC_TASK_LOAD_LAST_PM task) ∧ RegsBut [Reg.EXEC_TASK_LOAD_MAX_PM task] s t ∧ KeepsBut [.bank] s t) ∧
    (serviceOk s o = false → Completes (.clearMax o task) s fun t => t = refuseOrigin o (0x20118 + 0x40 * task.val) s)) ∧
  (∀ (k : Nat) (lane : Fin 16) (copy : Fin 2) (repeated arm : Bool) (s : State), s.powered = true → serviceOk s (.svc k) = true →
    Completes (.cmpInject (.svc k) lane copy repeated arm) s fun t =>
      (t.lane lane).inject = (if arm then some (copy.val, repeated) else none) ∧ (∀ n, n ≠ lane.val → (t.lane n).inject = none) ∧ KeepsBut [.lanes] s t) ∧
  (∀ (o : Origin) (lane : Fin 16) (copy : Fin 2) (r a : Bool) (s : State), s.powered = true → isSvc o = false →
    Completes (.cmpInject o lane copy r a) s fun t => t = refuseOrigin o 0x30014 s) ∧
  (∀ (o : Origin) (index : Fin 64) (s : State), s.powered = true → serviceOk s o = true → Completes (.faultSelect o index) s fun t =>
    t.get Reg.CMP_FAULT_SEL_INDEX = index.val ∧
    (∀ f, s.mram.faultRing.reverse[index.val]? = some f → t.get (Reg.CMP_FAULT_Wn_WORD 0) = (faultWords f)[0]!.toNat) ∧
    (s.mram.faultRing.reverse[index.val]? = none → ∀ n, n < 8 → t.get (Reg.CMP_FAULT_Wn_WORD n) = 0) ∧ KeepsBut [.bank] s t))

/-! The signal box. -/

/-- A pass of the signal box (R265 to R267): a running box takes one snapshot, evaluates and votes; one that does not run, or whose firmware image is just taking effect (R460), does nothing. Results that at least two evaluators
agree on count, a dispute takes the module to HALT, and so does the loss of the vote through faulty timers.
R259: the timers and the latch of an equation. While it is not armed its result is 0; a condition that has been true for PICKUP_US sets it; a latch holds it until a
reset that finds the condition false; without a latch it falls once the condition has been false for DROPOUT_MS.
Under conditions on the state and the operands alone, exec answers a next state with its own effect of: sbxPass. -/
def Obligations.SignalBoxPass : Prop :=
  ((∀ (levels : List (Nat × Int)) (flips : List (Nat × Nat)) (tf : List Nat) (s : State), s.sbxRuns = true →
    Completes (.sbxPass levels flips tf) s fun t => t = sbxPassBody levels flips tf s ∧
      (s.mode = .active → tf = [0, 1] → s.sbox.evalOk = [0, 1, 2] → t.mode = .halt ∧ t.claim.drive = false ∧ t.mram.haltReason = 3) ∧
      (s.sbox.table.equations = [] → s.sbox.outvoted = [] → tf = [] → t.mode = s.mode ∧ t.sbox.evalOk = s.sbox.evalOk ∧ t.sbox.resets = [])) ∧
  (∀ (levels : List (Nat × Int)) (flips : List (Nat × Nat)) (tf : List Nat) (s : State), s.sbxRuns = false →
    Completes (.sbxPass levels flips tf) s fun t => t = s) ∧
  (∀ a b c : Bool, vote [a, b, c] = some ((a && b) || (b && c) || (a && c))) ∧ (∀ a b : Bool, a ≠ b → vote [a, b] = none)) ∧
  ((∀ (cond latch reset : Bool) (pk dr now : Nat) (x : EqState), (eqNext false cond latch reset pk dr now x).result = false ∧ (eqNext false cond latch reset pk dr now x).latched = false) ∧
  (∀ (latch reset : Bool) (pk dr now since : Nat) (x : EqState), x.trueSince = some since → pk ≤ now - since → (eqNext true true latch reset pk dr now x).result = true ∧
    (eqNext true true latch reset pk dr now x).latched = latch) ∧
  (∀ (latch : Bool) (pk dr now : Nat) (x : EqState), x.latched = true → (eqNext true false latch false pk dr now x).result = true ∧
    (eqNext true false latch true pk dr now x).latched = false) ∧
  (∀ (latch reset : Bool) (pk dr now since : Nat) (x : EqState), x.latched = false → x.falseSince = some since →
    (eqNext true false latch reset pk dr now x).result = (x.result && decide (now - since < dr * 1000))))

/-- The timers as commands, the latch reset and the box's faults (R259, R262, R263, R266, R273).
Under conditions on the state and the operands alone, exec answers a next state with its own effect of: pickupExpiry, dropoutExpiry, latchReset, sbxEvalFault,
acmpDisagree, svcmpFail. -/
def Obligations.SignalBoxCommands : Prop :=
  (∀ (e : Fin 512) (c : EqCfg) (s : State), s.sbxRuns = true → s.eqCfg e = some c → s.eqArmed e = true →
    (s.lasted (s.eqPickupUs e) (Tab.getD s.sbox.voted e EqState.reset).trueSince = true → Completes (.pickupExpiry e) s fun t =>
      (Tab.getD t.sbox.voted e EqState.reset).result = true ∧ (Tab.getD t.sbox.voted e EqState.reset).latched = c.latch ∧ t.mode = s.mode ∧ t.ctl = s.ctl) ∧
    (s.lasted (s.eqPickupUs e) (Tab.getD s.sbox.voted e EqState.reset).trueSince = false → Completes (.pickupExpiry e) s fun t => t = s)) ∧
  (∀ (e : Fin 512) (s : State), s.sbxRuns = true → s.lasted (s.eqDropoutMs e * 1000) (Tab.getD s.sbox.voted e EqState.reset).falseSince = true →
    ((Tab.getD s.sbox.voted e EqState.reset).latched = false → Completes (.dropoutExpiry e) s fun t =>
      (Tab.getD t.sbox.voted e EqState.reset).result = false ∧ t.mode = s.mode ∧ t.ctl = s.ctl) ∧
    ((Tab.getD s.sbox.voted e EqState.reset).latched = true → Completes (.dropoutExpiry e) s fun t => t = s)) ∧
  (∀ (n : Nat) (e : Fin 512) (s : State), s.powered = true → Completes (.latchReset (.lane n) e) s fun t =>
    t = { s with sbox := { s.sbox with resets := addOnce e.val s.sbox.resets } }) ∧
  (∀ (o : Origin) (e : Fin 512) (s : State), s.powered = true → isLane o = false → Completes (.latchReset o e) s fun t => t = refuseOrigin o (eqStateAddr e) s) ∧
  (∀ (v : Fin 3) (s : State), s.sbxRuns = true → v.val ∈ s.sbox.evalOk → Completes (.sbxEvalFault v) s fun t =>
    t.sbox = { s.sbox with evalOk := s.sbox.evalOk.filter (fun i => decide (i ≠ v.val)), outvoted := s.sbox.outvoted.filter (fun i => decide (i ≠ v.val)) } ∧
    RaisedBut Ev.SBX_SBX_EVAL_FAULT [] [.sbox] s t) ∧
  (∀ (c : Fin 192) (s : State), s.sbxRuns = true → s.termUses 2 c = true → s.calibrating (c.val / 2) = false → (Tab.getD s.sbox.acmp c AcmpState.reset).failed = false →
    Completes (.acmpDisagree c) s fun t =>
      Tab.getD t.sbox.acmp c AcmpState.reset = { Tab.getD s.sbox.acmp c AcmpState.reset with failed := true } ∧ RaisedBut Ev.SBX_ACMP_DISAGREE [] [.sbox] s t) ∧
  (∀ (c : Fin 256) (s : State), s.sbxRuns = true → (findKey s.sbox.table.svcs c.val).isSome = true → (Tab.getD s.sbox.svc c SvcState.reset).failed = false →
    Completes (.svcmpFail c) s fun t =>
      (Tab.getD t.sbox.svc c SvcState.reset).failed = true ∧ (Tab.getD t.sbox.svc c SvcState.reset).goodRun = 0 ∧ RaisedBut Ev.SBX_SVCMP_FAIL [] [.sbox] s t)

/-! Channels. -/

/-- Discrete inputs (R279, R280): an edge of the filter is seen at once, and by the program after the debounce; a pulsed input takes the state of a steady window.
The sequencer of a discrete output (R282, R510): only a stage whose limit was held, or that retries, shuts down on temperature; a retry follows 100 ms after the
shutdown, a release after a whole period with the command off.
Under conditions on the state and the operands alone, exec answers a next state with its own effect of: diInputEdge, diDebounceExpiry, diSampleWindow, doLimitEnter,
doLimitClear, doThermalEnter, doThermalRetry, doLockedRelease. -/
def Obligations.DiscreteChannels : Prop :=
  ((∀ (ch : Fin 96) (level : Bool) (c : ChanCfg) (s : State), s.chansRun = true → s.chanCfg ch = some c → c.mode = .di → c.pulsed = false → (s.chan ch).filtered ≠ level →
    Completes (.diInputEdge ch level) s fun t => KeepsBut [.chans] s t ∧ (∀ n, n ≠ ch.val → t.chan n = s.chan n) ∧
      (c.debounce = 0 → t.chan ch = { s.chan ch with filtered := level, edgeTs := s.ts, edgeUnsync := s.unsync, stateDi := level, debouncing := false }) ∧
      (c.debounce ≠ 0 → t.chan ch = { s.chan ch with filtered := level, edgeTs := s.ts, edgeUnsync := s.unsync, debouncing := (s.chan ch).stateDi != level })) ∧
  (∀ (ch : Fin 96) (s : State), s.chansRun = true → (s.chan ch).debouncing = true → Completes (.diDebounceExpiry ch) s fun t =>
    t.chan ch = { s.chan ch with stateDi := (s.chan ch).filtered, debouncing := false } ∧ KeepsBut [.chans] s t) ∧
  (∀ (ch : Fin 96) (level : Bool) (c : ChanCfg) (s : State), s.chansRun = true → s.chanCfg ch = some c → c.mode = .di → c.pulsed = true → (s.chan ch).stateDi ≠ level →
    (Completes (.diSampleWindow ch true level) s fun t => t.chan ch = { s.chan ch with stateDi := level, edgeTs := s.ts, edgeUnsync := s.unsync } ∧ KeepsBut [.chans] s t) ∧
    (Completes (.diSampleWindow ch false level) s fun t => t = s))) ∧
  (∀ (ch : Fin 96) (s : State), s.isDo ch = true →
    ((s.chan ch).doState = .on → Completes (.doLimitEnter ch) s fun t =>
      t.chan ch = { s.chan ch with doState := .limit, limitSince := some s.time.tick, retrying := false } ∧ KeepsBut [.chans] s t) ∧
    ((s.chan ch).doState = .limit → Completes (.doLimitClear ch) s fun t =>
      t.chan ch = { s.chan ch with doState := .on, limitSince := none, lastLimit := some s.time.tick,
                                        lastHeld := if (s.chan ch).limitHeld s.time.tick then some s.time.tick else (s.chan ch).lastHeld } ∧ KeepsBut [.chans] s t) ∧
    ((s.chan ch).doState = .on ∨ (s.chan ch).doState = .limit → (s.chan ch).hot s.time.tick = false → Completes (.doThermalEnter ch) s fun t => t = s) ∧
    ((s.chan ch).doState = .on → (s.chan ch).hot s.time.tick = true → (recent60 s.time.tick (s.chan ch).thermals).length < 7 → Completes (.doThermalEnter ch) s fun t =>
      (t.chan ch).doState = .thermal ∧ (t.chan ch).thermals = recent60 s.time.tick (s.chan ch).thermals ++ [s.time.tick] ∧
      RaisedBut (Ev.CH_THERMAL_SHUTDOWN (ch.val / 12)) [] [.chans] s t) ∧
    ((s.chan ch).doState = .on → (s.chan ch).hot s.time.tick = true → 7 ≤ (recent60 s.time.tick (s.chan ch).thermals).length → Completes (.doThermalEnter ch) s fun t =>
      (t.chan ch).doState = .locked ∧ (t.chan ch).kind = 4 ∧ t.get (Reg.CH_FAULT_KIND (ch.val / 12) (ch.val % 12)) = 4 ∧ KeepsBut [.bank, .chans, .net, .outbox] s t) ∧
    ((s.chan ch).doState = .thermal → (s.chan ch).cmdOn = true →
      (s.chan ch).thermals.all (fun x => decide (x + ticksOfMs 100 ≤ s.time.tick)) = true → Completes (.doThermalRetry ch) s fun t =>
      t.chan ch = { s.chan ch with doState := .on, retrying := true } ∧ KeepsBut [.chans] s t) ∧
    ((s.chan ch).doState = .thermal → (s.chan ch).cmdOn = false → Completes (.doThermalRetry ch) s fun t => t = s) ∧
    ((s.chan ch).doState = .locked → (s.chan ch).cmdOn = false → (s.chan ch).offPeriods < 2 → Completes (.doLockedRelease ch) s fun t => t = s) ∧
    ((s.chan ch).doState = .locked → (s.chan ch).cmdOn = false → 2 ≤ (s.chan ch).offPeriods → Completes (.doLockedRelease ch) s fun t =>
      t.chan ch = { s.chan ch with doState := .off, kind := 0 } ∧ t.get (Reg.CH_FAULT_KIND (ch.val / 12) (ch.val % 12)) = 0 ∧ KeepsBut [.bank, .chans] s t))

/-- Current outputs and inputs (R284, R286, R287): the adaptive supply never leaves its target by more than it may, shortfalls and a lost live zero are shown and reported
at their beginning.
The common fault bit and localisation (R292, R293, R295): the bit and its event, a run at each occasion, and a critical result takes an active module to HALT.
Under conditions on the state and the operands alone, exec answers a next state with its own effect of: adaptiveSupplyStep, compliance, openLoop, liveZeroLost,
commonFaultSet, commonFaultCleared, locate, localisationRepeat. -/
def Obligations.AnalogueChannelsAndFaults : Prop :=
  ((∀ (ch : Fin 96) (mv : Nat) (s : State), s.chansRun = true → s.chanMode ch = .ao → (s.chan ch).driven = true → Completes (.adaptiveSupplyStep ch mv) s fun t =>
    let vt := min (s.vmax ch) (max 4500 (mv + 2000))
    (t.chan ch).loopMv = mv ∧ KeepsBut [.chans] s t ∧
    ((s.chan ch).supplyMv ≤ vt → (t.chan ch).supplyMv = vt ∧ (t.chan ch).learned = true) ∧
    (vt < (s.chan ch).supplyMv → (s.chan ch).supplyMv ≤ s.vmax ch → (t.chan ch).supplyMv = max vt ((s.chan ch).supplyMv - 500))) ∧
  (∀ (ch : Fin 96) (ua : Nat) (s : State), s.chansRun = true → s.chanMode ch = .ao → (s.chan ch).driven = true →
    (s.vmax ch ≤ (s.chan ch).supplyMv → ua + 24 < (s.chan ch).cmdUa → (s.chan ch).compliance = false → Completes (.compliance ch ua) s fun t =>
      t.chan ch = { s.chan ch with currUa := ua, compliance := true, openLoop := false, goodPeriods := 0 } ∧
      RaisedBut (Ev.CH_COMPLIANCE (ch.val / 12)) [Reg.CH_FAULT_MAP_SHORTFALL (ch.val / 12)] [.chans] s t) ∧
    (s.vmax ch ≤ (s.chan ch).supplyMv → 1000 ≤ (s.chan ch).cmdUa → ua < 200 → (s.chan ch).openLoop = false → Completes (.openLoop ch ua) s fun t =>
      t.chan ch = { s.chan ch with currUa := ua, compliance := false, openLoop := true, goodPeriods := 0 } ∧
      RaisedBut (Ev.CH_OPEN_LOOP (ch.val / 12)) [Reg.CH_FAULT_MAP_SHORTFALL (ch.val / 12)] [.chans] s t)) ∧
  (∀ (ch : Fin 96) (c : ChanCfg) (s : State), s.chansRun = true → s.chanCfg ch = some c → c.mode = .ci → c.liveZero = true → (s.chan ch).liveZeroLost = false →
    Completes (.liveZeroLost ch) s fun t =>
      t.chan ch = { s.chan ch with liveZeroLost := true, goodPeriods := 0 } ∧ RaisedBut (Ev.CH_LIVE_ZERO_LOST (ch.val / 12)) [] [.chans] s t)) ∧
  ((∀ (p : Fin 8) (l : List Readback) (s : State), s.chansRun = true →
    (Completes (.commonFaultSet p l) s fun t => t = commonFaultRise p (takeReadbacks p l s)) ∧
    (s.get (Reg.CH_STATUS_COMMON_FAULT p) = 1 →
      (Completes (.localisationRepeat p l) s fun t => t = locateRun p (takeReadbacks p l s)) ∧
      (Completes (.commonFaultCleared p l) s fun t =>
        t = locateRun p (((takeReadbacks p l s).put (Reg.CH_STATUS_COMMON_FAULT p) 0).raise (Ev.CH_COMMON_FAULT_CLEARED p)))) ∧
    (s.get (Reg.CH_STATUS_COMMON_FAULT p) ≠ 1 → Completes (.localisationRepeat p l) s fun t => t = s)) ∧
  (∀ (o : Origin) (p : Fin 8) (s : State), s.chansRun = true → serviceOk s o = true → Completes (.locate o p) s fun t => t = locateRun p s) ∧
  (∀ (p : Nat) (s : State), p < 8 → s.mode = .active → s.fieldGood p = false → s.critMask p = 2 →
    (locateRun p s).mode = .halt ∧ (locateRun p s).claim.drive = false ∧ (locateRun p s).mram.haltReason = 6) ∧
  (∀ (p : Nat) (kinds : List Nat) (s : State), p < 8 → s.critMask p = 0 → (locateEnd p kinds false s).mode = s.mode ∧ (locateEnd p kinds false s).claim = s.claim ∧
    (locateEnd p kinds false s).get (Reg.CH_STATUS_CRITICAL p) = 0))

/-! Conversion and calibration. -/

/-- The result queue (R302 to R304): a result enters at the end, a full queue discards it and counts it, the result table takes the oldest, and QPOP latches the monitor's
next entry or zeros.
Samples (R297, R300): every command takes its results in channel order, and none comes while the platforms' firmware is just taking effect; a window's end also advances visits, calibration and shortfalls, and a newly accepted period takes force.
The converter period (R298, R299): a measurement within the bounds and within 5 % of the period in force is accepted and takes the place of the secondary; one outside
loses the source; with both lost for longer than 10 s the nominal period takes force.
Under conditions on the state and the operands alone, exec answers a next state with its own effect of: converterPeriodBoundary, fastSample, periodMeasurement,
periodNominal, qpop. -/
def Obligations.ResultsAndPeriods : Prop :=
  ((∀ (e : QEntry) (s : State), s.conv.queue.length < 4096 → (e.channel, e.kind) ∉ s.conv.lostBefore →
    (enqueue e s).conv.queue = s.conv.queue ++ [e] ∧ (enqueue e s).conv.entered = s.conv.entered + 1 ∧ KeepsBut [.bank, .conv] s (enqueue e s)) ∧
  (∀ (e : QEntry) (s : State), 4096 ≤ s.conv.queue.length →
    (enqueue e s).conv = { s.conv with lostBefore := addOnce (e.channel, e.kind) s.conv.lostBefore } ∧
    (enqueue e s).get Reg.CNV_QCOUNT_OVERRUNS = satInc Reg.CNV_QCOUNT_OVERRUNS.w (s.get Reg.CNV_QCOUNT_OVERRUNS) ∧
    (enqueue e s).get ⟨Ev.CNV_QUEUE_OVERRUN.addr, Ev.CNV_QUEUE_OVERRUN.bit, 1⟩ = 1) ∧
  (∀ (o : Origin) (s : State), s.powered = true → serviceOk s o = true → Completes (.qpop o) s fun t =>
    (∀ e, s.conv.monitor < s.conv.entered → s.conv.copy[s.conv.monitor + s.conv.copy.length - s.conv.entered]? = some e →
      t.conv = { s.conv with monitor := s.conv.monitor + 1 } ∧ ∀ n, n < 4 → t.get (Reg.CNV_Q_Wn_WORD n) = ((leWords 4 (qBytes e)).getD n 0#32).toNat) ∧
    (s.conv.entered ≤ s.conv.monitor → t.conv = s.conv ∧ ∀ n, n < 4 → t.get (Reg.CNV_Q_Wn_WORD n) = 0) ∧ KeepsBut [.bank, .conv] s t)) ∧
  ((∀ (l : List RawSample) (s : State), s.chansRun = true → s.effectOver 5 = true → s.defsNow.filter (fun e => !e.2.sv) = [] →
    Completes (.fastSample l) s fun t => t = forEach (inOrder l) fastResult s) ∧
  (∀ (l : List RawSample) (s : State), s.chansRun = true → s.effectOver 5 = true → s.acqRuns = false → Completes (.fastSample l) s fun t => t = forEach (inOrder l) fastResult s ∧ t.acq = s.acq) ∧
  (∀ (l : List RawSample) (s : State), s.effectOver 5 = false → Completes (.fastSample l) s fun t => t = s) ∧
  (∀ (l : List RawSample) (tt : List TtMeasure) (s : State), s.chansRun = true → Completes (.converterPeriodBoundary l tt) s fun t =>
    t.conv.pendingNs = none ∧ (∀ p, s.conv.pendingNs = some p → t.conv.periodNs = p) ∧ (s.conv.pendingNs = none → t.conv.periodNs = s.conv.periodNs) ∧
    t.mode = s.mode ∧ t.ctl = s.ctl ∧ t.sbox = s.sbox)) ∧
  ((∀ (ns amp : Nat) (i : Image) (s : State), s.chansRun = true → s.img = some i → i.primary.isSome = true → 10 ≤ amp → 1000000000 ≤ ns * 70 → ns * 40 ≤ 1000000000 →
    ns * 100 ≤ s.conv.periodNs * 105 → s.conv.periodNs * 95 ≤ ns * 100 → Completes (.periodMeasurement false ns amp true) s fun t =>
      t.conv = { s.conv with primary := ⟨some ns, [], false⟩, src := 1, pendingNs := some ns } ∧ KeepsBut [.conv] s t) ∧
  (∀ (ns amp : Nat) (i : Image) (s : State), s.chansRun = true → s.img = some i → i.primary.isSome = true → s.conv.primary.lost = false →
    Completes (.periodMeasurement false ns amp false) s fun t =>
      t.conv.primary = { s.conv.primary with lost := true, candidates := [] } ∧
      RaisedBut Ev.CNV_PERIOD_SOURCE_LOST [] [.conv] s t) ∧
  (∀ s : State, s.chansRun = true → s.conv.primary.lost = true → s.conv.secondary.lost = true → s.conv.src ≠ 0 → Completes .periodNominal s fun t =>
    t.conv = { s.conv with src := 0, pendingNs := some s.nominalNs } ∧ RaisedBut Ev.CNV_PERIOD_NOMINAL [] [.conv] s t))

/-- System calibration (R310, R311): a command is held for the next boundary, the last one counting; 16 averaged windows end a take; 1,800 s without a command end it as ABORT does.
What a held calibration command does at its boundary (R310, R311): START begins, a second START is refused as busy, END and ABORT end, and a command out of order is
refused with RESULT 5 without changing the calibration.
Under conditions on the state and the operands alone, exec answers a next state with its own effect of: calStart, takeZero, takeSpan, calTakeDone, commit, calEnd, abort,
calTimeout. -/
def Obligations.Calibration : Prop :=
  ((∀ (o : Origin) (ch : Fin 96) (s : State), s.powered = true → serviceOk s o = true →
    (Completes (.calStart o ch) s fun t => t = setCal (fun c => { c with pending := some (ch.val, 1) }) s) ∧
    (Completes (.takeZero o ch) s fun t => t = setCal (fun c => { c with pending := some (ch.val, 2) }) s) ∧
    (Completes (.takeSpan o ch) s fun t => t = setCal (fun c => { c with pending := some (ch.val, 3) }) s) ∧
    (Completes (.commit o ch) s fun t => t = setCal (fun c => { c with pending := some (ch.val, 4) }) s) ∧
    (Completes (.calEnd o ch) s fun t => t = setCal (fun c => { c with pending := some (ch.val, 5) }) s) ∧
    (Completes (.abort o ch) s fun t => t = setCal (fun c => { c with pending := some (ch.val, 6) }) s)) ∧
  (∀ s : State, s.chansRun = true → s.conv.cal.phase = .taking → s.conv.cal.takes.length = 16 → Completes .calTakeDone s fun t =>
    let m := calMean (spanOf (s.variant s.conv.cal.channel)) s.conv.cal.takes
    (m.2 = true → s.conv.cal.takingSpan = false → t.conv.cal = { s.conv.cal with phase := .zeroTaken, mZero := m.1 } ∧ t.get Reg.CNV_CAL_STATUS_RESULT = 0) ∧
    (m.2 = true → s.conv.cal.takingSpan = true → t.conv.cal = { s.conv.cal with phase := .spanTaken, mSpan := m.1 } ∧ t.get Reg.CNV_CAL_STATUS_RESULT = 0) ∧
    (m.2 = false → t.conv.cal = { s.conv.cal with phase := if s.conv.cal.takingSpan then .zeroTaken else .started } ∧ t.get Reg.CNV_CAL_STATUS_RESULT = 1)) ∧
  (∀ s : State, s.chansRun = true → s.conv.cal.lastAt + ticksOfMs 1800000 ≤ s.time.tick → Completes .calTimeout s fun t => t = abandonCal s ∧ t.conv.cal.phase = .idle)) ∧
  ((∀ (ch : Nat) (s : State), s.conv.cal.phase = .idle → (s.tt (ch / 12)).window = 0 →
    (calAct ch 1 s).conv.cal = { s.conv.cal with phase := .started, channel := ch, takes := [] } ∧ (calAct ch 1 s).get Reg.CNV_CAL_STATUS_RESULT = 0) ∧
  (∀ (ch : Nat) (s : State), s.conv.cal.phase ≠ .idle → calAct ch 1 s = calResult 5 s) ∧
  (∀ (ch : Nat) (s : State), s.conv.cal.channel = ch → s.conv.cal.phase = .started →
    (calAct ch 2 s).conv.cal = { s.conv.cal with phase := .taking, takingSpan := false, takes := [], vZero := s.zeroVal } ∧ calAct ch 3 s = calResult 5 s ∧
    (calAct ch 4 s).conv = s.conv ∧ (calAct ch 4 s).get Reg.CNV_CAL_STATUS_RESULT = 5) ∧
  (∀ (ch : Nat) (s : State), s.conv.cal.channel = ch → s.conv.cal.phase ≠ .idle → (calAct ch 5 s).conv.cal = { s.conv.cal with phase := .idle }) ∧
  (∀ (ch cmd : Nat) (s : State), s.conv.cal.channel ≠ ch → 2 ≤ cmd → cmd ≠ 4 → calAct ch cmd s = calResult 5 s))

/-- The turntable converter (R312 to R318): a visit begins with the first queued channel or the next in rotation; a request is refused while the converter is faulty or the
channel under calibration, and queued otherwise; adopted coefficients are written unless records were written within 10 s, each into the older slot with its GENERATION raised.
Under conditions on the state and the operands alone, exec answers a next state with its own effect of: turntableVisitStart, testReq, coefficientBatchWrite. -/
def Obligations.TurntableVisits : Prop :=
  (∀ (p : Fin 8) (s : State), s.chansRun = true → s.mode ≠ .terminus → (s.tt p).faulty = false → (s.tt p).window = 0 → (s.tt p).checkLeft = 0 → s.conv.cal.phase = .idle →
    (∀ c rest, (s.tt p).queue = c :: rest → Completes (.turntableVisitStart p) s fun t => (t.tt p).window = 1 ∧ (t.tt p).channel = c ∧ (t.tt p).priority = true ∧
      c ∉ (t.tt p).queue ∧ t.get (Reg.CNV_CH_VISIT_PRIORITY (12 * p.val + c)) = 0 ∧ KeepsBut [.bank, .conv] s t) ∧
    ((s.tt p).queue = [] → Completes (.turntableVisitStart p) s fun t => (t.tt p).window = 1 ∧ (t.tt p).channel = (s.tt p).next ∧ (t.tt p).priority = false ∧
      (t.tt p).next = ((s.tt p).next + 1) % 12 ∧ KeepsBut [.conv] s t)) ∧
  (∀ (o : Origin) (ch : Fin 96) (s : State), s.powered = true → serviceOk s o = true → Completes (.testReq o ch) s fun t =>
    t.get Reg.CNV_TEST_STATUS_CHANNEL = ch.val ∧
    ((s.tt (ch.val / 12)).faulty = true → t.get Reg.CNV_TEST_STATUS_STATUS = 2 ∧ t.conv = s.conv) ∧
    ((s.tt (ch.val / 12)).faulty = false → s.calibrating ch = true → t.get Reg.CNV_TEST_STATUS_STATUS = 3 ∧ t.conv = s.conv) ∧
    ((s.tt (ch.val / 12)).faulty = false → s.calibrating ch = false → ch.val % 12 ∉ (s.tt (ch.val / 12)).queue → (s.tt (ch.val / 12)).window = 0 →
      t.get Reg.CNV_TEST_STATUS_STATUS = 1 ∧ (t.tt (ch.val / 12)).queue = (s.tt (ch.val / 12)).queue ++ [ch.val % 12])) ∧
  (∀ s : State, s.chansRun = true → s.conv.adopted ≠ [] → s.recent10 s.mram.calWrittenAt = false →
    Completes .coefficientBatchWrite s fun t => t.conv.adopted = [] ∧ t.conv.coefs = s.conv.coefs ∧ t.mram = { s.mram with calWrittenAt := some s.sbyNow } ∧
      KeepsBut [.conv, .mram] s t) ∧
  (∀ s : State, s.recent10 s.mram.calWrittenAt = true → Completes .coefficientBatchWrite s fun t => t = s) ∧
  (∀ (format coef : Nat) (r : CoefRec) (l : Tab CoefRec), ∃ n, newestRec (writeRec format coef r l) format coef = some n ∧
    n.coef = { storedCoef format r.coef with generation := (match newestRec l format coef with | some o => o.coef.generation + 1 | none => 1) } ∧ n.time = r.time ∧
    ∀ f c, f ≠ format → c < 10000 → coef < 10000 → newestRec (writeRec format coef r l) f c = newestRec l f c)

/-! The disturbance recorder. -/

/-- Triggers (R325 to R335): a comparator edge gives its instant, and the pair of samples that crosses a level the interpolated one; a trigger meets the definitions of its
mask; an armed definition with room opens a record and a segment, one without loses the trigger and counts it, and one that re-arms holds it. That an edge closer
than 100 ns to the last gives nothing is the model's choice (assumption 122).
Under conditions on the state and the operands alone, exec answers a next state with its own effect of: acqTrigger, acqTrig. -/
def Obligations.RecorderTriggers : Prop :=
  (∀ (t : Nat) (fine : Fin 32) (rising : Bool) (c : TrigCfg) (s : State), s.acqRuns = true → findKey (s.cfgList (·.triggers)) t = some c →
    (c.kind = 1 → edgeTaken c rising = true → s.acmpTriggers c.source = true → s.edgeApart c.source (s.edgeInstant c.source fine) = true →
      Completes (.acqTrigger ⟨t, fine, rising⟩) s fun u =>
        u = trigMask c.defMask ⟨t, 1, s.edgeInstant c.source fine⟩ { s with acq := { s.acq with edges := Tab.set s.acq.edges c.source (s.edgeInstant c.source fine) } }) ∧
    (c.kind = 1 → edgeTaken c rising = false ∨ s.acmpTriggers c.source = false ∨ s.edgeApart c.source (s.edgeInstant c.source fine) = false →
      Completes (.acqTrigger ⟨t, fine, rising⟩) s fun u => u = s) ∧
    (∀ d rest, c.kind ≠ 1 → (s.trig t).due = d :: rest → Completes (.acqTrigger ⟨t, fine, rising⟩) s fun u =>
      u = trigMask c.defMask ⟨t, c.kind, d.1⟩ (s.setTrig t { s.trig t with due := rest }))) ∧
  (∀ (rate t : Nat) (i : Stamp) (v : Int) (c : TrigCfg) (x : Int × Stamp) (s : State), (s.trig t).crossed = none → (s.trig t).last = some x →
    x.1 < (s.svLevel t c).1 → (s.svLevel t c).1 ≤ v → edgeTaken c true = true →
    ((svTrigger rate i (some v) t c s).trig t).due = (s.trig t).due ++ [(crossing rate x.2 x.1 v (s.svLevel t c).1, true)] ∧
    ((svTrigger rate i (some v) t c s).trig t).last = some (v, i)) ∧
  (∀ (o : Origin) (mask : BitVec 16) (s : State), s.acqRuns = true → serviceOk s o = true →
    (isLane o = false → Completes (.acqTrig o mask) s fun t => t = trigMask mask.toNat ⟨255, 6, s.now⟩ s) ∧
    (∀ n task, o = .lane n → (s.lane n).task = some task → Completes (.acqTrig o mask) s fun t => t = trigMask mask.toNat ⟨255, 5, (s.task task).freezeAt⟩ s)) ∧
  (∀ (d : Nat) (c : DefCfg) (e : TrigEvent) (s : State), d < 16 → s.defCfg d = some c → (s.defState d).armed = true →
    ((s.defState d).rearming = true → (trigDef d e s).defState d = { s.defState d with held := (s.defState d).held ++ [e] }) ∧
    ((s.defState d).rearming = false → (s.defState d).seg = none → (s.defState d).closing = none → defCapacity c ≤ s.segsUsed d →
      ((trigDef d e s).defState d).seg = none ∧ (trigDef d e s).get Reg.ACQ_LOST_TRIGGERS = satInc Reg.ACQ_LOST_TRIGGERS.w (s.get Reg.ACQ_LOST_TRIGGERS)) ∧
    ((s.defState d).rearming = false → (s.defState d).seg = none → (s.defState d).closing = none → s.segsUsed d < defCapacity c → s.acq.openSecond = s.second →
      s.acq.openCount < 100 →
      ∃ g, ((trigDef d e s).defState d).seg = some g ∧ g.trigger = e ∧
        (framesTo e.time (s.defState d).ring = (s.defState d).ring.length → g.raw = (s.defState d).ring ∧ g.rawNeed = (s.defState d).ring.length + c.post) ∧
        ((s.defState d).record = none → ((trigDef d e s).defState d).record.isSome = true ∧ (trigDef d e s).acq.nextId = s.acq.nextId + 1))) ∧
  (∀ (d : Nat) (e : TrigEvent) (s : State), (s.defState d).armed = false → trigDef d e s = s)

/-- Segments and records end (R331, R333, R335): a complete segment joins its record, which closes when it holds all its segments; re-arming gives held triggers their turn;
a gap or a CLOSE write closes the record.
Records in the ring (R340 to R342): a commit writes the oldest closed record whole, at the ring's rate and no faster, and reports it; the index is rebuilt, and records without their whole are listed LOST.
Under conditions on the state and the operands alone, exec answers a next state with its own effect of: segmentClose, rearm, recordGapClose, close, recordCommit,
recordIndexRebuild. -/
def Obligations.SegmentsAndRecords : Prop :=
  ((∀ (d : Fin 16) (g : Segment) (r : Record) (c : DefCfg) (s : State), s.acqRuns = true → (s.defState d).seg = some g → (s.defState d).record = some r →
    s.defCfg d = some c → segDone g = true → (s.defState d).closing = none → r.segments.length + 1 < c.segsPerRecord → segMissing g = 0 →
    Completes (.segmentClose d) s fun t =>
      t.defState d = { s.defState d with seg := none, record := some { r with segments := r.segments ++ [g] }, rearming := true } ∧ KeepsBut [.acq] s t) ∧
  (∀ (d : Fin 16) (s : State), s.acqRuns = true → (s.defState d).rearming = true → (s.defState d).held = [] → Completes (.rearm d) s fun t =>
    t.defState d = { s.defState d with rearming := false } ∧ KeepsBut [.acq] s t) ∧
  (∀ (d : Fin 16) (s : State), s.acqRuns = true → (s.defState d).rearming = true → Completes (.rearm d) s fun t =>
    t = forEach (s.defState d).held (fun h s => trigDef d h s) (s.setDef d { s.defState d with rearming := false, held := [] })) ∧
  (∀ (d : Fin 16) (r : Record) (s : State), s.acqRuns = true → (s.defState d).seg = none → (s.defState d).held = [] → (s.defState d).record = some r →
    Completes (.recordGapClose d) s fun t => t = closeRecord d 0 s) ∧
  (∀ (d : Nat) (r : Record) (s : State) (reason : Nat), (s.defState d).record = some r → s.heldWrites = [] →
    ((closeRecord d reason s).defState d).record = none ∧ (closeRecord d reason s).acq.toCommit = s.acq.toCommit ++ [{ r with closeReason := reason }]) ∧
  (∀ (o : Origin) (d : Fin 16) (r : Record) (s : State), s.acqRuns = true → serviceOk s o = true → (s.defState d).record = some r →
    ((s.defState d).seg ≠ none → Completes (.close o d) s fun t => t = s.setDef d { s.defState d with closing := some 2 }) ∧
    ((s.defState d).seg = none → Completes (.close o d) s fun t => t = closeRecord d 2 s))) ∧
  ((∀ (r : Record) (rest : List Record) (s : State), s.acqRuns = true → s.acq.toCommit = r :: rest →
    (s.acq.commitFrom + 8000 * ((recordLen r + 4079) / 4080) ≤ s.time.tick → (s.defState r.definition).rearmAfterCommit = false → Completes .recordCommit s fun t =>
      t.acq.toCommit = rest ∧ t.acq.blockSeq = s.acq.blockSeq + (recordLen r + 4079) / 4080 ∧ t.acq.commitFrom = s.time.tick ∧
      ⟨r, s.acq.blockSeq, (recordLen r + 4079) / 4080, false⟩ ∈ t.acq.stored ∧ RaisedBut Ev.ACQ_RECORD_COMMITTED [] [.acq] s t) ∧
    (s.time.tick < s.acq.commitFrom + 8000 * ((recordLen r + 4079) / 4080) → Completes .recordCommit s fun t => t = s)) ∧
  (∀ s : State, s.acqRuns = true → s.acq.indexReady = false → Completes .recordIndexRebuild s fun t =>
    t.acq.indexReady = true ∧ t.acq.stored = s.acq.stored ∧
    (∀ id, id ∈ t.acq.lostIds ↔ (∃ x ∈ s.acq.stored, x.opened = true ∧ x.rcd.id = id ∧ s.recordLive id = false ∧
      ∀ y ∈ s.acq.stored, y.rcd.id = id → y.opened = true)) ∧ KeepsBut [.bank, .acq, .net, .outbox] s t))

/-! Time. -/

/-- R347, R350: a step on an empty queue is one tick of 8 ns. At each tick of 8 ns the main counter takes the increment, carries into the next second at 1,000,000,000 ns, and the tick counter counts; the standby
counter goes on whether or not the module is powered. While the grid slews, each new quantum moves it by at most 25 µs toward the stepped counter (R118). That a step on an empty queue is the tick is the model's choice (assumption 2). -/
def Obligations.TickOfTheTimebase : Prop :=
  (∀ s : State, s.pending = [] → step s = .next (tick s)) ∧
  (∀ s : State, s.powered = true → (tick s).time.counter = tickCounter s.time.inc s.time.counter ∧ (tick s).time.tick = (s.time.tick + 1) % 2 ^ 64 ∧
    (tick s).time.inc = s.time.inc) ∧
  (∀ (inc : Nat) (c : Stamp), c.ns < 1000000000 → inc < 2 ^ 40 → c.frac < 2 ^ 32 →
    (c.sec + 1 < 2 ^ 48 → (tickCounter inc c).fine = c.fine + inc) ∧ (tickCounter inc c).ns < 1000000000 ∧ (tickCounter inc c).frac < 2 ^ 32) ∧
  (∀ s : State, s.powered = false → (tick s).time = s.time ∧ (tick s).standby = standbyTick s.standby) ∧
  (∀ b : Standby, b.stopped = true → standbyTick b = b) ∧
  (∀ n : Int, (slewStep n).natAbs ≤ n.natAbs ∧ n.natAbs ≤ (slewStep n).natAbs + 25000) ∧
  (∀ s : State, (newQuantum s).time.lastQuantum = (if s.time.slewNs = 0 ∨ s.time.lastQuantum < s.gridQuantum then s.gridQuantum else s.time.lastQuantum) ∧
    (newQuantum s).time.slewNs = (if s.time.slewNs ≠ 0 ∧ s.time.lastQuantum < s.gridQuantum then slewStep s.time.slewNs else s.time.slewNs))

/-- R348: the increment is 8.32, nominally 8.0 ns; a written one within 0x07_FEF9_DB23 to 0x08_0106_24DD takes force, and one outside that range is refused: the increment in
force stays and INC_REFUSED is raised.
Under conditions on the state and the operands alone, exec answers a next state with its own effect of: incCommit. -/
def Obligations.IncrementLimits : Prop :=
  State.reset.time.inc = 8 * 2 ^ 32 ∧
  (∀ (o : Origin) (b : Byte) (s : State), s.powered = true → timeOrigin s o = true →
    let v := b.toNat * 2 ^ 32 + s.get Reg.TIME_INC_LO_INC_FRAC
    (0x07FEF9DB23 ≤ v → v ≤ 0x08010624DD → Completes (.incCommit o b) s fun t => t = { s with time := { s.time with inc := v } }) ∧
    (v < 0x07FEF9DB23 ∨ 0x08010624DD < v → Completes (.incCommit o b) s fun t => RaisedBut Ev.TIME_INC_REFUSED [] [] s t))

/-- Steps (R118, R349, R351): a step moves the main counter by the amount in TIME_STEP and counts, the grid of a running module slewing; an origin that may not change the time is refused.
The latch, and the servo's declarations (R350, R352, R353): the six words of the main and the tick counter at one tick; the declared quality is shown and takes force, with
LOCKED at its beginning and a holdover that ends in UNCERTAIN after 5 s and not before.
Under conditions on the state and the operands alone, exec answers a next state with its own effect of: incCommit, stepGo, timeLatch, timeServo, holdoverExpired. -/
def Obligations.StepsLatchAndServo : Prop :=
  ((∀ (o : Origin) (fr : BitVec 16) (s : State), s.powered = true → timeOrigin s o = true → Completes (.stepGo o fr) s fun t =>
    t.get Reg.TIME_STEPS_COUNT = satInc Reg.TIME_STEPS_COUNT.w (s.get Reg.TIME_STEPS_COUNT) ∧
    (t.time.counter.fine : Int) = ((s.time.counter.fine : Int) + signed 64 (s.get Reg.TIME_STEP_HI_STEP_HI * 2 ^ 32 + s.get Reg.TIME_STEP_LO_STEP_LO) * 2 ^ 32 +
      (fr.toNat : Int) * 65536) % (2 ^ 48 * 1000000000 * 2 ^ 32 : Int) ∧ t.time.inc = s.time.inc ∧ t.time.tick = s.time.tick ∧
    (s.mode = .standby ∨ s.mode = .active → t.time.slewNs = s.time.slewNs + signed 64 (s.get Reg.TIME_STEP_HI_STEP_HI * 2 ^ 32 + s.get Reg.TIME_STEP_LO_STEP_LO)) ∧
    (s.mode ≠ .standby → s.mode ≠ .active → t.time.slewNs = s.time.slewNs) ∧
    KeepsBut [.bank, .time, .acq, .net, .outbox] s t) ∧
  (∀ (o : Origin) (b : Byte) (fr : BitVec 16) (s : State), s.powered = true → timeOrigin s o = false →
    (Completes (.incCommit o b) s fun t => t = refuseOrigin o 0x10014 s) ∧ (Completes (.stepGo o fr) s fun t => t = refuseOrigin o 0x10020 s))) ∧
  ((∀ (o : Origin) (s : State), s.powered = true → serviceOk s o = true → Completes (.timeLatch o) s fun t =>
    t.get (Reg.TIME_SNAP_n_WORD 1) = s.time.counter.ns % 2 ^ 32 ∧ t.get (Reg.TIME_SNAP_n_WORD 2) = s.time.counter.sec % 2 ^ 32 ∧
    t.get (Reg.TIME_SNAP_n_WORD 3) = s.time.counter.sec / 2 ^ 32 % 2 ^ 32 ∧ t.get (Reg.TIME_SNAP_n_WORD 4) = s.time.tick % 2 ^ 32 ∧
    t.get (Reg.TIME_SNAP_n_WORD 5) = s.time.tick / 2 ^ 32 % 2 ^ 32 ∧ t.get (Reg.TIME_SNAP_n_WORD 0) = s.time.counter.frac / 65536 % 2 ^ 32 ∧ KeepsBut [.bank] s t) ∧
  (∀ (o : Origin) (src : Fin 4) (port : Fin 8) (err : BitVec 16) (s : State), s.powered = true → timeOrigin s o = true → Completes (.timeServo o 0 src port err) s fun t =>
    t.time.quality = 0 ∧ t.time.lockedOnce = true ∧ t.time.source = src.val ∧ t.time.holdoverSince = none ∧ t.time.inc = s.time.inc ∧
    t.get Reg.TIME_SERVO_QUALITY = 0 ∧ t.get Reg.TIME_SERVO_SOURCE = src.val ∧ t.get Reg.TIME_SERVO_ERR_NS = err.toNat ∧
    (s.time.quality ≠ 0 → t.get ⟨Ev.TIME_LOCKED.addr, Ev.TIME_LOCKED.bit, 1⟩ = 1)) ∧
  (∀ (o : Origin) (src : Fin 4) (port : Fin 8) (err : BitVec 16) (s : State), s.powered = true → timeOrigin s o = true → s.time.quality = 0 →
    Completes (.timeServo o 1 src port err) s fun t =>
      t.time.quality = 1 ∧ t.time.holdoverSince = some (s.time.holdoverSince.getD s.time.tick) ∧ t.time.lastLockedInc = s.time.inc ∧
      t.get ⟨Ev.TIME_LOCK_LOST.addr, Ev.TIME_LOCK_LOST.bit, 1⟩ = 1) ∧
  (∀ (h : Nat) (s : State), s.powered = true → s.time.holdoverSince = some h → s.time.quality ≠ 0 →
    (h + ticksOfMs 5000 ≤ s.time.tick → Completes .holdoverExpired s fun t =>
      t.time = { s.time with quality := 3, holdoverSince := none, announcing := 187 } ∧ RaisedBut Ev.TIME_HOLDOVER_EXPIRED [] [.time] s t) ∧
    (s.time.tick < h + ticksOfMs 5000 → Completes .holdoverExpired s fun t => t = s)))

/-- The oscillator (R356, R364, R365): samples fill the bin of their temperature while LOCKED on PTP, the model is written into the older of its two slots and qualifies, holdover steers by it and else holds
the last increment, and a locked module copies its time to the standby counter.
PTP (R354, R358, R359, R361): a foreign domain's message is stamped and no more; a master port's does not steer and its delay request is answered; the sixteenth measurement
within 1 µs locks and the increment steered then stays within R348; at its interval the module measures on its slave ports and announces on its master ports.
Under conditions on the state and the operands alone, exec answers a next state with its own effect of: holdoverSteer, ptpMessage, standbyCounterCopy, oscillatorSample,
oscillatorModelWrite, syncInterval. -/
def Obligations.OscillatorAndPtp : Prop :=
  ((∀ (temp : Int) (s : State), s.powered = true → s.time.quality = 0 → s.time.source = 1 → Completes (.oscillatorSample temp) s fun t =>
    let k := (clampI 0 165 (temp / 100 + 40)).toNat
    let b := Tab.getD s.time.bins k (0, 0)
    t.get Reg.TIME_OSC_TEMP = twos 16 temp % 2 ^ Reg.TIME_OSC_TEMP.w ∧
    t.time = { s.time with bins := Tab.set s.time.bins k (b.1 + 1, b.2 + ((s.time.inc : Int) - 0x0800000000)), lockedSamples := s.time.lockedSamples + 1,
                           lastLockedInc := s.time.inc } ∧ KeepsBut [.bank, .time] s t) ∧
  (∀ (temp : Int) (s : State), s.powered = true → s.time.quality ≠ 0 → Completes (.oscillatorSample temp) s fun t => t.time = s.time ∧ KeepsBut [.bank] s t) ∧
  (∀ s : State, s.powered = true →
    (25920 ≤ s.time.lockedSamples → s.time.qualified = false → Completes .oscillatorModelWrite s fun t =>
      t.time = { s.time with qualified := true } ∧ RaisedBut Ev.TIME_MODEL_QUALIFIED [] [.time, .mram] s t) ∧
    (s.time.lockedSamples < 25920 → Completes .oscillatorModelWrite s fun t => t.time = s.time ∧ KeepsBut [.mram] s t) ∧
    (Completes .oscillatorModelWrite s fun t => ∃ x, Tab.get? t.mram.osc s.oscSlot = some x ∧ x.bins = s.time.bins ∧ x.samples = s.time.lockedSamples ∧ x.whole = true ∧
      x.generation = (s.mram.osc.map (fun e => e.2.generation)).foldl max 0 + 1 ∧ (∀ k, k ≠ s.oscSlot → Tab.get? t.mram.osc k = Tab.get? s.mram.osc k))) ∧
  (∀ (a b : OscSlot) (s : State), s.mram.osc = [(0, a), (1, b)] → (s.oscSlot = 0 ↔ a.generation < b.generation)) ∧
  (∀ (temp : Int) (s : State), s.powered = true → s.get Reg.TIME_CTRL_SERVO_EN = 1 → s.time.holdoverSince ≠ none →
    (∀ off, s.time.qualified = true → modelOffset s.time.bins temp = some off → Completes (.holdoverSteer temp) s fun t =>
      t.time.inc = clampInc ((incNominal : Int) + off) ∧ t.time.quality = 1 ∧ t.time.counter = s.time.counter ∧ t.time.holdoverSince = s.time.holdoverSince) ∧
    ((s.time.qualified = false ∨ modelOffset s.time.bins temp = none) → s.time.lastLockedInc < 2 ^ 40 → Completes (.holdoverSteer temp) s fun t =>
      t.time.inc = s.time.lastLockedInc ∧ t.time.quality = 2 ∧ t.time.counter = s.time.counter)) ∧
  (∀ s : State, s.powered = true → s.time.quality = 0 → s.standby.stopped = false → Completes .standbyCounterCopy s fun t =>
    t.standby = { s.standby with sec := s.time.counter.sec, frac := s.time.counter.ns * 32768 / 1000000000, acc := 0 } ∧
    t.time = { s.time with sbyCopied := some s.time.tick } ∧ KeepsBut [.standby, .time] s t)) ∧
  ((∀ (m : PtpMsg) (s : State), s.powered = false ∨ m.port ∉ s.net.up ∨ m.port = .svc → Completes (.ptpMessage m) s fun t => t = s) ∧
  (∀ (m : PtpMsg) (i : Image) (s : State), s.powered = true → s.img = some i → m.port ∈ s.net.up → m.port ≠ .svc → m.domain ≠ i.net.ptpDomain →
    Completes (.ptpMessage m) s fun t => t = receiveStamp m.port m.stamp false s ∧
      Tab.get? t.net.rx (portCode m.port) = some ⟨(ingressStamp m.port m.stamp).1, (ingressStamp m.port m.stamp).2, none⟩) ∧
  (∀ (m : PtpMsg) (i : Image) (s : State), s.powered = true → s.img = some i → m.port ∈ s.net.up → m.port ≠ .svc → m.domain = i.net.ptpDomain → s.mpu.restarting = false →
    (∀ q origin corr, m.slave = false → (s.ptpPort (portCode m.port)).slave = false → m.body = .sync q false origin corr → Completes (.ptpMessage m) s fun t =>
      t.time.inc = s.time.inc ∧ t.time.counter = s.time.counter ∧ t.time.quality = s.time.quality ∧ t.outbox = s.outbox) ∧
    (∀ q, m.slave = false → (s.ptpPort (portCode m.port)).slave = false → m.body = .delayReq q → Completes (.ptpMessage m) s fun t =>
      let a := (ingressStamp m.port m.stamp).1
      t.outbox = s.outbox ++ [.ptp m.port (.delayResp q (a / 65536) (-((a % 65536 : Nat) : Int)))] ∧ t.time.inc = s.time.inc ∧ t.time.counter = s.time.counter) ∧
    (∀ q origin corr, m.slave = true → (s.ptpPort (portCode m.port)).slave = true → m.body = .sync q false origin corr → s.get Reg.TIME_CTRL_SERVO_EN = 1 →
      s.time.port = portCode m.port → (s.ptpPort (portCode m.port)).good = 15 →
      (((ingressStamp m.port m.stamp).1 : Int) - (origin : Int) * 65536 - corr - (s.ptpPort (portCode m.port)).delay).natAbs ≤ 1000 * 65536 →
      Completes (.ptpMessage m) s fun t =>
        t.time.quality = 0 ∧ t.time.source = 1 ∧ t.time.port = portCode m.port ∧ incLo ≤ t.time.inc ∧ t.time.inc ≤ incHi ∧ t.time.counter = s.time.counter)) ∧
  (∀ (i : Image) (p : Port) (s : State), s.powered = true → s.mpu.restarting = false → s.img = some i → s.net.up = [p] → p ≠ .svc → i.net.ptpPeer = false →
    ((s.ptpPort (portCode p)).slave = true → i.net.ptpBoundary = false → Completes .syncInterval s fun t =>
      t.outbox = s.outbox ++ [.ptp p (.delayReq ((s.net.ptpSeq + 1) % 2 ^ 16))] ∧ KeepsBut [.time, .net, .outbox] s t) ∧
    (∀ g, (s.ptpPort (portCode p)).slave = false → i.net.ptpBoundary = true → s.announced = some g → portCode p ≠ s.time.port → Completes .syncInterval s fun t =>
      ∃ out : Nat, t.outbox = s.outbox ++ [.ptp p (.sync ((s.net.ptpSeq + 1) % 2 ^ 16) true 0 0),
        .ptp p (.followUp ((s.net.ptpSeq + 1) % 2 ^ 16) (out / 65536) ((out % 65536 : Nat) : Int)), .ptp p (.announce g)] ∧ KeepsBut [.net, .outbox] s t)))

/-! Process bus and plant bus. -/

/-- Ports and frames (R367, R368, R379): a port that loses its link is down and reported; a second copy within 400 ms does not pass; supervision frames are sent while a port is up, and the pair address is repeated at 100 ms and 500 ms.
Sampled values (R369 to R371): a frame on a port that is up is taken by every subscription it matches; a stream that differs makes MISMATCH; the end of the hold makes
the subscription LOST.
Under conditions on the state and the operands alone, exec answers a next state with its own effect of: svFrame, svHoldExpiry, supervisionFrame, linkDown,
pairAddressRepeat. -/
def Obligations.PortsAndSampledValues : Prop :=
  ((∀ (p : Port) (s : State), s.powered = true → p ∈ s.net.up → p ≠ .pba → p ≠ .pbb → Completes (.linkDown p) s fun t =>
    p ∉ t.net.up ∧ RaisedBut Ev.PLNT_LINK_DOWN [] [] { s with net := { s.net with up := s.net.up.filter (fun q => decide (q ≠ p)) } } t) ∧
  (∀ (p : Port) (i : Image) (s : State), s.powered = true → p ∈ s.net.up → p = .pba ∨ p = .pbb → s.img = some i → Completes (.linkDown p) s fun t =>
    p ∉ t.net.up ∧ t.get ⟨Ev.PBUS_LINK_DOWN.addr, Ev.PBUS_LINK_DOWN.bit, 1⟩ = 1 ∧
    (i.net.hsr = true → t.get ⟨Ev.PBUS_RING_BROKEN.addr, Ev.PBUS_RING_BROKEN.bit, 1⟩ = 1) ∧ KeepsBut [.bank, .net, .outbox] s t) ∧
  (∀ (f : FrameId) (t0 : Nat) (s : State), f.wrongLan = false → (frameKey f, t0) ∈ s.net.seen → s.time.tick ≤ t0 + ticksOfMs 400 → (receive f s).1 = false) ∧
  (∀ (f : FrameId) (s : State), (∀ e ∈ s.net.seen, e.1 ≠ frameKey f) → (receive f s).1 = true) ∧
  (∀ (f : FrameId) (s : State), f.wrongLan = true → (receive f s).2.get ⟨Ev.PBUS_PRP_WRONG_LAN.addr, Ev.PBUS_PRP_WRONG_LAN.bit, 1⟩ = 1) ∧
  (∀ s : State, s.netRuns = true → .pla ∈ s.net.up → Completes .supervisionFrame s fun t => t.outbox = s.outbox ++ [.supervision] ∧ KeepsBut [.heldWrites, .net, .outbox] s t) ∧
  (∀ s : State, s.pair.pairAddr = true →
    (s.pair.pairRepeats = 0 → s.pair.pairSince + ticksOfMs 100 ≤ s.time.tick → Completes .pairAddressRepeat s fun t =>
      t.outbox = s.outbox ++ [.pairAddress] ∧ t.pair = { s.pair with pairRepeats := 1 } ∧ KeepsBut [.pair, .net, .outbox] s t) ∧
    (s.pair.pairRepeats = 1 → s.pair.pairSince + ticksOfMs 500 ≤ s.time.tick → Completes .pairAddressRepeat s fun t =>
      t.outbox = s.outbox ++ [.pairAddress] ∧ t.pair = { s.pair with pairRepeats := 2 } ∧ KeepsBut [.pair, .net, .outbox] s t) ∧
    (2 ≤ s.pair.pairRepeats ∨ s.time.tick < s.pair.pairSince + ticksOfMs 100 → Completes .pairAddressRepeat s fun t => t = s))) ∧
  ((∀ (f : SvFrame) (s : State), s.netRuns = true → f.id.port = .pba ∨ f.id.port = .pbb → f.id.port ∈ s.net.up → f.id.wrongLan = false → (∀ e ∈ s.net.seen, e.1 ≠ frameKey f.id) →
    Completes (.svFrame f) s fun t =>
      let v := receiveStamp f.id.port f.id.stamp true (pbusBoundary s)
      t = forEach (s.cfgList (·.net.svSubs)) (fun e s => svTake f e.1 e.2 s)
        { v with net := { v.net with seen := s.net.seen.filter (fun e => decide (s.time.tick ≤ e.2 + ticksOfMs 400)) ++ [(frameKey f.id, s.time.tick)] } }) ∧
  (∀ (f : SvFrame) (k : Nat) (c : SvSub) (s : State), f.dest = c.dest → f.appid = c.appid → f.svId ≠ c.svId → ((svTake f k c s).sv k).state = 3) ∧
  (∀ (k : Nat) (c : SvSub) (a : Asdu) (s : State), (s.sv k).last = some a.smpCnt → (s.sv k).expired = false → 0 < c.rate → svAsdu k c a s = s) ∧
  (∀ (k : Nat) (c : SvSub) (a : Asdu) (s : State), (s.sv k).last = none → 2 < c.rate → a.smpSynch = 2 → svAsdu k c a s = takeAsdu k c a s) ∧
  (∀ (k : Fin 512) (c : SvSub) (s : State), s.netRuns = true → s.svSub k = some c → (s.sv k).expired = false → (s.sv k).last ≠ none →
    (s.time.tick < (s.sv k).goodAt + ticksOfMs c.holdMs → Completes (.svHoldExpiry k) s fun t => t = s) ∧
    ((s.sv k).goodAt + ticksOfMs c.holdMs ≤ s.time.tick → Completes (.svHoldExpiry k) s fun t =>
    t.sv k = { s.sv k with expired := true, state := if (s.sv k).state = 3 then 3 else 2 } ∧ t.get ⟨Ev.PBUS_SV_LOST.addr, Ev.PBUS_SV_LOST.bit, 1⟩ = 1 ∧
    KeepsBut [.bank, .net, .outbox] s t)))

/-- GOOSE (R264, R372, R373, R375): a message of a subscription renews it, one of another test mode fails its bit slots, the time allowed to live ends it, and publications
repeat with doubling intervals while this module holds the claim.
R377: TEST_MODE follows a write of PBUS_CTRL from the service port, at the next frame boundary of the process-bus ports; every other origin that would change it is refused. That both
ports take it at one boundary is the model's choice (assumption 127).
Under conditions on the state and the operands alone, exec answers a next state with its own effect of: gooseMessage, gooseExpiry, gooseHoldExpiry, gooseDeferredSend,
gooseRetransmit, testMode. -/
def Obligations.GooseAndTestMode : Prop :=
  ((∀ (m : GooseMsg) (s : State), s.netRuns = true → m.id.port = .pba ∨ m.id.port = .pbb → m.id.port ∈ s.net.up → m.id.wrongLan = false → (∀ e ∈ s.net.seen, e.1 ≠ frameKey m.id) →
    Completes (.gooseMessage m) s fun t =>
      let v := receiveStamp m.id.port m.id.stamp false (pbusBoundary s)
      let u := { v with net := { v.net with seen := s.net.seen.filter (fun e => decide (s.time.tick ≤ e.2 + ticksOfMs 400)) ++ [(frameKey m.id, s.time.tick)] } }
      let mine := (s.cfgList (·.net.gooseSubs)).filter (fun e => gooseMatches m e.2)
      (m.test ≠ u.net.testMode → t = forEach mine (fun e s => gbitsFail e.1 s) u) ∧
      (m.test = u.net.testMode → mine ≠ [] → t = forEach mine (fun e s => gooseTake m e.1 s) u) ∧
      (m.test = u.net.testMode → mine = [] → t = gooseMismatch m u)) ∧
  (∀ (m : GooseMsg) (g : Nat) (s : State), m.ndsCom = false → (s.goose g).state ≠ 1 ∨ m.stNum ≠ (s.goose g).stNum → s.gbitsOf g = [] →
    (gooseTake m g s).goose g = { s.goose g with state := 1, stNum := m.stNum, sqNum := m.sqNum, tal := m.tal, arrived := s.time.tick, members := m.members,
                                                 ts := m.eventTime, unsync := s.unsync, holdOver := false }) ∧
  (∀ (g : Fin 1024) (c : GooseSub) (s : State), s.gooseSub g = some c → s.netRuns = true → (s.goose g).state = 1 → (s.goose g).members ≠ [] → (s.goose g).holdOver = false →
    (s.time.tick < (s.goose g).arrived + ticksOfMs (s.goose g).tal → Completes (.gooseExpiry g) s fun t => t = s) ∧
    ((s.goose g).arrived + ticksOfMs (s.goose g).tal ≤ s.time.tick → Completes (.gooseExpiry g) s fun t =>
      (c.holdMs = 0 → (t.goose g).state = 2 ∧ (t.goose g).holdOver = true) ∧ (c.holdMs ≠ 0 → (t.goose g).state = 4 ∧ (t.goose g).holdOver = false) ∧
      KeepsBut [.bank, .net, .outbox, .sbox] s t)) ∧
  (∀ (g : Fin 1024) (c : GooseSub) (s : State), s.gooseSub g = some c → s.netRuns = true → (s.goose g).state = 4 →
    (s.goose g).expiredAt + ticksOfMs c.holdMs ≤ s.time.tick → Completes (.gooseHoldExpiry g) s fun t =>
    t.goose g = { s.goose g with state := 2, holdOver := true } ∧ KeepsBut [.net] s t) ∧
  (∀ (p : Fin 256) (c : PubCfg) (s : State), s.pubCfg p = some c → s.claim.confirmed = true → (s.pub p).lastNew ≠ none → Completes (.gooseRetransmit p) s fun t =>
    let next := min c.tMaxMs (if (s.pub p).sqNum = 0 then 2 else 2 * (s.pub p).intervalMs)
    t.pub p = { s.pub p with sqNum := ((s.pub p).sqNum + 1) % 2 ^ 32, intervalMs := next } ∧
    t.outbox = s.outbox ++ [.goose p (s.pub p).stNum (((s.pub p).sqNum + 1) % 2 ^ 32) (2 * next) (pbusBoundary s).net.testMode (s.pub p).values] ∧ KeepsBut [.heldWrites, .net, .outbox] s t) ∧
  (∀ (p : Fin 256) (c : PubCfg) (s : State), s.pubCfg p = some c → (s.pub p).deferred = true →
    (∀ n, (s.pub p).lastNew = some n → s.time.tick < n + ticksOfUs 20 → Completes (.gooseDeferredSend p) s fun t => t = s) ∧
    ((∀ n, (s.pub p).lastNew = some n → n + ticksOfUs 20 ≤ s.time.tick) →
    (s.claim.confirmed = true → Completes (.gooseDeferredSend p) s fun t => t = pubSendNew p 1 c s) ∧
    (s.claim.confirmed = false → Completes (.gooseDeferredSend p) s fun t => t = s.setPub p { s.pub p with deferred := false })))) ∧
  ((∀ (k : Nat) (b : Bool) (s : State), s.powered = true → s.mode ≠ .terminus → s.get ⟨0x120004, 0, 1⟩ < 2 → serviceOk s (.svc k) = true → Completes (.testMode (.svc k) b) s fun t =>
    t.net = s.net ∧ (pbusBoundary t).net.testMode = b ∧ KeepsBut [.bank, .heldWrites] s t) ∧
  (∀ (o : Origin) (b : Bool) (s : State), s.powered = true → s.mode ≠ .terminus → s.get ⟨0x120004, 0, 1⟩ < 2 → isSvc o = false → b ≠ s.net.testMode →
    Completes (.testMode o b) s fun t => t = refuseOrigin o 0x120004 s))

/-! The Derent Plant Protocol. -/

/-- R380, R381: a request repeated with the same REQ_ID on its session gets the cached reply again and nothing else happens but that its client was heard; a request outside
an open session, on a port that does not answer, or whose header or check value is wrong is discarded.
Sessions (R367, R378, R379, R381 to R383): the certificate decides the association; OPEN makes a session with the next number, refuses without a role, and closes an
identity's older session; CLOSE and 10 s without a message end a session and its subscriptions, and KEEPALIVE counts as a message.
Under conditions on the state and the operands alone, exec answers a next state with its own effect of: openSession, closeSession, keepalive, sessionTimeout,
dtlsHandshake. -/
def Obligations.Sessions : Prop :=
  ((∀ (kind : Nat) (r : Req) (f : Session → State → State) (x : Session) (e : Nat × Reply) (s : State), Tab.get? s.net.sessions r.session = some x →
    s.answersSession x = true → dppOk kind r = true → x.replies.find? (fun (e : Nat × Reply) => decide (e.1 = r.reqId)) = some e →
    serve kind r f s = (heard r.session x s).send (.reply r.session r.reqId e.2)) ∧
  (∀ (kind : Nat) (r : Req) (f : Session → State → State) (s : State), Tab.get? s.net.sessions r.session = none ∨ dppOk kind r = false → serve kind r f s = s) ∧
  (∀ (kind : Nat) (r : Req) (f : Session → State → State) (x : Session) (s : State), Tab.get? s.net.sessions r.session = some x → s.answersSession x = false →
    serve kind r f s = s) ∧
  (∀ (r : Req) (x : Session) (kind code detail : Nat) (body : List Byte) (s : State), Tab.get? s.net.sessions r.session = some x →
    (answer r kind code detail body s).outbox = s.outbox ++ [.reply r.session r.reqId ⟨kind, code, detail, body⟩] ∧ KeepsBut [.net, .outbox] s (answer r kind code detail body s))) ∧
  ((∀ (p : Port) (w : Bool) (c : Option ClientChain) (s : State), s.answers p = true →
    (∀ d, c = some d → s.clientOk d = true → Completes (.dtlsHandshake ⟨p, w⟩ c) s fun t =>
      t = ({ plantFrame p w s with net := { (plantFrame p w s).net with handshakes := (plantFrame p w s).net.handshakes ++ [⟨p, d.role⟩] } } : State).send (.certificates s.chain)) ∧
    ((∀ d, c = some d → s.clientOk d = false) → Completes (.dtlsHandshake ⟨p, w⟩ c) s fun t => t = (plantFrame p w s).raise Ev.PLNT_AUTH_FAILED)) ∧
  (∀ (r : Req) (k : Nat) (p : Port) (pa : Bool) (client : Nat) (ev : Bool) (s : State), s.net.handshakes[k]? = some ⟨p, none⟩ → s.answers p = true → dppOk 0x01 r = true → pa = false →
    Completes (.openSession r k pa client ev) s fun t =>
      t = (s.send (.reply 0 r.reqId ⟨1, 0xB, 0, []⟩)).raise Ev.PLNT_SESSION_REFUSED ∧ t.net.nextSession = s.net.nextSession) ∧
  (∀ (r : Req) (k : Nat) (p : Port) (role : ClientRole) (pa : Bool) (client : Nat) (ev : Bool) (s : State), s.net.handshakes[k]? = some ⟨p, some role⟩ →
    s.answers p = true → dppOk 0x01 r = true → (pa = true → s.pair.pairAddr = true ∧ p ≠ .svc) → s.mode ≠ .terminus → s.sessionOfClient client = none →
    ((if p = .svc then s.sessionsOn true < 4 else s.sessionsOn false < 64) → Completes (.openSession r k pa client ev) s fun t =>
      t = newSession p r.reqId client role pa ev s ∧ t.net.nextSession = nextNumber s.net.nextSession ∧
      .reply s.net.nextSession r.reqId ⟨1, 0, 0, leBytes 4 s.net.nextSession ++ leBytes 8 (s.clientHigh client) ++ leBytes 4 s.policy.clientWindow ++ leBytes 1 (modeCode s.mode) ++
        leBytes 1 (b2n s.carrier.slotB) ++ leBytes 16 s.pairId ++ hashBytes s.digest⟩ ∈ t.outbox ∧
      t.get ⟨Ev.PLNT_SESSION_OPENED.addr, Ev.PLNT_SESSION_OPENED.bit, 1⟩ = 1) ∧
    ((if p = .svc then 4 ≤ s.sessionsOn true else 64 ≤ s.sessionsOn false) → Completes (.openSession r k pa client ev) s fun t =>
      t = (s.send (.reply 0 r.reqId ⟨1, 0xC, 0, []⟩)).raise Ev.PLNT_SESSION_REFUSED)) ∧
  (∀ (r : Req) (x : Session) (s : State), Asks 0x02 r x s → Completes (.closeSession r) s fun t =>
    t = endSession r.session (answer r 2 0 0 [] (heard r.session x s)) ∧ ∀ e ∈ t.net.subs, e.2.session ≠ r.session) ∧
  (∀ (k : Nat) (x : Session) (s : State), Tab.get? s.net.sessions k = some x →
    (x.lastHeard + ticksOfMs 10000 ≤ s.time.tick → Completes (.sessionTimeout k) s fun t =>
      t = endSession k (s.send (.closed k)) ∧ ∀ e ∈ t.net.subs, e.2.session ≠ k) ∧
    (s.time.tick < x.lastHeard + ticksOfMs 10000 → Completes (.sessionTimeout k) s fun t => t = s)) ∧
  (∀ (r : Req) (x : Session) (s : State), Tab.get? s.net.sessions r.session = some x → s.answersSession x = true → dppOk 0x03 r = true →
    Completes (.keepalive r) s fun t => t = heard r.session x s ∧ Tab.get? t.net.sessions r.session = some { x with lastHeard := s.time.tick } ∧ KeepsBut [.net] s t))

/-- Queries and tag reads (R388, R507): outside STARTING and TERMINUS they answer from the journal and the visible tags; shed reads answer BUSY.
Under conditions on the state and the operands alone, exec answers a next state with its own effect of: query, tagRead. -/
def Obligations.QueriesAndTagReads : Prop :=
  (∀ (r : Req) (x : Session) (q : Nat) (s : State), Asks 0x12 r x s →
    (s.mode = .terminus → Completes (.query r q) s fun t => t = answer r 0x12 0xB 0 [] (heard r.session x s)) ∧
    (s.mode = .starting → Completes (.query r q) s fun t => t = answer r 0x12 9 s.partnerCode [] (heard r.session x s)) ∧
    (s.mode ≠ .terminus → s.mode ≠ .starting → q + s.policy.clientWindow ≤ s.clientHigh x.clientId → Completes (.query r q) s fun t =>
      t = answer r 0x12 6 0 [] (heard r.session x s)) ∧
    (s.mode ≠ .terminus → s.mode ≠ .starting → s.clientHigh x.clientId < q + s.policy.clientWindow →
      Completes (.query r q) s fun t => t = answer r 0x12 0 0 (s.queryBody x.clientId q) (heard r.session x s))) ∧
  (∀ (r : Req) (x : Session) (tags : List Nat) (s : State), Asks 0x20 r x s → s.mode ≠ .terminus →
    (s.mode ≠ .starting → x.role = .operator ∨ s.shed < 4 → tags ≠ [] → tags.length ≤ 32 → Completes (.tagRead r tags) s fun t =>
      t = answer r 0x20 0 0 (tags.flatMap (fun g => if (s.tagDecl g).isSome then leBytes 2 0 ++ tagBytes (Tab.getD s.ctl.tags g Tag.zero) else leBytes 2 0xD)) (heard r.session x s)) ∧
    (s.mode ≠ .starting → x.role = .operator ∨ s.shed < 4 → tags = [] ∨ 32 < tags.length → Completes (.tagRead r tags) s fun t =>
      t = answer r 0x20 2 0 [] (heard r.session x s)) ∧
    (s.mode = .starting → x.role = .operator ∨ s.shed < 4 → Completes (.tagRead r tags) s fun t => t = answer r 0x20 9 s.partnerCode [] (heard r.session x s)) ∧
    (x.role ≠ .operator → 4 ≤ s.shed → Completes (.tagRead r tags) s fun t =>
      t = answer r 0x20 3 0 [] ((heard r.session x s).inc Reg.MPU_LOAD_BUSY_REPLIES))) ∧
  (∀ g : Tag, (tagBytes g).length = 32)

/-- Subscriptions and notices (R79, R381, R389, R390): a subscription takes the next number and notifies, once its interval has passed, the tags whose CHANGE differs from the one
last notified; RESEND notifies all; one that the session does not own is refused; an event is raised as its register says.
Under conditions on the state and the operands alone, exec answers a next state with its own effect of: subscribe, unsubscribe, resend, notify, event. -/
def Obligations.SubscriptionsNotify : Prop :=
  (∀ (r : Req) (x : Session) (ms : Nat) (tags : List Nat) (s : State), Asks 0x21 r x s → s.mode ≠ .terminus → s.shed < 5 →
    (10 ≤ ms → ms ≤ 60000 → (∀ g ∈ tags, (s.tagDecl g).isSome = true) → s.subscribed (some r.session) + tags.length ≤ 16384 → s.subscribed none + tags.length ≤ 65536 →
      Completes (.subscribe r ms tags) s fun t => ∃ y, t.sub s.net.nextSub = some y ∧ y.session = r.session ∧ y.minMs = ms ∧ y.tags.map (·.1) = tags ∧ y.sentAt = none ∧
        t.net.nextSub = nextNumber s.net.nextSub ∧ t.outbox = s.outbox ++ [.reply r.session r.reqId ⟨0x21, 0, 0, leBytes 4 s.net.nextSub⟩]) ∧
    (ms < 10 ∨ 60000 < ms → Completes (.subscribe r ms tags) s fun t => t = answer r 0x21 2 0 [] (heard r.session x s))) ∧
  (∀ (r : Req) (x : Session) (n : Nat) (s : State), s.mode ≠ .terminus →
    (s.ownSub r n = true → (Asks 0x22 r x s → Completes (.unsubscribe r n) s fun t =>
        t.sub n = none ∧ (∀ k, k ≠ n → t.sub k = s.sub k) ∧ t.outbox = s.outbox ++ [.reply r.session r.reqId ⟨0x22, 0, 0, []⟩] ∧ KeepsBut [.net, .outbox] s t) ∧
      (∀ y, Asks 0x24 r x s → s.sub n = some y → Completes (.resend r n) s fun t =>
        t = notifyBatch n (y.tags.map (·.1)) (answer r 0x24 0 0 [] (heard r.session x s)))) ∧
    (s.ownSub r n = false → (Asks 0x22 r x s → Completes (.unsubscribe r n) s fun t => t = answer r 0x22 2 0 [] (heard r.session x s)) ∧
      (Asks 0x24 r x s → Completes (.resend r n) s fun t => t = answer r 0x24 2 0 [] (heard r.session x s)))) ∧
  (∀ (n : Nat) (y : Subscription) (s : State), s.sub n = some y → s.powered = true → s.mpu.restarting = false →
    ((∀ u, y.sentAt = some u → u + ticksOfMs y.minMs ≤ s.time.tick) → Completes (.notify n) s fun t =>
      t = notifyBatch n ((y.tags.filter (fun e => decide (s.noted e.1 ≠ e.2))).map (·.1)) s) ∧
    (∀ u, y.sentAt = some u → s.time.tick < u + ticksOfMs y.minMs → Completes (.notify n) s fun t => t = s) ∧
    ((∀ e ∈ y.tags, s.noted e.1 = e.2) → Completes (.notify n) s fun t => t = s)) ∧
  (∀ (base offset : Nat) (bit : Fin 16) (s : State), s.powered = true → eventExists base offset bit = true → Completes (.event base offset bit) s fun t =>
    RaisedBut ⟨base + offset, bit⟩ [] [] s t)

/-- Registers through a session (R391, R412, R413): an OPERATOR reads none and only SERVICE writes; words are read and written in ascending order, and a refused word answers
the write with NOT_WRITABLE.
Files (R147, R392): a session opens at most four, each under the next handle; a chunk must follow the last one; a file whose CRC does not match the bytes written is discarded
at its close.
Under conditions on the state and the operands alone, exec answers a next state with its own effect of: regRead, regWrite, fileOpen, fileRead, fileWrite, fileClose. -/
def Obligations.SessionRegistersAndFiles : Prop :=
  ((∀ (r : Req) (x : Session) (a n : Nat) (s : State), Asks 0x40 r x s →
    (x.role = .operator → Completes (.regRead r a n) s fun t => t = answer r 0x40 0xB 0 [] (heard r.session x s)) ∧
    (x.role ≠ .operator → s.shed < 4 → 0 < n → n ≤ 64 → Completes (.regRead r a n) s fun t =>
      let w := readWords (x.origin r.session) a n (heard r.session x s)
      t = answer r 0x40 0 0 (w.1.flatMap (leBytes 4)) w.2)) ∧
  (∀ (r : Req) (x : Session) (a : Nat) (l : List Word) (s : State), Asks 0x41 r x s →
    (x.role ≠ .service → Completes (.regWrite r a l) s fun t => t = answer r 0x41 0xB 0 [] (heard r.session x s)) ∧
    (x.role = .service → s.mode ≠ .terminus → l ≠ [] → l.length ≤ 16 → Completes (.regWrite r a l) s fun t =>
      let w := writeWords (x.origin r.session) a l (heard r.session x s)
      t = answer r 0x41 (if w.1 then 0xE else 0) 0 [] w.2)) ∧
  (∀ (o : Origin) (a n : Nat) (s : State), (readWords o a n s).1.length = n) ∧
  (∀ (o : Origin) (a : Nat) (v : Word) (l : List Word) (s : State), (writeWords o a (v :: l) s).2 = (writeWords o (a + 4) l (writeBy o a v s)).2)) ∧
  ((∀ (r : Req) (x : Session) (name : FileName) (w : Bool) (s : State), Asks 0x50 r x s → x.role ≠ .operator → s.mode ≠ .terminus →
    (4 ≤ x.files.length → Completes (.fileOpen r name w) s fun t => t = answer r 0x50 0x12 0 [] (heard r.session x s)) ∧
    (x.files.length < 4 → s.openRefusal name w = (0, 0) → Completes (.fileOpen r name w) s fun t =>
      (∃ y, Tab.get? t.net.sessions r.session = some y ∧ y.files = x.files ++ [⟨s.net.nextHandle, name, w, []⟩]) ∧ t.net.nextHandle = nextNumber s.net.nextHandle ∧
      t.outbox = s.outbox ++ [.reply r.session r.reqId ⟨0x50, 0, 0, leBytes 4 s.net.nextHandle⟩])) ∧
  (∀ (r : Req) (x : Session) (h off : Nat) (f : OpenFile) (s : State), Asks 0x51 r x s → s.mode ≠ .terminus → s.shed = 0 → x.file h = some f →
    (f.name = .faults → f.write = false → Completes (.fileRead r h off) s fun t => t = answer r 0x51 0 0 (s.fileBytes .faults off) (heard r.session x s)) ∧
    (f.write = true → Completes (.fileRead r h off) s fun t => t = answer r 0x51 0x12 0 [] (heard r.session x s))) ∧
  (∀ (r : Req) (x : Session) (h off : Nat) (data : List Byte) (f : OpenFile) (s : State), Asks 0x52 r x s → x.file h = some f → f.write = true →
    (off = f.data.length → data ≠ [] → data.length ≤ 1024 → Completes (.fileWrite r h off data) s fun t =>
      t = answer r 0x52 0 0 [] (noteProgress f.name (off + data.length) ((heard r.session x s).setSession r.session
        { x with lastHeard := s.time.tick, files := x.files.map (fun g => if g.handle = h then { g with data := g.data ++ data } else g) }))) ∧
    (off ≠ f.data.length → Completes (.fileWrite r h off data) s fun t => t = answer r 0x52 0x12 0 [] (heard r.session x s))) ∧
  (∀ (r : Req) (x : Session) (h : Nat) (crc : Word) (c : Option FileContent) (f : OpenFile) (s : State), Asks 0x53 r x s → x.file h = some f → f.write = true →
    Completes (.fileClose r h crc c) s fun t => t = answer r 0x53 (if crc = crc32c f.data then 0 else 0x12) 0 []
      (closeWritten f.name (decide (crc = crc32c f.data)) f.data c ((heard r.session x s).setSession r.session (({ x with lastHeard := s.time.tick } : Session).without h)))) ∧
  (∀ (data : List Byte) (c : Option FileContent) (s : State), closeWritten .imagePending false data c s = s) ∧
  (∀ (i : Image) (s : State), (closeWritten .imagePending true (imageBytes i) (some (.image i)) s).mram.pending = some i) ∧
  (∀ (i : Image) (data : List Byte) (s : State), imageBytes i ≠ data → (closeWritten .imagePending true data (some (.image i)) s).mram.pending = none))

/-! Field bus ports. -/

/-- Receiving and sending (R395 to R400, R403, R405): a frame enters the ring of a port on the bus with the next sequence number; the foremost request's attempt ends with its
outcome, and a sent frame enters the ring with OWN; a request that never started times out after TX_TIMEOUT; a cancel ends a waiting request.
Errors and holds of a port (R396, R400, R407, R408): the error counters and their state, bus off ends every request, recovery sets both counters to 0, a mapping's hold ends,
and RXPOP latches the monitor's next entry.
Under conditions on the state and the operands alone, exec answers a next state with its own effect of: canFrameReceived, canTxEnd, canTxTimeout, canCancel, canBusOff,
busOffRecovered, canMappingHoldExpiry, rxpop, canFrameError, canErrRead. -/
def Obligations.FieldBusPorts : Prop :=
  ((∀ (p : Fin 2) (f : CanFrame) (sof : Nat) (s : State), s.canMode p ≠ 0 → Completes (.canFrameReceived p f sof) s fun t =>
    (t.canPort p).seq = (s.canPort p).seq + 1 ∧ (t.canPort p).ring.getLast? = some ⟨(s.canPort p).seq + 1, sof, f, false, s.unsync⟩ ∧ (t.canPort p).held = (s.canPort p).held ∧
    KeepsBut [.bank, .can0, .can1, .freeCount] s t) ∧
  (∀ (p : Fin 2) (f : CanFrame) (sof : Nat) (s : State), s.canMode p = 0 → Completes (.canFrameReceived p f sof) s fun t => t = s) ∧
  (∀ (p : Fin 2) (e : CanEnd) (sof : Nat) (h : CanHeld) (rest : List CanHeld) (s : State), (s.canPort p).held = h :: rest → s.canMode p = 2 ∨ h.started = true →
    Completes (.canTxEnd p e h.req.handle sof) s fun t => (t.canPort p).held = rest ∧ KeepsBut [.bank, .tasks, .net, .can0, .can1, .outbox] s t ∧
      (e = .sent → (t.canPort p).ring.getLast? = some ⟨(s.canPort p).seq + 1, sof, (s.canPort p).frameOf h.req, true, s.unsync⟩) ∧
      (e ≠ .sent → (t.canPort p).ring = (s.canPort p).ring) ∧
      (t.task h.task).canOutcomes = (s.task h.task).canOutcomes ++ [(h.req.handle, (match e with | .sent => 0 | .lostArbitration => 1 | .error => 2), sof, h.cancelLate)]) ∧
  (∀ (p : Fin 2) (n : Nat) (h : CanHeld) (s : State), (s.canPort p).held.find? (fun h => decide (h.req.handle = n)) = some h →
    (h.started = true ∨ s.time.tick < h.since + s.canTimeout p → Completes (.canTxTimeout p n) s fun t => t = s) ∧
    (h.started = false → h.since + s.canTimeout p ≤ s.time.tick → Completes (.canTxTimeout p n) s fun t =>
      t = canOutcome p h.task n 5 0 h.cancelLate (s.setCanPort p { s.canPort p with held := (s.canPort p).held.erase h }))) ∧
  (∀ (p : Fin 2) (n : Nat) (s : State), Completes (.canCancel p n) s fun t => t = canCancelAt p n (canMaybeStart p s) ∧
    ((s.canPort p).held = [] → t = s)) ∧
  (∀ (p : Nat) (n : Nat) (h : CanHeld) (s : State), p < 2 → (s.canPort p).held = [h] → h.req.handle = n → h.started = false →
    ((canCancelAt p n s).canPort p).held = [] ∧ ((canCancelAt p n s).task h.task).canOutcomes = (s.task h.task).canOutcomes ++ [(n, 3, 0, false)])) ∧
  ((∀ (p : Fin 2) (tec rec_ : Nat) (s : State), s.canMode p ≠ 0 → (s.canPort p).errState = 0 → tec ≤ 511 → rec_ ≤ 255 →
    (128 ≤ tec ∨ 128 ≤ rec_ → Completes (.canFrameError p tec rec_) s fun t => t.canPort p = { s.canPort p with tec := tec, rxErr := rec_, errState := 1 } ∧
      RaisedBut (Ev.CAN_ERROR_PASSIVE p) [] [.can0, .can1, .mil] s t) ∧
    (tec < 128 → rec_ < 128 → Completes (.canFrameError p tec rec_) s fun t =>
      t.canPort p = { s.canPort p with tec := tec, rxErr := rec_, errState := 0 } ∧ KeepsBut [.can0, .can1] s t)) ∧
  (∀ (p : Fin 2) (s : State), s.canMode p ≠ 0 → (s.canPort p).errState ≠ 2 → Completes (.canBusOff p) s fun t =>
    (t.canPort p).errState = 2 ∧ (t.canPort p).held = [] ∧ t.get (Reg.CAN_ERR_BUSOFF_COUNT p) = satInc (Reg.CAN_ERR_BUSOFF_COUNT p).w (s.get (Reg.CAN_ERR_BUSOFF_COUNT p)) ∧
    t.get ⟨(Ev.CAN_BUS_OFF p).addr, (Ev.CAN_BUS_OFF p).bit, 1⟩ = 1) ∧
  (∀ (p : Fin 2) (s : State), s.canMode p ≠ 0 → (s.canPort p).errState = 2 → Completes (.busOffRecovered p) s fun t =>
    t.canPort p = { s.canPort p with tec := 0, rxErr := 0, errState := 0 } ∧ RaisedBut (Ev.CAN_BUS_OFF_RECOVERED p) [] [.can0, .can1] s t) ∧
  (∀ (p : Fin 2) (m : Nat) (twice : Bool) (c : CanCfg) (s : State), s.canCfg p = some c → s.canMode p ≠ 0 → (∀ mp, c.maps[m]? = some mp →
    (s.mapSilent p mp twice = false → Completes (.canMappingHoldExpiry p m twice) s fun t => t = s) ∧
    (s.mapSilent p mp twice = true → Completes (.canMappingHoldExpiry p m twice) s fun t =>
    t.canPort p = { s.canPort p with expired := (s.canPort p).expired.filter (fun e => decide (e.1 ≠ m)) ++ [(m, twice)] } ∧ KeepsBut [.can0, .can1] s t))) ∧
  (∀ (o : Origin) (p : Fin 2) (s : State), s.powered = true → serviceOk s o = true → Completes (.rxpop o p) s fun t =>
    (∀ e rest, (s.canPort p).ring.filter (fun e => decide ((s.canPort p).monitor + 1 ≤ e.seq)) = e :: rest →
      t.canPort p = { s.canPort p with monitor := e.seq } ∧ ∀ n, n < 24 → t.get (Reg.CAN_RX_Wn_WORD p n) = ((leWords 24 (canEntryBytes e)).getD n 0#32).toNat) ∧
    ((s.canPort p).ring.filter (fun e => decide ((s.canPort p).monitor + 1 ≤ e.seq)) = [] → t.canPort p = s.canPort p ∧ ∀ n, n < 24 → t.get (Reg.CAN_RX_Wn_WORD p n) = 0)) ∧
  (∀ s : State, Completes .canErrRead s fun t =>
    (s.canMode 0 ≠ 0 → t.mil.now.can0.tecMax = max s.mil.now.can0.tecMax s.can0.tec ∧ t.mil.now.can0.recMax = max s.mil.now.can0.recMax s.can0.rxErr) ∧
    (s.canMode 1 ≠ 0 → t.mil.now.can1.tecMax = max s.mil.now.can1.tecMax s.can1.tec ∧ t.mil.now.can1.recMax = max s.mil.now.can1.recMax s.can1.rxErr) ∧
    (s.canMode 0 = 0 → t.mil.now.can0 = s.mil.now.can0) ∧ KeepsBut [.mil] s t))

/-! The register interface. -/

/-- R9 and R10: an access that is not a whole aligned word of the window, by its address or by its width, is refused and takes no effect: it is counted in SHAPE, recorded in REFUSED_ADDR and raises
ACCESS_REFUSED; a refused read returns 0.
Under conditions on the state and the operands alone, exec answers a next state with its own effect of: registerWrite, misalignedAccess. -/
def Obligations.MisalignedAccessRefused : Prop :=
  (∀ (o : Origin) (a n : Nat) (w : Bool) (s : State), s.powered = true → a % 4 ≠ 0 ∨ 0x200000 ≤ a ∨ n ≠ 4 → Completes (.misalignedAccess o ⟨a, n⟩ w) s fun t =>
    t.get Reg.ID_REFUSED_SHAPE = satInc Reg.ID_REFUSED_SHAPE.w (s.get Reg.ID_REFUSED_SHAPE) ∧ t.get Reg.ID_REFUSED_ADDR_VALID = 1 ∧
    t.get Reg.ID_REFUSED_ADDR_KIND = 0 ∧ t.get Reg.ID_REFUSED_ADDR_WRITE = b2n w ∧ t.get Reg.ID_REFUSED_ADDR_SRC = originSrc o ∧
    RaisedBut Ev.ID_ACCESS_REFUSED [Reg.ID_REFUSED_SHAPE, Reg.ID_REFUSED_ADDR_ADDR, Reg.ID_REFUSED_ADDR_OUTSIDE, Reg.ID_REFUSED_ADDR_SRC, Reg.ID_REFUSED_ADDR_KIND,
      Reg.ID_REFUSED_ADDR_WRITE, Reg.ID_REFUSED_ADDR_VALID] [] s t) ∧
  (∀ (o : Origin) (a : Nat) (v : Word) (s : State), s.powered = true → a % 4 ≠ 0 ∨ 0x200000 ≤ a → Completes (.registerWrite o a v) s fun t => t = refuseShape o a true s) ∧
  (∀ (o : Origin) (a : Nat) (s : State), a % 4 ≠ 0 ∨ 0x200000 ≤ a → readBy o a s = (0#32, refuseShape o a false s)) ∧
  (∀ (o : Origin) (a : Nat) (w : Bool) (s : State), a % 4 = 0 → a < 0x200000 → Completes (.misalignedAccess o ⟨a, 4⟩ w) s fun t => t = s)

/-- R409, R411 and R413: an accepted write has the effect of its register; one that the origin rules refuse has none but the count ORIGIN, the record and WRITE_REFUSED; a
write to an address with no writable field is ignored; in TERMINUS only ID and UPD respond (R467).
Under conditions on the state and the operands alone, exec answers a next state with its own effect of: registerWrite. -/
def Obligations.RegisterWrites : Prop :=
  (∀ (o : Origin) (a : Nat) (v : Word) (s : State), s.powered = true → (s.mode = .terminus → blockNum a = 0 ∨ blockNum a = 0x17) → a % 4 = 0 → a < 0x200000 →
    (s.writeAllowed o a v = true → Completes (.registerWrite o a v) s fun t => t = regEffect o a v s) ∧
    (s.writeAllowed o a v = false → Completes (.registerWrite o a v) s fun t =>
      t = refuseOrigin o a s ∧ t.get Reg.ID_REFUSED_ORIGIN = satInc Reg.ID_REFUSED_ORIGIN.w (s.get Reg.ID_REFUSED_ORIGIN) ∧
      t.get ⟨Ev.ID_WRITE_REFUSED.addr, Ev.ID_WRITE_REFUSED.bit, 1⟩ = 1 ∧ KeepsBut [.bank, .net, .outbox] s t)) ∧
  (∀ (n : Nat) (v : Word) (s : State), s.powered = true → s.mode ≠ .terminus → Completes (.registerWrite (.mgmt n) 0x00000 v) s fun t => t = s) ∧
  (∀ (o : Origin) (a : Nat) (v : Word) (s : State), s.powered = true → s.mode = .terminus → a % 4 = 0 → a < 0x200000 → blockNum a ≠ 0 → blockNum a ≠ 0x17 →
    Completes (.registerWrite o a v) s fun t => t = s) ∧
  (∀ (k : Nat) (x : Session) (a : Nat) (v : Word) (s : State), Tab.get? s.net.sessions k = some x → x.role ≠ .service →
    s.writeAllowed (.plant k) a v = false) ∧
  (∀ (o : Origin) (a : Nat) (v : Word) (s : State), isLane o = false → (regIndex a 0x7000C 0x80 512).isSome = true → a ≠ 0x30014 → blockNum a = 6 →
    s.writeAllowed o a v = false)

/-- R418: the event bits of a register are cleared by writing the sequence number that stands in it, all of them together, and by no other value; bits 15:0 of the
write do not count. An event before the clear has moved the sequence number on, so the clear changes nothing; an event after it sets its own bit alone.
Under conditions on the state and the operands alone, exec answers a next state with its own effect of: eventRegisterClear. -/
def Obligations.EventBitsCleared : Prop :=
  (∀ (o : Origin) (a : Nat) (v : Word) (s : State), s.powered = true → (s.mode = .terminus → blockNum a = 0 ∨ blockNum a = 0x17) → eventAddr a = true → a % 4 = 0 → a < 0x200000 → s.writeAllowed o a v = true →
    (v.toNat / 2 ^ 16 = s.get ⟨a, 16, 16⟩ → Completes (.eventRegisterClear o a v) s fun t =>
      t = s.clearEvents a v ∧ (∀ b, b < 16 → t.get ⟨a, b, 1⟩ = 0) ∧ t.get ⟨a, 16, 16⟩ = s.get ⟨a, 16, 16⟩ ∧ KeepsBut [.bank] s t) ∧
    (v.toNat / 2 ^ 16 ≠ s.get ⟨a, 16, 16⟩ → Completes (.eventRegisterClear o a v) s fun t => t = s)) ∧
  (∀ (e : EvBit) (v : Word) (s : State), e.bit < 16 → v.toNat / 2 ^ 16 = s.get ⟨e.addr, 16, 16⟩ → (s.raise e).clearEvents e.addr v = s.raise e) ∧
  (∀ (e d : EvBit) (v : Word) (s : State), e.bit < 16 → d.bit < 16 → d.addr = e.addr → d.bit ≠ e.bit → v.toNat / 2 ^ 16 = s.get ⟨e.addr, 16, 16⟩ →
    ((s.clearEvents e.addr v).raise e).get ⟨e.addr, e.bit, 1⟩ = 1 ∧ ((s.clearEvents e.addr v).raise e).get ⟨d.addr, d.bit, 1⟩ = 0 ∧
    ((s.clearEvents e.addr v).raise e).get ⟨e.addr, 16, 16⟩ = nextSeq (s.get ⟨e.addr, 16, 16⟩))

/-- R420 to R422, and R42 and R49: the flags of the standby domain go with their own SEQ; MULTIWORD_MODE of a block, whose change empties the block's shadows; in that mode a read of a low word latches the high word for its reader, and the
next read of the high word takes it.
Under conditions on the state and the operands alone, exec answers a next state with its own effect of: eventRegisterClear, multiwordMode, multiwordLowRead. -/
def Obligations.MultiwordReads : Prop :=
  (∀ (k : Nat) (v : Word) (s : State), s.powered = true → s.mode ≠ .terminus → Completes (.eventRegisterClear (.mgmt k) 0x1A0028 v) s fun t => t = sbyClear v s) ∧
  (∀ (n : Nat) (block : Fin 27) (on : Bool) (a : Nat) (s : State), s.powered = true → modeAddr block.val = some a →
    Completes (.multiwordMode (.mgmt n) block on) s fun t => t = setMultiword block on s ∧ t.get ⟨a, 0, 1⟩ = b2n on ∧
      (s.get ⟨a, 0, 1⟩ ≠ b2n on → ∀ e ∈ t.shadows, blockNum e.2.1 ≠ block.val) ∧ KeepsBut [.bank, .shadows] s t) ∧
  (∀ (o : Origin) (block : Fin 27) (on : Bool) (s : State), modeAddr block.val = none → Completes (.multiwordMode o block on) s fun t => t = s) ∧
  (∀ (o : Origin) (a m : Nat) (s : State), s.powered = true → a % 4 = 0 → a < 0x200000 → lowWord a = true → modeAddr (blockNum a) = some m → s.get ⟨m, 0, 1⟩ = 1 →
    Completes (.multiwordLowRead o a) s fun t => (o, a + 4, s.readWord (a + 4)) ∈ t.shadows ∧ (readBy o a s).1 = s.readWord a ∧ KeepsBut [.shadows] s t) ∧
  (∀ (o : Origin) (a m : Nat) (s : State), s.powered = true → a % 4 = 0 → a < 0x200000 → lowWord a = true → modeAddr (blockNum a) = some m → s.get ⟨m, 0, 1⟩ = 0 →
    s.shadows = [] → Completes (.multiwordLowRead o a) s fun t => t = s ∧ (readBy o a s).1 = s.readWord a)

/-! Memory protection and the management processor. -/

/-- R433: an access is allowed only if no enabled region that covers any of its bytes refuses it; the region named is the lowest.
Arming and the swap (R438 to R442): a write to the active set is ignored with ACTIVE_WRITE, one to the other set disarms it; an arm checks alignment and overlap; a swap
exchanges armed sets and waits for its acknowledgement; every origin but a management core is refused.
Under conditions on the state and the operands alone, exec answers a next state with its own effect of: mpuRegionWrite, arm, swap, swapAck. -/
def Obligations.ProtectionSets : Prop :=
  ((∀ (x : Unit36) (set : Nat) (a : MemAccess), refusing x set a = none ↔
    ∀ r, r < 16 → ∀ i, i < min a.len 64 → covers (regionOf x set r) (a.addr + i) = true → permits (regionOf x set r) a.kind = true) ∧
  (∀ (x : Unit36) (set r : Nat) (a : MemAccess), refusing x set a = some r → r < 16 ∧ permits (regionOf x set r) a.kind = false ∧
    (∃ i, i < min a.len 64 ∧ covers (regionOf x set r) (a.addr + i) = true) ∧
    ∀ q, q < r → ∀ i, i < min a.len 64 → covers (regionOf x set q) (a.addr + i) = true → permits (regionOf x set q) a.kind = true)) ∧
  ((∀ (n : Nat) (u : Fin 36) (set : Fin 2) (g : Fin 16) (w : Fin 3) (v : Word) (s : State), s.powered = true → 32 ≤ u.val →
    ((s.unit u).active = set.val → Completes (.mpuRegionWrite (.mgmt n) u set g w v) s fun t => RaisedBut Ev.MPU_ACTIVE_WRITE [] [] s t) ∧
    ((s.unit u).active ≠ set.val → Completes (.mpuRegionWrite (.mgmt n) u set g w v) s fun t => (t.unit u).armed = false ∧
      regionOf (t.unit u) set g = regionWord w v.toNat (regionOf (s.unit u) set g) ∧ (t.unit u).active = (s.unit u).active ∧ KeepsBut [.mpu] s t)) ∧
  (∀ (n : Nat) (u : Fin 36) (s : State), s.powered = true → 32 ≤ u.val →
    ((s.unit u).swapPending = true → Completes (.arm (.mgmt n) u) s fun t => (t.unit u).armStatus = 4 ∧ (t.unit u).armed = (s.unit u).armed ∧
      t.get ⟨Ev.MPU_ARM_FAILED.addr, Ev.MPU_ARM_FAILED.bit, 1⟩ = 1) ∧
    ((s.unit u).swapPending = false → armCheck (s.unit u) (1 - (s.unit u).active) = (0, 0) → Completes (.arm (.mgmt n) u) s fun t =>
      t.unit u = { s.unit u with armed := true, armStatus := 0, armRegion := 0 } ∧ KeepsBut [.mpu] s t) ∧
    ((s.unit u).armed = true → Completes (.swap (.mgmt n) u) s fun t =>
      t.unit u = { s.unit u with active := 1 - (s.unit u).active, swapPending := true, armStatus := 0, armRegion := 0 } ∧ KeepsBut [.mpu] s t) ∧
    ((s.unit u).armed = false → Completes (.swap (.mgmt n) u) s fun t => (t.unit u).armStatus = 3 ∧ (t.unit u).active = (s.unit u).active) ∧
    (Completes (.swapAck u) s fun t => t.unit u = { s.unit u with swapPending := false } ∧ KeepsBut [.mpu] s t)) ∧
  (∀ (o : Origin) (u : Fin 36) (s : State), s.powered = true → isMgmt o = false →
    (Completes (.arm o u) s fun t => t = refuseOrigin o (0x161004 + 0x400 * u.val) s) ∧ (Completes (.swap o u) s fun t => t = refuseOrigin o (0x161004 + 0x400 * u.val) s)) ∧
  (∀ (x : Unit36) (set : Nat), armCheck x set = (0, 0) → ∀ r q, r < 16 → q < 16 → r < q → (regionOf x set r).en = true → (regionOf x set q).en = true → ∀ a : Nat,
    ¬(covers (regionOf x set r) a = true ∧ covers (regionOf x set q) a = true)))

/-- Protection exceptions and notices (R435 to R437, R443): a refused access of a management core is counted and reported; the first notice is latched with its address and
region and later ones only counted, until RELEASE.
The management processor (R445, R446): a restart closes every session and freezes the panel until it ends; the shed level moves by at most one per window.
Under conditions on the state and the operands alone, exec answers a next state with its own effect of: protectionException, impreciseNotice, release,
mgmtWatchdogRestart, loadWindow, mgmtRestartEnd. -/
def Obligations.ProtectionReportsAndManagement : Prop :=
  ((∀ (a : MemAccess) (r : Nat) (s : State), s.powered = true → 32 ≤ a.unit → a.unit < 36 → refusing (s.unit a.unit) (s.unit a.unit).active a = some r →
    Completes (.protectionException a) s fun t =>
      t.get (Reg.MPU_UNIT_STAT_REFUSED a.unit) = satInc (Reg.MPU_UNIT_STAT_REFUSED a.unit).w (s.get (Reg.MPU_UNIT_STAT_REFUSED a.unit)) ∧
      RaisedBut Ev.MPU_PROT_FAULT_MGMT [Reg.MPU_UNIT_STAT_REFUSED a.unit] [] s t) ∧
  (∀ (a : MemAccess) (set : Fin 2) (r : Nat) (s : State), s.powered = true → 32 ≤ a.unit → a.unit < 36 → set.val = (s.unit a.unit).active ∨ (s.unit a.unit).swapPending = true → refusing (s.unit a.unit) set { a with kind := 1 } = some r →
    (s.mpu.noticeHeld = false → Completes (.impreciseNotice a set) s fun t =>
      t.mpu = { s.mpu with noticeHeld := true } ∧ t.get Reg.MPU_NOTICE_ADDR_LO_ADDR_LO = a.addr % 2 ^ Reg.MPU_NOTICE_ADDR_LO_ADDR_LO.w ∧
      t.get Reg.MPU_NOTICE_INFO_UNIT = a.unit ∧ t.get Reg.MPU_NOTICE_INFO_SET = set.val ∧ t.get Reg.MPU_NOTICE_INFO_REGION = r ∧ t.get Reg.MPU_NOTICE_INFO_LOST_NOTICES = 0 ∧
      KeepsBut [.bank, .mpu, .net, .outbox] s t) ∧
    (s.mpu.noticeHeld = true → Completes (.impreciseNotice a set) s fun t =>
      t.mpu = s.mpu ∧ t.get Reg.MPU_NOTICE_INFO_UNIT = s.get Reg.MPU_NOTICE_INFO_UNIT ∧
      t.get Reg.MPU_NOTICE_INFO_LOST_NOTICES = satInc Reg.MPU_NOTICE_INFO_LOST_NOTICES.w (s.get Reg.MPU_NOTICE_INFO_LOST_NOTICES))) ∧
  (∀ (n : Nat) (s : State), s.powered = true → Completes (.release (.mgmt n)) s fun t => t = { s with mpu := { s.mpu with noticeHeld := false } })) ∧
  ((∀ s : State, s.powered = true → (s.fwRegion 0).trial = false → (s.fwRegion 1).trial = false → Completes .mgmtWatchdogRestart s fun t =>
    t.net.sessions = [] ∧ t.net.subs = [] ∧ t.net.handshakes = [] ∧ t.mpu.restarting = true ∧ t.panel.frozen = true ∧ t.mode = s.mode ∧ t.claim = s.claim ∧
    t.get ⟨Ev.MPU_MGMT_RESTARTED.addr, Ev.MPU_MGMT_RESTARTED.bit, 1⟩ = 1) ∧
  (∀ s : State, s.powered = true → s.mpu.restarting = true → Completes .mgmtRestartEnd s fun t =>
    t = { s with mpu := { s.mpu with restarting := false }, panel := { s.panel with frozen := false } }) ∧
  (∀ (b : Fin 101) (s : State), s.powered = true → s.shed ≤ 6 → Completes (.loadWindow b) s fun t =>
    t.get Reg.MPU_STATUS_LOAD_PCT = b.val ∧ t.shed ≤ s.shed + 1 ∧ s.shed ≤ t.shed + 1 ∧ t.shed ≤ 6 ∧
    (85 < b.val → 2 ≤ s.mpu.highWindows → t.shed = min 6 (s.shed + 1)) ∧ (b.val < 70 → 9 ≤ s.mpu.lowWindows → t.shed = s.shed - 1) ∧
    (70 ≤ b.val → b.val ≤ 85 → t.shed = s.shed) ∧ KeepsBut [.bank, .mpu, .net, .outbox] s t))

/-! Update and trust. -/

/-- Verifying and activating (R320, R455, R459 to R461): what the siding holds is checked in order; an image that passes is VERIFIED, one that fails ends its session with the check's code;
ACTIVATE checks it again and makes it the active image on trial, at once where its region allows it. Both signatures must verify.
Ending a trial (R457, R458, R460, R462, R463): CONFIRM ends it and raises the rollback floor, FALLBACK returns to the previous image, ABORT ends a session that has not been
activated; a command out of its state answers RESULT 1.
Under conditions on the state and the operands alone, exec answers a next state with its own effect of: verifyComplete, activate, imageTakesEffect, confirm, fallback,
updateAbort. -/
def Obligations.FirmwareUpdate : Prop :=
  ((∀ (n : Fin 2) (bad : Bool) (s : State), s.powered = true → (s.updSession n).state = 2 →
    (s.checkSiding (s.updSession n) bad = 0 → s.mode ≠ .terminus → Completes (.verifyComplete n bad) s fun t =>
      t.updSession n = { s.updSession n with state := 3 } ∧ RaisedBut Ev.UPD_VERIFIED [] [.upd] s t) ∧
    (s.checkSiding (s.updSession n) bad ≠ 0 → Completes (.verifyComplete n bad) s fun t =>
      t.updSession n = { s.updSession n with state := s.checkSiding (s.updSession n) bad, opened := false } ∧ RaisedBut Ev.UPD_VERIFY_FAILED [] [.upd] s t)) ∧
  (∀ (k : Nat) (n : Fin 2) (bad : Bool) (s : State), s.powered = true →
    ((s.updSession n).state ≠ 3 → Completes (.activate (.mgmt k) n bad) s fun t => t = cmdEnd 1 1 s) ∧
    ((s.updSession n).state = 3 → s.recent10 s.mram.fwWrittenAt = false → (s.updSession n).region ≠ 5 →
      (s.checkSiding (s.updSession n) bad ≠ 0 → Completes (.activate (.mgmt k) n bad) s fun t => (t.updSession n).state = 0x19 ∧ t.upd.regions = s.upd.regions ∧
        t.get Reg.UPD_CMD_STATUS_RESULT = 0 ∧ t.get ⟨Ev.UPD_VERIFY_FAILED.addr, Ev.UPD_VERIFY_FAILED.bit, 1⟩ = 1) ∧
      (s.checkSiding (s.updSession n) bad = 0 → s.effectNow (s.updSession n).region = false →
        Completes (.activate (.mgmt k) n bad) s fun t =>
        activeFw (t.fwRegion (s.updSession n).region) = (s.updSession n).siding ∧ (t.fwRegion (s.updSession n).region).trial = true ∧
        (t.fwRegion (s.updSession n).region).waiting = true ∧ (t.updSession n).state = 5 ∧ t.mram.fwWrittenAt = some s.sbyNow ∧
        t.get Reg.UPD_CMD_STATUS_RESULT = 0 ∧ t.get Reg.UPD_CMD_STATUS_LAST_CMD = 1)) ∧
    ((s.updSession n).state = 3 → s.recent10 s.mram.fwWrittenAt = true → Completes (.activate (.mgmt k) n bad) s fun t => t = cmdEnd 1 2 s)) ∧
  (∀ (n : Fin 2) (s : State), s.powered = true → (s.fwRegion (s.updSession n).region).waiting = true →
    (s.effectNow (s.updSession n).region = true → Completes (.imageTakesEffect n) s fun t => t = waitingEffect (s.updSession n).region s) ∧
    (s.effectNow (s.updSession n).region = false → Completes (.imageTakesEffect n) s fun t => t = s)) ∧
  (∀ (s : State) (r : Nat) (d : Bool) (f : FwImage), ecdsaVerify f.cert.key f.digest f.ecdsaSig = false ∨ lmsVerify s.fixed.vendorLms (hashBytes f.digest) f.lmsSig = false →
    s.checkFw r d f ≠ 0)) ∧
  ((∀ (k : Nat) (n : Fin 2) (f : FwImage) (s : State), s.powered = true →
    ((s.updSession n).state = 6 → s.recent10 s.mram.fwWrittenAt = false → (s.updSession n).region ≠ 5 → activeFw (s.fwRegion (s.updSession n).region) = some f →
      Completes (.confirm (.mgmt k) n) s fun t =>
        (t.fwRegion (s.updSession n).region).trial = false ∧ (t.fwRegion (s.updSession n).region).rollbackMin = f.rollback ∧ (t.updSession n).state = 7 ∧
        t.mram = { s.mram with fwWrittenAt := some s.sbyNow } ∧ t.get Reg.UPD_CMD_STATUS_RESULT = 0) ∧
    ((s.updSession n).state ≠ 6 → (Completes (.confirm (.mgmt k) n) s fun t => t = cmdEnd 2 1 s) ∧ (Completes (.fallback (.mgmt k) n) s fun t => t = cmdEnd 3 1 s)) ∧
    ((s.updSession n).state = 6 → Completes (.fallback (.mgmt k) n) s fun t => t = cmdEnd 3 0 ((fallBack (s.updSession n).region s).raise Ev.UPD_FALLBACK)) ∧
    ((s.updSession n).state = 1 ∨ (s.updSession n).state = 2 ∨ (s.updSession n).state = 3 → Completes (.updateAbort (.mgmt k) n) s fun t =>
      t.updSession n = { s.updSession n with state := 9, opened := false } ∧ t.get Reg.UPD_CMD_STATUS_RESULT = 0 ∧ t.get Reg.UPD_CMD_STATUS_LAST_CMD = 4 ∧
      KeepsBut [.bank, .upd] s t)) ∧
  (∀ (l : Nat) (n : Fin 2) (s : State), s.powered = true →
    (Completes (.confirm (.lane l) n) s fun t => t = refuseOrigin (.lane l) 0x17000C s) ∧ (Completes (.updateAbort (.lane l) n) s fun t => t = refuseOrigin (.lane l) 0x17000C s)) ∧
  (∀ (r : Nat) (s : State), s.effectNow r = false → s.sessionOfRegion r 6 = none →
    ((fallBack r s).fwRegion r).activeSlot = 1 - (s.fwRegion r).activeSlot ∧ ((fallBack r s).fwRegion r).trial = false ∧ ((fallBack r s).fwRegion r).prevUsable = false) ∧
  (∀ (r : Nat) (s : State), ∃ n, n ≤ s.effectBound r ∧ ((effectBegins r s).fwRegion r).effectEnd = s.time.tick + n ∧ ((effectBegins r s).fwRegion r).effectTick = some s.time.tick))

/-- The owner anchor and attestation (R471 to R476): a token that names this module and its epoch and verifies is taken only from the service port, with the lever open and the module not
ACTIVE; GO signs at most ten reports a second, with the bottom tree of the next leaf built; a signed report uses up its leaf, which the reservation covers.
Under conditions on the state and the operands alone, exec answers a next state with its own effect of: anchorClear, attestGo, reportSigned, nextTreeBuilt. -/
def Obligations.AnchorAndAttestation : Prop :=
  (∀ (k : Nat) (n : Fin 2) (s : State), s.powered = true → serviceOk s (.svc k) = true →
    (s.carrier.leverOpen = false ∨ s.mode = .active → Completes (.anchorClear (.svc k) n) s fun t => t = cmdEnd 5 3 s) ∧
    (s.carrier.leverOpen = true → s.mode ≠ .active → s.tokenOk s.tokenBytes = false → Completes (.anchorClear (.svc k) n) s fun t => t = cmdEnd 5 4 s) ∧
    (s.carrier.leverOpen = true → s.mode ≠ .active → s.tokenOk s.tokenBytes = true → Completes (.anchorClear (.svc k) n) s fun t =>
      t.mram = { s.mram with anchorEpoch := (s.mram.anchorEpoch + 1) % 2 ^ 32, clearPending := true } ∧ t.get Reg.UPD_CMD_STATUS_RESULT = 0 ∧
      t.get ⟨Ev.UPD_ANCHOR_CLEAR_ACCEPTED.addr, Ev.UPD_ANCHOR_CLEAR_ACCEPTED.bit, 1⟩ = 1)) ∧
  (∀ (b : List Byte) (s : State), s.tokenOk b = true → s.mram.anchor ≠ none ∧ leNat (b.take 8) = s.fixed.serial.toNat ∧ leNat ((b.drop 8).take 4) = s.mram.anchorEpoch ∧
    s.mram.anchor = some (sha384 ((b.drop 0x10).take 97)) ∧ ecdsaVerify (tokenKey b) (sha384 (b.take 0x74)) (beNat ((b.drop 0x74).take 48), beNat ((b.drop 0xA4).take 48)) = true) ∧
  (∀ (o : Origin) (n : Fin 2) (s : State), s.powered = true → isSvc o = false → Completes (.anchorClear o n) s fun t => t = refuseOrigin o 0x17000C s) ∧
  (∀ (k : Nat) (s : State), s.powered = true → s.upd.signing = false → s.upd.signedSecond ≠ s.second ∨ s.upd.signedCount < 10 → s.start.startTick + ticksOfMs 120000 ≤ s.time.tick →
    (s.treeReady = true → Completes (.attestGo (.mgmt k)) s fun t => t.upd.signing = true ∧ t.get Reg.UPD_ATT_STATUS_STATE = 1 ∧ KeepsBut [.bank, .upd] s t) ∧
    (s.treeReady = false → Completes (.attestGo (.mgmt k)) s fun t => t.upd.signing = false ∧ t.get Reg.UPD_ATT_STATUS_STATE = 5)) ∧
  (∀ (c : Nat) (s : State), s.powered = true → s.upd.signing = true → Completes (.reportSigned c) s fun t =>
    t.upd.leaf = s.upd.leaf + 1 ∧ t.upd.leaf ≤ t.upd.limit ∧ t.upd.signing = false ∧ t.upd.reportSeq = (s.upd.reportSeq + 1) % 2 ^ 32 ∧ t.upd.words.length = 1585 ∧
    t.get Reg.UPD_ATT_STATUS_STATE = 2 ∧ KeepsBut [.bank, .upd, .net, .outbox] s t) ∧
  (∀ (n : Nat) (s : State), s.powered = true → s.treeBuilding = some n → Completes .nextTreeBuilt s fun t => t = { s with upd := { s.upd with trees := n :: s.upd.trees } }) ∧
  (∀ s : State, s.treeBuilding = none → Completes .nextTreeBuilt s fun t => t = s)

/-! Panel, label and mileage. -/

/-- The status panel (R478 to R481): a refresh shows what R481 lists, positions go round sixteen, and the drive rail moves by at most 0.1 V toward its target.
The bistable label (R482 to R486): an update that may start marks the label dirty before it draws, and draws the state, the last halt's reason and hours and the versions as they stand (R4, R481); one that ends clears the mark, counts and reports it; REDRAW asks for one.
The mileage recorder (R487 to R491): every minute counts and folds the samples held, unless shedding holds them; the hourly write takes the other slot; MIL_SEL shows a
record, or zeros for a series that is not one of the forty.
Under conditions on the state and the operands alone, exec answers a next state with its own effect of: panelRefresh, pixelShift, contrastUpdate, labelUpdateStart,
labelUpdateEnd, redraw, operatingMinute, mileageSample, milSel. -/
def Obligations.PanelLabelAndMileage : Prop :=
  ((∀ s : State, s.powered = true → s.panel.on = true → s.panel.frozen = false → s.heldWrites = [] → Completes .panelRefresh s fun t =>
    t.panel = { s.panel with shown := s.panelLines } ∧ t.outbox = s.outbox ++ [.panelFrame s.panelLines] ∧ KeepsBut [.panel, .outbox] s t) ∧
  (∀ s : State, s.powered = true → s.panel.on = true → s.get Reg.FP_PANEL_CFG_SHIFT_EN = 1 → Completes .pixelShift s fun t =>
    t = { s with panel := { s.panel with shiftPos := (s.panel.shiftPos + 1) % 16 } }) ∧
  (∀ (temp : Int) (s : State), s.powered = true → s.panel.on = true → Completes (.contrastUpdate temp) s fun t =>
    t.panel.temp = temp ∧ KeepsBut [.panel] s t ∧ t.panel.driveMv ≤ s.panel.driveMv + 100 ∧ s.panel.driveMv ≤ t.panel.driveMv + 100 ∧
    (s.panel.driveMv ≤ driveTarget temp + 100 → driveTarget temp ≤ s.panel.driveMv + 100 → t.panel.driveMv = driveTarget temp)) ∧
  (∀ temp : Int, 12500 ≤ driveTarget temp ∧ driveTarget temp ≤ 16000)) ∧
  ((∀ s : State, s.powered = true → s.panel.labelHeld = true → s.labelMayStart = true → Completes .labelUpdateStart s fun t =>
    t.mram = { s.mram with labelDirty := true, labelGeneration := (s.mram.labelGeneration + 1) % 2 ^ 16 } ∧
    t.panel = { s.panel with labelBusy := true, labelHeld := false, lastStart := some s.time.tick, label := some (s.labelImage ((s.mram.labelGeneration + 1) % 2 ^ 16)) } ∧
    t.carrier = { s.carrier with resFull := true } ∧ KeepsBut [.mram, .panel, .carrier] s t) ∧
  (∀ s : State, s.carrier.holdup = true ∨ s.panel.labelBusy = true → Completes .labelUpdateStart s fun t => t = s) ∧
  (∀ s : State, s.powered = true → s.panel.labelBusy = true → s.panel.redrawDirty = false → Completes .labelUpdateEnd s fun t =>
    t.mram = { s.mram with labelDirty := false } ∧ t.panel = { s.panel with labelBusy := false, redrawDirty := false, label := s.panel.label.map (fun x => { x with complete := true }) } ∧
    t.get Reg.FP_LABEL_UPDATES = satInc Reg.FP_LABEL_UPDATES.w (s.get Reg.FP_LABEL_UPDATES) ∧ RaisedBut Ev.FP_LABEL_UPDATED [Reg.FP_LABEL_UPDATES] [.mram, .panel] s t) ∧
  (∀ (o : Origin) (s : State), s.powered = true → serviceOk s o = true → Completes (.redraw o) s fun t => t = labelRequest s ∧ t.panel.labelHeld = true)) ∧
  ((∀ s : State, s.powered = true → s.shed < 3 → (s.mram.opMinutes + 1) % 2 ^ 32 % 60 ≠ 0 → Completes .operatingMinute s fun t =>
    t.mram = { s.mram with opMinutes := (s.mram.opMinutes + 1) % 2 ^ 32 } ∧ t.mil.unfolded = [] ∧ t.mil.slots = s.mil.slots ∧ t.mil.writeSeq = s.mil.writeSeq ∧ KeepsBut [.mram, .mil] s t) ∧
  (∀ s : State, s.powered = true → s.shed < 3 → (s.mram.opMinutes + 1) % 2 ^ 32 % 60 = 0 → Completes .operatingMinute s fun t =>
    t.mil.writeSeq = s.mil.writeSeq + 1 ∧ (∃ x, Tab.get? t.mil.slots ((s.mil.writeSeq + 1) % 2) = some x ∧ x.seq = s.mil.writeSeq + 1 ∧ x.whole = true) ∧
    (∀ k, k ≠ (s.mil.writeSeq + 1) % 2 → Tab.get? t.mil.slots k = Tab.get? s.mil.slots k) ∧
    t.get ⟨Ev.MIL_HOUR_WRITTEN.addr, Ev.MIL_HOUR_WRITTEN.bit, 1⟩ = 1 ∧ KeepsBut [.mram, .mil, .bank, .net, .outbox] s t) ∧
  (∀ (l : List (Nat × Int)) (s : State), s.powered = true → Completes (.mileageSample l) s fun t =>
    t = { s with mil := { s.mil with unfolded := s.mil.unfolded ++ (l.filter (fun e => s.sampledNow e.1)).map (fun e => (e.1, e.2, s.mram.opMinutes)) } }) ∧
  (∀ (o : Origin) (k : Byte) (live : Bool) (s : State), s.powered = true → serviceOk s o = true → Completes (.milSel o k live) s fun t =>
    t.get Reg.MIL_SEL_SERIES = k.toNat ∧ t.get Reg.MIL_SEL_LIVE = b2n live ∧
    (k.toNat ∉ allSeries → ∀ n, n < 64 → t.get (Reg.MIL_REC_Wn_WORD n) = 0) ∧ KeepsBut [.bank] s t) ∧
  (∀ (lo : Int) (step : Nat) (v : Int), v < lo → binOf lo step v = 0) ∧
  (∀ (lo : Int) (step : Nat) (v : Int), 0 < step → lo ≤ v → v < lo + 31 * step → binOf lo step v = ((v - lo) / step).toNat + 1))
end

