-- ==== Sys2Proof/Laws/Moves.lean ====
section
/-! SUPPORT. What every operation does to the whole state: which parts it leaves alone, and that it keeps the invariants. -/

set_option Elab.async false

namespace Sys2Proof.Machine

open Sys2Proof

/-- From s to t: only the listed parts differ, and the invariants that s had t has. -/
structure Moves (L : List Part) (s t : State) : Prop where
  keeps : KeepsBut L s t
  bank : BankOk s → BankOk t
  clock : ClockOk s → ClockOk t
  claim : ClaimOk s → ClaimOk t

theorem Moves.refl (L : List Part) (s : State) : Moves L s s :=
  ⟨fun p _ => by cases p <;> rfl, id, id, id⟩

theorem Part.same_trans (p : Part) {s t u : State} (h : p.same s t) (k : p.same t u) : p.same s u := by
  cases p <;> exact Eq.trans h k

theorem sub_of {A B L : List Part} (hL : ∀ p ∈ B, p ∈ L) (h : ∀ p ∈ A, p ∈ B) : ∀ p ∈ A, p ∈ L :=
  fun p hp => hL p (h p hp)

/-- An update of parts other than the bank, the clocks, the state of R1 and the claim driver. -/
theorem Moves.leaf {L : List Part} {s x t : State} (_hf : t.fixed = x.fixed) (h : Moves L s x) (hb : t.bank = x.bank)
    (ht : (t.time.counter, t.time.inc) = (x.time.counter, x.time.inc)) (hs : (t.standby.sec, t.standby.frac) = (x.standby.sec, x.standby.frac))
    (hm : t.mode = x.mode ∨ mayDrive t.mode = true) (hc : t.claim.drive = x.claim.drive ∨ t.claim.drive = false) (hk : ∀ p : Part, p ∈ L ∨ p.same x t) : Moves L s t := by
  simp only [Prod.mk.injEq] at ht hs
  refine ⟨fun p hp => Part.same_trans p (h.keeps p hp) ((hk p).resolve_left hp), fun g => ?_, fun g => ?_, fun g => ?_⟩
  · have := h.bank g
    unfold BankOk at *
    rw [hb]; exact this
  · have := h.clock g
    unfold ClockOk at *
    rw [ht.1, ht.2, hs.1, hs.2]; exact this
  · intro k
    rcases hm with hm | hm
    · rcases hc with hc | hc
      · rw [hm]; exact h.claim g (hc ▸ k)
      · rw [hc] at k; cases k
    · exact hm

theorem Tab.sorted_cons {α : Type} {a : Nat} {x : α} {t : Tab α} :
    Tab.sorted ((a, x) :: t) = true ↔ (∀ e ∈ t, a < e.1) ∧ Tab.sorted t = true := by
  induction t generalizing a x with
  | nil => simp [Tab.sorted]
  | cons e t ih =>
    obtain ⟨b, y⟩ := e
    simp only [Tab.sorted, Bool.and_eq_true, decide_eq_true_eq, List.mem_cons, forall_eq_or_imp]
    constructor
    · rintro ⟨h1, h2⟩
      exact ⟨⟨h1, fun e he => Nat.lt_trans h1 ((ih.1 h2).1 e he)⟩, h2⟩
    · rintro ⟨⟨h1, _⟩, h2⟩
      exact ⟨h1, h2⟩

/-- Leaving entries out keeps the canonical form. -/
theorem Tab.filter_wf {α : Type} [DecidableEq α] (d : α) (t : Tab α) (p : Nat × α → Bool) (h : Tab.wf d t = true) : Tab.wf d (t.filter p) = true := by
  simp only [Tab.wf, Bool.and_eq_true, List.all_eq_true, decide_eq_true_eq] at h ⊢
  refine ⟨?_, fun e he => h.2 e (List.mem_filter.1 he).1⟩
  have hs := h.1
  clear h
  induction t with
  | nil => rfl
  | cons e t ih =>
    obtain ⟨a, x⟩ := e
    obtain ⟨h1, h2⟩ := Tab.sorted_cons.1 hs
    by_cases hp : p (a, x) = true
    · rw [List.filter_cons_of_pos hp]
      exact Tab.sorted_cons.2 ⟨fun e he => h1 e (List.mem_filter.1 he).1, ih h2⟩
    · rw [List.filter_cons_of_neg hp]
      exact ih h2

theorem Tab.mem_set {α : Type} {t : Tab α} {i : Nat} {v : α} {e : Nat × α} (h : e ∈ Tab.set t i v) : e = (i, v) ∨ e ∈ t := by
  induction t with
  | nil => exact Or.inl (List.mem_singleton.1 h)
  | cons f t ih =>
    obtain ⟨k, w⟩ := f
    simp only [Tab.set] at h
    split at h
    · exact List.mem_cons.1 h
    · split at h
      · rcases List.mem_cons.1 h with h | h
        · exact Or.inl h
        · exact Or.inr (List.mem_cons_of_mem _ h)
      · rcases List.mem_cons.1 h with h | h
        · exact Or.inr (h ▸ List.mem_cons_self)
        · exact (ih h).imp id (List.mem_cons_of_mem _)

theorem Tab.set_sorted {α : Type} {t : Tab α} {i : Nat} {v : α} (h : Tab.sorted t = true) : Tab.sorted (Tab.set t i v) = true := by
  induction t with
  | nil => rfl
  | cons f t ih =>
    obtain ⟨k, w⟩ := f
    obtain ⟨h1, h2⟩ := Tab.sorted_cons.1 h
    simp only [Tab.set]
    split
    · rename_i hlt
      refine Tab.sorted_cons.2 ⟨fun e he => ?_, h⟩
      rcases List.mem_cons.1 he with he | he
      · exact he ▸ hlt
      · exact Nat.lt_trans hlt (h1 e he)
    · split
      · rename_i heq
        exact Tab.sorted_cons.2 ⟨fun e he => heq ▸ h1 e he, h2⟩
      · refine Tab.sorted_cons.2 ⟨fun e he => ?_, ih h2⟩
        rcases Tab.mem_set he with he | he
        · subst he
          simp only []
          omega
        · exact h1 e he

/-- A write keeps the canonical form. -/
theorem Tab.put_wf {α : Type} [DecidableEq α] (d : α) (t : Tab α) (i : Nat) (v : α) (h : Tab.wf d t = true) : Tab.wf d (Tab.put d t i v) = true := by
  unfold Tab.put
  split
  · exact Tab.filter_wf d t _ h
  · rename_i hv
    simp only [Tab.wf, Bool.and_eq_true, List.all_eq_true, decide_eq_true_eq] at h ⊢
    refine ⟨Tab.set_sorted h.1, fun e he => ?_⟩
    rcases Tab.mem_set he with he | he
    · exact he ▸ hv
    · exact h.2 e he

theorem Moves.bankPut {L : List Part} {s x : State} (hL : Part.bank ∈ L) (h : Moves L s x) {b : Tab Nat} (hb : Tab.wf 0 x.bank = true → Tab.wf 0 b = true) :
    Moves L s { x with bank := b } := by
  refine ⟨fun p hp => ?_, fun g => hb (h.bank g), h.clock, h.claim⟩
  have := h.keeps p hp
  cases p <;> first | exact this | exact absurd hL hp

/-- The same for a state written out part by part. -/
theorem Moves.leafMk {L : List Part} {s x : State} {v0 : List Instr} {v1 : Mode} {v2 : Tab Nat} {v3 : Tab Word} {v4 : List (Origin × Nat × Word)} {v5 : Carrier} {v6 : Standby} {v7 : Fixed} {v8 : Start} {v9 : Claim} {v10 : Pair} {v11 : Tab Task} {v12 : Tab Lane} {v13 : Control} {v14 : Journal} {v15 : Exchange} {v16 : Mram} {v17 : Sbox} {v18 : Tab Chan} {v19 : Conv} {v20 : Recorder} {v21 : TimeBase} {v22 : Net} {v23 : CanPort} {v24 : CanPort} {v25 : Mpu} {v26 : Update} {v27 : Panel} {v28 : Mileage} {v29 : List Msg} {v30 : Nat}
    (hf : v7 = x.fixed) (hb : v2 = x.bank) (hm : v1 = x.mode ∨ mayDrive v1 = true)
    (ht : (v21.counter, v21.inc) = (x.time.counter, x.time.inc)) (hs : (v6.sec, v6.frac) = (x.standby.sec, x.standby.frac))
    (hc : v9.drive = x.claim.drive ∨ v9.drive = false)
    (h1 : .mode ∈ L ∨ x.mode = v1) (h0 : .pending ∈ L ∨ x.pending = v0) (h3 : .heldWrites ∈ L ∨ x.heldWrites = v3) (h4 : .shadows ∈ L ∨ x.shadows = v4) (h5 : .carrier ∈ L ∨ x.carrier = v5) (h6 : .standby ∈ L ∨ x.standby = v6) (h8 : .start ∈ L ∨ x.start = v8) (h9 : .claim ∈ L ∨ x.claim = v9) (h10 : .pair ∈ L ∨ x.pair = v10) (h11 : .tasks ∈ L ∨ x.tasks = v11) (h12 : .lanes ∈ L ∨ x.lanes = v12) (h13 : .ctl ∈ L ∨ x.ctl = v13) (h14 : .jrn ∈ L ∨ x.jrn = v14) (h15 : .exch ∈ L ∨ x.exch = v15) (h16 : .mram ∈ L ∨ x.mram = v16) (h17 : .sbox ∈ L ∨ x.sbox = v17) (h18 : .chans ∈ L ∨ x.chans = v18) (h19 : .conv ∈ L ∨ x.conv = v19) (h20 : .acq ∈ L ∨ x.acq = v20) (h21 : .time ∈ L ∨ x.time = v21) (h22 : .net ∈ L ∨ x.net = v22) (h23 : .can0 ∈ L ∨ x.can0 = v23) (h24 : .can1 ∈ L ∨ x.can1 = v24) (h25 : .mpu ∈ L ∨ x.mpu = v25) (h26 : .upd ∈ L ∨ x.upd = v26) (h27 : .panel ∈ L ∨ x.panel = v27) (h28 : .mil ∈ L ∨ x.mil = v28) (h29 : .outbox ∈ L ∨ x.outbox = v29) (h30 : .freeCount ∈ L ∨ x.freeCount = v30)
    (h : Moves L s x) : Moves L s (State.mk v0 v1 v2 v3 v4 v5 v6 v7 v8 v9 v10 v11 v12 v13 v14 v15 v16 v17 v18 v19 v20 v21 v22 v23 v24 v25 v26 v27 v28 v29 v30) := by
  refine Moves.leaf (x := x) hf h hb ht hs hm hc (fun p => ?_)
  cases p <;> first | assumption | exact Or.inr hf.symm | exact Or.inr hb.symm

theorem Moves.set_pending {L : List Part} {s x : State} (v) (hL : Part.pending ∈ L) (h : Moves L s x) : Moves L s { x with pending := v } :=
  Moves.leaf (x := x) rfl h rfl rfl rfl (Or.inl rfl) (Or.inl rfl) (fun p => by cases p <;> first | exact Or.inl hL | exact Or.inr rfl)

theorem Moves.set_heldWrites {L : List Part} {s x : State} (v) (hL : Part.heldWrites ∈ L) (h : Moves L s x) : Moves L s { x with heldWrites := v } :=
  Moves.leaf (x := x) rfl h rfl rfl rfl (Or.inl rfl) (Or.inl rfl) (fun p => by cases p <;> first | exact Or.inl hL | exact Or.inr rfl)

theorem Moves.set_shadows {L : List Part} {s x : State} (v) (hL : Part.shadows ∈ L) (h : Moves L s x) : Moves L s { x with shadows := v } :=
  Moves.leaf (x := x) rfl h rfl rfl rfl (Or.inl rfl) (Or.inl rfl) (fun p => by cases p <;> first | exact Or.inl hL | exact Or.inr rfl)

theorem Moves.set_carrier {L : List Part} {s x : State} (v) (hL : Part.carrier ∈ L) (h : Moves L s x) : Moves L s { x with carrier := v } :=
  Moves.leaf (x := x) rfl h rfl rfl rfl (Or.inl rfl) (Or.inl rfl) (fun p => by cases p <;> first | exact Or.inl hL | exact Or.inr rfl)

theorem Moves.set_start {L : List Part} {s x : State} (v) (hL : Part.start ∈ L) (h : Moves L s x) : Moves L s { x with start := v } :=
  Moves.leaf (x := x) rfl h rfl rfl rfl (Or.inl rfl) (Or.inl rfl) (fun p => by cases p <;> first | exact Or.inl hL | exact Or.inr rfl)

theorem Moves.set_pair {L : List Part} {s x : State} (v) (hL : Part.pair ∈ L) (h : Moves L s x) : Moves L s { x with pair := v } :=
  Moves.leaf (x := x) rfl h rfl rfl rfl (Or.inl rfl) (Or.inl rfl) (fun p => by cases p <;> first | exact Or.inl hL | exact Or.inr rfl)

theorem Moves.set_tasks {L : List Part} {s x : State} (v) (hL : Part.tasks ∈ L) (h : Moves L s x) : Moves L s { x with tasks := v } :=
  Moves.leaf (x := x) rfl h rfl rfl rfl (Or.inl rfl) (Or.inl rfl) (fun p => by cases p <;> first | exact Or.inl hL | exact Or.inr rfl)

theorem Moves.set_lanes {L : List Part} {s x : State} (v) (hL : Part.lanes ∈ L) (h : Moves L s x) : Moves L s { x with lanes := v } :=
  Moves.leaf (x := x) rfl h rfl rfl rfl (Or.inl rfl) (Or.inl rfl) (fun p => by cases p <;> first | exact Or.inl hL | exact Or.inr rfl)

theorem Moves.set_ctl {L : List Part} {s x : State} (v) (hL : Part.ctl ∈ L) (h : Moves L s x) : Moves L s { x with ctl := v } :=
  Moves.leaf (x := x) rfl h rfl rfl rfl (Or.inl rfl) (Or.inl rfl) (fun p => by cases p <;> first | exact Or.inl hL | exact Or.inr rfl)

theorem Moves.set_jrn {L : List Part} {s x : State} (v) (hL : Part.jrn ∈ L) (h : Moves L s x) : Moves L s { x with jrn := v } :=
  Moves.leaf (x := x) rfl h rfl rfl rfl (Or.inl rfl) (Or.inl rfl) (fun p => by cases p <;> first | exact Or.inl hL | exact Or.inr rfl)

theorem Moves.set_exch {L : List Part} {s x : State} (v) (hL : Part.exch ∈ L) (h : Moves L s x) : Moves L s { x with exch := v } :=
  Moves.leaf (x := x) rfl h rfl rfl rfl (Or.inl rfl) (Or.inl rfl) (fun p => by cases p <;> first | exact Or.inl hL | exact Or.inr rfl)

theorem Moves.set_mram {L : List Part} {s x : State} (v) (hL : Part.mram ∈ L) (h : Moves L s x) : Moves L s { x with mram := v } :=
  Moves.leaf (x := x) rfl h rfl rfl rfl (Or.inl rfl) (Or.inl rfl) (fun p => by cases p <;> first | exact Or.inl hL | exact Or.inr rfl)

theorem Moves.set_sbox {L : List Part} {s x : State} (v) (hL : Part.sbox ∈ L) (h : Moves L s x) : Moves L s { x with sbox := v } :=
  Moves.leaf (x := x) rfl h rfl rfl rfl (Or.inl rfl) (Or.inl rfl) (fun p => by cases p <;> first | exact Or.inl hL | exact Or.inr rfl)

theorem Moves.set_chans {L : List Part} {s x : State} (v) (hL : Part.chans ∈ L) (h : Moves L s x) : Moves L s { x with chans := v } :=
  Moves.leaf (x := x) rfl h rfl rfl rfl (Or.inl rfl) (Or.inl rfl) (fun p => by cases p <;> first | exact Or.inl hL | exact Or.inr rfl)

theorem Moves.set_conv {L : List Part} {s x : State} (v) (hL : Part.conv ∈ L) (h : Moves L s x) : Moves L s { x with conv := v } :=
  Moves.leaf (x := x) rfl h rfl rfl rfl (Or.inl rfl) (Or.inl rfl) (fun p => by cases p <;> first | exact Or.inl hL | exact Or.inr rfl)

theorem Moves.set_acq {L : List Part} {s x : State} (v) (hL : Part.acq ∈ L) (h : Moves L s x) : Moves L s { x with acq := v } :=
  Moves.leaf (x := x) rfl h rfl rfl rfl (Or.inl rfl) (Or.inl rfl) (fun p => by cases p <;> first | exact Or.inl hL | exact Or.inr rfl)

theorem Moves.set_net {L : List Part} {s x : State} (v) (hL : Part.net ∈ L) (h : Moves L s x) : Moves L s { x with net := v } :=
  Moves.leaf (x := x) rfl h rfl rfl rfl (Or.inl rfl) (Or.inl rfl) (fun p => by cases p <;> first | exact Or.inl hL | exact Or.inr rfl)

theorem Moves.set_can0 {L : List Part} {s x : State} (v) (hL : Part.can0 ∈ L) (h : Moves L s x) : Moves L s { x with can0 := v } :=
  Moves.leaf (x := x) rfl h rfl rfl rfl (Or.inl rfl) (Or.inl rfl) (fun p => by cases p <;> first | exact Or.inl hL | exact Or.inr rfl)

theorem Moves.set_can1 {L : List Part} {s x : State} (v) (hL : Part.can1 ∈ L) (h : Moves L s x) : Moves L s { x with can1 := v } :=
  Moves.leaf (x := x) rfl h rfl rfl rfl (Or.inl rfl) (Or.inl rfl) (fun p => by cases p <;> first | exact Or.inl hL | exact Or.inr rfl)

theorem Moves.set_mpu {L : List Part} {s x : State} (v) (hL : Part.mpu ∈ L) (h : Moves L s x) : Moves L s { x with mpu := v } :=
  Moves.leaf (x := x) rfl h rfl rfl rfl (Or.inl rfl) (Or.inl rfl) (fun p => by cases p <;> first | exact Or.inl hL | exact Or.inr rfl)

theorem Moves.set_upd {L : List Part} {s x : State} (v) (hL : Part.upd ∈ L) (h : Moves L s x) : Moves L s { x with upd := v } :=
  Moves.leaf (x := x) rfl h rfl rfl rfl (Or.inl rfl) (Or.inl rfl) (fun p => by cases p <;> first | exact Or.inl hL | exact Or.inr rfl)

theorem Moves.set_panel {L : List Part} {s x : State} (v) (hL : Part.panel ∈ L) (h : Moves L s x) : Moves L s { x with panel := v } :=
  Moves.leaf (x := x) rfl h rfl rfl rfl (Or.inl rfl) (Or.inl rfl) (fun p => by cases p <;> first | exact Or.inl hL | exact Or.inr rfl)

theorem Moves.set_mil {L : List Part} {s x : State} (v) (hL : Part.mil ∈ L) (h : Moves L s x) : Moves L s { x with mil := v } :=
  Moves.leaf (x := x) rfl h rfl rfl rfl (Or.inl rfl) (Or.inl rfl) (fun p => by cases p <;> first | exact Or.inl hL | exact Or.inr rfl)

theorem Moves.set_outbox {L : List Part} {s x : State} (v) (hL : Part.outbox ∈ L) (h : Moves L s x) : Moves L s { x with outbox := v } :=
  Moves.leaf (x := x) rfl h rfl rfl rfl (Or.inl rfl) (Or.inl rfl) (fun p => by cases p <;> first | exact Or.inl hL | exact Or.inr rfl)

theorem Moves.set_freeCount {L : List Part} {s x : State} (v) (hL : Part.freeCount ∈ L) (h : Moves L s x) : Moves L s { x with freeCount := v } :=
  Moves.leaf (x := x) rfl h rfl rfl rfl (Or.inl rfl) (Or.inl rfl) (fun p => by cases p <;> first | exact Or.inl hL | exact Or.inr rfl)

/-- The claim driver goes off, or stays as it was. -/
theorem Moves.set_claim {L : List Part} {s x : State} (v : Claim) (hL : Part.claim ∈ L) (hv : v.drive = true → x.claim.drive = true ∨ mayDrive x.mode = true)
    (h : Moves L s x) : Moves L s { x with claim := v } := by
  refine ⟨fun p hp => Part.same_trans p (h.keeps p hp) ?_, h.bank, h.clock, fun g k => ?_⟩
  · cases p <;> first | exact absurd hL hp | rfl
  · exact (hv k).elim (h.claim g) id

/-- A state of R1 that may drive the claim, or a state entered with the driver off. -/
theorem Moves.set_mode {L : List Part} {s x : State} (v : Mode) (hL : Part.mode ∈ L) (hv : mayDrive v = true ∨ x.claim.drive = false)
    (h : Moves L s x) : Moves L s { x with mode := v } := by
  refine ⟨fun p hp => Part.same_trans p (h.keeps p hp) ?_, h.bank, h.clock, fun _ k => ?_⟩
  · cases p <;> first | exact absurd hL hp | rfl
  · rcases hv with hv | hv
    · exact hv
    · rw [show x.claim.drive = true from k] at hv; cases hv

/-- The clocks move to legal instants. -/
theorem Moves.set_time {L : List Part} {s x : State} (v : TimeBase) (hL : Part.time ∈ L)
    (hv : ClockOk x → v.counter.sec < 2 ^ 48 ∧ v.counter.ns < 1000000000 ∧ v.counter.frac < 2 ^ 32 ∧ v.inc < 2 ^ 40)
    (h : Moves L s x) : Moves L s { x with time := v } := by
  refine ⟨fun p hp => Part.same_trans p (h.keeps p hp) ?_, h.bank, fun g => ?_, h.claim⟩
  · cases p <;> first | exact absurd hL hp | rfl
  · obtain ⟨h1, h2, h3, h4⟩ := hv (h.clock g)
    exact ⟨h1, h2, h3, h4, (h.clock g).2.2.2.2.1, (h.clock g).2.2.2.2.2⟩

theorem Moves.set_standby {L : List Part} {s x : State} (v : Standby) (hL : Part.standby ∈ L)
    (hv : ClockOk x → v.sec < 2 ^ 48 ∧ v.frac < 32768)
    (h : Moves L s x) : Moves L s { x with standby := v } := by
  refine ⟨fun p hp => Part.same_trans p (h.keeps p hp) ?_, h.bank, fun g => ?_, h.claim⟩
  · cases p <;> first | exact absurd hL hp | rfl
  · obtain ⟨h1, h2, h3, h4, _, _⟩ := h.clock g
    exact ⟨h1, h2, h3, h4, (hv (h.clock g)).1, (hv (h.clock g)).2⟩

theorem Moves.forEach {α : Type} {L : List Part} {s0 s : State} {l : List α} {f : α → State → State}
    (hf : ∀ a x, Moves L s0 x → Moves L s0 (f a x)) (h : Moves L s0 s) : Moves L s0 (forEach l f s) := by
  unfold Machine.forEach
  induction l generalizing s with
  | nil => exact h
  | cons a t ih => exact ih (hf a s h)

theorem Moves.foldl {α : Type} {L : List Part} {s0 s : State} {l : List α} {f : State → α → State}
    (hf : ∀ a x, Moves L s0 x → Moves L s0 (f x a)) (h : Moves L s0 s) : Moves L s0 (l.foldl f s) := by
  induction l generalizing s with
  | nil => exact h
  | cons a t ih => exact ih (hf a s h)

end Sys2Proof.Machine
end

