-- ==== Sys2Proof/Laws/MovesOps.lean ====
section
/-! SUPPORT. What each operation of Machine/Ops.lean does to the whole state: the parts it leaves alone, and the invariants it keeps. -/

set_option Elab.async false

namespace Sys2Proof.Machine

open Sys2Proof

theorem State_put_moves {L : List Part} {s0 : State} (f : Fld) (v : Nat) {s : State} (hL : ∀ p ∈ [.bank], p ∈ L)
    (hM : Moves L s0 s) : Moves L s0 (State.put s f v) := by
  exact Moves.bankPut (hL _ (by decide)) hM (Tab.put_wf 0 _ _ _)

theorem State_inc_moves {L : List Part} {s0 : State} (f : Fld) {s : State} (hL : ∀ p ∈ [.bank], p ∈ L)
    (hM : Moves L s0 s) : Moves L s0 (State.inc s f) := by
  unfold State.inc
  try simp only []
  repeat' first
    | with_reducible exact hM
    | ((with_reducible apply State_put_moves) <;> [exact sub_of hL (by decide); skip])

theorem State_addSat_moves {L : List Part} {s0 : State} (f : Fld) (n : Nat) {s : State} (hL : ∀ p ∈ [.bank], p ∈ L)
    (hM : Moves L s0 s) : Moves L s0 (State.addSat s f n) := by
  unfold State.addSat
  try simp only []
  repeat' first
    | with_reducible exact hM
    | ((with_reducible apply State_put_moves) <;> [exact sub_of hL (by decide); skip])

theorem State_atLeast_moves {L : List Part} {s0 : State} (f : Fld) (v : Nat) {s : State} (hL : ∀ p ∈ [.bank], p ∈ L)
    (hM : Moves L s0 s) : Moves L s0 (State.atLeast s f v) := by
  unfold State.atLeast
  try simp only []
  repeat' first
    | with_reducible exact hM
    | ((with_reducible apply State_put_moves) <;> [exact sub_of hL (by decide); skip])
    | split

theorem State_send_moves {L : List Part} {s0 : State} (m : Msg) {s : State} (hL : ∀ p ∈ [.outbox], p ∈ L)
    (hM : Moves L s0 s) : Moves L s0 (State.send s m) := by
  unfold State.send
  try simp only []
  repeat' first
    | with_reducible exact hM
    | (with_reducible apply Moves.leafMk; (with_reducible exact rfl); all_goals first | with_reducible exact rfl | exact Or.inl (hL _ (by decide)) | exact Or.inl rfl | exact Or.inr rfl | skip)

theorem State_sendFrames_moves {L : List Part} {s0 : State} (n : Nat) (m : Msg) {s : State} (hL : ∀ p ∈ [.pair, .outbox], p ∈ L)
    (hM : Moves L s0 s) : Moves L s0 (State.sendFrames s n m) := by
  unfold State.sendFrames
  try simp only []
  repeat' first
    | with_reducible exact hM
    | ((with_reducible apply State_send_moves) <;> [exact sub_of hL (by decide); skip])
    | split
    | (with_reducible apply Moves.leafMk; (with_reducible exact rfl); all_goals first | with_reducible exact rfl | exact Or.inl (hL _ (by decide)) | exact Or.inl rfl | exact Or.inr rfl | skip)

theorem State_sendFrame_moves {L : List Part} {s0 : State} (m : Msg) {s : State} (hL : ∀ p ∈ [.pair, .outbox], p ∈ L)
    (hM : Moves L s0 s) : Moves L s0 (State.sendFrame s m) := by
  unfold State.sendFrame
  try simp only []
  repeat' first
    | with_reducible exact hM
    | ((with_reducible apply State_sendFrames_moves) <;> [exact sub_of hL (by decide); skip])

theorem State_sendMirror_moves {L : List Part} {s0 : State} (l : List Entry) {s : State} (hL : ∀ p ∈ [.pair, .outbox], p ∈ L)
    (hM : Moves L s0 s) : Moves L s0 (State.sendMirror s l) := by
  unfold State.sendMirror
  try simp only []
  repeat' first
    | with_reducible exact hM
    | ((with_reducible apply State_sendFrames_moves) <;> [exact sub_of hL (by decide); skip])

theorem State_sendDelta_moves {L : List Part} {s0 : State} (d : DeltaMsg) {s : State} (hL : ∀ p ∈ [.pair, .outbox], p ∈ L)
    (hM : Moves L s0 s) : Moves L s0 (State.sendDelta s d) := by
  unfold State.sendDelta
  try simp only []
  repeat' first
    | with_reducible exact hM
    | ((with_reducible apply State_sendFrames_moves) <;> [exact sub_of hL (by decide); skip])

theorem eventTo_moves {L : List Part} {s0 : State} (base : Nat) (offset : Nat) (bit : Nat) (seq : Nat) (k : Nat) (x : Session) {s : State} (hL : ∀ p ∈ [.net, .outbox], p ∈ L)
    (hM : Moves L s0 s) : Moves L s0 (eventTo base offset bit seq k x s) := by
  unfold eventTo
  try simp only []
  repeat' first
    | with_reducible exact hM
    | ((with_reducible apply State_send_moves) <;> [exact sub_of hL (by decide); skip])
    | split
    | (with_reducible apply Moves.leafMk; (with_reducible exact rfl); all_goals first | with_reducible exact rfl | exact Or.inl (hL _ (by decide)) | exact Or.inl rfl | exact Or.inr rfl | skip)

theorem State_raise_moves {L : List Part} {s0 : State} (e : EvBit) {s : State} (hL : ∀ p ∈ [.bank, .net, .outbox], p ∈ L)
    (hM : Moves L s0 s) : Moves L s0 (State.raise s e) := by
  unfold State.raise
  try simp only []
  repeat' first
    | with_reducible exact hM
    | with_reducible assumption
    | ((with_reducible apply State_put_moves) <;> [exact sub_of hL (by decide); skip])
    | ((with_reducible apply eventTo_moves) <;> [exact sub_of hL (by decide); skip])
    | (with_reducible refine Moves.forEach (fun a x hx => ?_) ?_)

theorem State_raiseIf_moves {L : List Part} {s0 : State} (c : Bool) (e : EvBit) {s : State} (hL : ∀ p ∈ [.bank, .net, .outbox], p ∈ L)
    (hM : Moves L s0 s) : Moves L s0 (State.raiseIf s c e) := by
  unfold State.raiseIf
  try simp only []
  repeat' first
    | with_reducible exact hM
    | ((with_reducible apply State_raise_moves) <;> [exact sub_of hL (by decide); skip])
    | split

theorem State_clearEvents_moves {L : List Part} {s0 : State} (addr : Nat) (value : Word) {s : State} (hL : ∀ p ∈ [.bank], p ∈ L)
    (hM : Moves L s0 s) : Moves L s0 (State.clearEvents s addr value) := by
  unfold State.clearEvents
  split
  · exact Moves.bankPut (hL _ (by decide)) hM (Tab.filter_wf 0 _ _)
  · exact hM

theorem State_free_moves {L : List Part} {s0 : State} {s : State} (hL : ∀ p ∈ [.freeCount], p ∈ L)
    (hM : Moves L s0 s) : Moves L s0 (State.free s).2 := by
  unfold State.free
  try simp only []
  repeat' first
    | with_reducible exact hM
    | (with_reducible apply Moves.leafMk; (with_reducible exact rfl); all_goals first | with_reducible exact rfl | exact Or.inl (hL _ (by decide)) | exact Or.inl rfl | exact Or.inr rfl | skip)

theorem State_choice_moves {L : List Part} {s0 : State} {s : State} (hL : ∀ p ∈ [.freeCount], p ∈ L)
    (hM : Moves L s0 s) : Moves L s0 (State.choice s).2 := by
  unfold State.choice
  try simp only []
  repeat' first
    | with_reducible exact hM
    | (with_reducible apply Moves.leafMk; (with_reducible exact rfl); all_goals first | with_reducible exact rfl | exact Or.inl (hL _ (by decide)) | exact Or.inl rfl | exact Or.inr rfl | skip)

theorem State_setTask_moves {L : List Part} {s0 : State} (i : Nat) (t : Task) {s : State} (hL : ∀ p ∈ [.tasks], p ∈ L)
    (hM : Moves L s0 s) : Moves L s0 (State.setTask s i t) := by
  unfold State.setTask
  try simp only []
  repeat' first
    | with_reducible exact hM
    | (with_reducible apply Moves.leafMk; (with_reducible exact rfl); all_goals first | with_reducible exact rfl | exact Or.inl (hL _ (by decide)) | exact Or.inl rfl | exact Or.inr rfl | skip)

theorem State_setLane_moves {L : List Part} {s0 : State} (i : Nat) (l : Lane) {s : State} (hL : ∀ p ∈ [.lanes], p ∈ L)
    (hM : Moves L s0 s) : Moves L s0 (State.setLane s i l) := by
  unfold State.setLane
  try simp only []
  repeat' first
    | with_reducible exact hM
    | (with_reducible apply Moves.leafMk; (with_reducible exact rfl); all_goals first | with_reducible exact rfl | exact Or.inl (hL _ (by decide)) | exact Or.inl rfl | exact Or.inr rfl | skip)

theorem State_setChan_moves {L : List Part} {s0 : State} (i : Nat) (c : Chan) {s : State} (hL : ∀ p ∈ [.chans], p ∈ L)
    (hM : Moves L s0 s) : Moves L s0 (State.setChan s i c) := by
  unfold State.setChan
  try simp only []
  repeat' first
    | with_reducible exact hM
    | (with_reducible apply Moves.leafMk; (with_reducible exact rfl); all_goals first | with_reducible exact rfl | exact Or.inl (hL _ (by decide)) | exact Or.inl rfl | exact Or.inr rfl | skip)

theorem reportSent_moves {L : List Part} {s0 : State} (p : Port) {s : State} (hL : ∀ p ∈ [.net], p ∈ L)
    (hM : Moves L s0 s) : Moves L s0 (reportSent p s) := by
  unfold reportSent
  try simp only []
  repeat' first
    | with_reducible exact hM
    | (with_reducible apply Moves.leafMk; (with_reducible exact rfl); all_goals first | with_reducible exact rfl | exact Or.inl (hL _ (by decide)) | exact Or.inl rfl | exact Or.inr rfl | skip)

theorem sendOn_moves {L : List Part} {s0 : State} (p : Port) (m : Msg) {s : State} (hL : ∀ p ∈ [.net, .outbox], p ∈ L)
    (hM : Moves L s0 s) : Moves L s0 (sendOn p m s) := by
  unfold sendOn
  try simp only []
  repeat' first
    | with_reducible exact hM
    | ((with_reducible apply State_send_moves) <;> [exact sub_of hL (by decide); skip])
    | ((with_reducible apply reportSent_moves) <;> [exact sub_of hL (by decide); skip])

theorem sendPorts_moves {L : List Part} {s0 : State} (l : List Port) (m : Msg) {s : State} (hL : ∀ p ∈ [.net, .outbox], p ∈ L)
    (hM : Moves L s0 s) : Moves L s0 (sendPorts l m s) := by
  unfold sendPorts
  try simp only []
  repeat' first
    | with_reducible exact hM
    | with_reducible assumption
    | ((with_reducible apply State_send_moves) <;> [exact sub_of hL (by decide); skip])
    | ((with_reducible apply reportSent_moves) <;> [exact sub_of hL (by decide); skip])
    | (with_reducible refine Moves.forEach (fun a x hx => ?_) ?_)

theorem State_setTrig_moves {L : List Part} {s0 : State} (t : Nat) (x : TrigState) {s : State} (hL : ∀ p ∈ [.acq], p ∈ L)
    (hM : Moves L s0 s) : Moves L s0 (State.setTrig s t x) := by
  unfold State.setTrig
  try simp only []
  repeat' first
    | with_reducible exact hM
    | (with_reducible apply Moves.leafMk; (with_reducible exact rfl); all_goals first | with_reducible exact rfl | exact Or.inl (hL _ (by decide)) | exact Or.inl rfl | exact Or.inr rfl | skip)

theorem condMet_moves {L : List Part} {s0 : State} (t : Nat) (at_ : Stamp) (rising : Bool) (numeric : Bool) {s : State} (hL : ∀ p ∈ [.acq], p ∈ L)
    (hM : Moves L s0 s) : Moves L s0 (condMet t at_ rising numeric s) := by
  unfold condMet
  try simp only []
  repeat' first
    | with_reducible exact hM
    | ((with_reducible apply State_setTrig_moves) <;> [exact sub_of hL (by decide); skip])

end Sys2Proof.Machine
end

