-- ==== Sys2Proof/Laws/MovesCanPort.lean ====
section
/-! SUPPORT. What each operation of Machine/CanPort.lean does to the whole state: the parts it leaves alone, and the invariants it keeps. -/

set_option Elab.async false

namespace Sys2Proof.Machine

open Sys2Proof

theorem State_setCanPort_moves {L : List Part} {s0 : State} (p : Nat) (x : CanPort) {s : State} (hL : ∀ p ∈ [.can0, .can1], p ∈ L)
    (hM : Moves L s0 s) : Moves L s0 (State.setCanPort s p x) := by
  unfold State.setCanPort
  try simp only []
  repeat' first
    | with_reducible exact hM
    | split
    | (with_reducible apply Moves.leafMk; (with_reducible exact rfl); all_goals first | with_reducible exact rfl | exact Or.inl (hL _ (by decide)) | exact Or.inl rfl | exact Or.inr rfl | skip)

theorem canOutcome_moves {L : List Part} {s0 : State} (p : Nat) (task : Nat) (handle : Nat) (outcome : Nat) (sof : Nat) (late : Bool) {s : State} (hL : ∀ p ∈ [.bank, .tasks, .net, .outbox], p ∈ L)
    (hM : Moves L s0 s) : Moves L s0 (canOutcome p task handle outcome sof late s) := by
  unfold canOutcome
  try simp only []
  repeat' first
    | with_reducible exact hM
    | ((with_reducible apply State_setTask_moves) <;> [exact sub_of hL (by decide); skip])
    | ((with_reducible apply State_inc_moves) <;> [exact sub_of hL (by decide); skip])
    | ((with_reducible apply State_raise_moves) <;> [exact sub_of hL (by decide); skip])
    | split

theorem canEndWaiting_moves {L : List Part} {s0 : State} (p : Nat) (outcome : Nat) (keepStarted : Bool) {s : State} (hL : ∀ p ∈ [.bank, .tasks, .net, .can0, .can1, .outbox, .freeCount], p ∈ L)
    (hM : Moves L s0 s) : Moves L s0 (canEndWaiting p outcome keepStarted s) := by
  unfold canEndWaiting
  try simp only []
  repeat' first
    | with_reducible exact hM
    | with_reducible assumption
    | ((with_reducible apply State_setCanPort_moves) <;> [exact sub_of hL (by decide); skip])
    | ((with_reducible apply State_free_moves) <;> [exact sub_of hL (by decide); skip])
    | ((with_reducible apply canOutcome_moves) <;> [exact sub_of hL (by decide); skip])
    | (with_reducible refine Moves.forEach (fun a x hx => ?_) ?_)
    | split

theorem canMaybeStart_moves {L : List Part} {s0 : State} (p : Nat) {s : State} (hL : ∀ p ∈ [.can0, .can1, .freeCount], p ∈ L)
    (hM : Moves L s0 s) : Moves L s0 (canMaybeStart p s) := by
  unfold canMaybeStart
  try simp only []
  repeat' first
    | with_reducible exact hM
    | ((with_reducible apply State_choice_moves) <;> [exact sub_of hL (by decide); skip])
    | ((with_reducible apply State_setCanPort_moves) <;> [exact sub_of hL (by decide); skip])
    | split

theorem canUnclaim_moves {L : List Part} {s0 : State} {s : State} (hL : ∀ p ∈ [.bank, .tasks, .net, .can0, .can1, .outbox, .freeCount], p ∈ L)
    (hM : Moves L s0 s) : Moves L s0 (canUnclaim s) := by
  unfold canUnclaim
  try simp only []
  repeat' first
    | with_reducible exact hM
    | with_reducible assumption
    | ((with_reducible apply canEndWaiting_moves) <;> [exact sub_of hL (by decide); skip])
    | ((with_reducible apply canMaybeStart_moves) <;> [exact sub_of hL (by decide); skip])
    | (with_reducible refine Moves.forEach (fun a x hx => ?_) ?_)

theorem canSubmit_moves {L : List Part} {s0 : State} (p : Nat) (task : Nat) (r : CanReq) {s : State} (hL : ∀ p ∈ [.bank, .tasks, .net, .can0, .can1, .outbox], p ∈ L)
    (hM : Moves L s0 s) : Moves L s0 (canSubmit p task r s) := by
  unfold canSubmit
  try simp only []
  repeat' first
    | with_reducible exact hM
    | ((with_reducible apply canOutcome_moves) <;> [exact sub_of hL (by decide); skip])
    | ((with_reducible apply State_send_moves) <;> [exact sub_of hL (by decide); skip])
    | ((with_reducible apply State_setCanPort_moves) <;> [exact sub_of hL (by decide); skip])
    | split

theorem canCancelAt_moves {L : List Part} {s0 : State} (p : Nat) (handle : Nat) {s : State} (hL : ∀ p ∈ [.bank, .tasks, .net, .can0, .can1, .outbox], p ∈ L)
    (hM : Moves L s0 s) : Moves L s0 (canCancelAt p handle s) := by
  unfold canCancelAt
  try simp only []
  repeat' first
    | with_reducible exact hM
    | ((with_reducible apply State_setCanPort_moves) <;> [exact sub_of hL (by decide); skip])
    | ((with_reducible apply canOutcome_moves) <;> [exact sub_of hL (by decide); skip])
    | split

theorem canStores_moves {L : List Part} {s0 : State} (task : Nat) (l : List Store) {s : State} (hL : ∀ p ∈ [.bank, .tasks, .net, .can0, .can1, .outbox, .freeCount], p ∈ L)
    (hM : Moves L s0 s) : Moves L s0 (canStores task l s) := by
  unfold canStores
  try simp only []
  repeat' first
    | with_reducible exact hM
    | with_reducible assumption
    | ((with_reducible apply canSubmit_moves) <;> [exact sub_of hL (by decide); skip])
    | ((with_reducible apply canCancelAt_moves) <;> [exact sub_of hL (by decide); skip])
    | ((with_reducible apply canMaybeStart_moves) <;> [exact sub_of hL (by decide); skip])
    | (with_reducible refine Moves.forEach (fun a x hx => ?_) ?_)
    | split

theorem canFreeze_moves {L : List Part} {s0 : State} (task : Nat) {s : State} (hL : ∀ p ∈ [.bank, .tasks, .net, .can0, .can1, .outbox], p ∈ L)
    (hM : Moves L s0 s) : Moves L s0 (canFreeze task s) := by
  unfold canFreeze
  try simp only []
  repeat' first
    | with_reducible exact hM
    | with_reducible assumption
    | ((with_reducible apply State_setTask_moves) <;> [exact sub_of hL (by decide); skip])
    | ((with_reducible apply State_raise_moves) <;> [exact sub_of hL (by decide); skip])
    | ((with_reducible apply State_inc_moves) <;> [exact sub_of hL (by decide); skip])
    | ((with_reducible apply State_setCanPort_moves) <;> [exact sub_of hL (by decide); skip])
    | (with_reducible refine Moves.forEach (fun a x hx => ?_) ?_)

theorem canReceive_moves {L : List Part} {s0 : State} (p : Nat) (f : CanFrame) (own : Bool) (sof : Nat) {s : State} (hL : ∀ p ∈ [.bank, .can0, .can1], p ∈ L)
    (hM : Moves L s0 s) : Moves L s0 (canReceive p f own sof s) := by
  unfold canReceive
  try simp only []
  repeat' first
    | with_reducible exact hM
    | ((with_reducible apply State_put_moves) <;> [exact sub_of hL (by decide); skip])
    | ((with_reducible apply State_setCanPort_moves) <;> [exact sub_of hL (by decide); skip])
    | split

end Sys2Proof.Machine
end

