-- ==== Sys2Proof/Laws/MovesOutputs.lean ====
section
/-! SUPPORT. What each operation of Machine/Outputs.lean does to the whole state: the parts it leaves alone, and the invariants it keeps. -/

set_option Elab.async false

namespace Sys2Proof.Machine

open Sys2Proof

theorem pbusBoundary_moves {L : List Part} {s0 : State} {s : State} (hL : ∀ p ∈ [.heldWrites, .net], p ∈ L)
    (hM : Moves L s0 s) : Moves L s0 (pbusBoundary s) := by
  unfold pbusBoundary
  try simp only []
  repeat' first
    | with_reducible exact hM
    | split
    | (with_reducible apply Moves.leafMk; (with_reducible exact rfl); all_goals first | with_reducible exact rfl | exact Or.inl (hL _ (by decide)) | exact Or.inl rfl | exact Or.inr rfl | skip)

theorem State_setPub_moves {L : List Part} {s0 : State} (p : Nat) (x : PubState) {s : State} (hL : ∀ p ∈ [.net], p ∈ L)
    (hM : Moves L s0 s) : Moves L s0 (State.setPub s p x) := by
  unfold State.setPub
  try simp only []
  repeat' first
    | with_reducible exact hM
    | (with_reducible apply Moves.leafMk; (with_reducible exact rfl); all_goals first | with_reducible exact rfl | exact Or.inl (hL _ (by decide)) | exact Or.inl rfl | exact Or.inr rfl | skip)

theorem pubSendNew_moves {L : List Part} {s0 : State} (p : Nat) (k : Nat) (c : PubCfg) {s : State} (hL : ∀ p ∈ [.heldWrites, .net, .outbox], p ∈ L)
    (hM : Moves L s0 s) : Moves L s0 (pubSendNew p k c s) := by
  unfold pubSendNew
  try simp only []
  repeat' first
    | with_reducible exact hM
    | ((with_reducible apply pbusBoundary_moves) <;> [exact sub_of hL (by decide); skip])
    | ((with_reducible apply State_setPub_moves) <;> [exact sub_of hL (by decide); skip])
    | ((with_reducible apply sendPorts_moves) <;> [exact sub_of hL (by decide); skip])

theorem pubCheck_moves {L : List Part} {s0 : State} (p : Nat) (c : PubCfg) {s : State} (hL : ∀ p ∈ [.heldWrites, .net, .outbox], p ∈ L)
    (hM : Moves L s0 s) : Moves L s0 (pubCheck p c s) := by
  unfold pubCheck
  try simp only []
  repeat' first
    | with_reducible exact hM
    | ((with_reducible apply State_setPub_moves) <;> [exact sub_of hL (by decide); skip])
    | ((with_reducible apply pubSendNew_moves) <;> [exact sub_of hL (by decide); skip])
    | split

theorem pubCheckAll_moves {L : List Part} {s0 : State} {s : State} (hL : ∀ p ∈ [.heldWrites, .net, .outbox], p ∈ L)
    (hM : Moves L s0 s) : Moves L s0 (pubCheckAll s) := by
  unfold pubCheckAll
  try simp only []
  repeat' first
    | with_reducible exact hM
    | with_reducible assumption
    | ((with_reducible apply pubCheck_moves) <;> [exact sub_of hL (by decide); skip])
    | (with_reducible refine Moves.forEach (fun a x hx => ?_) ?_)

theorem pubOnConfirm_moves {L : List Part} {s0 : State} {s : State} (hL : ∀ p ∈ [.heldWrites, .net, .outbox], p ∈ L)
    (hM : Moves L s0 s) : Moves L s0 (pubOnConfirm s) := by
  unfold pubOnConfirm
  try simp only []
  repeat' first
    | with_reducible exact hM
    | with_reducible assumption
    | ((with_reducible apply pubSendNew_moves) <;> [exact sub_of hL (by decide); skip])
    | ((with_reducible apply State_setPub_moves) <;> [exact sub_of hL (by decide); skip])
    | (with_reducible refine Moves.forEach (fun a x hx => ?_) ?_)

theorem chanCommand_moves {L : List Part} {s0 : State} (n : Nat) (on : Bool) {s : State} (hL : ∀ p ∈ [.bank, .chans, .mil], p ∈ L)
    (hM : Moves L s0 s) : Moves L s0 (chanCommand n on s) := by
  unfold chanCommand
  try simp only []
  repeat' first
    | with_reducible exact hM
    | ((with_reducible apply State_setChan_moves) <;> [exact sub_of hL (by decide); skip])
    | ((with_reducible apply State_inc_moves) <;> [exact sub_of hL (by decide); skip])
    | split
    | (with_reducible apply Moves.leafMk; (with_reducible exact rfl); all_goals first | with_reducible exact rfl | exact Or.inl (hL _ (by decide)) | exact Or.inl rfl | exact Or.inr rfl | skip)

theorem refreshChan_moves {L : List Part} {s0 : State} (n : Nat) (c : ChanCfg) {s : State} (hL : ∀ p ∈ [.bank, .chans, .mil], p ∈ L)
    (hM : Moves L s0 s) : Moves L s0 (refreshChan n c s) := by
  unfold refreshChan
  try simp only []
  repeat' first
    | with_reducible exact hM
    | ((with_reducible apply chanCommand_moves) <;> [exact sub_of hL (by decide); skip])
    | ((with_reducible apply State_setChan_moves) <;> [exact sub_of hL (by decide); skip])
    | split

theorem refreshOutputs_moves {L : List Part} {s0 : State} {s : State} (hL : ∀ p ∈ [.bank, .chans, .mil], p ∈ L)
    (hM : Moves L s0 s) : Moves L s0 (refreshOutputs s) := by
  unfold refreshOutputs
  try simp only []
  repeat' first
    | with_reducible exact hM
    | with_reducible assumption
    | ((with_reducible apply refreshChan_moves) <;> [exact sub_of hL (by decide); skip])
    | (with_reducible refine Moves.forEach (fun a x hx => ?_) ?_)

theorem holdChan_moves {L : List Part} {s0 : State} (n : Nat) (c : ChanCfg) {s : State} (hL : ∀ p ∈ [.bank, .chans, .mil], p ∈ L)
    (hM : Moves L s0 s) : Moves L s0 (holdChan n c s) := by
  unfold holdChan
  try simp only []
  repeat' first
    | with_reducible exact hM
    | ((with_reducible apply chanCommand_moves) <;> [exact sub_of hL (by decide); skip])
    | split

theorem dropClaim_moves {L : List Part} {s0 : State} {s : State} (hL : ∀ p ∈ [.bank, .claim, .pair, .tasks, .chans, .net, .can0, .can1, .mil, .outbox, .freeCount], p ∈ L)
    (hM : Moves L s0 s) : Moves L s0 (dropClaim s) := by
  unfold dropClaim
  try simp only []
  repeat' first
    | with_reducible exact hM
    | with_reducible assumption
    | ((with_reducible apply holdChan_moves) <;> [exact sub_of hL (by decide); skip])
    | ((with_reducible apply State_raise_moves) <;> [exact sub_of hL (by decide); skip])
    | ((with_reducible apply canUnclaim_moves) <;> [exact sub_of hL (by decide); skip])
    | (with_reducible refine Moves.forEach (fun a x hx => ?_) ?_)
    | split
    | (with_reducible apply Moves.leafMk; (with_reducible exact rfl); all_goals first | with_reducible exact rfl | exact Or.inl (hL _ (by decide)) | exact Or.inl rfl | exact Or.inr rfl | skip)

theorem stopLanes_moves {L : List Part} {s0 : State} {s : State} (hL : ∀ p ∈ [.tasks, .lanes], p ∈ L)
    (hM : Moves L s0 s) : Moves L s0 (stopLanes s) := by
  unfold stopLanes
  try simp only []
  repeat' first
    | with_reducible exact hM
    | split
    | (with_reducible apply Moves.leafMk; (with_reducible exact rfl); all_goals first | with_reducible exact rfl | exact Or.inl (hL _ (by decide)) | exact Or.inl rfl | exact Or.inr rfl | skip)

theorem labelRequest_moves {L : List Part} {s0 : State} {s : State} (hL : ∀ p ∈ [.panel], p ∈ L)
    (hM : Moves L s0 s) : Moves L s0 (labelRequest s) := by
  unfold labelRequest
  try simp only []
  repeat' first
    | with_reducible exact hM
    | (with_reducible apply Moves.leafMk; (with_reducible exact rfl); all_goals first | with_reducible exact rfl | exact Or.inl (hL _ (by decide)) | exact Or.inl rfl | exact Or.inr rfl | skip)

theorem setMode_moves {L : List Part} {s0 : State} (m : Mode) {s : State} (hL : ∀ p ∈ [.mode, .bank, .panel], p ∈ L)
    (hm : mayDrive m = true ∨ s.claim.drive = false) (hM : Moves L s0 s) : Moves L s0 (setMode m s) := by
  unfold setMode
  simp only []
  split <;> split <;>
    first
    | exact Moves.set_mode m (hL _ (by decide)) hm (State_put_moves _ _ (sub_of hL (by decide)) hM)
    | exact labelRequest_moves (sub_of hL (by decide)) (Moves.set_mode m (hL _ (by decide)) hm (State_put_moves _ _ (sub_of hL (by decide)) hM))
    | exact Moves.set_mode m (hL _ (by decide)) hm hM
    | exact labelRequest_moves (sub_of hL (by decide)) (Moves.set_mode m (hL _ (by decide)) hm hM)

theorem recordHalt_moves {L : List Part} {s0 : State} (reason : Nat) {s : State} (hL : ∀ p ∈ [.mram, .panel, .mil], p ∈ L)
    (hM : Moves L s0 s) : Moves L s0 (recordHalt reason s) := by
  unfold recordHalt
  try simp only []
  repeat' first
    | with_reducible exact hM
    | ((with_reducible apply labelRequest_moves) <;> [exact sub_of hL (by decide); skip])
    | (with_reducible apply Moves.leafMk; (with_reducible exact rfl); all_goals first | with_reducible exact rfl | exact Or.inl (hL _ (by decide)) | exact Or.inl rfl | exact Or.inr rfl | skip)

theorem cancelHandover_moves {L : List Part} {s0 : State} {s : State} (hL : ∀ p ∈ [.bank, .pair, .net, .outbox], p ∈ L)
    (hM : Moves L s0 s) : Moves L s0 (cancelHandover s) := by
  unfold cancelHandover
  try simp only []
  repeat' first
    | with_reducible exact hM
    | ((with_reducible apply State_raiseIf_moves) <;> [exact sub_of hL (by decide); skip])
    | split
    | (with_reducible apply Moves.leafMk; (with_reducible exact rfl); all_goals first | with_reducible exact rfl | exact Or.inl (hL _ (by decide)) | exact Or.inl rfl | exact Or.inr rfl | skip)

theorem abandonCal_moves {L : List Part} {s0 : State} {s : State} (hL : ∀ p ∈ [.bank, .conv, .net, .outbox], p ∈ L)
    (hM : Moves L s0 s) : Moves L s0 (abandonCal s) := by
  unfold abandonCal
  try simp only []
  repeat' first
    | with_reducible exact hM
    | ((with_reducible apply State_raise_moves) <;> [exact sub_of hL (by decide); skip])
    | split
    | (with_reducible apply Moves.leafMk; (with_reducible exact rfl); all_goals first | with_reducible exact rfl | exact Or.inl (hL _ (by decide)) | exact Or.inl rfl | exact Or.inr rfl | skip)

theorem dropClaim_drive (s : State) : (dropClaim s).claim.drive = false := by
  unfold dropClaim
  split
  · simp only []
    rename_i hd
    have hr : ∀ (e : EvBit) (x : State), (x.raise e).claim = x.claim := fun e x =>
      ((State_raise_moves (L := [.bank, .net, .outbox]) e (by decide) (Moves.refl _ x)).keeps .claim (by decide)).symm
    have hu : ∀ x : State, (canUnclaim x).claim = x.claim := fun x =>
      ((canUnclaim_moves (L := [.bank, .tasks, .net, .can0, .can1, .outbox, .freeCount]) (by decide) (Moves.refl _ x)).keeps .claim (by decide)).symm
    rw [hr, hu]
  · rename_i hd
    exact Bool.eq_false_iff.2 hd

theorem enterHalt_moves {L : List Part} {s0 : State} (reason : Nat) {s : State} (hL : ∀ p ∈ [.mode, .bank, .claim, .pair, .tasks, .lanes, .mram, .chans, .conv, .net, .can0, .can1, .panel, .mil, .outbox, .freeCount], p ∈ L)
    (hM : Moves L s0 s) : Moves L s0 (enterHalt reason s) := by
  unfold enterHalt
  split
  · simp only []
    apply refreshOutputs_moves (sub_of hL (by decide))
    apply Moves.set_pair _ (hL _ (by decide))
    apply setMode_moves _ (sub_of hL (by decide)) (Or.inr (dropClaim_drive _))
    apply dropClaim_moves (sub_of hL (by decide))
    apply stopLanes_moves (sub_of hL (by decide))
    apply abandonCal_moves (sub_of hL (by decide))
    apply cancelHandover_moves (sub_of hL (by decide))
    exact recordHalt_moves _ (sub_of hL (by decide)) hM
  · exact hM

theorem markStale_moves {L : List Part} {s0 : State} {s : State} (hL : ∀ p ∈ [.bank, .pair, .net, .outbox], p ∈ L)
    (hM : Moves L s0 s) : Moves L s0 (markStale s) := by
  unfold markStale
  try simp only []
  repeat' first
    | with_reducible exact hM
    | ((with_reducible apply State_raise_moves) <;> [exact sub_of hL (by decide); skip])
    | split
    | (with_reducible apply Moves.leafMk; (with_reducible exact rfl); all_goals first | with_reducible exact rfl | exact Or.inl (hL _ (by decide)) | exact Or.inl rfl | exact Or.inr rfl | skip)

theorem partnerLost_moves {L : List Part} {s0 : State} {s : State} (hL : ∀ p ∈ [.bank, .pair, .net, .outbox], p ∈ L)
    (hM : Moves L s0 s) : Moves L s0 (partnerLost s) := by
  unfold partnerLost
  try simp only []
  repeat' first
    | with_reducible exact hM
    | ((with_reducible apply State_raiseIf_moves) <;> [exact sub_of hL (by decide); skip])
    | split
    | (with_reducible apply Moves.leafMk; (with_reducible exact rfl); all_goals first | with_reducible exact rfl | exact Or.inl (hL _ (by decide)) | exact Or.inl rfl | exact Or.inr rfl | skip)

end Sys2Proof.Machine
end

