-- ==== Sys2Proof/Laws/MovesAccess.lean ====
section
/-! SUPPORT. What each operation of Machine/Access.lean does to the whole state: the parts it leaves alone, and the invariants it keeps. -/

set_option Elab.async false

namespace Sys2Proof.Machine

open Sys2Proof

theorem recordRefused_moves {L : List Part} {s0 : State} (o : Origin) (addr : Nat) (kind : Nat) (write : Bool) {s : State} (hL : ∀ p ∈ [.bank], p ∈ L)
    (hM : Moves L s0 s) : Moves L s0 (recordRefused o addr kind write s) := by
  unfold recordRefused
  try simp only []
  repeat' first
    | with_reducible exact hM
    | ((with_reducible apply State_put_moves) <;> [exact sub_of hL (by decide); skip])

theorem refuseShape_moves {L : List Part} {s0 : State} (o : Origin) (addr : Nat) (write : Bool) {s : State} (hL : ∀ p ∈ [.bank, .net, .outbox], p ∈ L)
    (hM : Moves L s0 s) : Moves L s0 (refuseShape o addr write s) := by
  unfold refuseShape
  try simp only []
  repeat' first
    | with_reducible exact hM
    | ((with_reducible apply State_raise_moves) <;> [exact sub_of hL (by decide); skip])
    | ((with_reducible apply recordRefused_moves) <;> [exact sub_of hL (by decide); skip])
    | ((with_reducible apply State_inc_moves) <;> [exact sub_of hL (by decide); skip])

theorem refuseOrigin_moves {L : List Part} {s0 : State} (o : Origin) (addr : Nat) {s : State} (hL : ∀ p ∈ [.bank, .net, .outbox], p ∈ L)
    (hM : Moves L s0 s) : Moves L s0 (refuseOrigin o addr s) := by
  unfold refuseOrigin
  try simp only []
  repeat' first
    | with_reducible exact hM
    | ((with_reducible apply State_raise_moves) <;> [exact sub_of hL (by decide); skip])
    | ((with_reducible apply recordRefused_moves) <;> [exact sub_of hL (by decide); skip])
    | ((with_reducible apply State_inc_moves) <;> [exact sub_of hL (by decide); skip])

theorem byOrigin_moves {L : List Part} {s0 : State} (ok : Bool) (o : Origin) (addr : Nat) (f : State → State) {s : State} (hL : ∀ p ∈ [.bank, .net, .outbox], p ∈ L)
    (hf : ∀ x, Moves L s0 x → Moves L s0 (f x)) (hM : Moves L s0 s) : Moves L s0 (byOrigin ok o addr f s) := by
  unfold byOrigin
  split
  · exact hf _ hM
  · exact refuseOrigin_moves _ _ hL hM

end Sys2Proof.Machine
end

