-- ==== Sys2Proof/Laws/MovesSignalBox.lean ====
section
/-! SUPPORT. What each operation of Machine/SignalBox.lean does to the whole state: the parts it leaves alone, and the invariants it keeps. -/

set_option Elab.async false

namespace Sys2Proof.Machine

open Sys2Proof

theorem acmpLevel_moves {L : List Part} {s0 : State} (ch : Nat) (level : Int) {s : State} (hL : ∀ p ∈ [.sbox], p ∈ L)
    (hM : Moves L s0 s) : Moves L s0 (acmpLevel ch level s) := by
  unfold acmpLevel
  try simp only []
  repeat' first
    | with_reducible exact hM
    | split
    | (with_reducible apply Moves.leafMk; (with_reducible exact rfl); all_goals first | with_reducible exact rfl | exact Or.inl (hL _ (by decide)) | exact Or.inl rfl | exact Or.inr rfl | skip)

theorem tripEvents_moves {L : List Part} {s0 : State} (old : Tab EqState) {s : State} (hL : ∀ p ∈ [.bank, .net, .outbox], p ∈ L)
    (hM : Moves L s0 s) : Moves L s0 (tripEvents old s) := by
  unfold tripEvents
  try simp only []
  repeat' first
    | with_reducible exact hM
    | with_reducible assumption
    | ((with_reducible apply State_raise_moves) <;> [exact sub_of hL (by decide); skip])
    | ((with_reducible apply State_inc_moves) <;> [exact sub_of hL (by decide); skip])
    | (with_reducible refine Moves.forEach (fun a x hx => ?_) ?_)
    | split

theorem sbxSettle_moves {L : List Part} {s0 : State} (old : Tab EqState) {s : State} (hL : ∀ p ∈ [.bank, .heldWrites, .chans, .net, .mil, .outbox], p ∈ L)
    (hM : Moves L s0 s) : Moves L s0 (sbxSettle old s) := by
  unfold sbxSettle
  try simp only []
  repeat' first
    | with_reducible exact hM
    | ((with_reducible apply refreshOutputs_moves) <;> [exact sub_of hL (by decide); skip])
    | ((with_reducible apply pubCheckAll_moves) <;> [exact sub_of hL (by decide); skip])
    | ((with_reducible apply tripEvents_moves) <;> [exact sub_of hL (by decide); skip])

theorem sbxTakeHeld_moves {L : List Part} {s0 : State} {s : State} (hL : ∀ p ∈ [.heldWrites, .ctl], p ∈ L)
    (hM : Moves L s0 s) : Moves L s0 (sbxTakeHeld s) := by
  unfold sbxTakeHeld
  try simp only []
  repeat' first
    | with_reducible exact hM
    | with_reducible assumption
    | (with_reducible refine Moves.foldl (fun a x hx => ?_) ?_)
    | (with_reducible apply Moves.leafMk; (with_reducible exact rfl); all_goals first | with_reducible exact rfl | exact Or.inl (hL _ (by decide)) | exact Or.inl rfl | exact Or.inr rfl | skip)

theorem eqTriggers_moves {L : List Part} {s0 : State} (old : Tab EqState) {s : State} (hL : ∀ p ∈ [.acq], p ∈ L)
    (hM : Moves L s0 s) : Moves L s0 (eqTriggers old s) := by
  unfold eqTriggers
  try simp only []
  repeat' first
    | with_reducible exact hM
    | with_reducible assumption
    | ((with_reducible apply condMet_moves) <;> [exact sub_of hL (by decide); skip])
    | (with_reducible refine Moves.forEach (fun a x hx => ?_) ?_)
    | split

theorem sbxVote_moves {L : List Part} {s0 : State} (flips : List (Nat × Nat)) (timerFault : List Nat) {s : State} (hL : ∀ p ∈ [.mode, .bank, .heldWrites, .claim, .pair, .tasks, .lanes, .mram, .sbox, .chans, .conv, .acq, .net, .can0, .can1, .panel, .mil, .outbox, .freeCount], p ∈ L)
    (hM : Moves L s0 s) : Moves L s0 (sbxVote flips timerFault s) := by
  unfold sbxVote
  try simp only []
  repeat' first
    | with_reducible exact hM
    | with_reducible assumption
    | ((with_reducible apply State_raise_moves) <;> [exact sub_of hL (by decide); skip])
    | ((with_reducible apply State_raiseIf_moves) <;> [exact sub_of hL (by decide); skip])
    | ((with_reducible apply eqTriggers_moves) <;> [exact sub_of hL (by decide); skip])
    | ((with_reducible apply sbxSettle_moves) <;> [exact sub_of hL (by decide); skip])
    | ((with_reducible apply enterHalt_moves) <;> [exact sub_of hL (by decide); skip])
    | (with_reducible refine Moves.forEach (fun a x hx => ?_) ?_)
    | (with_reducible refine Moves.foldl (fun a x hx => ?_) ?_)
    | split
    | (with_reducible apply Moves.leafMk; (with_reducible exact rfl); all_goals first | with_reducible exact rfl | exact Or.inl (hL _ (by decide)) | exact Or.inl rfl | exact Or.inr rfl | skip)

theorem sbxPassBody_moves {L : List Part} {s0 : State} (levels : List (Nat × Int)) (flips : List (Nat × Nat)) (timerFault : List Nat) {s : State} (hL : ∀ p ∈ [.mode, .bank, .heldWrites, .claim, .pair, .tasks, .lanes, .ctl, .mram, .sbox, .chans, .conv, .acq, .net, .can0, .can1, .panel, .mil, .outbox, .freeCount], p ∈ L)
    (hM : Moves L s0 s) : Moves L s0 (sbxPassBody levels flips timerFault s) := by
  unfold sbxPassBody
  try simp only []
  repeat' first
    | with_reducible exact hM
    | with_reducible assumption
    | ((with_reducible apply sbxTakeHeld_moves) <;> [exact sub_of hL (by decide); skip])
    | ((with_reducible apply acmpLevel_moves) <;> [exact sub_of hL (by decide); skip])
    | ((with_reducible apply sbxVote_moves) <;> [exact sub_of hL (by decide); skip])
    | (with_reducible refine Moves.forEach (fun a x hx => ?_) ?_)
    | split
    | (with_reducible apply Moves.leafMk; (with_reducible exact rfl); all_goals first | with_reducible exact rfl | exact Or.inl (hL _ (by decide)) | exact Or.inl rfl | exact Or.inr rfl | skip)

theorem eqEverywhere_moves {L : List Part} {s0 : State} (e : Nat) (f : EqState → EqState) {s : State} (hL : ∀ p ∈ [.sbox], p ∈ L)
    (hM : Moves L s0 s) : Moves L s0 (eqEverywhere e f s) := by
  unfold eqEverywhere
  try simp only []
  repeat' first
    | with_reducible exact hM
    | (with_reducible apply Moves.leafMk; (with_reducible exact rfl); all_goals first | with_reducible exact rfl | exact Or.inl (hL _ (by decide)) | exact Or.inl rfl | exact Or.inr rfl | skip)

theorem holdLatchReset_moves {L : List Part} {s0 : State} (e : Nat) {s : State} (hL : ∀ p ∈ [.sbox], p ∈ L)
    (hM : Moves L s0 s) : Moves L s0 (holdLatchReset e s) := by
  unfold holdLatchReset
  try simp only []
  repeat' first
    | with_reducible exact hM
    | (with_reducible apply Moves.leafMk; (with_reducible exact rfl); all_goals first | with_reducible exact rfl | exact Or.inl (hL _ (by decide)) | exact Or.inl rfl | exact Or.inr rfl | skip)

theorem svcFail_moves {L : List Part} {s0 : State} (c : Nat) {s : State} (hL : ∀ p ∈ [.bank, .sbox, .net, .outbox], p ∈ L)
    (hM : Moves L s0 s) : Moves L s0 (svcFail c s) := by
  unfold svcFail
  try simp only []
  repeat' first
    | with_reducible exact hM
    | ((with_reducible apply State_raise_moves) <;> [exact sub_of hL (by decide); skip])
    | split
    | (with_reducible apply Moves.leafMk; (with_reducible exact rfl); all_goals first | with_reducible exact rfl | exact Or.inl (hL _ (by decide)) | exact Or.inl rfl | exact Or.inr rfl | skip)

end Sys2Proof.Machine
end

