-- ==== Sys2Proof/Laws/MovesChannels.lean ====
section
/-! SUPPORT. What each operation of Machine/Channels.lean does to the whole state: the parts it leaves alone, and the invariants it keeps. -/

set_option Elab.async false

namespace Sys2Proof.Machine

open Sys2Proof

theorem markChan_moves {L : List Part} {s0 : State} (n : Nat) (k : Nat) {s : State} (hL : ∀ p ∈ [.bank, .chans], p ∈ L)
    (hM : Moves L s0 s) : Moves L s0 (markChan n k s) := by
  unfold markChan
  try simp only []
  repeat' first
    | with_reducible exact hM
    | ((with_reducible apply State_put_moves) <;> [exact sub_of hL (by decide); skip])
    | (with_reducible apply Moves.leafMk; (with_reducible exact rfl); all_goals first | with_reducible exact rfl | exact Or.inl (hL _ (by decide)) | exact Or.inl rfl | exact Or.inr rfl | skip)

theorem locateEnd_moves {L : List Part} {s0 : State} (p : Nat) (kinds : List Nat) (supplyBad : Bool) {s : State} (hL : ∀ p ∈ [.mode, .bank, .claim, .pair, .tasks, .lanes, .mram, .chans, .conv, .net, .can0, .can1, .panel, .mil, .outbox, .freeCount], p ∈ L)
    (hM : Moves L s0 s) : Moves L s0 (locateEnd p kinds supplyBad s) := by
  unfold locateEnd
  try simp only []
  repeat' first
    | with_reducible exact hM
    | ((with_reducible apply State_put_moves) <;> [exact sub_of hL (by decide); skip])
    | ((with_reducible apply State_raiseIf_moves) <;> [exact sub_of hL (by decide); skip])
    | ((with_reducible apply enterHalt_moves) <;> [exact sub_of hL (by decide); skip])
    | ((with_reducible apply dropClaim_moves) <;> [exact sub_of hL (by decide); skip])
    | split
    | (with_reducible apply Moves.leafMk; (with_reducible exact rfl); all_goals first | with_reducible exact rfl | exact Or.inl (hL _ (by decide)) | exact Or.inl rfl | exact Or.inr rfl | skip)

theorem locateRun_moves {L : List Part} {s0 : State} (p : Nat) {s : State} (hL : ∀ p ∈ [.mode, .bank, .claim, .pair, .tasks, .lanes, .mram, .chans, .conv, .net, .can0, .can1, .panel, .mil, .outbox, .freeCount], p ∈ L)
    (hM : Moves L s0 s) : Moves L s0 (locateRun p s) := by
  unfold locateRun
  try simp only []
  repeat' first
    | with_reducible exact hM
    | with_reducible assumption
    | ((with_reducible apply markChan_moves) <;> [exact sub_of hL (by decide); skip])
    | ((with_reducible apply locateEnd_moves) <;> [exact sub_of hL (by decide); skip])
    | (with_reducible refine Moves.forEach (fun a x hx => ?_) ?_)

theorem takeReadback_moves {L : List Part} {s0 : State} (r : Readback) {s : State} (hL : ∀ p ∈ [.chans], p ∈ L)
    (hM : Moves L s0 s) : Moves L s0 (takeReadback r s) := by
  unfold takeReadback
  try simp only []
  repeat' first
    | with_reducible exact hM
    | ((with_reducible apply State_setChan_moves) <;> [exact sub_of hL (by decide); skip])

theorem takeReadbacks_moves {L : List Part} {s0 : State} (p : Nat) (l : List Readback) {s : State} (hL : ∀ p ∈ [.chans], p ∈ L)
    (hM : Moves L s0 s) : Moves L s0 (takeReadbacks p l s) := by
  unfold takeReadbacks
  try simp only []
  repeat' first
    | with_reducible exact hM
    | with_reducible assumption
    | ((with_reducible apply takeReadback_moves) <;> [exact sub_of hL (by decide); skip])
    | (with_reducible refine Moves.forEach (fun a x hx => ?_) ?_)

theorem commonFaultRise_moves {L : List Part} {s0 : State} (p : Nat) {s : State} (hL : ∀ p ∈ [.mode, .bank, .claim, .pair, .tasks, .lanes, .mram, .chans, .conv, .net, .can0, .can1, .panel, .mil, .outbox, .freeCount], p ∈ L)
    (hM : Moves L s0 s) : Moves L s0 (commonFaultRise p s) := by
  unfold commonFaultRise
  try simp only []
  repeat' first
    | with_reducible exact hM
    | ((with_reducible apply locateRun_moves) <;> [exact sub_of hL (by decide); skip])
    | ((with_reducible apply State_raiseIf_moves) <;> [exact sub_of hL (by decide); skip])
    | ((with_reducible apply State_put_moves) <;> [exact sub_of hL (by decide); skip])

theorem supplyGone_moves {L : List Part} {s0 : State} (input : Nat) {s : State} (hL : ∀ p ∈ [.chans], p ∈ L)
    (hM : Moves L s0 s) : Moves L s0 (supplyGone input s) := by
  unfold supplyGone
  try simp only []
  repeat' first
    | with_reducible exact hM
    | with_reducible assumption
    | ((with_reducible apply State_setChan_moves) <;> [exact sub_of hL (by decide); skip])
    | (with_reducible refine Moves.forEach (fun a x hx => ?_) ?_)
    | split

theorem fieldBad_moves {L : List Part} {s0 : State} (input : Nat) {s : State} (hL : ∀ p ∈ [.mode, .bank, .claim, .pair, .tasks, .lanes, .mram, .chans, .conv, .net, .can0, .can1, .panel, .mil, .outbox, .freeCount], p ∈ L)
    (hM : Moves L s0 s) : Moves L s0 (fieldBad input s) := by
  unfold fieldBad
  try simp only []
  repeat' first
    | with_reducible exact hM
    | with_reducible assumption
    | ((with_reducible apply commonFaultRise_moves) <;> [exact sub_of hL (by decide); skip])
    | ((with_reducible apply supplyGone_moves) <;> [exact sub_of hL (by decide); skip])
    | (with_reducible refine Moves.forEach (fun a x hx => ?_) ?_)
    | split

theorem locateWrite_moves {L : List Part} {s0 : State} (p : Nat) {s : State} (hL : ∀ p ∈ [.mode, .bank, .claim, .pair, .tasks, .lanes, .mram, .chans, .conv, .net, .can0, .can1, .panel, .mil, .outbox, .freeCount], p ∈ L)
    (hM : Moves L s0 s) : Moves L s0 (locateWrite p s) := by
  unfold locateWrite
  try simp only []
  repeat' first
    | with_reducible exact hM
    | ((with_reducible apply locateRun_moves) <;> [exact sub_of hL (by decide); skip])
    | split

theorem setShortfall_moves {L : List Part} {s0 : State} (n : Nat) (compliance : Bool) (openLoop : Bool) {s : State} (hL : ∀ p ∈ [.bank, .chans], p ∈ L)
    (hM : Moves L s0 s) : Moves L s0 (setShortfall n compliance openLoop s) := by
  unfold setShortfall
  try simp only []
  repeat' first
    | with_reducible exact hM
    | ((with_reducible apply State_setChan_moves) <;> [exact sub_of hL (by decide); skip])
    | ((with_reducible apply State_put_moves) <;> [exact sub_of hL (by decide); skip])

theorem beginChange_moves {L : List Part} {s0 : State} (n : Nat) (c : ChanCfg) {s : State} (hL : ∀ p ∈ [.bank, .chans, .net, .outbox], p ∈ L)
    (hM : Moves L s0 s) : Moves L s0 (beginChange n c s) := by
  unfold beginChange
  try simp only []
  repeat' first
    | with_reducible exact hM
    | ((with_reducible apply State_setChan_moves) <;> [exact sub_of hL (by decide); skip])
    | ((with_reducible apply State_raiseIf_moves) <;> [exact sub_of hL (by decide); skip])

theorem chanPeriod_moves {L : List Part} {s0 : State} (n : Nat) (c : ChanCfg) {s : State} (hL : ∀ p ∈ [.bank, .chans, .net, .outbox], p ∈ L)
    (hM : Moves L s0 s) : Moves L s0 (chanPeriod n c s) := by
  unfold chanPeriod
  try simp only []
  repeat' first
    | with_reducible exact hM
    | ((with_reducible apply beginChange_moves) <;> [exact sub_of hL (by decide); skip])
    | ((with_reducible apply State_setChan_moves) <;> [exact sub_of hL (by decide); skip])
    | ((with_reducible apply setShortfall_moves) <;> [exact sub_of hL (by decide); skip])
    | split

end Sys2Proof.Machine
end

