-- ==== Sys2Proof/Laws/MovesConversion.lean ====
section
/-! SUPPORT. What each operation of Machine/Conversion.lean does to the whole state: the parts it leaves alone, and the invariants it keeps. -/

set_option Elab.async false

namespace Sys2Proof.Machine

open Sys2Proof

theorem recordCoef_moves {L : List Part} {s0 : State} (coef : Nat) (c : Coef) (applied : List Nat) {s : State} (hL : ∀ p ∈ [.conv], p ∈ L)
    (hM : Moves L s0 s) : Moves L s0 (recordCoef coef c applied s) := by
  unfold recordCoef
  try simp only []
  repeat' first
    | with_reducible exact hM
    | with_reducible assumption
    | (with_reducible refine Moves.forEach (fun a x hx => ?_) ?_)
    | (with_reducible apply Moves.leafMk; (with_reducible exact rfl); all_goals first | with_reducible exact rfl | exact Or.inl (hL _ (by decide)) | exact Or.inl rfl | exact Or.inr rfl | skip)

theorem drainOne_moves {L : List Part} {s0 : State} {s : State} (hL : ∀ p ∈ [.conv], p ∈ L)
    (hM : Moves L s0 s) : Moves L s0 (drainOne s) := by
  unfold drainOne
  try simp only []
  repeat' first
    | with_reducible exact hM
    | split
    | (with_reducible apply Moves.leafMk; (with_reducible exact rfl); all_goals first | with_reducible exact rfl | exact Or.inl (hL _ (by decide)) | exact Or.inl rfl | exact Or.inr rfl | skip)

theorem enqueue_moves {L : List Part} {s0 : State} (e : QEntry) {s : State} (hL : ∀ p ∈ [.bank, .conv, .net, .outbox], p ∈ L)
    (hM : Moves L s0 s) : Moves L s0 (enqueue e s) := by
  unfold enqueue
  try simp only []
  repeat' first
    | with_reducible exact hM
    | ((with_reducible apply State_raise_moves) <;> [exact sub_of hL (by decide); skip])
    | ((with_reducible apply State_inc_moves) <;> [exact sub_of hL (by decide); skip])
    | ((with_reducible apply State_atLeast_moves) <;> [exact sub_of hL (by decide); skip])
    | split
    | (with_reducible apply Moves.leafMk; (with_reducible exact rfl); all_goals first | with_reducible exact rfl | exact Or.inl (hL _ (by decide)) | exact Or.inl rfl | exact Or.inr rfl | skip)

theorem putWords_moves {L : List Part} {s0 : State} (f : Nat → Fld) (l : List Word) {s : State} (hL : ∀ p ∈ [.bank], p ∈ L)
    (hM : Moves L s0 s) : Moves L s0 (putWords f l s) := by
  unfold putWords
  try simp only []
  repeat' first
    | with_reducible exact hM
    | with_reducible assumption
    | ((with_reducible apply State_put_moves) <;> [exact sub_of hL (by decide); skip])
    | (with_reducible refine Moves.forEach (fun a x hx => ?_) ?_)

theorem qpopWrite_moves {L : List Part} {s0 : State} {s : State} (hL : ∀ p ∈ [.bank, .conv], p ∈ L)
    (hM : Moves L s0 s) : Moves L s0 (qpopWrite s) := by
  unfold qpopWrite
  try simp only []
  repeat' first
    | with_reducible exact hM
    | ((with_reducible apply putWords_moves) <;> [exact sub_of hL (by decide); skip])
    | split
    | (with_reducible apply Moves.leafMk; (with_reducible exact rfl); all_goals first | with_reducible exact rfl | exact Or.inl (hL _ (by decide)) | exact Or.inl rfl | exact Or.inr rfl | skip)

theorem takeQuantity_moves {L : List Part} {s0 : State} (n : Nat) (x : DWord) {s : State} (hL : ∀ p ∈ [.chans], p ∈ L)
    (hM : Moves L s0 s) : Moves L s0 (takeQuantity n x s) := by
  unfold takeQuantity
  try simp only []
  repeat' first
    | with_reducible exact hM
    | ((with_reducible apply State_setChan_moves) <;> [exact sub_of hL (by decide); skip])
    | split

theorem integratedResult_moves {L : List Part} {s0 : State} (r : RawSample) {s : State} (hL : ∀ p ∈ [.bank, .chans, .conv, .net, .outbox], p ∈ L)
    (hM : Moves L s0 s) : Moves L s0 (integratedResult r s) := by
  unfold integratedResult
  try simp only []
  repeat' first
    | with_reducible exact hM
    | ((with_reducible apply enqueue_moves) <;> [exact sub_of hL (by decide); skip])
    | ((with_reducible apply takeQuantity_moves) <;> [exact sub_of hL (by decide); skip])
    | split
    | (with_reducible apply Moves.leafMk; (with_reducible exact rfl); all_goals first | with_reducible exact rfl | exact Or.inl (hL _ (by decide)) | exact Or.inl rfl | exact Or.inr rfl | skip)

theorem fastResult_moves {L : List Part} {s0 : State} (r : RawSample) {s : State} (hL : ∀ p ∈ [.bank, .chans, .conv, .net, .outbox], p ∈ L)
    (hM : Moves L s0 s) : Moves L s0 (fastResult r s) := by
  unfold fastResult
  try simp only []
  repeat' first
    | with_reducible exact hM
    | ((with_reducible apply takeQuantity_moves) <;> [exact sub_of hL (by decide); skip])
    | ((with_reducible apply enqueue_moves) <;> [exact sub_of hL (by decide); skip])
    | split
    | (with_reducible apply Moves.leafMk; (with_reducible exact rfl); all_goals first | with_reducible exact rfl | exact Or.inl (hL _ (by decide)) | exact Or.inl rfl | exact Or.inr rfl | skip)

theorem choosePeriod_moves {L : List Part} {s0 : State} {s : State} (hL : ∀ p ∈ [.conv], p ∈ L)
    (hM : Moves L s0 s) : Moves L s0 (choosePeriod s) := by
  unfold choosePeriod
  try simp only []
  repeat' first
    | with_reducible exact hM
    | split
    | (with_reducible apply Moves.leafMk; (with_reducible exact rfl); all_goals first | with_reducible exact rfl | exact Or.inl (hL _ (by decide)) | exact Or.inl rfl | exact Or.inr rfl | skip)

theorem setCal_moves {L : List Part} {s0 : State} (f : Cal → Cal) {s : State} (hL : ∀ p ∈ [.conv], p ∈ L)
    (hM : Moves L s0 s) : Moves L s0 (setCal f s) := by
  unfold setCal
  try simp only []
  repeat' first
    | with_reducible exact hM
    | (with_reducible apply Moves.leafMk; (with_reducible exact rfl); all_goals first | with_reducible exact rfl | exact Or.inl (hL _ (by decide)) | exact Or.inl rfl | exact Or.inr rfl | skip)

theorem calResult_moves {L : List Part} {s0 : State} (r : Nat) {s : State} (hL : ∀ p ∈ [.bank], p ∈ L)
    (hM : Moves L s0 s) : Moves L s0 (calResult r s) := by
  unfold calResult
  try simp only []
  repeat' first
    | with_reducible exact hM
    | ((with_reducible apply State_put_moves) <;> [exact sub_of hL (by decide); skip])

theorem holdCal_moves {L : List Part} {s0 : State} (channel : Nat) (cmd : Nat) {s : State} (hL : ∀ p ∈ [.conv], p ∈ L)
    (hM : Moves L s0 s) : Moves L s0 (holdCal channel cmd s) := by
  unfold holdCal
  try simp only []
  repeat' first
    | with_reducible exact hM
    | ((with_reducible apply setCal_moves) <;> [exact sub_of hL (by decide); skip])
    | split

theorem calCommit_moves {L : List Part} {s0 : State} {s : State} (hL : ∀ p ∈ [.bank, .mram, .conv, .net, .outbox], p ∈ L)
    (hM : Moves L s0 s) : Moves L s0 (calCommit s) := by
  unfold calCommit
  try simp only []
  repeat' first
    | with_reducible exact hM
    | ((with_reducible apply State_raise_moves) <;> [exact sub_of hL (by decide); skip])
    | ((with_reducible apply calResult_moves) <;> [exact sub_of hL (by decide); skip])
    | ((with_reducible apply recordCoef_moves) <;> [exact sub_of hL (by decide); skip])
    | ((with_reducible apply setCal_moves) <;> [exact sub_of hL (by decide); skip])
    | split
    | (with_reducible apply Moves.leafMk; (with_reducible exact rfl); all_goals first | with_reducible exact rfl | exact Or.inl (hL _ (by decide)) | exact Or.inl rfl | exact Or.inr rfl | skip)

theorem calAct_moves {L : List Part} {s0 : State} (ch : Nat) (cmd : Nat) {s : State} (hL : ∀ p ∈ [.bank, .mram, .conv, .net, .outbox], p ∈ L)
    (hM : Moves L s0 s) : Moves L s0 (calAct ch cmd s) := by
  unfold calAct
  try simp only []
  repeat' first
    | with_reducible exact hM
    | ((with_reducible apply calResult_moves) <;> [exact sub_of hL (by decide); skip])
    | ((with_reducible apply setCal_moves) <;> [exact sub_of hL (by decide); skip])
    | ((with_reducible apply calCommit_moves) <;> [exact sub_of hL (by decide); skip])
    | ((with_reducible apply State_raise_moves) <;> [exact sub_of hL (by decide); skip])
    | ((with_reducible apply abandonCal_moves) <;> [exact sub_of hL (by decide); skip])
    | split

theorem calBoundary_moves {L : List Part} {s0 : State} {s : State} (hL : ∀ p ∈ [.bank, .mram, .conv, .net, .outbox], p ∈ L)
    (hM : Moves L s0 s) : Moves L s0 (calBoundary s) := by
  unfold calBoundary
  try simp only []
  repeat' first
    | with_reducible exact hM
    | ((with_reducible apply setCal_moves) <;> [exact sub_of hL (by decide); skip])
    | ((with_reducible apply calAct_moves) <;> [exact sub_of hL (by decide); skip])
    | split

theorem calCmdBy_moves {L : List Part} {s0 : State} (origin : Origin) (channel : Nat) (cmd : Nat) {s : State} (hL : ∀ p ∈ [.bank, .conv, .net, .outbox], p ∈ L)
    (hM : Moves L s0 s) : Moves L s0 (calCmdBy origin channel cmd s) := by
  unfold calCmdBy
  try simp only []
  repeat' first
    | with_reducible exact hM
    | with_reducible assumption
    | ((with_reducible apply byOrigin_moves) <;> [exact sub_of hL (by decide); intro x hx; skip])
    | ((with_reducible apply holdCal_moves) <;> [exact sub_of hL (by decide); skip])
    | split

theorem State_setTt_moves {L : List Part} {s0 : State} (p : Nat) (t : Turntable) {s : State} (hL : ∀ p ∈ [.conv], p ∈ L)
    (hM : Moves L s0 s) : Moves L s0 (State.setTt s p t) := by
  unfold State.setTt
  try simp only []
  repeat' first
    | with_reducible exact hM
    | (with_reducible apply Moves.leafMk; (with_reducible exact rfl); all_goals first | with_reducible exact rfl | exact Or.inl (hL _ (by decide)) | exact Or.inl rfl | exact Or.inr rfl | skip)

theorem ttFault_moves {L : List Part} {s0 : State} (p : Nat) {s : State} (hL : ∀ p ∈ [.bank, .conv, .net, .outbox], p ∈ L)
    (hM : Moves L s0 s) : Moves L s0 (ttFault p s) := by
  unfold ttFault
  try simp only []
  repeat' first
    | with_reducible exact hM
    | ((with_reducible apply State_setTt_moves) <;> [exact sub_of hL (by decide); skip])
    | ((with_reducible apply State_raise_moves) <;> [exact sub_of hL (by decide); skip])
    | ((with_reducible apply State_put_moves) <;> [exact sub_of hL (by decide); skip])

theorem converterFault_moves {L : List Part} {s0 : State} (n : Nat) {s : State} (hL : ∀ p ∈ [.bank, .chans, .net, .outbox], p ∈ L)
    (hM : Moves L s0 s) : Moves L s0 (converterFault n s) := by
  unfold converterFault
  try simp only []
  repeat' first
    | with_reducible exact hM
    | ((with_reducible apply State_raise_moves) <;> [exact sub_of hL (by decide); skip])
    | ((with_reducible apply State_put_moves) <;> [exact sub_of hL (by decide); skip])
    | ((with_reducible apply markChan_moves) <;> [exact sub_of hL (by decide); skip])

theorem endVisit_moves {L : List Part} {s0 : State} (p : Nat) (suspect : Option Nat) {s : State} (hL : ∀ p ∈ [.bank, .conv], p ∈ L)
    (hM : Moves L s0 s) : Moves L s0 (endVisit p suspect s) := by
  unfold endVisit
  try simp only []
  repeat' first
    | with_reducible exact hM
    | ((with_reducible apply State_put_moves) <;> [exact sub_of hL (by decide); skip])
    | ((with_reducible apply State_setTt_moves) <;> [exact sub_of hL (by decide); skip])
    | split

theorem restoreCoef_moves {L : List Part} {s0 : State} (p : Nat) {s : State} (hL : ∀ p ∈ [.conv], p ∈ L)
    (hM : Moves L s0 s) : Moves L s0 (restoreCoef p s) := by
  unfold restoreCoef
  try simp only []
  repeat' first
    | with_reducible exact hM
    | split
    | (with_reducible apply Moves.leafMk; (with_reducible exact rfl); all_goals first | with_reducible exact rfl | exact Or.inl (hL _ (by decide)) | exact Or.inl rfl | exact Or.inr rfl | skip)

theorem ttWindow_moves {L : List Part} {s0 : State} (p : Nat) (m : TtMeasure) {s : State} (hL : ∀ p ∈ [.bank, .chans, .conv, .net, .outbox], p ∈ L)
    (hM : Moves L s0 s) : Moves L s0 (ttWindow p m s) := by
  unfold ttWindow
  try simp only []
  repeat' first
    | with_reducible exact hM
    | ((with_reducible apply State_setTt_moves) <;> [exact sub_of hL (by decide); skip])
    | ((with_reducible apply converterFault_moves) <;> [exact sub_of hL (by decide); skip])
    | ((with_reducible apply State_put_moves) <;> [exact sub_of hL (by decide); skip])
    | ((with_reducible apply ttFault_moves) <;> [exact sub_of hL (by decide); skip])
    | ((with_reducible apply endVisit_moves) <;> [exact sub_of hL (by decide); skip])
    | ((with_reducible apply restoreCoef_moves) <;> [exact sub_of hL (by decide); skip])
    | split
    | (with_reducible apply Moves.leafMk; (with_reducible exact rfl); all_goals first | with_reducible exact rfl | exact Or.inl (hL _ (by decide)) | exact Or.inl rfl | exact Or.inr rfl | skip)

theorem testReqWrite_moves {L : List Part} {s0 : State} (n : Nat) {s : State} (hL : ∀ p ∈ [.bank, .conv], p ∈ L)
    (hM : Moves L s0 s) : Moves L s0 (testReqWrite n s) := by
  unfold testReqWrite
  try simp only []
  repeat' first
    | with_reducible exact hM
    | ((with_reducible apply State_put_moves) <;> [exact sub_of hL (by decide); skip])
    | ((with_reducible apply State_setTt_moves) <;> [exact sub_of hL (by decide); skip])
    | split

theorem abandonVisit_moves {L : List Part} {s0 : State} (p : Nat) {s : State} (hL : ∀ p ∈ [.bank, .conv], p ∈ L)
    (hM : Moves L s0 s) : Moves L s0 (abandonVisit p s) := by
  unfold abandonVisit
  try simp only []
  repeat' first
    | with_reducible exact hM
    | ((with_reducible apply restoreCoef_moves) <;> [exact sub_of hL (by decide); skip])
    | ((with_reducible apply State_put_moves) <;> [exact sub_of hL (by decide); skip])
    | ((with_reducible apply State_setTt_moves) <;> [exact sub_of hL (by decide); skip])
    | split

theorem changeEnds_moves {L : List Part} {s0 : State} (n : Nat) (c : ChanCfg) {s : State} (hL : ∀ p ∈ [.bank, .conv, .net, .outbox], p ∈ L)
    (hM : Moves L s0 s) : Moves L s0 (changeEnds n c s) := by
  unfold changeEnds
  try simp only []
  repeat' first
    | with_reducible exact hM
    | ((with_reducible apply abandonVisit_moves) <;> [exact sub_of hL (by decide); skip])
    | ((with_reducible apply abandonCal_moves) <;> [exact sub_of hL (by decide); skip])
    | split

theorem holdupVisits_moves {L : List Part} {s0 : State} {s : State} (hL : ∀ p ∈ [.bank, .conv], p ∈ L)
    (hM : Moves L s0 s) : Moves L s0 (holdupVisits s) := by
  unfold holdupVisits
  try simp only []
  repeat' first
    | with_reducible exact hM
    | with_reducible assumption
    | ((with_reducible apply abandonVisit_moves) <;> [exact sub_of hL (by decide); skip])
    | (with_reducible refine Moves.forEach (fun a x hx => ?_) ?_)

end Sys2Proof.Machine
end

