-- ==== Sys2Proof/Laws/MovesAcquisition.lean ====
section
/-! SUPPORT. What each operation of Machine/Acquisition.lean does to the whole state: the parts it leaves alone, and the invariants it keeps. -/

set_option Elab.async false

namespace Sys2Proof.Machine

open Sys2Proof

theorem State_setDef_moves {L : List Part} {s0 : State} (d : Nat) (x : DefState) {s : State} (hL : ∀ p ∈ [.acq], p ∈ L)
    (hM : Moves L s0 s) : Moves L s0 (State.setDef s d x) := by
  unfold State.setDef
  try simp only []
  repeat' first
    | with_reducible exact hM
    | (with_reducible apply Moves.leafMk; (with_reducible exact rfl); all_goals first | with_reducible exact rfl | exact Or.inl (hL _ (by decide)) | exact Or.inl rfl | exact Or.inr rfl | skip)

theorem addFrame_moves {L : List Part} {s0 : State} (d : Nat) (c : DefCfg) (f : Frame) {s : State} (hL : ∀ p ∈ [.acq], p ∈ L)
    (hM : Moves L s0 s) : Moves L s0 (addFrame d c f s) := by
  unfold addFrame
  try simp only []
  repeat' first
    | with_reducible exact hM
    | ((with_reducible apply State_setDef_moves) <;> [exact sub_of hL (by decide); skip])

theorem trigLost_moves {L : List Part} {s0 : State} (d : Nat) {s : State} (hL : ∀ p ∈ [.bank, .acq, .net, .outbox], p ∈ L)
    (hM : Moves L s0 s) : Moves L s0 (trigLost d s) := by
  unfold trigLost
  try simp only []
  repeat' first
    | with_reducible exact hM
    | ((with_reducible apply State_setDef_moves) <;> [exact sub_of hL (by decide); skip])
    | ((with_reducible apply State_raise_moves) <;> [exact sub_of hL (by decide); skip])
    | ((with_reducible apply State_inc_moves) <;> [exact sub_of hL (by decide); skip])

theorem writeBlocks_moves {L : List Part} {s0 : State} (n : Nat) {s : State} (hL : ∀ p ∈ [.acq], p ∈ L)
    (hM : Moves L s0 s) : Moves L s0 (writeBlocks n s) := by
  unfold writeBlocks
  try simp only []
  repeat' first
    | with_reducible exact hM
    | split
    | (with_reducible apply Moves.leafMk; (with_reducible exact rfl); all_goals first | with_reducible exact rfl | exact Or.inl (hL _ (by decide)) | exact Or.inl rfl | exact Or.inr rfl | skip)

theorem openRecord_moves {L : List Part} {s0 : State} (d : Nat) (c : DefCfg) (e : TrigEvent) {s : State} (hL : ∀ p ∈ [.bank, .acq, .net, .outbox], p ∈ L)
    (hM : Moves L s0 s) : Moves L s0 (openRecord d c e s) := by
  unfold openRecord
  try simp only []
  repeat' first
    | with_reducible exact hM
    | ((with_reducible apply writeBlocks_moves) <;> [exact sub_of hL (by decide); skip])
    | ((with_reducible apply State_raise_moves) <;> [exact sub_of hL (by decide); skip])
    | ((with_reducible apply State_setDef_moves) <;> [exact sub_of hL (by decide); skip])
    | (with_reducible apply Moves.leafMk; (with_reducible exact rfl); all_goals first | with_reducible exact rfl | exact Or.inl (hL _ (by decide)) | exact Or.inl rfl | exact Or.inr rfl | skip)

theorem openSegment_moves {L : List Part} {s0 : State} (d : Nat) (c : DefCfg) (e : TrigEvent) {s : State} (hL : ∀ p ∈ [.bank, .acq, .freeCount], p ∈ L)
    (hM : Moves L s0 s) : Moves L s0 (openSegment d c e s) := by
  unfold openSegment
  try simp only []
  repeat' first
    | with_reducible exact hM
    | with_reducible assumption
    | ((with_reducible apply State_inc_moves) <;> [exact sub_of hL (by decide); skip])
    | ((with_reducible apply State_setDef_moves) <;> [exact sub_of hL (by decide); skip])
    | (with_reducible refine Moves.foldl (fun a x hx => ?_) ?_)
    | split
    | (with_reducible apply Moves.leafMk; (with_reducible exact rfl); all_goals first | with_reducible exact rfl | exact Or.inl (hL _ (by decide)) | exact Or.inl rfl | exact Or.inr rfl | skip)

theorem startSegment_moves {L : List Part} {s0 : State} (d : Nat) (c : DefCfg) (e : TrigEvent) {s : State} (hL : ∀ p ∈ [.bank, .acq, .net, .outbox, .freeCount], p ∈ L)
    (hM : Moves L s0 s) : Moves L s0 (startSegment d c e s) := by
  unfold startSegment
  try simp only []
  repeat' first
    | with_reducible exact hM
    | ((with_reducible apply trigLost_moves) <;> [exact sub_of hL (by decide); skip])
    | ((with_reducible apply openSegment_moves) <;> [exact sub_of hL (by decide); skip])
    | ((with_reducible apply openRecord_moves) <;> [exact sub_of hL (by decide); skip])
    | split
    | (with_reducible apply Moves.leafMk; (with_reducible exact rfl); all_goals first | with_reducible exact rfl | exact Or.inl (hL _ (by decide)) | exact Or.inl rfl | exact Or.inr rfl | skip)

theorem trigDef_moves {L : List Part} {s0 : State} (d : Nat) (e : TrigEvent) {s : State} (hL : ∀ p ∈ [.bank, .acq, .net, .outbox, .freeCount], p ∈ L)
    (hM : Moves L s0 s) : Moves L s0 (trigDef d e s) := by
  unfold trigDef
  try simp only []
  repeat' first
    | with_reducible exact hM
    | ((with_reducible apply State_setDef_moves) <;> [exact sub_of hL (by decide); skip])
    | ((with_reducible apply startSegment_moves) <;> [exact sub_of hL (by decide); skip])
    | split

theorem trigMask_moves {L : List Part} {s0 : State} (mask : Nat) (e : TrigEvent) {s : State} (hL : ∀ p ∈ [.bank, .acq, .net, .outbox, .freeCount], p ∈ L)
    (hM : Moves L s0 s) : Moves L s0 (trigMask mask e s) := by
  unfold trigMask
  try simp only []
  repeat' first
    | with_reducible exact hM
    | with_reducible assumption
    | ((with_reducible apply trigDef_moves) <;> [exact sub_of hL (by decide); skip])
    | (with_reducible refine Moves.forEach (fun a x hx => ?_) ?_)

theorem acmpEdge_moves {L : List Part} {s0 : State} (t : Nat) (c : TrigCfg) (fine : Nat) (rising : Bool) {s : State} (hL : ∀ p ∈ [.bank, .acq, .net, .outbox, .freeCount], p ∈ L)
    (hM : Moves L s0 s) : Moves L s0 (acmpEdge t c fine rising s) := by
  unfold acmpEdge
  try simp only []
  repeat' first
    | with_reducible exact hM
    | ((with_reducible apply trigMask_moves) <;> [exact sub_of hL (by decide); skip])
    | split
    | (with_reducible apply Moves.leafMk; (with_reducible exact rfl); all_goals first | with_reducible exact rfl | exact Or.inl (hL _ (by decide)) | exact Or.inl rfl | exact Or.inr rfl | skip)

theorem dueTrigger_moves {L : List Part} {s0 : State} (t : Nat) (c : TrigCfg) {s : State} (hL : ∀ p ∈ [.bank, .acq, .net, .outbox, .freeCount], p ∈ L)
    (hM : Moves L s0 s) : Moves L s0 (dueTrigger t c s) := by
  unfold dueTrigger
  try simp only []
  repeat' first
    | with_reducible exact hM
    | ((with_reducible apply trigMask_moves) <;> [exact sub_of hL (by decide); skip])
    | ((with_reducible apply State_setTrig_moves) <;> [exact sub_of hL (by decide); skip])
    | split

theorem softTrigger_moves {L : List Part} {s0 : State} (at_ : Stamp) (kind : Nat) (mask : Nat) {s : State} (hL : ∀ p ∈ [.bank, .acq, .net, .outbox, .freeCount], p ∈ L)
    (hM : Moves L s0 s) : Moves L s0 (softTrigger at_ kind mask s) := by
  unfold softTrigger
  try simp only []
  repeat' first
    | with_reducible exact hM
    | ((with_reducible apply trigMask_moves) <;> [exact sub_of hL (by decide); skip])
    | split

theorem acqTrigWrite_moves {L : List Part} {s0 : State} (o : Origin) (mask : Nat) {s : State} (hL : ∀ p ∈ [.bank, .acq, .net, .outbox, .freeCount], p ∈ L)
    (hM : Moves L s0 s) : Moves L s0 (acqTrigWrite o mask s) := by
  unfold acqTrigWrite
  try simp only []
  repeat' first
    | with_reducible exact hM
    | ((with_reducible apply softTrigger_moves) <;> [exact sub_of hL (by decide); skip])
    | split

theorem acqApplyHeld_moves {L : List Part} {s0 : State} {s : State} (hL : ∀ p ∈ [.heldWrites, .acq], p ∈ L)
    (hM : Moves L s0 s) : Moves L s0 (acqApplyHeld s) := by
  unfold acqApplyHeld
  try simp only []
  repeat' first
    | with_reducible exact hM
    | with_reducible assumption
    | ((with_reducible apply State_setDef_moves) <;> [exact sub_of hL (by decide); skip])
    | (with_reducible refine Moves.forEach (fun a x hx => ?_) ?_)
    | split
    | (with_reducible apply Moves.leafMk; (with_reducible exact rfl); all_goals first | with_reducible exact rfl | exact Or.inl (hL _ (by decide)) | exact Or.inl rfl | exact Or.inr rfl | skip)

theorem takeNewDef_moves {L : List Part} {s0 : State} (d : Nat) {s : State} (hL : ∀ p ∈ [.acq], p ∈ L)
    (hM : Moves L s0 s) : Moves L s0 (takeNewDef d s) := by
  unfold takeNewDef
  try simp only []
  repeat' first
    | with_reducible exact hM
    | ((with_reducible apply State_setDef_moves) <;> [exact sub_of hL (by decide); skip])
    | split

theorem closeRecord_moves {L : List Part} {s0 : State} (d : Nat) (reason : Nat) {s : State} (hL : ∀ p ∈ [.heldWrites, .acq], p ∈ L)
    (hM : Moves L s0 s) : Moves L s0 (closeRecord d reason s) := by
  unfold closeRecord
  try simp only []
  repeat' first
    | with_reducible exact hM
    | ((with_reducible apply State_setDef_moves) <;> [exact sub_of hL (by decide); skip])
    | ((with_reducible apply takeNewDef_moves) <;> [exact sub_of hL (by decide); skip])
    | ((with_reducible apply acqApplyHeld_moves) <;> [exact sub_of hL (by decide); skip])
    | split
    | (with_reducible apply Moves.leafMk; (with_reducible exact rfl); all_goals first | with_reducible exact rfl | exact Or.inl (hL _ (by decide)) | exact Or.inl rfl | exact Or.inr rfl | skip)

theorem changeDef_moves {L : List Part} {s0 : State} (d : Nat) {s : State} (hL : ∀ p ∈ [.heldWrites, .acq], p ∈ L)
    (hM : Moves L s0 s) : Moves L s0 (changeDef d s) := by
  unfold changeDef
  try simp only []
  repeat' first
    | with_reducible exact hM
    | ((with_reducible apply State_setDef_moves) <;> [exact sub_of hL (by decide); skip])
    | ((with_reducible apply closeRecord_moves) <;> [exact sub_of hL (by decide); skip])
    | ((with_reducible apply takeNewDef_moves) <;> [exact sub_of hL (by decide); skip])
    | split

theorem closeWrite_moves {L : List Part} {s0 : State} (d : Nat) {s : State} (hL : ∀ p ∈ [.heldWrites, .acq], p ∈ L)
    (hM : Moves L s0 s) : Moves L s0 (closeWrite d s) := by
  unfold closeWrite
  try simp only []
  repeat' first
    | with_reducible exact hM
    | ((with_reducible apply State_setDef_moves) <;> [exact sub_of hL (by decide); skip])
    | ((with_reducible apply closeRecord_moves) <;> [exact sub_of hL (by decide); skip])
    | split

theorem tagTrigger_moves {L : List Part} {s0 : State} (t : Nat) (c : TrigCfg) (bool : Bool) (at_ : Stamp) (v0 : DWord) (v1 : DWord) {s : State} (hL : ∀ p ∈ [.acq], p ∈ L)
    (hM : Moves L s0 s) : Moves L s0 (tagTrigger t c bool at_ v0 v1 s) := by
  unfold tagTrigger
  try simp only []
  repeat' first
    | with_reducible exact hM
    | ((with_reducible apply condMet_moves) <;> [exact sub_of hL (by decide); skip])
    | ((with_reducible apply State_setTrig_moves) <;> [exact sub_of hL (by decide); skip])
    | split

theorem tagTriggers_moves {L : List Part} {s0 : State} (t : Nat) (old : Tag) (new : Tag) {s : State} (hL : ∀ p ∈ [.acq], p ∈ L)
    (hM : Moves L s0 s) : Moves L s0 (tagTriggers t old new s) := by
  unfold tagTriggers
  try simp only []
  repeat' first
    | with_reducible exact hM
    | with_reducible assumption
    | ((with_reducible apply tagTrigger_moves) <;> [exact sub_of hL (by decide); skip])
    | (with_reducible refine Moves.forEach (fun a x hx => ?_) ?_)
    | split

theorem defTagChanged_moves {L : List Part} {s0 : State} (t : Nat) (old : Tag) (new : Tag) (d : Nat) (c : DefCfg) {s : State} (hL : ∀ p ∈ [.acq], p ∈ L)
    (hM : Moves L s0 s) : Moves L s0 (defTagChanged t old new d c s) := by
  unfold defTagChanged
  try simp only []
  repeat' first
    | with_reducible exact hM
    | ((with_reducible apply State_setDef_moves) <;> [exact sub_of hL (by decide); skip])

theorem acqTagChanged_moves {L : List Part} {s0 : State} (t : Nat) (old : Tag) (new : Tag) {s : State} (hL : ∀ p ∈ [.acq], p ∈ L)
    (hM : Moves L s0 s) : Moves L s0 (acqTagChanged t old new s) := by
  unfold acqTagChanged
  try simp only []
  repeat' first
    | with_reducible exact hM
    | with_reducible assumption
    | ((with_reducible apply tagTriggers_moves) <;> [exact sub_of hL (by decide); skip])
    | ((with_reducible apply defTagChanged_moves) <;> [exact sub_of hL (by decide); skip])
    | (with_reducible refine Moves.forEach (fun a x hx => ?_) ?_)
    | split

theorem acqStepped_moves {L : List Part} {s0 : State} {s : State} (hL : ∀ p ∈ [.acq], p ∈ L)
    (hM : Moves L s0 s) : Moves L s0 (acqStepped s) := by
  unfold acqStepped
  try simp only []
  repeat' first
    | with_reducible exact hM
    | (with_reducible apply Moves.leafMk; (with_reducible exact rfl); all_goals first | with_reducible exact rfl | exact Or.inl (hL _ (by decide)) | exact Or.inl rfl | exact Or.inr rfl | skip)

theorem svTrigger_moves {L : List Part} {s0 : State} (rate : Nat) (at_ : Stamp) (v : Option Int) (t : Nat) (c : TrigCfg) {s : State} (hL : ∀ p ∈ [.acq], p ∈ L)
    (hM : Moves L s0 s) : Moves L s0 (svTrigger rate at_ v t c s) := by
  unfold svTrigger
  try simp only []
  repeat' first
    | with_reducible exact hM
    | ((with_reducible apply State_setTrig_moves) <;> [exact sub_of hL (by decide); skip])
    | ((with_reducible apply condMet_moves) <;> [exact sub_of hL (by decide); skip])
    | split

theorem acqSvSample_moves {L : List Part} {s0 : State} (rate : Nat) (at_ : Stamp) (sub : Nat) (ch : Nat) (v : Option Int) {s : State} (hL : ∀ p ∈ [.acq], p ∈ L)
    (hM : Moves L s0 s) : Moves L s0 (acqSvSample rate at_ sub ch v s) := by
  unfold acqSvSample
  try simp only []
  repeat' first
    | with_reducible exact hM
    | with_reducible assumption
    | ((with_reducible apply svTrigger_moves) <;> [exact sub_of hL (by decide); skip])
    | (with_reducible refine Moves.forEach (fun a x hx => ?_) ?_)
    | split

theorem acqSvGap_moves {L : List Part} {s0 : State} (sub : Nat) {s : State} (hL : ∀ p ∈ [.acq], p ∈ L)
    (hM : Moves L s0 s) : Moves L s0 (acqSvGap sub s) := by
  unfold acqSvGap
  try simp only []
  repeat' first
    | with_reducible exact hM
    | with_reducible assumption
    | ((with_reducible apply State_setTrig_moves) <;> [exact sub_of hL (by decide); skip])
    | (with_reducible refine Moves.forEach (fun a x hx => ?_) ?_)

theorem acqStart_moves {L : List Part} {s0 : State} {s : State} (hL : ∀ p ∈ [.acq], p ∈ L)
    (hM : Moves L s0 s) : Moves L s0 (acqStart s) := by
  unfold acqStart
  try simp only []
  repeat' first
    | with_reducible exact hM
    | (with_reducible apply Moves.leafMk; (with_reducible exact rfl); all_goals first | with_reducible exact rfl | exact Or.inl (hL _ (by decide)) | exact Or.inl rfl | exact Or.inr rfl | skip)

theorem acqStop_moves {L : List Part} {s0 : State} {s : State} (hL : ∀ p ∈ [.acq], p ∈ L)
    (hM : Moves L s0 s) : Moves L s0 (acqStop s) := by
  unfold acqStop
  try simp only []
  repeat' first
    | with_reducible exact hM
    | (with_reducible apply Moves.leafMk; (with_reducible exact rfl); all_goals first | with_reducible exact rfl | exact Or.inl (hL _ (by decide)) | exact Or.inl rfl | exact Or.inr rfl | skip)

end Sys2Proof.Machine
end

