-- ==== Sys2Proof/Laws/MovesTimeBase.lean ====
section
/-! SUPPORT. What each operation of Machine/TimeBase.lean does to the whole state: the parts it leaves alone, and the invariants it keeps. -/

set_option Elab.async false

namespace Sys2Proof.Machine

open Sys2Proof

theorem newQuantum_moves {L : List Part} {s0 : State} {s : State} (hL : ∀ p ∈ [.time], p ∈ L)
    (hM : Moves L s0 s) : Moves L s0 (newQuantum s) := by
  unfold newQuantum
  try simp only []
  repeat' first
    | with_reducible exact hM
    | split
    | (with_reducible apply Moves.leafMk; (with_reducible exact rfl); all_goals first | with_reducible exact rfl | exact Or.inl (hL _ (by decide)) | exact Or.inl rfl | exact Or.inr rfl | skip)

theorem tickCounter_legal (inc : Nat) (c : Stamp) (h1 : c.sec < 2 ^ 48) (h2 : c.ns < 1000000000) (h3 : c.frac < 2 ^ 32) (h4 : inc < 2 ^ 40) :
    (tickCounter inc c).sec < 2 ^ 48 ∧ (tickCounter inc c).ns < 1000000000 ∧ (tickCounter inc c).frac < 2 ^ 32 := by
  have hq : (c.frac + inc) / 2 ^ 32 < 258 := by
    have : c.frac + inc < 258 * 2 ^ 32 := by omega
    exact Nat.div_lt_of_lt_mul (by omega)
  unfold tickCounter
  simp only []
  split
  · exact ⟨Nat.mod_lt _ (by decide), by simp only []; omega, Nat.mod_lt _ (by decide)⟩
  · exact ⟨h1, by simp only []; omega, Nat.mod_lt _ (by decide)⟩

theorem tick_moves {L : List Part} {s0 : State} {s : State} (hL : ∀ p ∈ [.standby, .conv, .time], p ∈ L)
    (hM : Moves L s0 s) : Moves L s0 (tick s) := by
  unfold tick
  have hb : Moves L s0 { s with standby := standbyTick s.standby } := by
    refine Moves.set_standby _ (hL _ (by decide)) (fun g => ?_) hM
    obtain ⟨_, _, _, _, g5, g6⟩ := g
    unfold standbyTick
    simp only []
    split
    · exact ⟨g5, g6⟩
    · split
      · exact ⟨g5, g6⟩
      · split
        · exact ⟨g5, by assumption⟩
        · exact ⟨Nat.mod_lt _ (by decide), Nat.zero_lt_succ _⟩
  simp only []
  split
  · refine drainOne_moves (sub_of hL (by decide)) (newQuantum_moves (sub_of hL (by decide)) (Moves.set_time _ (hL _ (by decide)) (fun g => ?_) hb))
    have key := tickCounter_legal s.time.inc s.time.counter g.1 g.2.1 g.2.2.1 g.2.2.2.1
    exact ⟨key.1, key.2.1, key.2.2, g.2.2.2.1⟩
  · exact hb

theorem setInc_moves {L : List Part} {s0 : State} (inc : Nat) {s : State} (hL : ∀ p ∈ [.bank, .time], p ∈ L)
    (hM : Moves L s0 s) : Moves L s0 (setInc inc s) := by
  unfold setInc
  refine State_put_moves _ _ (sub_of hL (by decide)) (Moves.set_time _ (hL _ (by decide)) (fun g => ?_) hM)
  exact ⟨g.1, g.2.1, g.2.2.1, Nat.mod_lt _ (by decide)⟩

theorem incCommit_moves {L : List Part} {s0 : State} (intNs : Nat) {s : State} (hL : ∀ p ∈ [.bank, .time, .net, .outbox], p ∈ L)
    (hM : Moves L s0 s) : Moves L s0 (incCommit intNs s) := by
  unfold incCommit
  simp only []
  split
  · rename_i hv
    refine Moves.set_time _ (hL _ (by decide)) (fun g => ⟨g.1, g.2.1, g.2.2.1, ?_⟩) hM
    have : incHi < 2 ^ 40 := by decide
    exact Nat.lt_of_le_of_lt hv.2 this
  · exact State_raise_moves _ (sub_of hL (by decide)) hM

theorem stepCounter_moves {L : List Part} {s0 : State} (ns : Int) (frac : Nat) {s : State} (hL : ∀ p ∈ [.bank, .acq, .time, .net, .outbox], p ∈ L)
    (hM : Moves L s0 s) : Moves L s0 (stepCounter ns frac s) := by
  unfold stepCounter
  simp only []
  refine Moves.set_time _ (hL _ (by decide)) (fun g => ⟨g.1, g.2.1, g.2.2.1, g.2.2.2.1⟩) ?_
  split
  · refine State_raiseIf_moves _ _ (sub_of hL (by decide)) (acqStepped_moves (sub_of hL (by decide))
      (State_raise_moves _ (sub_of hL (by decide)) (State_inc_moves _ (sub_of hL (by decide)) (Moves.set_time (x := s) _ (hL _ (by decide)) (fun g => ?_) hM))))
    exact ⟨Nat.mod_lt _ (by decide), Nat.mod_lt _ (by decide), Nat.mod_lt _ (by decide), g.2.2.2.1⟩
  · refine acqStepped_moves (sub_of hL (by decide))
      (State_raise_moves _ (sub_of hL (by decide)) (State_inc_moves _ (sub_of hL (by decide)) (Moves.set_time (x := s) _ (hL _ (by decide)) (fun g => ?_) hM)))
    exact ⟨Nat.mod_lt _ (by decide), Nat.mod_lt _ (by decide), Nat.mod_lt _ (by decide), g.2.2.2.1⟩

theorem stepWrite_moves {L : List Part} {s0 : State} (frac : Nat) {s : State} (hL : ∀ p ∈ [.bank, .acq, .time, .net, .outbox], p ∈ L)
    (hM : Moves L s0 s) : Moves L s0 (stepWrite frac s) := by
  unfold stepWrite
  try simp only []
  repeat' first
    | with_reducible exact hM
    | ((with_reducible apply stepCounter_moves) <;> [exact sub_of hL (by decide); skip])

theorem latchWrite_moves {L : List Part} {s0 : State} {s : State} (hL : ∀ p ∈ [.bank], p ∈ L)
    (hM : Moves L s0 s) : Moves L s0 (latchWrite s) := by
  unfold latchWrite
  try simp only []
  repeat' first
    | with_reducible exact hM
    | ((with_reducible apply putWords_moves) <;> [exact sub_of hL (by decide); skip])

theorem setQuality_moves {L : List Part} {s0 : State} (q : Nat) {s : State} (hL : ∀ p ∈ [.bank, .time, .net, .outbox], p ∈ L)
    (hM : Moves L s0 s) : Moves L s0 (setQuality q s) := by
  unfold setQuality
  try simp only []
  repeat' first
    | with_reducible exact hM
    | ((with_reducible apply State_raiseIf_moves) <;> [exact sub_of hL (by decide); skip])
    | (with_reducible apply Moves.leafMk; (with_reducible exact rfl); all_goals first | with_reducible exact rfl | exact Or.inl (hL _ (by decide)) | exact Or.inl rfl | exact Or.inr rfl | skip)

theorem servoDeclare_moves {L : List Part} {s0 : State} (q : Nat) (src : Nat) (port : Nat) (errNs : Nat) {s : State} (hL : ∀ p ∈ [.bank, .time, .net, .outbox], p ∈ L)
    (hM : Moves L s0 s) : Moves L s0 (servoDeclare q src port errNs s) := by
  unfold servoDeclare
  try simp only []
  repeat' first
    | with_reducible exact hM
    | ((with_reducible apply State_put_moves) <;> [exact sub_of hL (by decide); skip])
    | ((with_reducible apply State_raiseIf_moves) <;> [exact sub_of hL (by decide); skip])
    | ((with_reducible apply setQuality_moves) <;> [exact sub_of hL (by decide); skip])
    | split
    | (with_reducible apply Moves.leafMk; (with_reducible exact rfl); all_goals first | with_reducible exact rfl | exact Or.inl (hL _ (by decide)) | exact Or.inl rfl | exact Or.inr rfl | skip)

theorem loadOsc_moves {L : List Part} {s0 : State} {s : State} (hL : ∀ p ∈ [.time], p ∈ L)
    (hM : Moves L s0 s) : Moves L s0 (loadOsc s) := by
  unfold loadOsc
  try simp only []
  repeat' first
    | with_reducible exact hM
    | split
    | (with_reducible apply Moves.leafMk; (with_reducible exact rfl); all_goals first | with_reducible exact rfl | exact Or.inl (hL _ (by decide)) | exact Or.inl rfl | exact Or.inr rfl | skip)

theorem servoSteer_moves {L : List Part} {s0 : State} {s : State} (hL : ∀ p ∈ [.bank, .time, .freeCount], p ∈ L)
    (hM : Moves L s0 s) : Moves L s0 (servoSteer s) := by
  unfold servoSteer
  try simp only []
  repeat' first
    | with_reducible exact hM
    | ((with_reducible apply State_free_moves) <;> [exact sub_of hL (by decide); skip])
    | ((with_reducible apply setInc_moves) <;> [exact sub_of hL (by decide); skip])

theorem receiveStamp_moves {L : List Part} {s0 : State} (p : Port) (x : PortStamp) (sv : Bool) {s : State} (hL : ∀ p ∈ [.net], p ∈ L)
    (hM : Moves L s0 s) : Moves L s0 (receiveStamp p x sv s) := by
  unfold receiveStamp
  try simp only []
  repeat' first
    | with_reducible exact hM
    | split
    | (with_reducible apply Moves.leafMk; (with_reducible exact rfl); all_goals first | with_reducible exact rfl | exact Or.inl (hL _ (by decide)) | exact Or.inl rfl | exact Or.inr rfl | skip)

theorem State_setPtpPort_moves {L : List Part} {s0 : State} (p : Nat) (x : PtpPort) {s : State} (hL : ∀ p ∈ [.time], p ∈ L)
    (hM : Moves L s0 s) : Moves L s0 (State.setPtpPort s p x) := by
  unfold State.setPtpPort
  try simp only []
  repeat' first
    | with_reducible exact hM
    | (with_reducible apply Moves.leafMk; (with_reducible exact rfl); all_goals first | with_reducible exact rfl | exact Or.inl (hL _ (by decide)) | exact Or.inl rfl | exact Or.inr rfl | skip)

theorem servoSelect_moves {L : List Part} {s0 : State} {s : State} (hL : ∀ p ∈ [.bank, .time, .net, .outbox], p ∈ L)
    (hM : Moves L s0 s) : Moves L s0 (servoSelect s) := by
  unfold servoSelect
  try simp only []
  repeat' first
    | with_reducible exact hM
    | ((with_reducible apply servoDeclare_moves) <;> [exact sub_of hL (by decide); skip])
    | split

theorem servoFollow_moves {L : List Part} {s0 : State} (offset : Int) {s : State} (hL : ∀ p ∈ [.bank, .acq, .time, .net, .outbox, .freeCount], p ∈ L)
    (hM : Moves L s0 s) : Moves L s0 (servoFollow offset s) := by
  unfold servoFollow
  try simp only []
  repeat' first
    | with_reducible exact hM
    | ((with_reducible apply stepCounter_moves) <;> [exact sub_of hL (by decide); skip])
    | ((with_reducible apply servoSteer_moves) <;> [exact sub_of hL (by decide); skip])
    | split

theorem ptpOffset_moves {L : List Part} {s0 : State} (p : Nat) (offset : Int) {s : State} (hL : ∀ p ∈ [.bank, .acq, .time, .net, .outbox, .freeCount], p ∈ L)
    (hM : Moves L s0 s) : Moves L s0 (ptpOffset p offset s) := by
  unfold ptpOffset
  try simp only []
  repeat' first
    | with_reducible exact hM
    | ((with_reducible apply State_setPtpPort_moves) <;> [exact sub_of hL (by decide); skip])
    | ((with_reducible apply servoSelect_moves) <;> [exact sub_of hL (by decide); skip])
    | ((with_reducible apply servoFollow_moves) <;> [exact sub_of hL (by decide); skip])
    | split

theorem ptpSync_moves {L : List Part} {s0 : State} (p : Nat) (arrival : Nat) (origin : Nat) (corr : Int) {s : State} (hL : ∀ p ∈ [.bank, .acq, .time, .net, .outbox, .freeCount], p ∈ L)
    (hM : Moves L s0 s) : Moves L s0 (ptpSync p arrival origin corr s) := by
  unfold ptpSync
  try simp only []
  repeat' first
    | with_reducible exact hM
    | ((with_reducible apply ptpOffset_moves) <;> [exact sub_of hL (by decide); skip])
    | ((with_reducible apply State_setPtpPort_moves) <;> [exact sub_of hL (by decide); skip])

theorem ptpTake_moves {L : List Part} {s0 : State} (port : Port) (arrival : Nat) (b : PtpBody) {s : State} (hL : ∀ p ∈ [.bank, .acq, .time, .net, .outbox, .freeCount], p ∈ L)
    (hM : Moves L s0 s) : Moves L s0 (ptpTake port arrival b s) := by
  unfold ptpTake
  try simp only []
  repeat' first
    | with_reducible exact hM
    | ((with_reducible apply State_setPtpPort_moves) <;> [exact sub_of hL (by decide); skip])
    | ((with_reducible apply ptpSync_moves) <;> [exact sub_of hL (by decide); skip])
    | ((with_reducible apply sendOn_moves) <;> [exact sub_of hL (by decide); skip])
    | split
    | (with_reducible apply Moves.leafMk; (with_reducible exact rfl); all_goals first | with_reducible exact rfl | exact Or.inl (hL _ (by decide)) | exact Or.inl rfl | exact Or.inr rfl | skip)

theorem delayRequest_moves {L : List Part} {s0 : State} (peer : Bool) (port : Port) {s : State} (hL : ∀ p ∈ [.time, .net, .outbox], p ∈ L)
    (hM : Moves L s0 s) : Moves L s0 (delayRequest peer port s) := by
  unfold delayRequest
  try simp only []
  repeat' first
    | with_reducible exact hM
    | ((with_reducible apply sendOn_moves) <;> [exact sub_of hL (by decide); skip])
    | ((with_reducible apply State_setPtpPort_moves) <;> [exact sub_of hL (by decide); skip])

theorem masterSends_moves {L : List Part} {s0 : State} (g : GmSet) (port : Port) {s : State} (hL : ∀ p ∈ [.net, .outbox], p ∈ L)
    (hM : Moves L s0 s) : Moves L s0 (masterSends g port s) := by
  unfold masterSends
  try simp only []
  repeat' first
    | with_reducible exact hM
    | ((with_reducible apply sendOn_moves) <;> [exact sub_of hL (by decide); skip])

end Sys2Proof.Machine
end

