-- ==== Sys2Proof/Laws/MovesMpu.lean ====
section
/-! SUPPORT. What each operation of Machine/Mpu.lean does to the whole state: the parts it leaves alone, and the invariants it keeps. -/

set_option Elab.async false

namespace Sys2Proof.Machine

open Sys2Proof

theorem State_setUnit_moves {L : List Part} {s0 : State} (u : Nat) (x : Unit36) {s : State} (hL : ∀ p ∈ [.mpu], p ∈ L)
    (hM : Moves L s0 s) : Moves L s0 (State.setUnit s u x) := by
  unfold State.setUnit
  try simp only []
  repeat' first
    | with_reducible exact hM
    | (with_reducible apply Moves.leafMk; (with_reducible exact rfl); all_goals first | with_reducible exact rfl | exact Or.inl (hL _ (by decide)) | exact Or.inl rfl | exact Or.inr rfl | skip)

theorem regionWrite_moves {L : List Part} {s0 : State} (u : Nat) (set : Nat) (r : Nat) (word : Nat) (v : Nat) {s : State} (hL : ∀ p ∈ [.bank, .net, .mpu, .outbox], p ∈ L)
    (hM : Moves L s0 s) : Moves L s0 (regionWrite u set r word v s) := by
  unfold regionWrite
  try simp only []
  repeat' first
    | with_reducible exact hM
    | ((with_reducible apply State_raise_moves) <;> [exact sub_of hL (by decide); skip])
    | ((with_reducible apply State_setUnit_moves) <;> [exact sub_of hL (by decide); skip])
    | split

theorem countRefused_moves {L : List Part} {s0 : State} (u : Nat) {s : State} (hL : ∀ p ∈ [.bank], p ∈ L)
    (hM : Moves L s0 s) : Moves L s0 (countRefused u s) := by
  unfold countRefused
  try simp only []
  repeat' first
    | with_reducible exact hM
    | ((with_reducible apply State_inc_moves) <;> [exact sub_of hL (by decide); skip])

theorem releaseWrite_moves {L : List Part} {s0 : State} {s : State} (hL : ∀ p ∈ [.mpu], p ∈ L)
    (hM : Moves L s0 s) : Moves L s0 (releaseWrite s) := by
  unfold releaseWrite
  try simp only []
  repeat' first
    | with_reducible exact hM
    | (with_reducible apply Moves.leafMk; (with_reducible exact rfl); all_goals first | with_reducible exact rfl | exact Or.inl (hL _ (by decide)) | exact Or.inl rfl | exact Or.inr rfl | skip)

theorem armEnd_moves {L : List Part} {s0 : State} (u : Nat) (x : Unit36) (status : Nat) (region : Nat) {s : State} (hL : ∀ p ∈ [.bank, .net, .mpu, .outbox], p ∈ L)
    (hM : Moves L s0 s) : Moves L s0 (armEnd u x status region s) := by
  unfold armEnd
  try simp only []
  repeat' first
    | with_reducible exact hM
    | ((with_reducible apply State_raiseIf_moves) <;> [exact sub_of hL (by decide); skip])
    | ((with_reducible apply State_setUnit_moves) <;> [exact sub_of hL (by decide); skip])

theorem armWrite_moves {L : List Part} {s0 : State} (u : Nat) {s : State} (hL : ∀ p ∈ [.bank, .net, .mpu, .outbox], p ∈ L)
    (hM : Moves L s0 s) : Moves L s0 (armWrite u s) := by
  unfold armWrite
  try simp only []
  repeat' first
    | with_reducible exact hM
    | ((with_reducible apply armEnd_moves) <;> [exact sub_of hL (by decide); skip])
    | split

theorem swapWrite_moves {L : List Part} {s0 : State} (u : Nat) {s : State} (hL : ∀ p ∈ [.bank, .net, .mpu, .outbox], p ∈ L)
    (hM : Moves L s0 s) : Moves L s0 (swapWrite u s) := by
  unfold swapWrite
  try simp only []
  repeat' first
    | with_reducible exact hM
    | ((with_reducible apply armEnd_moves) <;> [exact sub_of hL (by decide); skip])
    | split

theorem noteRefusal_moves {L : List Part} {s0 : State} (u : Nat) (r : Option LaneRefusal) {s : State} (hL : ∀ p ∈ [.bank, .net, .outbox], p ∈ L)
    (hM : Moves L s0 s) : Moves L s0 (noteRefusal u r s) := by
  unfold noteRefusal
  try simp only []
  repeat' first
    | with_reducible exact hM
    | ((with_reducible apply State_raise_moves) <;> [exact sub_of hL (by decide); skip])
    | ((with_reducible apply countRefused_moves) <;> [exact sub_of hL (by decide); skip])
    | split

theorem noteRefusals_moves {L : List Part} {s0 : State} (c : Checkpoint) {s : State} (hL : ∀ p ∈ [.bank, .net, .outbox], p ∈ L)
    (hM : Moves L s0 s) : Moves L s0 (noteRefusals c s) := by
  unfold noteRefusals
  try simp only []
  repeat' first
    | with_reducible exact hM
    | ((with_reducible apply noteRefusal_moves) <;> [exact sub_of hL (by decide); skip])

theorem takeUnits_moves {L : List Part} {s0 : State} (c : Checkpoint) {s : State} (hL : ∀ p ∈ [.mpu], p ∈ L)
    (hM : Moves L s0 s) : Moves L s0 (takeUnits c s) := by
  unfold takeUnits
  try simp only []
  repeat' first
    | with_reducible exact hM
    | ((with_reducible apply State_setUnit_moves) <;> [exact sub_of hL (by decide); skip])

theorem abortTransfers_moves {L : List Part} {s0 : State} {s : State} (hL : ∀ p ∈ [.upd], p ∈ L)
    (hM : Moves L s0 s) : Moves L s0 (abortTransfers s) := by
  unfold abortTransfers
  try simp only []
  repeat' first
    | with_reducible exact hM
    | split
    | (with_reducible apply Moves.leafMk; (with_reducible exact rfl); all_goals first | with_reducible exact rfl | exact Or.inl (hL _ (by decide)) | exact Or.inl rfl | exact Or.inr rfl | skip)

theorem closeSessions_moves {L : List Part} {s0 : State} {s : State} (hL : ∀ p ∈ [.jrn, .net, .upd, .outbox], p ∈ L)
    (hM : Moves L s0 s) : Moves L s0 (closeSessions s) := by
  unfold closeSessions
  try simp only []
  repeat' first
    | with_reducible exact hM
    | with_reducible assumption
    | ((with_reducible apply State_send_moves) <;> [exact sub_of hL (by decide); skip])
    | ((with_reducible apply abortTransfers_moves) <;> [exact sub_of hL (by decide); skip])
    | (with_reducible refine Moves.forEach (fun a x hx => ?_) ?_)
    | (with_reducible apply Moves.leafMk; (with_reducible exact rfl); all_goals first | with_reducible exact rfl | exact Or.inl (hL _ (by decide)) | exact Or.inl rfl | exact Or.inr rfl | skip)

theorem mgmtRestart_moves {L : List Part} {s0 : State} {s : State} (hL : ∀ p ∈ [.bank, .jrn, .time, .net, .mpu, .upd, .panel, .mil, .outbox], p ∈ L)
    (hM : Moves L s0 s) : Moves L s0 (mgmtRestart s) := by
  unfold mgmtRestart
  try simp only []
  repeat' first
    | with_reducible exact hM
    | ((with_reducible apply closeSessions_moves) <;> [exact sub_of hL (by decide); skip])
    | ((with_reducible apply servoDeclare_moves) <;> [exact sub_of hL (by decide); skip])
    | ((with_reducible apply State_raise_moves) <;> [exact sub_of hL (by decide); skip])
    | split
    | (with_reducible apply Moves.leafMk; (with_reducible exact rfl); all_goals first | with_reducible exact rfl | exact Or.inl (hL _ (by decide)) | exact Or.inl rfl | exact Or.inr rfl | skip)

end Sys2Proof.Machine
end

