-- ==== Sys2Proof/Laws/MovesUpdate.lean ====
section
/-! SUPPORT. What each operation of Machine/Update.lean does to the whole state: the parts it leaves alone, and the invariants it keeps. -/

set_option Elab.async false

namespace Sys2Proof.Machine

open Sys2Proof

theorem State_setRegion_moves {L : List Part} {s0 : State} (r : Nat) (x : RegionRec) {s : State} (hL : ∀ p ∈ [.upd], p ∈ L)
    (hM : Moves L s0 s) : Moves L s0 (State.setRegion s r x) := by
  unfold State.setRegion
  try simp only []
  repeat' first
    | with_reducible exact hM
    | (with_reducible apply Moves.leafMk; (with_reducible exact rfl); all_goals first | with_reducible exact rfl | exact Or.inl (hL _ (by decide)) | exact Or.inl rfl | exact Or.inr rfl | skip)

theorem State_setUpdSession_moves {L : List Part} {s0 : State} (n : Nat) (x : UpdSession) {s : State} (hL : ∀ p ∈ [.upd], p ∈ L)
    (hM : Moves L s0 s) : Moves L s0 (State.setUpdSession s n x) := by
  unfold State.setUpdSession
  try simp only []
  repeat' first
    | with_reducible exact hM
    | (with_reducible apply Moves.leafMk; (with_reducible exact rfl); all_goals first | with_reducible exact rfl | exact Or.inl (hL _ (by decide)) | exact Or.inl rfl | exact Or.inr rfl | skip)

theorem terminusWrite_moves {L : List Part} {s0 : State} (r : Nat) (f : Option FwImage) {s : State} (hL : ∀ p ∈ [.upd], p ∈ L)
    (hM : Moves L s0 s) : Moves L s0 (terminusWrite r f s) := by
  unfold terminusWrite
  try simp only []
  repeat' first
    | with_reducible exact hM
    | ((with_reducible apply State_setRegion_moves) <;> [exact sub_of hL (by decide); skip])

theorem cmdEnd_moves {L : List Part} {s0 : State} (cmd : Nat) (result : Nat) {s : State} (hL : ∀ p ∈ [.bank], p ∈ L)
    (hM : Moves L s0 s) : Moves L s0 (cmdEnd cmd result s) := by
  unfold cmdEnd
  try simp only []
  repeat' first
    | with_reducible exact hM
    | ((with_reducible apply State_inc_moves) <;> [exact sub_of hL (by decide); skip])
    | ((with_reducible apply State_put_moves) <;> [exact sub_of hL (by decide); skip])

theorem updBy_moves {L : List Part} {s0 : State} (origin : Origin) (ok : Bool) (f : State → State) {s : State} (hL : ∀ p ∈ [.bank, .net, .outbox], p ∈ L)
    (hf : ∀ x, Moves L s0 x → Moves L s0 (f x)) (hM : Moves L s0 s) : Moves L s0 (updBy origin ok f s) := by
  unfold updBy
  try simp only []
  repeat' first
    | with_reducible exact hM
    | with_reducible assumption
    | ((with_reducible apply byOrigin_moves) <;> [exact sub_of hL (by decide); intro x hx; skip])
    | apply hf
    | split

theorem anchorClearCmd_moves {L : List Part} {s0 : State} {s : State} (hL : ∀ p ∈ [.bank, .mram, .net, .outbox], p ∈ L)
    (hM : Moves L s0 s) : Moves L s0 (anchorClearCmd s) := by
  unfold anchorClearCmd
  try simp only []
  repeat' first
    | with_reducible exact hM
    | ((with_reducible apply cmdEnd_moves) <;> [exact sub_of hL (by decide); skip])
    | ((with_reducible apply State_raise_moves) <;> [exact sub_of hL (by decide); skip])
    | split
    | (with_reducible apply Moves.leafMk; (with_reducible exact rfl); all_goals first | with_reducible exact rfl | exact Or.inl (hL _ (by decide)) | exact Or.inl rfl | exact Or.inr rfl | skip)

theorem attestWrite_moves {L : List Part} {s0 : State} {s : State} (hL : ∀ p ∈ [.bank, .upd], p ∈ L)
    (hM : Moves L s0 s) : Moves L s0 (attestWrite s) := by
  unfold attestWrite
  try simp only []
  repeat' first
    | with_reducible exact hM
    | ((with_reducible apply State_put_moves) <;> [exact sub_of hL (by decide); skip])
    | split
    | (with_reducible apply Moves.leafMk; (with_reducible exact rfl); all_goals first | with_reducible exact rfl | exact Or.inl (hL _ (by decide)) | exact Or.inl rfl | exact Or.inr rfl | skip)

end Sys2Proof.Machine
end

