-- ==== Sys2Proof/Laws/MovesCan.lean ====
section
/-! SUPPORT. What each operation of Machine/Can.lean does to the whole state: the parts it leaves alone, and the invariants it keeps. -/

set_option Elab.async false

namespace Sys2Proof.Machine

open Sys2Proof

theorem canHeard_moves {L : List Part} {s0 : State} (p : Nat) {s : State} (hL : ∀ p ∈ [.can0, .can1, .freeCount], p ∈ L)
    (hM : Moves L s0 s) : Moves L s0 (canHeard p s) := by
  unfold canHeard
  try simp only []
  repeat' first
    | with_reducible exact hM
    | ((with_reducible apply State_setCanPort_moves) <;> [exact sub_of hL (by decide); skip])
    | ((with_reducible apply State_free_moves) <;> [exact sub_of hL (by decide); skip])
    | split

theorem canSaid_moves {L : List Part} {s0 : State} (p : Nat) {s : State} (hL : ∀ p ∈ [.can0, .can1], p ∈ L)
    (hM : Moves L s0 s) : Moves L s0 (canSaid p s) := by
  unfold canSaid
  try simp only []
  repeat' first
    | with_reducible exact hM
    | ((with_reducible apply State_setCanPort_moves) <;> [exact sub_of hL (by decide); skip])
    | split

theorem canErr_moves {L : List Part} {s0 : State} (p : Nat) (tec : Nat) (recv : Nat) (err : Nat) {s : State} (hL : ∀ p ∈ [.can0, .can1], p ∈ L)
    (hM : Moves L s0 s) : Moves L s0 (canErr p tec recv err s) := by
  unfold canErr
  try simp only []
  repeat' first
    | with_reducible exact hM
    | ((with_reducible apply State_setCanPort_moves) <;> [exact sub_of hL (by decide); skip])

theorem State_setCanExt_moves {L : List Part} {s0 : State} (p : Nat) (x : CanExt) {s : State} (hL : ∀ p ∈ [.mil], p ∈ L)
    (hM : Moves L s0 s) : Moves L s0 (State.setCanExt s p x) := by
  unfold State.setCanExt
  try simp only []
  repeat' first
    | with_reducible exact hM
    | split
    | (with_reducible apply Moves.leafMk; (with_reducible exact rfl); all_goals first | with_reducible exact rfl | exact Or.inl (hL _ (by decide)) | exact Or.inl rfl | exact Or.inr rfl | skip)

theorem rxpopWrite_moves {L : List Part} {s0 : State} (p : Nat) {s : State} (hL : ∀ p ∈ [.bank, .net, .can0, .can1, .outbox], p ∈ L)
    (hM : Moves L s0 s) : Moves L s0 (rxpopWrite p s) := by
  unfold rxpopWrite
  try simp only []
  repeat' first
    | with_reducible exact hM
    | ((with_reducible apply State_raiseIf_moves) <;> [exact sub_of hL (by decide); skip])
    | ((with_reducible apply State_addSat_moves) <;> [exact sub_of hL (by decide); skip])
    | ((with_reducible apply State_setCanPort_moves) <;> [exact sub_of hL (by decide); skip])
    | ((with_reducible apply putWords_moves) <;> [exact sub_of hL (by decide); skip])
    | split

end Sys2Proof.Machine
end

