-- ==== Sys2Proof/Laws/MovesRing.lean ====
section
/-! SUPPORT. What each operation of Machine/Ring.lean does to the whole state: the parts it leaves alone, and the invariants it keeps. -/

set_option Elab.async false

namespace Sys2Proof.Machine

open Sys2Proof

theorem reply_moves {L : List Part} {s0 : State} (k : Nat) (reqId : Nat) (r : Reply) {s : State} (hL : ∀ p ∈ [.net, .outbox], p ∈ L)
    (hM : Moves L s0 s) : Moves L s0 (reply k reqId r s) := by
  unfold reply
  try simp only []
  repeat' first
    | with_reducible exact hM
    | ((with_reducible apply State_send_moves) <;> [exact sub_of hL (by decide); skip])
    | split
    | (with_reducible apply Moves.leafMk; (with_reducible exact rfl); all_goals first | with_reducible exact rfl | exact Or.inl (hL _ (by decide)) | exact Or.inl rfl | exact Or.inr rfl | skip)

theorem rateAdd_moves {L : List Part} {s0 : State} (n : Nat) {s : State} (hL : ∀ p ∈ [.bank, .jrn], p ∈ L)
    (hM : Moves L s0 s) : Moves L s0 (rateAdd n s) := by
  unfold rateAdd
  try simp only []
  repeat' first
    | with_reducible exact hM
    | ((with_reducible apply State_atLeast_moves) <;> [exact sub_of hL (by decide); skip])
    | ((with_reducible apply State_put_moves) <;> [exact sub_of hL (by decide); skip])
    | split
    | (with_reducible apply Moves.leafMk; (with_reducible exact rfl); all_goals first | with_reducible exact rfl | exact Or.inl (hL _ (by decide)) | exact Or.inl rfl | exact Or.inr rfl | skip)

theorem ringPut_moves {L : List Part} {s0 : State} (seq : Nat) (e : Entry) {s : State} (hL : ∀ p ∈ [.jrn, .mram], p ∈ L)
    (hM : Moves L s0 s) : Moves L s0 (ringPut seq e s) := by
  unfold ringPut
  try simp only []
  repeat' first
    | with_reducible exact hM
    | (with_reducible apply Moves.leafMk; (with_reducible exact rfl); all_goals first | with_reducible exact rfl | exact Or.inl (hL _ (by decide)) | exact Or.inl rfl | exact Or.inr rfl | skip)

theorem ringWaybill_moves {L : List Part} {s0 : State} (w : Waybill) {s : State} (hL : ∀ p ∈ [.jrn, .mram], p ∈ L)
    (hM : Moves L s0 s) : Moves L s0 (ringWaybill w s) := by
  unfold ringWaybill
  try simp only []
  repeat' first
    | with_reducible exact hM
    | with_reducible assumption
    | ((with_reducible apply ringPut_moves) <;> [exact sub_of hL (by decide); skip])
    | (with_reducible refine Moves.forEach (fun a x hx => ?_) ?_)

theorem pushWaybill_moves {L : List Part} {s0 : State} (w : Waybill) {s : State} (hL : ∀ p ∈ [.bank, .jrn, .mram], p ∈ L)
    (hM : Moves L s0 s) : Moves L s0 (pushWaybill w s) := by
  unfold pushWaybill
  try simp only []
  repeat' first
    | with_reducible exact hM
    | ((with_reducible apply ringWaybill_moves) <;> [exact sub_of hL (by decide); skip])
    | ((with_reducible apply rateAdd_moves) <;> [exact sub_of hL (by decide); skip])

theorem mirrorOut_moves {L : List Part} {s0 : State} (l : List Entry) {s : State} (hL : ∀ p ∈ [.pair, .outbox], p ∈ L)
    (hM : Moves L s0 s) : Moves L s0 (mirrorOut l s) := by
  unfold mirrorOut
  try simp only []
  repeat' first
    | with_reducible exact hM
    | ((with_reducible apply State_sendMirror_moves) <;> [exact sub_of hL (by decide); skip])
    | split

theorem carry_moves {L : List Part} {s0 : State} {s : State} (hL : ∀ p ∈ [.bank, .pair, .jrn, .mram, .outbox], p ∈ L)
    (hM : Moves L s0 s) : Moves L s0 (carry s) := by
  unfold carry
  try simp only []
  repeat' first
    | with_reducible exact hM
    | with_reducible assumption
    | ((with_reducible apply mirrorOut_moves) <;> [exact sub_of hL (by decide); skip])
    | ((with_reducible apply pushWaybill_moves) <;> [exact sub_of hL (by decide); skip])
    | (with_reducible refine Moves.forEach (fun a x hx => ?_) ?_)
    | split

theorem nearFull_moves {L : List Part} {s0 : State} (before : Nat) {s : State} (hL : ∀ p ∈ [.bank, .net, .outbox], p ∈ L)
    (hM : Moves L s0 s) : Moves L s0 (nearFull before s) := by
  unfold nearFull
  try simp only []
  repeat' first
    | with_reducible exact hM
    | ((with_reducible apply State_raiseIf_moves) <;> [exact sub_of hL (by decide); skip])

theorem setWbState_moves {L : List Part} {s0 : State} (wseq : Nat) (st : WbState) {s : State} (hL : ∀ p ∈ [.mram], p ∈ L)
    (hM : Moves L s0 s) : Moves L s0 (setWbState wseq st s) := by
  unfold setWbState
  try simp only []
  repeat' first
    | with_reducible exact hM
    | split
    | (with_reducible apply Moves.leafMk; (with_reducible exact rfl); all_goals first | with_reducible exact rfl | exact Or.inl (hL _ (by decide)) | exact Or.inl rfl | exact Or.inr rfl | skip)

theorem reportCompletion_moves {L : List Part} {s0 : State} (c : Completion) {s : State} (hL : ∀ p ∈ [.outbox], p ∈ L)
    (hM : Moves L s0 s) : Moves L s0 (reportCompletion c s) := by
  unfold reportCompletion
  try simp only []
  repeat' first
    | with_reducible exact hM
    | ((with_reducible apply State_send_moves) <;> [exact sub_of hL (by decide); skip])
    | split

theorem pushCompletion_moves {L : List Part} {s0 : State} (w : Waybill) (status : Nat) (task : Option Nat) (cycle : Nat) (result : Nat) {s : State} (hL : ∀ p ∈ [.bank, .jrn, .mram, .outbox], p ∈ L)
    (hM : Moves L s0 s) : Moves L s0 (pushCompletion w status task cycle result s) := by
  unfold pushCompletion
  try simp only []
  repeat' first
    | with_reducible exact hM
    | ((with_reducible apply reportCompletion_moves) <;> [exact sub_of hL (by decide); skip])
    | ((with_reducible apply ringPut_moves) <;> [exact sub_of hL (by decide); skip])
    | ((with_reducible apply rateAdd_moves) <;> [exact sub_of hL (by decide); skip])

theorem closeWaybill_moves {L : List Part} {s0 : State} (w : Waybill) (status : Nat) (result : Nat) {s : State} (hL : ∀ p ∈ [.bank, .pair, .jrn, .mram, .outbox], p ∈ L)
    (hM : Moves L s0 s) : Moves L s0 (closeWaybill w status result s) := by
  unfold closeWaybill
  try simp only []
  repeat' first
    | with_reducible exact hM
    | ((with_reducible apply carry_moves) <;> [exact sub_of hL (by decide); skip])
    | ((with_reducible apply mirrorOut_moves) <;> [exact sub_of hL (by decide); skip])
    | ((with_reducible apply pushCompletion_moves) <;> [exact sub_of hL (by decide); skip])

theorem expire_moves {L : List Part} {s0 : State} (w : Waybill) {s : State} (hL : ∀ p ∈ [.bank, .pair, .jrn, .mram, .net, .outbox], p ∈ L)
    (hM : Moves L s0 s) : Moves L s0 (expire w s) := by
  unfold expire
  try simp only []
  repeat' first
    | with_reducible exact hM
    | ((with_reducible apply State_raise_moves) <;> [exact sub_of hL (by decide); skip])
    | ((with_reducible apply closeWaybill_moves) <;> [exact sub_of hL (by decide); skip])
    | ((with_reducible apply setWbState_moves) <;> [exact sub_of hL (by decide); skip])

theorem limitUnconfirmed_moves {L : List Part} {s0 : State} {s : State} (hL : ∀ p ∈ [.bank, .pair, .jrn, .mram, .net, .outbox], p ∈ L)
    (hM : Moves L s0 s) : Moves L s0 (limitUnconfirmed s) := by
  unfold limitUnconfirmed
  try simp only []
  repeat' first
    | with_reducible exact hM
    | ((with_reducible apply expire_moves) <;> [exact sub_of hL (by decide); skip])
    | split

theorem clientSaw_moves {L : List Part} {s0 : State} (id : Nat) (seq : Nat) (accepted : Option Accepted) {s : State} (hL : ∀ p ∈ [.jrn], p ∈ L)
    (hM : Moves L s0 s) : Moves L s0 (clientSaw id seq accepted s) := by
  unfold clientSaw
  try simp only []
  repeat' first
    | with_reducible exact hM
    | split
    | (with_reducible apply Moves.leafMk; (with_reducible exact rfl); all_goals first | with_reducible exact rfl | exact Or.inl (hL _ (by decide)) | exact Or.inl rfl | exact Or.inr rfl | skip)

theorem answerWaiters_moves {L : List Part} {s0 : State} (wseq : Nat) (r : Reply) {s : State} (hL : ∀ p ∈ [.jrn, .net, .outbox], p ∈ L)
    (hM : Moves L s0 s) : Moves L s0 (answerWaiters wseq r s) := by
  unfold answerWaiters
  try simp only []
  repeat' first
    | with_reducible exact hM
    | with_reducible assumption
    | ((with_reducible apply reply_moves) <;> [exact sub_of hL (by decide); skip])
    | (with_reducible refine Moves.forEach (fun a x hx => ?_) ?_)
    | (with_reducible apply Moves.leafMk; (with_reducible exact rfl); all_goals first | with_reducible exact rfl | exact Or.inl (hL _ (by decide)) | exact Or.inl rfl | exact Or.inr rfl | skip)

theorem acceptWaybill_moves {L : List Part} {s0 : State} (wseq : Nat) (st : WbState) {s : State} (hL : ∀ p ∈ [.bank, .jrn, .mram, .net, .outbox], p ∈ L)
    (hM : Moves L s0 s) : Moves L s0 (acceptWaybill wseq st s) := by
  unfold acceptWaybill
  try simp only []
  repeat' first
    | with_reducible exact hM
    | with_reducible assumption
    | ((with_reducible apply setWbState_moves) <;> [exact sub_of hL (by decide); skip])
    | ((with_reducible apply clientSaw_moves) <;> [exact sub_of hL (by decide); skip])
    | ((with_reducible apply State_raiseIf_moves) <;> [exact sub_of hL (by decide); skip])
    | ((with_reducible apply answerWaiters_moves) <;> [exact sub_of hL (by decide); skip])
    | (with_reducible refine Moves.forEach (fun a x hx => ?_) ?_)
    | split

theorem withoutPartner_moves {L : List Part} {s0 : State} (wseq : Nat) {s : State} (hL : ∀ p ∈ [.bank, .jrn, .mram, .net, .outbox], p ∈ L)
    (hM : Moves L s0 s) : Moves L s0 (withoutPartner wseq s) := by
  unfold withoutPartner
  try simp only []
  repeat' first
    | with_reducible exact hM
    | ((with_reducible apply acceptWaybill_moves) <;> [exact sub_of hL (by decide); skip])
    | ((with_reducible apply answerWaiters_moves) <;> [exact sub_of hL (by decide); skip])
    | split

theorem mirrorStep_moves {L : List Part} {s0 : State} (w : Waybill) {s : State} (hL : ∀ p ∈ [.bank, .pair, .jrn, .mram, .net, .outbox], p ∈ L)
    (hM : Moves L s0 s) : Moves L s0 (mirrorStep w s) := by
  unfold mirrorStep
  try simp only []
  repeat' first
    | with_reducible exact hM
    | ((with_reducible apply State_sendMirror_moves) <;> [exact sub_of hL (by decide); skip])
    | ((with_reducible apply withoutPartner_moves) <;> [exact sub_of hL (by decide); skip])
    | split

theorem newWaybill_moves {L : List Part} {s0 : State} (k : Nat) (reqId : Nat) (origin : WbOrigin) (clientId : Nat) (clientSeq : Nat) (work : Work) (target : Option Nat) (old : Option Nat) {s : State} (hL : ∀ p ∈ [.bank, .pair, .jrn, .mram, .net, .outbox], p ∈ L)
    (hM : Moves L s0 s) : Moves L s0 (newWaybill k reqId origin clientId clientSeq work target old s) := by
  unfold newWaybill
  try simp only []
  repeat' first
    | with_reducible exact hM
    | ((with_reducible apply clientSaw_moves) <;> [exact sub_of hL (by decide); skip])
    | ((with_reducible apply pushWaybill_moves) <;> [exact sub_of hL (by decide); skip])
    | ((with_reducible apply mirrorStep_moves) <;> [exact sub_of hL (by decide); skip])
    | ((with_reducible apply carry_moves) <;> [exact sub_of hL (by decide); skip])
    | ((with_reducible apply nearFull_moves) <;> [exact sub_of hL (by decide); skip])
    | ((with_reducible apply limitUnconfirmed_moves) <;> [exact sub_of hL (by decide); skip])
    | (with_reducible apply Moves.leafMk; (with_reducible exact rfl); all_goals first | with_reducible exact rfl | exact Or.inl (hL _ (by decide)) | exact Or.inl rfl | exact Or.inr rfl | skip)

theorem journalSubmit_moves {L : List Part} {s0 : State} (k : Nat) (reqId : Nat) (origin : WbOrigin) (clientId : Nat) (clientSeq : Nat) (work : Work) (target : Option Nat) {s : State} (hL : ∀ p ∈ [.bank, .pair, .jrn, .mram, .net, .outbox], p ∈ L)
    (hM : Moves L s0 s) : Moves L s0 (journalSubmit k reqId origin clientId clientSeq work target s) := by
  unfold journalSubmit
  try simp only []
  repeat' first
    | with_reducible exact hM
    | ((with_reducible apply State_raise_moves) <;> [exact sub_of hL (by decide); skip])
    | ((with_reducible apply State_inc_moves) <;> [exact sub_of hL (by decide); skip])
    | ((with_reducible apply reply_moves) <;> [exact sub_of hL (by decide); skip])
    | ((with_reducible apply clientSaw_moves) <;> [exact sub_of hL (by decide); skip])
    | ((with_reducible apply newWaybill_moves) <;> [exact sub_of hL (by decide); skip])
    | split
    | (with_reducible apply Moves.leafMk; (with_reducible exact rfl); all_goals first | with_reducible exact rfl | exact Or.inl (hL _ (by decide)) | exact Or.inl rfl | exact Or.inr rfl | skip)

end Sys2Proof.Machine
end

