-- ==== Sys2Proof/Laws/MovesInputs.lean ====
section
/-! SUPPORT. What each operation of Machine/Inputs.lean does to the whole state: the parts it leaves alone, and the invariants it keeps. -/

set_option Elab.async false

namespace Sys2Proof.Machine

open Sys2Proof

theorem applyTagOps_moves {L : List Part} {s0 : State} (ops : List TagOp) {s : State} (hL : ∀ p ∈ [.ctl, .acq], p ∈ L)
    (hM : Moves L s0 s) : Moves L s0 (applyTagOps ops s) := by
  unfold applyTagOps
  try simp only []
  repeat' first
    | with_reducible exact hM
    | with_reducible assumption
    | ((with_reducible apply acqTagChanged_moves) <;> [exact sub_of hL (by decide); skip])
    | (with_reducible refine Moves.forEach (fun a x hx => ?_) ?_)
    | (with_reducible refine Moves.foldl (fun a x hx => ?_) ?_)
    | split
    | (with_reducible apply Moves.leafMk; (with_reducible exact rfl); all_goals first | with_reducible exact rfl | exact Or.inl (hL _ (by decide)) | exact Or.inl rfl | exact Or.inr rfl | skip)

end Sys2Proof.Machine
end

