-- ==== Sys2Proof/Laws/MovesPanel.lean ====
section
/-! SUPPORT. What each operation of Machine/Panel.lean does to the whole state: the parts it leaves alone, and the invariants it keeps. -/

set_option Elab.async false

namespace Sys2Proof.Machine

open Sys2Proof

theorem fpApplyHeld_moves {L : List Part} {s0 : State} {s : State} (hL : ∀ p ∈ [.bank, .heldWrites], p ∈ L)
    (hM : Moves L s0 s) : Moves L s0 (fpApplyHeld s) := by
  unfold fpApplyHeld
  try simp only []
  repeat' first
    | with_reducible exact hM
    | with_reducible assumption
    | ((with_reducible apply State_put_moves) <;> [exact sub_of hL (by decide); skip])
    | (with_reducible refine Moves.forEach (fun a x hx => ?_) ?_)
    | (with_reducible apply Moves.leafMk; (with_reducible exact rfl); all_goals first | with_reducible exact rfl | exact Or.inl (hL _ (by decide)) | exact Or.inl rfl | exact Or.inr rfl | skip)

theorem panelOff_moves {L : List Part} {s0 : State} {s : State} (hL : ∀ p ∈ [.panel], p ∈ L)
    (hM : Moves L s0 s) : Moves L s0 (panelOff s) := by
  unfold panelOff
  try simp only []
  repeat' first
    | with_reducible exact hM
    | (with_reducible apply Moves.leafMk; (with_reducible exact rfl); all_goals first | with_reducible exact rfl | exact Or.inl (hL _ (by decide)) | exact Or.inl rfl | exact Or.inr rfl | skip)

theorem panelOn_moves {L : List Part} {s0 : State} {s : State} (hL : ∀ p ∈ [.panel], p ∈ L)
    (hM : Moves L s0 s) : Moves L s0 (panelOn s) := by
  unfold panelOn
  try simp only []
  repeat' first
    | with_reducible exact hM
    | (with_reducible apply Moves.leafMk; (with_reducible exact rfl); all_goals first | with_reducible exact rfl | exact Or.inl (hL _ (by decide)) | exact Or.inl rfl | exact Or.inr rfl | skip)

theorem State_setMseries_moves {L : List Part} {s0 : State} (k : Nat) (x : Series) {s : State} (hL : ∀ p ∈ [.mil], p ∈ L)
    (hM : Moves L s0 s) : Moves L s0 (State.setMseries s k x) := by
  unfold State.setMseries
  try simp only []
  repeat' first
    | with_reducible exact hM
    | (with_reducible apply Moves.leafMk; (with_reducible exact rfl); all_goals first | with_reducible exact rfl | exact Or.inl (hL _ (by decide)) | exact Or.inl rfl | exact Or.inr rfl | skip)

theorem foldSample_moves {L : List Part} {s0 : State} (e : Nat × Int × Nat) {s : State} (hL : ∀ p ∈ [.mil], p ∈ L)
    (hM : Moves L s0 s) : Moves L s0 (foldSample e s) := by
  unfold foldSample
  try simp only []
  repeat' first
    | with_reducible exact hM
    | ((with_reducible apply State_setMseries_moves) <;> [exact sub_of hL (by decide); skip])
    | split

theorem foldAll_moves {L : List Part} {s0 : State} {s : State} (hL : ∀ p ∈ [.mil], p ∈ L)
    (hM : Moves L s0 s) : Moves L s0 (foldAll s) := by
  unfold foldAll
  try simp only []
  repeat' first
    | with_reducible exact hM
    | with_reducible assumption
    | ((with_reducible apply foldSample_moves) <;> [exact sub_of hL (by decide); skip])
    | (with_reducible refine Moves.forEach (fun a x hx => ?_) ?_)
    | (with_reducible apply Moves.leafMk; (with_reducible exact rfl); all_goals first | with_reducible exact rfl | exact Or.inl (hL _ (by decide)) | exact Or.inl rfl | exact Or.inr rfl | skip)

theorem dropOld_moves {L : List Part} {s0 : State} {s : State} (hL : ∀ p ∈ [.bank, .net, .mil, .outbox], p ∈ L)
    (hM : Moves L s0 s) : Moves L s0 (dropOld s) := by
  unfold dropOld
  try simp only []
  repeat' first
    | with_reducible exact hM
    | with_reducible assumption
    | ((with_reducible apply State_setMseries_moves) <;> [exact sub_of hL (by decide); skip])
    | ((with_reducible apply State_raiseIf_moves) <;> [exact sub_of hL (by decide); skip])
    | (with_reducible refine Moves.forEach (fun a x hx => ?_) ?_)
    | (with_reducible apply Moves.leafMk; (with_reducible exact rfl); all_goals first | with_reducible exact rfl | exact Or.inl (hL _ (by decide)) | exact Or.inl rfl | exact Or.inr rfl | skip)

theorem hourlyWrite_moves {L : List Part} {s0 : State} {s : State} (hL : ∀ p ∈ [.bank, .net, .mil, .outbox], p ∈ L)
    (hM : Moves L s0 s) : Moves L s0 (hourlyWrite s) := by
  unfold hourlyWrite
  try simp only []
  repeat' first
    | with_reducible exact hM
    | ((with_reducible apply State_raise_moves) <;> [exact sub_of hL (by decide); skip])
    | (with_reducible apply Moves.leafMk; (with_reducible exact rfl); all_goals first | with_reducible exact rfl | exact Or.inl (hL _ (by decide)) | exact Or.inl rfl | exact Or.inr rfl | skip)

theorem milSelWrite_moves {L : List Part} {s0 : State} (series : Nat) (live : Bool) {s : State} (hL : ∀ p ∈ [.bank], p ∈ L)
    (hM : Moves L s0 s) : Moves L s0 (milSelWrite series live s) := by
  unfold milSelWrite
  try simp only []
  repeat' first
    | with_reducible exact hM
    | ((with_reducible apply State_put_moves) <;> [exact sub_of hL (by decide); skip])
    | ((with_reducible apply putWords_moves) <;> [exact sub_of hL (by decide); skip])

end Sys2Proof.Machine
end

