-- ==== Sys2Proof/Laws/MovesPersist.lean ====
section
/-! SUPPORT. What each operation of Machine/Persist.lean does to the whole state: the parts it leaves alone, and the invariants it keeps. -/

set_option Elab.async false

namespace Sys2Proof.Machine

open Sys2Proof

theorem writeMark_moves {L : List Part} {s0 : State} (task : Nat) (cycle : Nat) (watermark : Nat) (high : Nat) {s : State} (hL : ∀ p ∈ [.mram], p ∈ L)
    (hM : Moves L s0 s) : Moves L s0 (writeMark task cycle watermark high s) := by
  unfold writeMark
  try simp only []
  repeat' first
    | with_reducible exact hM
    | (with_reducible apply Moves.leafMk; (with_reducible exact rfl); all_goals first | with_reducible exact rfl | exact Or.inl (hL _ (by decide)) | exact Or.inl rfl | exact Or.inr rfl | skip)

theorem writePlr_moves {L : List Part} {s0 : State} {s : State} (hL : ∀ p ∈ [.mram], p ∈ L)
    (hM : Moves L s0 s) : Moves L s0 (writePlr s) := by
  unfold writePlr
  try simp only []
  repeat' first
    | with_reducible exact hM
    | split
    | (with_reducible apply Moves.leafMk; (with_reducible exact rfl); all_goals first | with_reducible exact rfl | exact Or.inl (hL _ (by decide)) | exact Or.inl rfl | exact Or.inr rfl | skip)

theorem writeSnapshot_moves {L : List Part} {s0 : State} {s : State} (hL : ∀ p ∈ [.mram], p ∈ L)
    (hM : Moves L s0 s) : Moves L s0 (writeSnapshot s) := by
  unfold writeSnapshot
  try simp only []
  repeat' first
    | with_reducible exact hM
    | split
    | (with_reducible apply Moves.leafMk; (with_reducible exact rfl); all_goals first | with_reducible exact rfl | exact Or.inl (hL _ (by decide)) | exact Or.inl rfl | exact Or.inr rfl | skip)

theorem writeCheckpoint_moves {L : List Part} {s0 : State} {s : State} (hL : ∀ p ∈ [.mram], p ∈ L)
    (hM : Moves L s0 s) : Moves L s0 (writeCheckpoint s) := by
  unfold writeCheckpoint
  try simp only []
  repeat' first
    | with_reducible exact hM
    | (with_reducible apply Moves.leafMk; (with_reducible exact rfl); all_goals first | with_reducible exact rfl | exact Or.inl (hL _ (by decide)) | exact Or.inl rfl | exact Or.inr rfl | skip)

theorem restoreTasks_moves {L : List Part} {s0 : State} (i : Image) {s : State} (hL : ∀ p ∈ [.tasks], p ∈ L)
    (hM : Moves L s0 s) : Moves L s0 (restoreTasks i s) := by
  unfold restoreTasks
  try simp only []
  repeat' first
    | with_reducible exact hM
    | split
    | (with_reducible apply Moves.leafMk; (with_reducible exact rfl); all_goals first | with_reducible exact rfl | exact Or.inl (hL _ (by decide)) | exact Or.inl rfl | exact Or.inr rfl | skip)

theorem restoreWarm_moves {L : List Part} {s0 : State} (i : Image) (x : Saved) {s : State} (hL : ∀ p ∈ [.ctl, .mram], p ∈ L)
    (hM : Moves L s0 s) : Moves L s0 (restoreWarm i x s) := by
  unfold restoreWarm
  try simp only []
  repeat' first
    | with_reducible exact hM
    | split
    | (with_reducible apply Moves.leafMk; (with_reducible exact rfl); all_goals first | with_reducible exact rfl | exact Or.inl (hL _ (by decide)) | exact Or.inl rfl | exact Or.inr rfl | skip)

theorem restoreCold_moves {L : List Part} {s0 : State} (i : Image) {s : State} (hL : ∀ p ∈ [.ctl, .mram], p ∈ L)
    (hM : Moves L s0 s) : Moves L s0 (restoreCold i s) := by
  unfold restoreCold
  try simp only []
  repeat' first
    | with_reducible exact hM
    | split
    | (with_reducible apply Moves.leafMk; (with_reducible exact rfl); all_goals first | with_reducible exact rfl | exact Or.inl (hL _ (by decide)) | exact Or.inl rfl | exact Or.inr rfl | skip)

theorem restoreState_moves {L : List Part} {s0 : State} (i : Image) {s : State} (hL : ∀ p ∈ [.pair, .tasks, .ctl, .mram], p ∈ L)
    (hM : Moves L s0 s) : Moves L s0 (restoreState i s) := by
  unfold restoreState
  try simp only []
  repeat' first
    | with_reducible exact hM
    | ((with_reducible apply restoreTasks_moves) <;> [exact sub_of hL (by decide); skip])
    | ((with_reducible apply restoreWarm_moves) <;> [exact sub_of hL (by decide); skip])
    | ((with_reducible apply restoreCold_moves) <;> [exact sub_of hL (by decide); skip])
    | split
    | (with_reducible apply Moves.leafMk; (with_reducible exact rfl); all_goals first | with_reducible exact rfl | exact Or.inl (hL _ (by decide)) | exact Or.inl rfl | exact Or.inr rfl | skip)

theorem replayEntry_moves {L : List Part} {s0 : State} (e : Entry) {s : State} (hL : ∀ p ∈ [.jrn], p ∈ L)
    (hM : Moves L s0 s) : Moves L s0 (replayEntry e s) := by
  unfold replayEntry
  try simp only []
  repeat' first
    | with_reducible exact hM
    | ((with_reducible apply clientSaw_moves) <;> [exact sub_of hL (by decide); skip])
    | split

theorem recoverDelivered_moves {L : List Part} {s0 : State} (w : Waybill) {s : State} (hL : ∀ p ∈ [.bank, .jrn, .mram, .net, .outbox], p ∈ L)
    (hM : Moves L s0 s) : Moves L s0 (recoverDelivered w s) := by
  unfold recoverDelivered
  try simp only []
  repeat' first
    | with_reducible exact hM
    | ((with_reducible apply pushCompletion_moves) <;> [exact sub_of hL (by decide); skip])
    | ((with_reducible apply State_raise_moves) <;> [exact sub_of hL (by decide); skip])
    | split

theorem recoverOne_moves {L : List Part} {s0 : State} (w : Waybill) {s : State} (hL : ∀ p ∈ [.bank, .jrn, .mram, .net, .outbox], p ∈ L)
    (hM : Moves L s0 s) : Moves L s0 (recoverOne w s) := by
  unfold recoverOne
  try simp only []
  repeat' first
    | with_reducible exact hM
    | ((with_reducible apply setWbState_moves) <;> [exact sub_of hL (by decide); skip])
    | ((with_reducible apply recoverDelivered_moves) <;> [exact sub_of hL (by decide); skip])
    | split

theorem healStateWords_moves {L : List Part} {s0 : State} {s : State} (hL : ∀ p ∈ [.bank, .mram, .net, .outbox], p ∈ L)
    (hM : Moves L s0 s) : Moves L s0 (healStateWords s) := by
  unfold healStateWords
  try simp only []
  repeat' first
    | with_reducible exact hM
    | with_reducible assumption
    | ((with_reducible apply setWbState_moves) <;> [exact sub_of hL (by decide); skip])
    | ((with_reducible apply State_raiseIf_moves) <;> [exact sub_of hL (by decide); skip])
    | (with_reducible refine Moves.forEach (fun a x hx => ?_) ?_)

theorem noteTorn_moves {L : List Part} {s0 : State} {s : State} (hL : ∀ p ∈ [.bank, .net, .outbox], p ∈ L)
    (hM : Moves L s0 s) : Moves L s0 (noteTorn s) := by
  unfold noteTorn
  try simp only []
  repeat' first
    | with_reducible exact hM
    | ((with_reducible apply State_raiseIf_moves) <;> [exact sub_of hL (by decide); skip])

theorem recoverJournal_moves {L : List Part} {s0 : State} {s : State} (hL : ∀ p ∈ [.bank, .jrn, .mram, .net, .outbox], p ∈ L)
    (hM : Moves L s0 s) : Moves L s0 (recoverJournal s) := by
  unfold recoverJournal
  try simp only []
  repeat' first
    | with_reducible exact hM
    | with_reducible assumption
    | ((with_reducible apply noteTorn_moves) <;> [exact sub_of hL (by decide); skip])
    | ((with_reducible apply healStateWords_moves) <;> [exact sub_of hL (by decide); skip])
    | ((with_reducible apply replayEntry_moves) <;> [exact sub_of hL (by decide); skip])
    | ((with_reducible apply recoverOne_moves) <;> [exact sub_of hL (by decide); skip])
    | ((with_reducible apply State_put_moves) <;> [exact sub_of hL (by decide); skip])
    | ((with_reducible apply State_raiseIf_moves) <;> [exact sub_of hL (by decide); skip])
    | (with_reducible refine Moves.forEach (fun a x hx => ?_) ?_)
    | (with_reducible apply Moves.leafMk; (with_reducible exact rfl); all_goals first | with_reducible exact rfl | exact Or.inl (hL _ (by decide)) | exact Or.inl rfl | exact Or.inr rfl | skip)

theorem spoil_moves {L : List Part} {s0 : State} (x : MramSite) {s : State} (hL : ∀ p ∈ [.mram, .conv, .upd, .mil], p ∈ L)
    (hM : Moves L s0 s) : Moves L s0 (spoil x s) := by
  unfold spoil
  try simp only []
  repeat' first
    | with_reducible exact hM
    | ((with_reducible apply State_setRegion_moves) <;> [exact sub_of hL (by decide); skip])
    | ((with_reducible apply State_setUpdSession_moves) <;> [exact sub_of hL (by decide); skip])
    | split
    | (with_reducible apply Moves.leafMk; (with_reducible exact rfl); all_goals first | with_reducible exact rfl | exact Or.inl (hL _ (by decide)) | exact Or.inl rfl | exact Or.inr rfl | skip)

theorem spoilAt_moves {L : List Part} {s0 : State} (a : Nat) {s : State} (hL : ∀ p ∈ [.mram, .conv, .upd, .mil], p ∈ L)
    (hM : Moves L s0 s) : Moves L s0 (spoilAt a s) := by
  unfold spoilAt
  try simp only []
  repeat' first
    | with_reducible exact hM
    | ((with_reducible apply spoil_moves) <;> [exact sub_of hL (by decide); skip])
    | split

theorem tearAll_moves {L : List Part} {s0 : State} (l : List MramSite) {s : State} (hL : ∀ p ∈ [.mram, .conv, .upd, .mil], p ∈ L)
    (hM : Moves L s0 s) : Moves L s0 (tearAll l s) := by
  unfold tearAll
  try simp only []
  repeat' first
    | with_reducible exact hM
    | with_reducible assumption
    | ((with_reducible apply spoil_moves) <;> [exact sub_of hL (by decide); skip])
    | (with_reducible refine Moves.forEach (fun a x hx => ?_) ?_)

end Sys2Proof.Machine
end

