-- ==== Sys2Proof/Laws/MovesStart.lean ====
section
/-! SUPPORT. What each operation of Machine/Start.lean does to the whole state: the parts it leaves alone, and the invariants it keeps. -/

set_option Elab.async false

namespace Sys2Proof.Machine

open Sys2Proof

theorem writeFault_moves {L : List Part} {s0 : State} (f : FaultRec) {s : State} (hL : ∀ p ∈ [.mram], p ∈ L)
    (hM : Moves L s0 s) : Moves L s0 (writeFault f s) := by
  unfold writeFault
  try simp only []
  repeat' first
    | with_reducible exact hM
    | (with_reducible apply Moves.leafMk; (with_reducible exact rfl); all_goals first | with_reducible exact rfl | exact Or.inl (hL _ (by decide)) | exact Or.inl rfl | exact Or.inr rfl | skip)

theorem retireMark_moves {L : List Part} {s0 : State} (n : Nat) {s : State} (hL : ∀ p ∈ [.bank, .lanes, .mram], p ∈ L)
    (hM : Moves L s0 s) : Moves L s0 (retireMark n s) := by
  unfold retireMark
  try simp only []
  repeat' first
    | with_reducible exact hM
    | ((with_reducible apply State_setLane_moves) <;> [exact sub_of hL (by decide); skip])
    | ((with_reducible apply State_inc_moves) <;> [exact sub_of hL (by decide); skip])
    | split
    | (with_reducible apply Moves.leafMk; (with_reducible exact rfl); all_goals first | with_reducible exact rfl | exact Or.inl (hL _ (by decide)) | exact Or.inl rfl | exact Or.inr rfl | skip)

theorem milResume_moves {L : List Part} {s0 : State} {s : State} (hL : ∀ p ∈ [.bank, .net, .mil, .outbox], p ∈ L)
    (hM : Moves L s0 s) : Moves L s0 (milResume s) := by
  unfold milResume
  try simp only []
  repeat' first
    | with_reducible exact hM
    | ((with_reducible apply State_raise_moves) <;> [exact sub_of hL (by decide); skip])
    | split
    | (with_reducible apply Moves.leafMk; (with_reducible exact rfl); all_goals first | with_reducible exact rfl | exact Or.inl (hL _ (by decide)) | exact Or.inl rfl | exact Or.inr rfl | skip)

theorem clearWorking_moves {L : List Part} {s0 : State} {s : State} (hL : ∀ p ∈ [.mode, .bank, .heldWrites, .shadows, .carrier, .start, .claim, .pair, .tasks, .lanes, .ctl, .jrn, .exch, .sbox, .chans, .conv, .acq, .time, .net, .can0, .can1, .mpu, .upd, .panel], p ∈ L)
    (hM : Moves L s0 s) : Moves L s0 (clearWorking s) := by
  refine ⟨fun p hp => ?_, fun _ => ?_, fun g => ?_, fun g k => ?_⟩
  · have := hM.keeps p hp
    cases p <;> first | exact this | exact absurd (hL _ (by decide)) hp
  · show Tab.wf 0 State.resetBank = true
    decide
  · obtain ⟨_, _, _, _, h5, h6⟩ := hM.clock g
    refine ⟨?_, ?_, ?_, ?_, h5, h6⟩
    · show (0 : Nat) < 2 ^ 48
      decide
    · show (0 : Nat) < 1000000000
      decide
    · show (0 : Nat) < 2 ^ 32
      decide
    · show (8 * 2 ^ 32 : Nat) < 2 ^ 40
      decide
  · exact absurd k (by simp [clearWorking, Claim.reset])

theorem startHold_moves {L : List Part} {s0 : State} (code : Nat) {s : State} (hL : ∀ p ∈ [.bank, .net, .outbox], p ∈ L)
    (hM : Moves L s0 s) : Moves L s0 (startHold code s) := by
  unfold startHold
  try simp only []
  repeat' first
    | with_reducible exact hM
    | ((with_reducible apply State_raiseIf_moves) <;> [exact sub_of hL (by decide); skip])
    | ((with_reducible apply State_put_moves) <;> [exact sub_of hL (by decide); skip])

theorem startNotice_moves {L : List Part} {s0 : State} (k : Nat) {s : State} (hL : ∀ p ∈ [.bank, .net, .outbox], p ∈ L)
    (hM : Moves L s0 s) : Moves L s0 (startNotice k s) := by
  unfold startNotice
  try simp only []
  repeat' first
    | with_reducible exact hM
    | ((with_reducible apply State_raise_moves) <;> [exact sub_of hL (by decide); skip])
    | ((with_reducible apply State_put_moves) <;> [exact sub_of hL (by decide); skip])
    | split

theorem exchangeSlots_moves {L : List Part} {s0 : State} (r : Nat) {s : State} (hL : ∀ p ∈ [.bank, .net, .upd, .outbox], p ∈ L)
    (hM : Moves L s0 s) : Moves L s0 (exchangeSlots r s) := by
  unfold exchangeSlots
  try simp only []
  repeat' first
    | with_reducible exact hM
    | ((with_reducible apply State_setRegion_moves) <;> [exact sub_of hL (by decide); skip])
    | ((with_reducible apply State_setUpdSession_moves) <;> [exact sub_of hL (by decide); skip])
    | ((with_reducible apply State_raise_moves) <;> [exact sub_of hL (by decide); skip])
    | split

theorem fwAttempt_moves {L : List Part} {s0 : State} (r : Nat) {s : State} (hL : ∀ p ∈ [.bank, .net, .upd, .outbox], p ∈ L)
    (hM : Moves L s0 s) : Moves L s0 (fwAttempt r s) := by
  unfold fwAttempt
  try simp only []
  repeat' first
    | with_reducible exact hM
    | ((with_reducible apply State_setRegion_moves) <;> [exact sub_of hL (by decide); skip])
    | ((with_reducible apply exchangeSlots_moves) <;> [exact sub_of hL (by decide); skip])
    | split

theorem startEffect_moves {L : List Part} {s0 : State} (r : Nat) {s : State} (hL : ∀ p ∈ [.bank, .net, .upd, .outbox], p ∈ L)
    (hM : Moves L s0 s) : Moves L s0 (startEffect r s) := by
  unfold startEffect
  try simp only []
  repeat' first
    | with_reducible exact hM
    | ((with_reducible apply State_setUpdSession_moves) <;> [exact sub_of hL (by decide); skip])
    | ((with_reducible apply State_raise_moves) <;> [exact sub_of hL (by decide); skip])
    | ((with_reducible apply State_setRegion_moves) <;> [exact sub_of hL (by decide); skip])
    | split

theorem fwCheck_moves {L : List Part} {s0 : State} (r : Nat) {s : State} (hL : ∀ p ∈ [.bank, .net, .upd, .outbox], p ∈ L)
    (hM : Moves L s0 s) : Moves L s0 (fwCheck r s).2 := by
  unfold fwCheck
  try simp only []
  repeat' first
    | with_reducible exact hM
    | ((with_reducible apply fwAttempt_moves) <;> [exact sub_of hL (by decide); skip])
    | ((with_reducible apply startEffect_moves) <;> [exact sub_of hL (by decide); skip])
    | ((with_reducible apply exchangeSlots_moves) <;> [exact sub_of hL (by decide); skip])
    | split

theorem replaceLane_moves {L : List Part} {s0 : State} (e : Nat × Nat) {s : State} (hL : ∀ p ∈ [.bank, .lanes, .net, .outbox], p ∈ L)
    (hM : Moves L s0 s) : Moves L s0 (replaceLane e s) := by
  unfold replaceLane
  try simp only []
  repeat' first
    | with_reducible exact hM
    | ((with_reducible apply State_raise_moves) <;> [exact sub_of hL (by decide); skip])
    | ((with_reducible apply State_setLane_moves) <;> [exact sub_of hL (by decide); skip])
    | split

theorem placeLanes_moves {L : List Part} {s0 : State} (i : Image) {s : State} (hL : ∀ p ∈ [.bank, .lanes, .net, .outbox], p ∈ L)
    (hM : Moves L s0 s) : Moves L s0 (placeLanes i s) := by
  unfold placeLanes
  try simp only []
  repeat' first
    | with_reducible exact hM
    | with_reducible assumption
    | ((with_reducible apply State_setLane_moves) <;> [exact sub_of hL (by decide); skip])
    | ((with_reducible apply replaceLane_moves) <;> [exact sub_of hL (by decide); skip])
    | ((with_reducible apply State_raiseIf_moves) <;> [exact sub_of hL (by decide); skip])
    | (with_reducible refine Moves.forEach (fun a x hx => ?_) ?_)
    | split
    | (with_reducible apply Moves.leafMk; (with_reducible exact rfl); all_goals first | with_reducible exact rfl | exact Or.inl (hL _ (by decide)) | exact Or.inl rfl | exact Or.inr rfl | skip)

theorem loadImage_moves {L : List Part} {s0 : State} (i : Image) {s : State} (hL : ∀ p ∈ [.bank, .start, .lanes, .sbox, .chans, .conv, .acq, .net, .outbox], p ∈ L)
    (hM : Moves L s0 s) : Moves L s0 (loadImage i s) := by
  unfold loadImage
  try simp only []
  repeat' first
    | with_reducible exact hM
    | with_reducible assumption
    | ((with_reducible apply placeLanes_moves) <;> [exact sub_of hL (by decide); skip])
    | ((with_reducible apply State_setChan_moves) <;> [exact sub_of hL (by decide); skip])
    | ((with_reducible apply acqStart_moves) <;> [exact sub_of hL (by decide); skip])
    | (with_reducible refine Moves.forEach (fun a x hx => ?_) ?_)
    | split
    | (with_reducible apply Moves.leafMk; (with_reducible exact rfl); all_goals first | with_reducible exact rfl | exact Or.inl (hL _ (by decide)) | exact Or.inl rfl | exact Or.inr rfl | skip)

theorem clearForeign_moves {L : List Part} {s0 : State} (pairId : Nat) {s : State} (hL : ∀ p ∈ [.bank, .mram, .net, .outbox], p ∈ L)
    (hM : Moves L s0 s) : Moves L s0 (clearForeign pairId s) := by
  unfold clearForeign
  try simp only []
  repeat' first
    | with_reducible exact hM
    | ((with_reducible apply startNotice_moves) <;> [exact sub_of hL (by decide); skip])
    | split
    | (with_reducible apply Moves.leafMk; (with_reducible exact rfl); all_goals first | with_reducible exact rfl | exact Or.inl (hL _ (by decide)) | exact Or.inl rfl | exact Or.inr rfl | skip)

theorem decideKind_moves {L : List Part} {s0 : State} (cold : Bool) {s : State} (hL : ∀ p ∈ [.start, .mram], p ∈ L)
    (hM : Moves L s0 s) : Moves L s0 (decideKind cold s) := by
  unfold decideKind
  try simp only []
  repeat' first
    | with_reducible exact hM
    | split
    | (with_reducible apply Moves.leafMk; (with_reducible exact rfl); all_goals first | with_reducible exact rfl | exact Or.inl (hL _ (by decide)) | exact Or.inl rfl | exact Or.inr rfl | skip)

theorem exchangeAtStart_moves {L : List Part} {s0 : State} {s : State} (hL : ∀ p ∈ [.start, .mram], p ∈ L)
    (hM : Moves L s0 s) : Moves L s0 (exchangeAtStart s) := by
  unfold exchangeAtStart
  try simp only []
  repeat' first
    | with_reducible exact hM
    | split
    | (with_reducible apply Moves.leafMk; (with_reducible exact rfl); all_goals first | with_reducible exact rfl | exact Or.inl (hL _ (by decide)) | exact Or.inl rfl | exact Or.inr rfl | skip)

theorem step6_moves {L : List Part} {s0 : State} (k : SlotKey) (keyImage : Image) {s : State} (hL : ∀ p ∈ [.bank, .start, .jrn, .mram, .net, .panel, .mil, .outbox], p ∈ L)
    (hM : Moves L s0 s) : Moves L s0 (step6 k keyImage s) := by
  unfold step6
  try simp only []
  repeat' first
    | with_reducible exact hM
    | ((with_reducible apply exchangeAtStart_moves) <;> [exact sub_of hL (by decide); skip])
    | ((with_reducible apply clearForeign_moves) <;> [exact sub_of hL (by decide); skip])
    | ((with_reducible apply decideKind_moves) <;> [exact sub_of hL (by decide); skip])
    | ((with_reducible apply labelRequest_moves) <;> [exact sub_of hL (by decide); skip])
    | ((with_reducible apply milResume_moves) <;> [exact sub_of hL (by decide); skip])
    | split
    | (with_reducible apply Moves.leafMk; (with_reducible exact rfl); all_goals first | with_reducible exact rfl | exact Or.inl (hL _ (by decide)) | exact Or.inl rfl | exact Or.inr rfl | skip)

theorem step7_moves {L : List Part} {s0 : State} {s : State} (hL : ∀ p ∈ [.bank, .time, .net, .outbox], p ∈ L)
    (hM : Moves L s0 s) : Moves L s0 (step7 s) := by
  have ho : Moves L s0 (loadOsc s) := loadOsc_moves (sub_of hL (by decide)) hM
  have hb : (loadOsc s).standby = s.standby := ((loadOsc_moves (L := [.time]) (by decide) (Moves.refl _ s)).keeps .standby (by decide)).symm
  have legal : ClockOk (loadOsc s) → ∀ c : Stamp, c = (if s.standby.countLost = true then
      (⟨(s.latestStamp + 2 ^ 28) / 2 ^ 28 % 2 ^ 48, (s.latestStamp + 2 ^ 28) % 2 ^ 28 * 1000000000 / 2 ^ 28, 0⟩ : Stamp)
      else ⟨s.standby.sec, s.standby.frac * 1000000000 / 32768, 0⟩) → c.sec < 2 ^ 48 ∧ c.ns < 1000000000 ∧ c.frac < 2 ^ 32 := by
    intro g c e
    have g5 := g.2.2.2.2.1
    have g6 := g.2.2.2.2.2
    rw [hb] at g5 g6
    subst e
    split
    · refine ⟨Nat.mod_lt _ (by decide), ?_, Nat.zero_lt_succ _⟩
      have : (s.latestStamp + 2 ^ 28) % 2 ^ 28 < 2 ^ 28 := Nat.mod_lt _ (by decide)
      simp only []; omega
    · exact ⟨g5, by simp only []; omega, Nat.zero_lt_succ _⟩
  unfold step7
  simp only []
  split
  · refine startNotice_moves _ (sub_of hL (by decide)) (Moves.set_time _ (hL _ (by decide)) (fun g => ⟨g.1, g.2.1, g.2.2.1, g.2.2.2.1⟩)
      (setInc_moves _ (sub_of hL (by decide)) (Moves.set_time (x := loadOsc s) _ (hL _ (by decide)) (fun g => ?_) ho)))
    have := legal g _ rfl
    rw [if_pos (by assumption)] at this
    exact ⟨this.1, this.2.1, this.2.2, g.2.2.2.1⟩
  · refine (Moves.set_time _ (hL _ (by decide)) (fun g => ⟨g.1, g.2.1, g.2.2.1, g.2.2.2.1⟩)
      (setInc_moves _ (sub_of hL (by decide)) (Moves.set_time (x := loadOsc s) _ (hL _ (by decide)) (fun g => ?_) ho)))
    have := legal g _ rfl
    rw [if_neg (by assumption)] at this
    exact ⟨this.1, this.2.1, this.2.2, g.2.2.2.1⟩

theorem testLane_moves {L : List Part} {s0 : State} (found : List Nat) (n : Nat) {s : State} (hL : ∀ p ∈ [.bank, .lanes, .mram], p ∈ L)
    (hM : Moves L s0 s) : Moves L s0 (testLane found n s) := by
  unfold testLane
  try simp only []
  repeat' first
    | with_reducible exact hM
    | ((with_reducible apply writeFault_moves) <;> [exact sub_of hL (by decide); skip])
    | ((with_reducible apply State_setLane_moves) <;> [exact sub_of hL (by decide); skip])
    | ((with_reducible apply retireMark_moves) <;> [exact sub_of hL (by decide); skip])
    | split

theorem startFault_moves {L : List Part} {s0 : State} (reason : Nat) {s : State} (hL : ∀ p ∈ [.mode, .bank, .start, .claim, .pair, .tasks, .lanes, .mram, .chans, .conv, .net, .can0, .can1, .panel, .mil, .outbox, .freeCount], p ∈ L)
    (hM : Moves L s0 s) : Moves L s0 (startFault reason s) := by
  unfold startFault
  try simp only []
  repeat' first
    | with_reducible exact hM
    | ((with_reducible apply enterHalt_moves) <;> [exact sub_of hL (by decide); skip])
    | (with_reducible apply Moves.leafMk; (with_reducible exact rfl); all_goals first | with_reducible exact rfl | exact Or.inl (hL _ (by decide)) | exact Or.inl rfl | exact Or.inr rfl | skip)

theorem step9_moves {L : List Part} {s0 : State} (img : Image) {s : State} (hL : ∀ p ∈ [.mode, .bank, .start, .claim, .pair, .tasks, .lanes, .mram, .sbox, .chans, .conv, .acq, .net, .can0, .can1, .panel, .mil, .outbox, .freeCount], p ∈ L)
    (hM : Moves L s0 s) : Moves L s0 (step9 img s) := by
  unfold step9
  try simp only []
  repeat' first
    | with_reducible exact hM
    | ((with_reducible apply loadImage_moves) <;> [exact sub_of hL (by decide); skip])
    | ((with_reducible apply fieldBad_moves) <;> [exact sub_of hL (by decide); skip])
    | split
    | (with_reducible apply Moves.leafMk; (with_reducible exact rfl); all_goals first | with_reducible exact rfl | exact Or.inl (hL _ (by decide)) | exact Or.inl rfl | exact Or.inr rfl | skip)

theorem checkRegions_moves {L : List Part} {s0 : State} {s : State} (hL : ∀ p ∈ [.bank, .net, .upd, .outbox], p ∈ L)
    (hM : Moves L s0 s) : Moves L s0 (checkRegions s).2 := by
  unfold checkRegions
  have hfold : ∀ (l : List Nat) (a : Bool × State), Moves L s0 a.2 →
      Moves L s0 (l.foldl (fun (a : Bool × State) r => ((fwCheck r a.2).1 && a.1, (fwCheck r a.2).2)) a).2 := by
    intro l
    induction l with
    | nil => exact fun a ha => ha
    | cons r t ih => exact fun a ha => ih _ (fwCheck_moves _ (sub_of hL (by decide)) ha)
  exact hfold _ _ hM

theorem beginStep10_moves {L : List Part} {s0 : State} {s : State} (hL : ∀ p ∈ [.bank, .start, .pair, .outbox], p ∈ L)
    (hM : Moves L s0 s) : Moves L s0 (beginStep10 s) := by
  unfold beginStep10
  try simp only []
  repeat' first
    | with_reducible exact hM
    | ((with_reducible apply State_put_moves) <;> [exact sub_of hL (by decide); skip])
    | ((with_reducible apply State_sendFrame_moves) <;> [exact sub_of hL (by decide); skip])
    | split
    | (with_reducible apply Moves.leafMk; (with_reducible exact rfl); all_goals first | with_reducible exact rfl | exact Or.inl (hL _ (by decide)) | exact Or.inl rfl | exact Or.inr rfl | skip)

theorem steps9to10_moves {L : List Part} {s0 : State} (i : StartInput) (img : Image) {s : State} (hL : ∀ p ∈ [.mode, .bank, .start, .claim, .pair, .tasks, .lanes, .mram, .sbox, .chans, .conv, .acq, .net, .can0, .can1, .panel, .mil, .outbox, .freeCount], p ∈ L)
    (hM : Moves L s0 s) : Moves L s0 (steps9to10 i img s) := by
  unfold steps9to10
  try simp only []
  repeat' first
    | with_reducible exact hM
    | ((with_reducible apply startFault_moves) <;> [exact sub_of hL (by decide); skip])
    | ((with_reducible apply beginStep10_moves) <;> [exact sub_of hL (by decide); skip])
    | ((with_reducible apply step9_moves) <;> [exact sub_of hL (by decide); skip])
    | split

theorem step8_moves {L : List Part} {s0 : State} (i : StartInput) (img : Image) {s : State} (hL : ∀ p ∈ [.bank, .start, .lanes, .mram, .net, .outbox], p ∈ L)
    (hM : Moves L s0 s) : Moves L s0 (step8 i img s) := by
  unfold step8
  try simp only []
  repeat' first
    | with_reducible exact hM
    | with_reducible assumption
    | ((with_reducible apply testLane_moves) <;> [exact sub_of hL (by decide); skip])
    | ((with_reducible apply placeLanes_moves) <;> [exact sub_of hL (by decide); skip])
    | (with_reducible refine Moves.forEach (fun a x hx => ?_) ?_)
    | (with_reducible apply Moves.leafMk; (with_reducible exact rfl); all_goals first | with_reducible exact rfl | exact Or.inl (hL _ (by decide)) | exact Or.inl rfl | exact Or.inr rfl | skip)

theorem steps6to10_moves {L : List Part} {s0 : State} (i : StartInput) (k : SlotKey) (img : Image) {s : State} (hL : ∀ p ∈ [.mode, .bank, .start, .claim, .pair, .tasks, .lanes, .jrn, .mram, .sbox, .chans, .conv, .acq, .time, .net, .can0, .can1, .upd, .panel, .mil, .outbox, .freeCount], p ∈ L)
    (hM : Moves L s0 s) : Moves L s0 (steps6to10 i k img s) := by
  unfold steps6to10
  try simp only []
  repeat' first
    | with_reducible exact hM
    | ((with_reducible apply checkRegions_moves) <;> [exact sub_of hL (by decide); skip])
    | ((with_reducible apply step7_moves) <;> [exact sub_of hL (by decide); skip])
    | ((with_reducible apply step6_moves) <;> [exact sub_of hL (by decide); skip])
    | ((with_reducible apply startFault_moves) <;> [exact sub_of hL (by decide); skip])
    | ((with_reducible apply steps9to10_moves) <;> [exact sub_of hL (by decide); skip])
    | ((with_reducible apply step8_moves) <;> [exact sub_of hL (by decide); skip])
    | split
    | (with_reducible apply Moves.leafMk; (with_reducible exact rfl); all_goals first | with_reducible exact rfl | exact Or.inl (hL _ (by decide)) | exact Or.inl rfl | exact Or.inr rfl | skip)

theorem step5_moves {L : List Part} {s0 : State} (i : StartInput) (k : SlotKey) {s : State} (hL : ∀ p ∈ [.mode, .bank, .start, .claim, .pair, .tasks, .lanes, .jrn, .mram, .sbox, .chans, .conv, .acq, .time, .net, .can0, .can1, .upd, .panel, .mil, .outbox, .freeCount], p ∈ L)
    (hM : Moves L s0 s) : Moves L s0 (step5 i k s) := by
  unfold step5
  try simp only []
  repeat' first
    | with_reducible exact hM
    | ((with_reducible apply steps6to10_moves) <;> [exact sub_of hL (by decide); skip])
    | ((with_reducible apply startNotice_moves) <;> [exact sub_of hL (by decide); skip])
    | ((with_reducible apply startHold_moves) <;> [exact sub_of hL (by decide); skip])
    | split

theorem step4_moves {L : List Part} {s0 : State} (i : StartInput) {s : State} (hL : ∀ p ∈ [.mode, .bank, .start, .claim, .pair, .tasks, .lanes, .jrn, .mram, .sbox, .chans, .conv, .acq, .time, .net, .can0, .can1, .upd, .panel, .mil, .outbox, .freeCount], p ∈ L)
    (hM : Moves L s0 s) : Moves L s0 (step4 i s) := by
  unfold step4
  try simp only []
  repeat' first
    | with_reducible exact hM
    | ((with_reducible apply startHold_moves) <;> [exact sub_of hL (by decide); skip])
    | ((with_reducible apply step5_moves) <;> [exact sub_of hL (by decide); skip])
    | split
    | (with_reducible apply Moves.leafMk; (with_reducible exact rfl); all_goals first | with_reducible exact rfl | exact Or.inl (hL _ (by decide)) | exact Or.inl rfl | exact Or.inr rfl | skip)

theorem steps3to10_moves {L : List Part} {s0 : State} (i : StartInput) {s : State} (hL : ∀ p ∈ [.mode, .bank, .carrier, .start, .claim, .pair, .tasks, .lanes, .jrn, .mram, .sbox, .chans, .conv, .acq, .time, .net, .can0, .can1, .upd, .panel, .mil, .outbox, .freeCount], p ∈ L)
    (hM : Moves L s0 s) : Moves L s0 (steps3to10 i s) := by
  unfold steps3to10
  try simp only []
  repeat' first
    | with_reducible exact hM
    | ((with_reducible apply startHold_moves) <;> [exact sub_of hL (by decide); skip])
    | ((with_reducible apply step4_moves) <;> [exact sub_of hL (by decide); skip])
    | split
    | (with_reducible apply Moves.leafMk; (with_reducible exact rfl); all_goals first | with_reducible exact rfl | exact Or.inl (hL _ (by decide)) | exact Or.inl rfl | exact Or.inr rfl | skip)

theorem labelAtStart_moves {L : List Part} {s0 : State} {s : State} (hL : ∀ p ∈ [.bank, .net, .panel, .outbox], p ∈ L)
    (hM : Moves L s0 s) : Moves L s0 (labelAtStart s) := by
  unfold labelAtStart
  try simp only []
  repeat' first
    | with_reducible exact hM
    | ((with_reducible apply State_raise_moves) <;> [exact sub_of hL (by decide); skip])
    | split
    | (with_reducible apply Moves.leafMk; (with_reducible exact rfl); all_goals first | with_reducible exact rfl | exact Or.inl (hL _ (by decide)) | exact Or.inl rfl | exact Or.inr rfl | skip)

theorem anchorAtStart_moves {L : List Part} {s0 : State} {s : State} (hL : ∀ p ∈ [.mram], p ∈ L)
    (hM : Moves L s0 s) : Moves L s0 (anchorAtStart s) := by
  unfold anchorAtStart
  try simp only []
  repeat' first
    | with_reducible exact hM
    | split
    | (with_reducible apply Moves.leafMk; (with_reducible exact rfl); all_goals first | with_reducible exact rfl | exact Or.inl (hL _ (by decide)) | exact Or.inl rfl | exact Or.inr rfl | skip)

theorem enterTerminus_moves {L : List Part} {s0 : State} {s : State} (hL : ∀ p ∈ [.mode, .bank, .start, .net, .panel], p ∈ L)
    (hd : s.claim.drive = false) (hM : Moves L s0 s) : Moves L s0 (enterTerminus s) := by
  unfold enterTerminus
  refine setMode_moves _ (sub_of hL (by decide)) (Or.inr hd) (Moves.leaf (x := s) rfl hM rfl rfl rfl (Or.inl rfl) (Or.inl rfl) ?_)
  intro p
  cases p <;> first | exact Or.inl (hL _ (by decide)) | exact Or.inr rfl

theorem standbyRestart_moves {L : List Part} {s0 : State} {s : State} (hL : ∀ p ∈ [.standby], p ∈ L)
    (hM : Moves L s0 s) : Moves L s0 (standbyRestart s) := by
  unfold standbyRestart
  split
  · exact Moves.set_standby _ (hL _ (by decide)) (fun _ => ⟨by decide, by decide⟩) hM
  · exact hM

theorem beginStart_moves {L : List Part} {s0 : State} {s : State} (hL : ∀ p ∈ [.mode, .bank, .heldWrites, .shadows, .carrier, .standby, .start, .claim, .pair, .tasks, .lanes, .ctl, .jrn, .exch, .mram, .sbox, .chans, .conv, .acq, .time, .net, .can0, .can1, .mpu, .upd, .panel, .outbox], p ∈ L)
    (hM : Moves L s0 s) : Moves L s0 (beginStart s) := by
  unfold beginStart
  try simp only []
  repeat' first
    | with_reducible exact hM
    | ((with_reducible apply panelOn_moves) <;> [exact sub_of hL (by decide); skip])
    | ((with_reducible apply clearWorking_moves) <;> [exact sub_of hL (by decide); skip])
    | ((with_reducible apply standbyRestart_moves) <;> [exact sub_of hL (by decide); skip])
    | ((with_reducible apply labelAtStart_moves) <;> [exact sub_of hL (by decide); skip])
    | ((with_reducible apply anchorAtStart_moves) <;> [exact sub_of hL (by decide); skip])
    | (with_reducible apply Moves.leafMk; (with_reducible exact rfl); all_goals first | with_reducible exact rfl | exact Or.inl (hL _ (by decide)) | exact Or.inl rfl | exact Or.inr rfl | skip)

theorem checkLoader_moves {L : List Part} {s0 : State} {s : State} (hL : ∀ p ∈ [.bank, .start, .net, .upd, .outbox], p ∈ L)
    (hM : Moves L s0 s) : Moves L s0 (checkLoader s).2 := by
  unfold checkLoader
  try simp only []
  repeat' first
    | with_reducible exact hM
    | ((with_reducible apply fwCheck_moves) <;> [exact sub_of hL (by decide); skip])
    | (with_reducible apply Moves.leafMk; (with_reducible exact rfl); all_goals first | with_reducible exact rfl | exact Or.inl (hL _ (by decide)) | exact Or.inl rfl | exact Or.inr rfl | skip)

theorem beginStart_drive (s : State) : (beginStart s).claim.drive = false := by
  have h : Moves [.bank, .heldWrites, .shadows, .carrier, .standby, .start, .pair, .tasks, .lanes, .ctl, .jrn, .exch, .mram, .sbox, .chans, .conv, .acq, .time, .net, .can0, .can1, .mpu, .upd, .panel, .outbox] (clearWorking (standbyRestart s)) (beginStart s) := by
    unfold beginStart
    simp only []
    refine labelAtStart_moves (by decide) (anchorAtStart_moves (by decide)
      (Moves.leaf (x := panelOn (clearWorking (standbyRestart s))) rfl ?_ rfl rfl rfl (Or.inl rfl) (Or.inl rfl) ?_))
    · exact panelOn_moves (by decide) (Moves.refl _ _)
    · intro p
      cases p <;> first | exact Or.inl (by decide) | exact Or.inr rfl
  rw [← (h.keeps .claim (by decide) : (clearWorking (standbyRestart s)).claim = (beginStart s).claim)]
  rfl

theorem startModule_moves {L : List Part} {s0 : State} (i : StartInput) {s : State} (hL : ∀ p ∈ [.mode, .bank, .heldWrites, .shadows, .carrier, .standby, .start, .claim, .pair, .tasks, .lanes, .ctl, .jrn, .exch, .mram, .sbox, .chans, .conv, .acq, .time, .net, .can0, .can1, .mpu, .upd, .panel, .mil, .outbox, .freeCount], p ∈ L)
    (hM : Moves L s0 s) : Moves L s0 (startModule i s) := by
  have hb : Moves L s0 (tearAll i.unreadable (beginStart s)) := tearAll_moves _ (sub_of hL (by decide)) (beginStart_moves (sub_of hL (by decide)) hM)
  have hc : Moves L s0 (checkLoader (tearAll i.unreadable (beginStart s))).2 := checkLoader_moves (sub_of hL (by decide)) hb
  unfold startModule
  simp only []
  split
  · exact steps3to10_moves _ (sub_of hL (by decide)) (Moves.set_net _ (hL _ (by decide)) hc)
  · refine enterTerminus_moves (sub_of hL (by decide)) ?_ hc
    have ht := (tearAll_moves (L := [.mram, .conv, .upd, .mil]) i.unreadable (by decide) (Moves.refl _ (beginStart s))).keeps .claim (by decide)
    have hk := (checkLoader_moves (L := [.bank, .start, .net, .upd, .outbox]) (by decide) (Moves.refl _ (tearAll i.unreadable (beginStart s)))).keeps .claim (by decide)
    rw [← (hk : (tearAll i.unreadable (beginStart s)).claim = (checkLoader (tearAll i.unreadable (beginStart s))).2.claim)]
    rw [← (ht : (beginStart s).claim = (tearAll i.unreadable (beginStart s)).claim)]
    exact beginStart_drive s

theorem enrol_moves {L : List Part} {s0 : State} (owner : Nat) {s : State} (hL : ∀ p ∈ [.bank, .mram, .net, .outbox], p ∈ L)
    (hM : Moves L s0 s) : Moves L s0 (enrol owner s) := by
  unfold enrol
  try simp only []
  repeat' first
    | with_reducible exact hM
    | ((with_reducible apply startNotice_moves) <;> [exact sub_of hL (by decide); skip])
    | split
    | (with_reducible apply Moves.leafMk; (with_reducible exact rfl); all_goals first | with_reducible exact rfl | exact Or.inl (hL _ (by decide)) | exact Or.inl rfl | exact Or.inr rfl | skip)

theorem chooseImage_moves {L : List Part} {s0 : State} (i : Image) {s : State} (hL : ∀ p ∈ [.mode, .bank, .start, .claim, .pair, .tasks, .lanes, .mram, .sbox, .chans, .conv, .acq, .net, .can0, .can1, .panel, .mil, .outbox, .freeCount], p ∈ L)
    (hM : Moves L s0 s) : Moves L s0 (chooseImage i s) := by
  unfold chooseImage
  try simp only []
  repeat' first
    | with_reducible exact hM
    | ((with_reducible apply startNotice_moves) <;> [exact sub_of hL (by decide); skip])
    | ((with_reducible apply loadImage_moves) <;> [exact sub_of hL (by decide); skip])
    | ((with_reducible apply startFault_moves) <;> [exact sub_of hL (by decide); skip])
    | split
    | (with_reducible apply Moves.leafMk; (with_reducible exact rfl); all_goals first | with_reducible exact rfl | exact Or.inl (hL _ (by decide)) | exact Or.inl rfl | exact Or.inr rfl | skip)

theorem takePathA_moves {L : List Part} {s0 : State} {s : State} (hL : ∀ p ∈ [.bank, .start, .pair, .outbox], p ∈ L)
    (hM : Moves L s0 s) : Moves L s0 (takePathA s) := by
  unfold takePathA
  try simp only []
  repeat' first
    | with_reducible exact hM
    | ((with_reducible apply State_put_moves) <;> [exact sub_of hL (by decide); skip])
    | ((with_reducible apply State_sendFrame_moves) <;> [exact sub_of hL (by decide); skip])
    | split
    | (with_reducible apply Moves.leafMk; (with_reducible exact rfl); all_goals first | with_reducible exact rfl | exact Or.inl (hL _ (by decide)) | exact Or.inl rfl | exact Or.inr rfl | skip)

theorem takePathB_moves {L : List Part} {s0 : State} (i : Image) {s : State} (hL : ∀ p ∈ [.bank, .start, .pair, .tasks, .ctl, .jrn, .mram, .net, .outbox], p ∈ L)
    (hM : Moves L s0 s) : Moves L s0 (takePathB i s) := by
  unfold takePathB
  try simp only []
  repeat' first
    | with_reducible exact hM
    | ((with_reducible apply startNotice_moves) <;> [exact sub_of hL (by decide); skip])
    | ((with_reducible apply recoverJournal_moves) <;> [exact sub_of hL (by decide); skip])
    | ((with_reducible apply restoreState_moves) <;> [exact sub_of hL (by decide); skip])
    | ((with_reducible apply State_put_moves) <;> [exact sub_of hL (by decide); skip])
    | split
    | (with_reducible apply Moves.leafMk; (with_reducible exact rfl); all_goals first | with_reducible exact rfl | exact Or.inl (hL _ (by decide)) | exact Or.inl rfl | exact Or.inr rfl | skip)

theorem choosePath_moves {L : List Part} {s0 : State} (m : Mode) (lastClosed : Option Nat) (i : Image) {s : State} (hL : ∀ p ∈ [.bank, .start, .pair, .tasks, .ctl, .jrn, .mram, .net, .outbox], p ∈ L)
    (hM : Moves L s0 s) : Moves L s0 (choosePath m lastClosed i s) := by
  unfold choosePath
  try simp only []
  repeat' first
    | with_reducible exact hM
    | ((with_reducible apply takePathA_moves) <;> [exact sub_of hL (by decide); skip])
    | ((with_reducible apply takePathB_moves) <;> [exact sub_of hL (by decide); skip])
    | ((with_reducible apply startHold_moves) <;> [exact sub_of hL (by decide); skip])
    | split

theorem chooseAgainst_moves {L : List Part} {s0 : State} (m : Mode) (lastClosed : Option Nat) (k : SlotKey) (i : Image) {s : State} (hL : ∀ p ∈ [.mode, .bank, .start, .claim, .pair, .tasks, .lanes, .ctl, .jrn, .mram, .sbox, .chans, .conv, .acq, .net, .can0, .can1, .panel, .mil, .outbox, .freeCount], p ∈ L)
    (hM : Moves L s0 s) : Moves L s0 (chooseAgainst m lastClosed k i s) := by
  unfold chooseAgainst
  try simp only []
  repeat' first
    | with_reducible exact hM
    | ((with_reducible apply startHold_moves) <;> [exact sub_of hL (by decide); skip])
    | ((with_reducible apply enrol_moves) <;> [exact sub_of hL (by decide); skip])
    | ((with_reducible apply chooseImage_moves) <;> [exact sub_of hL (by decide); skip])
    | ((with_reducible apply choosePath_moves) <;> [exact sub_of hL (by decide); skip])
    | split

theorem seedTime_moves {L : List Part} {s0 : State} (h : Hello) {s : State} (hL : ∀ p ∈ [.bank, .acq, .time, .net, .outbox], p ∈ L)
    (hM : Moves L s0 s) : Moves L s0 (seedTime h s) := by
  unfold seedTime
  try simp only []
  repeat' first
    | with_reducible exact hM
    | ((with_reducible apply stepCounter_moves) <;> [exact sub_of hL (by decide); skip])
    | split
    | (with_reducible apply Moves.leafMk; (with_reducible exact rfl); all_goals first | with_reducible exact rfl | exact Or.inl (hL _ (by decide)) | exact Or.inl rfl | exact Or.inr rfl | skip)

theorem decideStep10_moves {L : List Part} {s0 : State} (h : Hello) (m : Mode) (k : SlotKey) {s : State} (hL : ∀ p ∈ [.mode, .bank, .start, .claim, .pair, .tasks, .lanes, .ctl, .jrn, .mram, .sbox, .chans, .conv, .acq, .net, .can0, .can1, .panel, .mil, .outbox, .freeCount], p ∈ L)
    (hM : Moves L s0 s) : Moves L s0 (decideStep10 h m k s) := by
  unfold decideStep10
  try simp only []
  repeat' first
    | with_reducible exact hM
    | ((with_reducible apply enrol_moves) <;> [exact sub_of hL (by decide); skip])
    | ((with_reducible apply startHold_moves) <;> [exact sub_of hL (by decide); skip])
    | ((with_reducible apply chooseAgainst_moves) <;> [exact sub_of hL (by decide); skip])
    | split

theorem takeHello_moves {L : List Part} {s0 : State} (h : Hello) (m : Mode) {s : State} (hL : ∀ p ∈ [.bank, .pair, .net, .outbox], p ∈ L)
    (hM : Moves L s0 s) : Moves L s0 (takeHello h m s) := by
  unfold takeHello
  try simp only []
  repeat' first
    | with_reducible exact hM
    | ((with_reducible apply State_raiseIf_moves) <;> [exact sub_of hL (by decide); skip])
    | split
    | (with_reducible apply Moves.leafMk; (with_reducible exact rfl); all_goals first | with_reducible exact rfl | exact Or.inl (hL _ (by decide)) | exact Or.inl rfl | exact Or.inr rfl | skip)

theorem requestResync_moves {L : List Part} {s0 : State} {s : State} (hL : ∀ p ∈ [.pair, .outbox], p ∈ L)
    (hM : Moves L s0 s) : Moves L s0 (requestResync s) := by
  unfold requestResync
  try simp only []
  repeat' first
    | with_reducible exact hM
    | ((with_reducible apply State_sendFrame_moves) <;> [exact sub_of hL (by decide); skip])
    | split
    | (with_reducible apply Moves.leafMk; (with_reducible exact rfl); all_goals first | with_reducible exact rfl | exact Or.inl (hL _ (by decide)) | exact Or.inl rfl | exact Or.inr rfl | skip)

theorem decideAgain_moves {L : List Part} {s0 : State} (h : Hello) (m : Mode) {s : State} (hL : ∀ p ∈ [.mode, .bank, .start, .claim, .pair, .tasks, .lanes, .ctl, .jrn, .mram, .sbox, .chans, .conv, .acq, .net, .can0, .can1, .panel, .mil, .outbox, .freeCount], p ∈ L)
    (hM : Moves L s0 s) : Moves L s0 (decideAgain h m s) := by
  unfold decideAgain
  try simp only []
  repeat' first
    | with_reducible exact hM
    | ((with_reducible apply decideStep10_moves) <;> [exact sub_of hL (by decide); skip])
    | ((with_reducible apply requestResync_moves) <;> [exact sub_of hL (by decide); skip])
    | split
    | (with_reducible apply Moves.leafMk; (with_reducible exact rfl); all_goals first | with_reducible exact rfl | exact Or.inl (hL _ (by decide)) | exact Or.inl rfl | exact Or.inr rfl | skip)

theorem seedAt10_moves {L : List Part} {s0 : State} (h : Hello) {s : State} (hL : ∀ p ∈ [.bank, .acq, .time, .net, .outbox], p ∈ L)
    (hM : Moves L s0 s) : Moves L s0 (seedAt10 h s) := by
  unfold seedAt10
  try simp only []
  repeat' first
    | with_reducible exact hM
    | ((with_reducible apply seedTime_moves) <;> [exact sub_of hL (by decide); skip])
    | split

theorem serviceEntry_moves {L : List Part} {s0 : State} {s : State} (hL : ∀ p ∈ [.upd], p ∈ L)
    (hM : Moves L s0 s) : Moves L s0 (serviceEntry s) := by
  unfold serviceEntry
  try simp only []
  repeat' first
    | with_reducible exact hM
    | (with_reducible apply Moves.leafMk; (with_reducible exact rfl); all_goals first | with_reducible exact rfl | exact Or.inl (hL _ (by decide)) | exact Or.inl rfl | exact Or.inr rfl | skip)

theorem leaveTerminusCmd_moves {L : List Part} {s0 : State} (i : StartInput) {s : State} (hL : ∀ p ∈ [.mode, .bank, .heldWrites, .shadows, .carrier, .standby, .start, .claim, .pair, .tasks, .lanes, .ctl, .jrn, .exch, .mram, .sbox, .chans, .conv, .acq, .time, .net, .can0, .can1, .mpu, .upd, .panel, .mil, .outbox, .freeCount], p ∈ L)
    (hM : Moves L s0 s) : Moves L s0 (leaveTerminusCmd i s) := by
  unfold leaveTerminusCmd
  try simp only []
  repeat' first
    | with_reducible exact hM
    | ((with_reducible apply startModule_moves) <;> [exact sub_of hL (by decide); skip])
    | ((with_reducible apply cmdEnd_moves) <;> [exact sub_of hL (by decide); skip])
    | split

end Sys2Proof.Machine
end

