-- ==== Sys2Proof/Laws/MovesActivate.lean ====
section
/-! SUPPORT. What each operation of Machine/Activate.lean does to the whole state: the parts it leaves alone, and the invariants it keeps. -/

set_option Elab.async false

namespace Sys2Proof.Machine

open Sys2Proof

theorem sbxRestart_moves {L : List Part} {s0 : State} (table : BoxCfg) {s : State} (hL : ∀ p ∈ [.sbox], p ∈ L)
    (hM : Moves L s0 s) : Moves L s0 (sbxRestart table s) := by
  unfold sbxRestart
  try simp only []
  repeat' first
    | with_reducible exact hM
    | (with_reducible apply Moves.leafMk; (with_reducible exact rfl); all_goals first | with_reducible exact rfl | exact Or.inl (hL _ (by decide)) | exact Or.inl rfl | exact Or.inr rfl | skip)

theorem lanesShort_moves {L : List Part} {s0 : State} {s : State} (hL : ∀ p ∈ [.mode, .bank, .claim, .pair, .tasks, .lanes, .mram, .chans, .conv, .net, .can0, .can1, .panel, .mil, .outbox, .freeCount], p ∈ L)
    (hM : Moves L s0 s) : Moves L s0 (lanesShort s) := by
  unfold lanesShort
  try simp only []
  repeat' first
    | with_reducible exact hM
    | ((with_reducible apply enterHalt_moves) <;> [exact sub_of hL (by decide); skip])
    | split

theorem lanesAgain_moves {L : List Part} {s0 : State} {s : State} (hL : ∀ p ∈ [.bank, .lanes, .net, .outbox], p ∈ L)
    (hM : Moves L s0 s) : Moves L s0 (lanesAgain s) := by
  unfold lanesAgain
  try simp only []
  repeat' first
    | with_reducible exact hM
    | ((with_reducible apply placeLanes_moves) <;> [exact sub_of hL (by decide); skip])
    | split

theorem laneEffect_moves {L : List Part} {s0 : State} {s : State} (hL : ∀ p ∈ [.mode, .bank, .claim, .pair, .tasks, .lanes, .mram, .chans, .conv, .net, .can0, .can1, .panel, .mil, .outbox, .freeCount], p ∈ L)
    (hM : Moves L s0 s) : Moves L s0 (laneEffect s) := by
  unfold laneEffect
  try simp only []
  repeat' first
    | with_reducible exact hM
    | with_reducible assumption
    | ((with_reducible apply lanesShort_moves) <;> [exact sub_of hL (by decide); skip])
    | ((with_reducible apply lanesAgain_moves) <;> [exact sub_of hL (by decide); skip])
    | ((with_reducible apply testLane_moves) <;> [exact sub_of hL (by decide); skip])
    | ((with_reducible apply State_free_moves) <;> [exact sub_of hL (by decide); skip])
    | (with_reducible refine Moves.forEach (fun a x hx => ?_) ?_)

theorem visitsRestart_moves {L : List Part} {s0 : State} {s : State} (hL : ∀ p ∈ [.bank, .conv], p ∈ L)
    (hM : Moves L s0 s) : Moves L s0 (visitsRestart s) := by
  unfold visitsRestart
  try simp only []
  repeat' first
    | with_reducible exact hM
    | with_reducible assumption
    | ((with_reducible apply abandonVisit_moves) <;> [exact sub_of hL (by decide); skip])
    | ((with_reducible apply State_setTt_moves) <;> [exact sub_of hL (by decide); skip])
    | (with_reducible refine Moves.forEach (fun a x hx => ?_) ?_)

theorem effectBegins_moves {L : List Part} {s0 : State} (r : Nat) {s : State} (hL : ∀ p ∈ [.upd, .freeCount], p ∈ L)
    (hM : Moves L s0 s) : Moves L s0 (effectBegins r s) := by
  unfold effectBegins
  try simp only []
  repeat' first
    | with_reducible exact hM
    | ((with_reducible apply State_free_moves) <;> [exact sub_of hL (by decide); skip])
    | ((with_reducible apply State_setRegion_moves) <;> [exact sub_of hL (by decide); skip])

theorem takeEffect_moves {L : List Part} {s0 : State} (r : Nat) {s : State} (hL : ∀ p ∈ [.mode, .bank, .claim, .pair, .tasks, .lanes, .jrn, .mram, .sbox, .chans, .conv, .time, .net, .can0, .can1, .mpu, .upd, .panel, .mil, .outbox, .freeCount], p ∈ L)
    (hM : Moves L s0 s) : Moves L s0 (takeEffect r s) := by
  unfold takeEffect
  try simp only []
  repeat' first
    | with_reducible exact hM
    | ((with_reducible apply State_raise_moves) <;> [exact sub_of hL (by decide); skip])
    | ((with_reducible apply effectBegins_moves) <;> [exact sub_of hL (by decide); skip])
    | ((with_reducible apply mgmtRestart_moves) <;> [exact sub_of hL (by decide); skip])
    | ((with_reducible apply laneEffect_moves) <;> [exact sub_of hL (by decide); skip])
    | ((with_reducible apply refreshOutputs_moves) <;> [exact sub_of hL (by decide); skip])
    | ((with_reducible apply sbxRestart_moves) <;> [exact sub_of hL (by decide); skip])
    | ((with_reducible apply visitsRestart_moves) <;> [exact sub_of hL (by decide); skip])
    | split

theorem waitingEffect_moves {L : List Part} {s0 : State} (r : Nat) {s : State} (hL : ∀ p ∈ [.mode, .bank, .claim, .pair, .tasks, .lanes, .jrn, .mram, .sbox, .chans, .conv, .time, .net, .can0, .can1, .mpu, .upd, .panel, .mil, .outbox, .freeCount], p ∈ L)
    (hM : Moves L s0 s) : Moves L s0 (waitingEffect r s) := by
  unfold waitingEffect
  try simp only []
  repeat' first
    | with_reducible exact hM
    | ((with_reducible apply State_setUpdSession_moves) <;> [exact sub_of hL (by decide); skip])
    | ((with_reducible apply takeEffect_moves) <;> [exact sub_of hL (by decide); skip])
    | split

theorem activateCmd_moves {L : List Part} {s0 : State} (n : Nat) (unreadable : Bool) {s : State} (hL : ∀ p ∈ [.mode, .bank, .claim, .pair, .tasks, .lanes, .jrn, .mram, .sbox, .chans, .conv, .time, .net, .can0, .can1, .mpu, .upd, .panel, .mil, .outbox, .freeCount], p ∈ L)
    (hM : Moves L s0 s) : Moves L s0 (activateCmd n unreadable s) := by
  unfold activateCmd
  try simp only []
  repeat' first
    | with_reducible exact hM
    | ((with_reducible apply cmdEnd_moves) <;> [exact sub_of hL (by decide); skip])
    | ((with_reducible apply State_raise_moves) <;> [exact sub_of hL (by decide); skip])
    | ((with_reducible apply State_setUpdSession_moves) <;> [exact sub_of hL (by decide); skip])
    | ((with_reducible apply State_setRegion_moves) <;> [exact sub_of hL (by decide); skip])
    | ((with_reducible apply takeEffect_moves) <;> [exact sub_of hL (by decide); skip])
    | split
    | (with_reducible apply Moves.leafMk; (with_reducible exact rfl); all_goals first | with_reducible exact rfl | exact Or.inl (hL _ (by decide)) | exact Or.inl rfl | exact Or.inr rfl | skip)

theorem confirmCmd_moves {L : List Part} {s0 : State} (n : Nat) {s : State} (hL : ∀ p ∈ [.bank, .mram, .conv, .net, .upd, .outbox], p ∈ L)
    (hM : Moves L s0 s) : Moves L s0 (confirmCmd n s) := by
  unfold confirmCmd
  try simp only []
  repeat' first
    | with_reducible exact hM
    | ((with_reducible apply cmdEnd_moves) <;> [exact sub_of hL (by decide); skip])
    | ((with_reducible apply State_setRegion_moves) <;> [exact sub_of hL (by decide); skip])
    | ((with_reducible apply State_raise_moves) <;> [exact sub_of hL (by decide); skip])
    | ((with_reducible apply State_setUpdSession_moves) <;> [exact sub_of hL (by decide); skip])
    | split
    | (with_reducible apply Moves.leafMk; (with_reducible exact rfl); all_goals first | with_reducible exact rfl | exact Or.inl (hL _ (by decide)) | exact Or.inl rfl | exact Or.inr rfl | skip)

theorem fallBack_moves {L : List Part} {s0 : State} (r : Nat) {s : State} (hL : ∀ p ∈ [.mode, .bank, .claim, .pair, .tasks, .lanes, .jrn, .mram, .sbox, .chans, .conv, .time, .net, .can0, .can1, .mpu, .upd, .panel, .mil, .outbox, .freeCount], p ∈ L)
    (hM : Moves L s0 s) : Moves L s0 (fallBack r s) := by
  unfold fallBack
  try simp only []
  repeat' first
    | with_reducible exact hM
    | ((with_reducible apply State_setRegion_moves) <;> [exact sub_of hL (by decide); skip])
    | ((with_reducible apply State_setUpdSession_moves) <;> [exact sub_of hL (by decide); skip])
    | ((with_reducible apply takeEffect_moves) <;> [exact sub_of hL (by decide); skip])
    | split

theorem fallbackCmd_moves {L : List Part} {s0 : State} (n : Nat) {s : State} (hL : ∀ p ∈ [.mode, .bank, .claim, .pair, .tasks, .lanes, .jrn, .mram, .sbox, .chans, .conv, .time, .net, .can0, .can1, .mpu, .upd, .panel, .mil, .outbox, .freeCount], p ∈ L)
    (hM : Moves L s0 s) : Moves L s0 (fallbackCmd n s) := by
  unfold fallbackCmd
  try simp only []
  repeat' first
    | with_reducible exact hM
    | ((with_reducible apply cmdEnd_moves) <;> [exact sub_of hL (by decide); skip])
    | ((with_reducible apply State_raise_moves) <;> [exact sub_of hL (by decide); skip])
    | ((with_reducible apply fallBack_moves) <;> [exact sub_of hL (by decide); skip])
    | split

theorem abortCmd_moves {L : List Part} {s0 : State} (n : Nat) {s : State} (hL : ∀ p ∈ [.bank, .upd], p ∈ L)
    (hM : Moves L s0 s) : Moves L s0 (abortCmd n s) := by
  unfold abortCmd
  try simp only []
  repeat' first
    | with_reducible exact hM
    | ((with_reducible apply cmdEnd_moves) <;> [exact sub_of hL (by decide); skip])
    | ((with_reducible apply State_setUpdSession_moves) <;> [exact sub_of hL (by decide); skip])
    | split

end Sys2Proof.Machine
end

