-- ==== Sys2Proof/Laws/MovesRegWrite.lean ====
section
/-! SUPPORT. What each operation of Machine/RegWrite.lean does to the whole state: the parts it leaves alone, and the invariants it keeps. -/

set_option Elab.async false

namespace Sys2Proof.Machine

open Sys2Proof

theorem setMultiword_moves {L : List Part} {s0 : State} (n : Nat) (on : Bool) {s : State} (hL : ∀ p ∈ [.bank, .shadows], p ∈ L)
    (hM : Moves L s0 s) : Moves L s0 (setMultiword n on s) := by
  unfold setMultiword
  try simp only []
  repeat' first
    | with_reducible exact hM
    | ((with_reducible apply State_put_moves) <;> [exact sub_of hL (by decide); skip])
    | split
    | (with_reducible apply Moves.leafMk; (with_reducible exact rfl); all_goals first | with_reducible exact rfl | exact Or.inl (hL _ (by decide)) | exact Or.inl rfl | exact Or.inr rfl | skip)

theorem readReg_moves {L : List Part} {s0 : State} (o : Origin) (addr : Nat) {s : State} (hL : ∀ p ∈ [.shadows], p ∈ L)
    (hM : Moves L s0 s) : Moves L s0 (readReg o addr s).2 := by
  unfold readReg
  try simp only []
  repeat' first
    | with_reducible exact hM
    | split
    | (with_reducible apply Moves.leafMk; (with_reducible exact rfl); all_goals first | with_reducible exact rfl | exact Or.inl (hL _ (by decide)) | exact Or.inl rfl | exact Or.inr rfl | skip)

theorem readBy_moves {L : List Part} {s0 : State} (o : Origin) (addr : Nat) {s : State} (hL : ∀ p ∈ [.bank, .shadows, .net, .outbox], p ∈ L)
    (hM : Moves L s0 s) : Moves L s0 (readBy o addr s).2 := by
  unfold readBy
  try simp only []
  repeat' first
    | with_reducible exact hM
    | ((with_reducible apply readReg_moves) <;> [exact sub_of hL (by decide); skip])
    | ((with_reducible apply refuseShape_moves) <;> [exact sub_of hL (by decide); skip])
    | split

theorem hold_moves {L : List Part} {s0 : State} (addr : Nat) (v : Word) {s : State} (hL : ∀ p ∈ [.heldWrites], p ∈ L)
    (hM : Moves L s0 s) : Moves L s0 (hold addr v s) := by
  unfold hold
  try simp only []
  repeat' first
    | with_reducible exact hM
    | (with_reducible apply Moves.leafMk; (with_reducible exact rfl); all_goals first | with_reducible exact rfl | exact Or.inl (hL _ (by decide)) | exact Or.inl rfl | exact Or.inr rfl | skip)

theorem injectWrite_moves {L : List Part} {s0 : State} (lane : Nat) (copy : Nat) (repeated : Bool) (arm : Bool) {s : State} (hL : ∀ p ∈ [.lanes], p ∈ L)
    (hM : Moves L s0 s) : Moves L s0 (injectWrite lane copy repeated arm s) := by
  unfold injectWrite
  try simp only []
  repeat' first
    | with_reducible exact hM
    | ((with_reducible apply State_setLane_moves) <;> [exact sub_of hL (by decide); skip])
    | split
    | (with_reducible apply Moves.leafMk; (with_reducible exact rfl); all_goals first | with_reducible exact rfl | exact Or.inl (hL _ (by decide)) | exact Or.inl rfl | exact Or.inr rfl | skip)

theorem faultSelWrite_moves {L : List Part} {s0 : State} (index : Nat) {s : State} (hL : ∀ p ∈ [.bank], p ∈ L)
    (hM : Moves L s0 s) : Moves L s0 (faultSelWrite index s) := by
  unfold faultSelWrite
  try simp only []
  repeat' first
    | with_reducible exact hM
    | ((with_reducible apply putWords_moves) <;> [exact sub_of hL (by decide); skip])
    | ((with_reducible apply State_put_moves) <;> [exact sub_of hL (by decide); skip])

theorem clearMaxWrite_moves {L : List Part} {s0 : State} (i : Nat) {s : State} (hL : ∀ p ∈ [.bank], p ∈ L)
    (hM : Moves L s0 s) : Moves L s0 (clearMaxWrite i s) := by
  unfold clearMaxWrite
  try simp only []
  repeat' first
    | with_reducible exact hM
    | ((with_reducible apply State_put_moves) <;> [exact sub_of hL (by decide); skip])

theorem sbyClear_moves {L : List Part} {s0 : State} (v : Word) {s : State} (hL : ∀ p ∈ [.standby], p ∈ L)
    (hM : Moves L s0 s) : Moves L s0 (sbyClear v s) := by
  unfold sbyClear
  try simp only []
  repeat' first
    | with_reducible exact hM
    | split
    | (with_reducible apply Moves.leafMk; (with_reducible exact rfl); all_goals first | with_reducible exact rfl | exact Or.inl (hL _ (by decide)) | exact Or.inl rfl | exact Or.inr rfl | skip)

theorem updCmdWrite_moves {L : List Part} {s0 : State} (v : Word) {s : State} (hL : ∀ p ∈ [.mode, .bank, .heldWrites, .shadows, .carrier, .standby, .start, .claim, .pair, .tasks, .lanes, .ctl, .jrn, .exch, .mram, .sbox, .chans, .conv, .acq, .time, .net, .can0, .can1, .mpu, .upd, .panel, .mil, .outbox, .freeCount], p ∈ L)
    (hM : Moves L s0 s) : Moves L s0 (updCmdWrite v s) := by
  unfold updCmdWrite
  try simp only []
  repeat' first
    | with_reducible exact hM
    | ((with_reducible apply activateCmd_moves) <;> [exact sub_of hL (by decide); skip])
    | ((with_reducible apply confirmCmd_moves) <;> [exact sub_of hL (by decide); skip])
    | ((with_reducible apply fallbackCmd_moves) <;> [exact sub_of hL (by decide); skip])
    | ((with_reducible apply abortCmd_moves) <;> [exact sub_of hL (by decide); skip])
    | ((with_reducible apply anchorClearCmd_moves) <;> [exact sub_of hL (by decide); skip])
    | ((with_reducible apply leaveTerminusCmd_moves) <;> [exact sub_of hL (by decide); skip])
    | split

theorem ctrlWrite_moves {L : List Part} {s0 : State} (n : Nat) (v : Word) {s : State} (hL : ∀ p ∈ [.mode, .bank, .heldWrites, .shadows, .claim, .pair, .tasks, .lanes, .mram, .chans, .conv, .net, .can0, .can1, .panel, .mil, .outbox, .freeCount], p ∈ L)
    (hM : Moves L s0 s) : Moves L s0 (ctrlWrite n v s) := by
  unfold ctrlWrite
  try simp only []
  repeat' first
    | with_reducible exact hM
    | ((with_reducible apply setMultiword_moves) <;> [exact sub_of hL (by decide); skip])
    | ((with_reducible apply State_put_moves) <;> [exact sub_of hL (by decide); skip])
    | ((with_reducible apply hold_moves) <;> [exact sub_of hL (by decide); skip])
    | ((with_reducible apply locateWrite_moves) <;> [exact sub_of hL (by decide); skip])
    | ((with_reducible apply qpopWrite_moves) <;> [exact sub_of hL (by decide); skip])
    | ((with_reducible apply rxpopWrite_moves) <;> [exact sub_of hL (by decide); skip])
    | split

theorem laneRegWrite_moves {L : List Part} {s0 : State} (a : Nat) (v : Word) {s : State} (hL : ∀ p ∈ [.bank, .heldWrites, .lanes, .sbox], p ∈ L)
    (hM : Moves L s0 s) : Moves L s0 (laneRegWrite a v s) := by
  unfold laneRegWrite
  try simp only []
  repeat' first
    | with_reducible exact hM
    | ((with_reducible apply clearMaxWrite_moves) <;> [exact sub_of hL (by decide); skip])
    | ((with_reducible apply hold_moves) <;> [exact sub_of hL (by decide); skip])
    | ((with_reducible apply holdLatchReset_moves) <;> [exact sub_of hL (by decide); skip])
    | ((with_reducible apply injectWrite_moves) <;> [exact sub_of hL (by decide); skip])
    | ((with_reducible apply faultSelWrite_moves) <;> [exact sub_of hL (by decide); skip])
    | split

theorem cnvWrite_moves {L : List Part} {s0 : State} (a : Nat) (v : Word) {s : State} (hL : ∀ p ∈ [.bank, .conv], p ∈ L)
    (hM : Moves L s0 s) : Moves L s0 (cnvWrite a v s) := by
  unfold cnvWrite
  try simp only []
  repeat' first
    | with_reducible exact hM
    | ((with_reducible apply holdCal_moves) <;> [exact sub_of hL (by decide); skip])
    | ((with_reducible apply State_put_moves) <;> [exact sub_of hL (by decide); skip])
    | ((with_reducible apply testReqWrite_moves) <;> [exact sub_of hL (by decide); skip])
    | split

theorem timeWrite_moves {L : List Part} {s0 : State} (a : Nat) (v : Word) {s : State} (hL : ∀ p ∈ [.bank, .acq, .time, .net, .outbox], p ∈ L)
    (hM : Moves L s0 s) : Moves L s0 (timeWrite a v s) := by
  unfold timeWrite
  try simp only []
  repeat' first
    | with_reducible exact hM
    | ((with_reducible apply State_put_moves) <;> [exact sub_of hL (by decide); skip])
    | ((with_reducible apply incCommit_moves) <;> [exact sub_of hL (by decide); skip])
    | ((with_reducible apply stepWrite_moves) <;> [exact sub_of hL (by decide); skip])
    | ((with_reducible apply latchWrite_moves) <;> [exact sub_of hL (by decide); skip])
    | ((with_reducible apply servoDeclare_moves) <;> [exact sub_of hL (by decide); skip])
    | split

theorem acqWrite_moves {L : List Part} {s0 : State} (o : Origin) (a : Nat) (v : Word) {s : State} (hL : ∀ p ∈ [.bank, .heldWrites, .acq, .net, .outbox, .freeCount], p ∈ L)
    (hM : Moves L s0 s) : Moves L s0 (acqWrite o a v s) := by
  unfold acqWrite
  try simp only []
  repeat' first
    | with_reducible exact hM
    | ((with_reducible apply acqTrigWrite_moves) <;> [exact sub_of hL (by decide); skip])
    | ((with_reducible apply closeWrite_moves) <;> [exact sub_of hL (by decide); skip])
    | ((with_reducible apply acqApplyHeld_moves) <;> [exact sub_of hL (by decide); skip])
    | ((with_reducible apply hold_moves) <;> [exact sub_of hL (by decide); skip])
    | split

theorem systemWrite_moves {L : List Part} {s0 : State} (a : Nat) (v : Word) {s : State} (hL : ∀ p ∈ [.mode, .bank, .heldWrites, .shadows, .carrier, .standby, .start, .claim, .pair, .tasks, .lanes, .ctl, .jrn, .exch, .mram, .sbox, .chans, .conv, .acq, .time, .net, .can0, .can1, .mpu, .upd, .panel, .mil, .outbox, .freeCount], p ∈ L)
    (hM : Moves L s0 s) : Moves L s0 (systemWrite a v s) := by
  unfold systemWrite
  try simp only []
  repeat' first
    | with_reducible exact hM
    | ((with_reducible apply releaseWrite_moves) <;> [exact sub_of hL (by decide); skip])
    | ((with_reducible apply updCmdWrite_moves) <;> [exact sub_of hL (by decide); skip])
    | ((with_reducible apply attestWrite_moves) <;> [exact sub_of hL (by decide); skip])
    | ((with_reducible apply hold_moves) <;> [exact sub_of hL (by decide); skip])
    | ((with_reducible apply labelRequest_moves) <;> [exact sub_of hL (by decide); skip])
    | ((with_reducible apply milSelWrite_moves) <;> [exact sub_of hL (by decide); skip])
    | ((with_reducible apply sbyClear_moves) <;> [exact sub_of hL (by decide); skip])
    | ((with_reducible apply regionWrite_moves) <;> [exact sub_of hL (by decide); skip])
    | ((with_reducible apply armWrite_moves) <;> [exact sub_of hL (by decide); skip])
    | ((with_reducible apply swapWrite_moves) <;> [exact sub_of hL (by decide); skip])
    | ((with_reducible apply State_put_moves) <;> [exact sub_of hL (by decide); skip])
    | split

theorem regEffect_moves {L : List Part} {s0 : State} (o : Origin) (a : Nat) (v : Word) {s : State} (hL : ∀ p ∈ [.mode, .bank, .heldWrites, .shadows, .carrier, .standby, .start, .claim, .pair, .tasks, .lanes, .ctl, .jrn, .exch, .mram, .sbox, .chans, .conv, .acq, .time, .net, .can0, .can1, .mpu, .upd, .panel, .mil, .outbox, .freeCount], p ∈ L)
    (hM : Moves L s0 s) : Moves L s0 (regEffect o a v s) := by
  unfold regEffect
  try simp only []
  repeat' first
    | with_reducible exact hM
    | ((with_reducible apply State_clearEvents_moves) <;> [exact sub_of hL (by decide); skip])
    | ((with_reducible apply ctrlWrite_moves) <;> [exact sub_of hL (by decide); skip])
    | ((with_reducible apply laneRegWrite_moves) <;> [exact sub_of hL (by decide); skip])
    | ((with_reducible apply timeWrite_moves) <;> [exact sub_of hL (by decide); skip])
    | ((with_reducible apply cnvWrite_moves) <;> [exact sub_of hL (by decide); skip])
    | ((with_reducible apply acqWrite_moves) <;> [exact sub_of hL (by decide); skip])
    | ((with_reducible apply systemWrite_moves) <;> [exact sub_of hL (by decide); skip])
    | split

theorem writeBy_moves {L : List Part} {s0 : State} (o : Origin) (a : Nat) (v : Word) {s : State} (hL : ∀ p ∈ [.mode, .bank, .heldWrites, .shadows, .carrier, .standby, .start, .claim, .pair, .tasks, .lanes, .ctl, .jrn, .exch, .mram, .sbox, .chans, .conv, .acq, .time, .net, .can0, .can1, .mpu, .upd, .panel, .mil, .outbox, .freeCount], p ∈ L)
    (hM : Moves L s0 s) : Moves L s0 (writeBy o a v s) := by
  unfold writeBy
  try simp only []
  repeat' first
    | with_reducible exact hM
    | ((with_reducible apply refuseShape_moves) <;> [exact sub_of hL (by decide); skip])
    | ((with_reducible apply regEffect_moves) <;> [exact sub_of hL (by decide); skip])
    | ((with_reducible apply refuseOrigin_moves) <;> [exact sub_of hL (by decide); skip])
    | split

theorem execApplyHeld_moves {L : List Part} {s0 : State} {s : State} (hL : ∀ p ∈ [.bank, .heldWrites], p ∈ L)
    (hM : Moves L s0 s) : Moves L s0 (execApplyHeld s) := by
  unfold execApplyHeld
  try simp only []
  repeat' first
    | with_reducible exact hM
    | with_reducible assumption
    | ((with_reducible apply State_put_moves) <;> [exact sub_of hL (by decide); skip])
    | (with_reducible refine Moves.forEach (fun a x hx => ?_) ?_)
    | split
    | (with_reducible apply Moves.leafMk; (with_reducible exact rfl); all_goals first | with_reducible exact rfl | exact Or.inl (hL _ (by decide)) | exact Or.inl rfl | exact Or.inr rfl | skip)

end Sys2Proof.Machine
end

