-- ==== Sys2Proof/Laws/MovesExchange.lean ====
section
/-! SUPPORT. What each operation of Machine/Exchange.lean does to the whole state: the parts it leaves alone, and the invariants it keeps. -/

set_option Elab.async false

namespace Sys2Proof.Machine

open Sys2Proof

theorem clearExchange_moves {L : List Part} {s0 : State} {s : State} (hL : ∀ p ∈ [.exch, .mram], p ∈ L)
    (hM : Moves L s0 s) : Moves L s0 (clearExchange s) := by
  unfold clearExchange
  try simp only []
  repeat' first
    | with_reducible exact hM
    | (with_reducible apply Moves.leafMk; (with_reducible exact rfl); all_goals first | with_reducible exact rfl | exact Or.inl (hL _ (by decide)) | exact Or.inl rfl | exact Or.inr rfl | skip)

theorem abandonExchange_moves {L : List Part} {s0 : State} {s : State} (hL : ∀ p ∈ [.bank, .pair, .jrn, .exch, .mram, .outbox], p ∈ L)
    (hM : Moves L s0 s) : Moves L s0 (abandonExchange s) := by
  unfold abandonExchange
  try simp only []
  repeat' first
    | with_reducible exact hM
    | ((with_reducible apply clearExchange_moves) <;> [exact sub_of hL (by decide); skip])
    | ((with_reducible apply closeWaybill_moves) <;> [exact sub_of hL (by decide); skip])
    | split

theorem commitExchange_moves {L : List Part} {s0 : State} (a : Announcement) {s : State} (hL : ∀ p ∈ [.pair, .exch, .mram], p ∈ L)
    (hM : Moves L s0 s) : Moves L s0 (commitExchange a s) := by
  unfold commitExchange
  try simp only []
  repeat' first
    | with_reducible exact hM
    | split
    | (with_reducible apply Moves.leafMk; (with_reducible exact rfl); all_goals first | with_reducible exact rfl | exact Or.inl (hL _ (by decide)) | exact Or.inl rfl | exact Or.inr rfl | skip)

theorem commitAlone_moves {L : List Part} {s0 : State} {s : State} (hL : ∀ p ∈ [.pair, .exch, .mram], p ∈ L)
    (hM : Moves L s0 s) : Moves L s0 (commitAlone s) := by
  unfold commitAlone
  try simp only []
  repeat' first
    | with_reducible exact hM
    | ((with_reducible apply commitExchange_moves) <;> [exact sub_of hL (by decide); skip])
    | split
    | (with_reducible apply Moves.leafMk; (with_reducible exact rfl); all_goals first | with_reducible exact rfl | exact Or.inl (hL _ (by decide)) | exact Or.inl rfl | exact Or.inr rfl | skip)

theorem announceExchange_moves {L : List Part} {s0 : State} {s : State} (hL : ∀ p ∈ [.exch, .freeCount], p ∈ L)
    (hM : Moves L s0 s) : Moves L s0 (announceExchange s) := by
  unfold announceExchange
  try simp only []
  repeat' first
    | with_reducible exact hM
    | ((with_reducible apply State_free_moves) <;> [exact sub_of hL (by decide); skip])
    | split
    | (with_reducible apply Moves.leafMk; (with_reducible exact rfl); all_goals first | with_reducible exact rfl | exact Or.inl (hL _ (by decide)) | exact Or.inl rfl | exact Or.inr rfl | skip)

theorem loadShadow_moves {L : List Part} {s0 : State} (n : Image) {s : State} (hL : ∀ p ∈ [.exch, .mram], p ∈ L)
    (hM : Moves L s0 s) : Moves L s0 (loadShadow n s) := by
  unfold loadShadow
  try simp only []
  repeat' first
    | with_reducible exact hM
    | split
    | (with_reducible apply Moves.leafMk; (with_reducible exact rfl); all_goals first | with_reducible exact rfl | exact Or.inl (hL _ (by decide)) | exact Or.inl rfl | exact Or.inr rfl | skip)

theorem beginExchange_moves {L : List Part} {s0 : State} (w : Waybill) {s : State} (hL : ∀ p ∈ [.exch], p ∈ L)
    (hM : Moves L s0 s) : Moves L s0 (beginExchange w s).2 := by
  unfold beginExchange
  try simp only []
  repeat' first
    | with_reducible exact hM
    | split
    | (with_reducible apply Moves.leafMk; (with_reducible exact rfl); all_goals first | with_reducible exact rfl | exact Or.inl (hL _ (by decide)) | exact Or.inl rfl | exact Or.inr rfl | skip)

theorem State_viewFor_moves {L : List Part} {s0 : State} (i : Nat) {s : State} (hL : ∀ p ∈ [.start], p ∈ L)
    (hM : Moves L s0 s) : Moves L s0 (State.viewFor s i) := by
  unfold State.viewFor
  try simp only []
  repeat' first
    | with_reducible exact hM
    | split
    | (with_reducible apply Moves.leafMk; (with_reducible exact rfl); all_goals first | with_reducible exact rfl | exact Or.inl (hL _ (by decide)) | exact Or.inl rfl | exact Or.inr rfl | skip)

theorem addNew_moves {L : List Part} {s0 : State} (old : Image) (new : Image) {s : State} (hL : ∀ p ∈ [.ctl], p ∈ L)
    (hM : Moves L s0 s) : Moves L s0 (addNew old new s) := by
  unfold addNew
  try simp only []
  repeat' first
    | with_reducible exact hM
    | with_reducible assumption
    | (with_reducible refine Moves.foldl (fun a x hx => ?_) ?_)
    | split
    | (with_reducible apply Moves.leafMk; (with_reducible exact rfl); all_goals first | with_reducible exact rfl | exact Or.inl (hL _ (by decide)) | exact Or.inl rfl | exact Or.inr rfl | skip)

theorem noteClosed_moves {L : List Part} {s0 : State} (wseq : Nat) (status : Nat) {s : State} (hL : ∀ p ∈ [.exch], p ∈ L)
    (hM : Moves L s0 s) : Moves L s0 (noteClosed wseq status s) := by
  unfold noteClosed
  try simp only []
  repeat' first
    | with_reducible exact hM
    | (with_reducible apply Moves.leafMk; (with_reducible exact rfl); all_goals first | with_reducible exact rfl | exact Or.inl (hL _ (by decide)) | exact Or.inl rfl | exact Or.inr rfl | skip)

theorem returnMessage_moves {L : List Part} {s0 : State} (i : Nat) (m : UnitMsg) (code : Nat) (epoch : Nat) {s : State} (hL : ∀ p ∈ [.tasks], p ∈ L)
    (hM : Moves L s0 s) : Moves L s0 (returnMessage i m code epoch s) := by
  unfold returnMessage
  try simp only []
  repeat' first
    | with_reducible exact hM
    | ((with_reducible apply State_setTask_moves) <;> [exact sub_of hL (by decide); skip])

theorem closeRemoved_moves {L : List Part} {s0 : State} (old : Image) (new : Image) {s : State} (hL : ∀ p ∈ [.bank, .pair, .tasks, .jrn, .exch, .mram, .outbox], p ∈ L)
    (hM : Moves L s0 s) : Moves L s0 (closeRemoved old new s) := by
  unfold closeRemoved
  try simp only []
  repeat' first
    | with_reducible exact hM
    | with_reducible assumption
    | ((with_reducible apply noteClosed_moves) <;> [exact sub_of hL (by decide); skip])
    | ((with_reducible apply closeWaybill_moves) <;> [exact sub_of hL (by decide); skip])
    | ((with_reducible apply State_setTask_moves) <;> [exact sub_of hL (by decide); skip])
    | (with_reducible refine Moves.forEach (fun a x hx => ?_) ?_)
    | (with_reducible apply Moves.leafMk; (with_reducible exact rfl); all_goals first | with_reducible exact rfl | exact Or.inl (hL _ (by decide)) | exact Or.inl rfl | exact Or.inr rfl | skip)

theorem beginMixed_moves {L : List Part} {s0 : State} (old : Image) (new : Image) {s : State} (hL : ∀ p ∈ [.bank, .pair, .tasks, .ctl, .jrn, .exch, .mram, .outbox], p ∈ L)
    (hM : Moves L s0 s) : Moves L s0 (beginMixed old new s) := by
  unfold beginMixed
  try simp only []
  repeat' first
    | with_reducible exact hM
    | ((with_reducible apply addNew_moves) <;> [exact sub_of hL (by decide); skip])
    | ((with_reducible apply closeRemoved_moves) <;> [exact sub_of hL (by decide); skip])
    | split
    | (with_reducible apply Moves.leafMk; (with_reducible exact rfl); all_goals first | with_reducible exact rfl | exact Or.inl (hL _ (by decide)) | exact Or.inl rfl | exact Or.inr rfl | skip)

theorem exchangeQuantum_moves {L : List Part} {s0 : State} {s : State} (hL : ∀ p ∈ [.bank, .pair, .tasks, .ctl, .jrn, .exch, .mram, .outbox], p ∈ L)
    (hM : Moves L s0 s) : Moves L s0 (exchangeQuantum s) := by
  unfold exchangeQuantum
  try simp only []
  repeat' first
    | with_reducible exact hM
    | ((with_reducible apply beginMixed_moves) <;> [exact sub_of hL (by decide); skip])
    | split

theorem idleTick_moves {L : List Part} {s0 : State} {s : State} (hL : ∀ p ∈ [.bank, .standby, .pair, .tasks, .ctl, .jrn, .exch, .mram, .conv, .time, .outbox], p ∈ L)
    (hM : Moves L s0 s) : Moves L s0 (idleTick s) := by
  unfold idleTick
  try simp only []
  repeat' first
    | with_reducible exact hM
    | ((with_reducible apply exchangeQuantum_moves) <;> [exact sub_of hL (by decide); skip])
    | ((with_reducible apply tick_moves) <;> [exact sub_of hL (by decide); skip])

theorem takeGone_moves {L : List Part} {s0 : State} (i : Nat) {s : State} (hL : ∀ p ∈ [.tasks, .exch], p ∈ L)
    (hM : Moves L s0 s) : Moves L s0 (takeGone i s) := by
  unfold takeGone
  try simp only []
  repeat' first
    | with_reducible exact hM
    | with_reducible assumption
    | ((with_reducible apply returnMessage_moves) <;> [exact sub_of hL (by decide); skip])
    | ((with_reducible apply State_setTask_moves) <;> [exact sub_of hL (by decide); skip])
    | (with_reducible refine Moves.forEach (fun a x hx => ?_) ?_)
    | (with_reducible apply Moves.leafMk; (with_reducible exact rfl); all_goals first | with_reducible exact rfl | exact Or.inl (hL _ (by decide)) | exact Or.inl rfl | exact Or.inr rfl | skip)

theorem moveLanes_moves {L : List Part} {s0 : State} (i : Nat) (lanes : List Nat) {s : State} (hL : ∀ p ∈ [.bank, .lanes, .net, .outbox], p ∈ L)
    (hM : Moves L s0 s) : Moves L s0 (moveLanes i lanes s) := by
  unfold moveLanes
  try simp only []
  repeat' first
    | with_reducible exact hM
    | with_reducible assumption
    | ((with_reducible apply State_setLane_moves) <;> [exact sub_of hL (by decide); skip])
    | ((with_reducible apply replaceLane_moves) <;> [exact sub_of hL (by decide); skip])
    | (with_reducible refine Moves.forEach (fun a x hx => ?_) ?_)
    | split
    | (with_reducible apply Moves.leafMk; (with_reducible exact rfl); all_goals first | with_reducible exact rfl | exact Or.inl (hL _ (by decide)) | exact Or.inl rfl | exact Or.inr rfl | skip)

theorem switchObjects_moves {L : List Part} {s0 : State} (i : Nat) (old : Image) (new : Image) (switchQ : Nat) (qs : Nat) {s : State} (hL : ∀ p ∈ [.start, .tasks, .ctl, .exch], p ∈ L)
    (hM : Moves L s0 s) : Moves L s0 (switchObjects i old new switchQ qs s) := by
  unfold switchObjects
  try simp only []
  repeat' first
    | with_reducible exact hM
    | ((with_reducible apply State_setTask_moves) <;> [exact sub_of hL (by decide); skip])
    | split
    | (with_reducible apply Moves.leafMk; (with_reducible exact rfl); all_goals first | with_reducible exact rfl | exact Or.inl (hL _ (by decide)) | exact Or.inl rfl | exact Or.inr rfl | skip)

theorem changeChannels_moves {L : List Part} {s0 : State} (old : Image) (new : Image) {s : State} (hL : ∀ p ∈ [.chans], p ∈ L)
    (hM : Moves L s0 s) : Moves L s0 (changeChannels old new s) := by
  unfold changeChannels
  try simp only []
  repeat' first
    | with_reducible exact hM
    | with_reducible assumption
    | ((with_reducible apply State_setChan_moves) <;> [exact sub_of hL (by decide); skip])
    | (with_reducible refine Moves.forEach (fun a x hx => ?_) ?_)

theorem changeDefs_moves {L : List Part} {s0 : State} (old : Image) (new : Image) {s : State} (hL : ∀ p ∈ [.heldWrites, .acq], p ∈ L)
    (hM : Moves L s0 s) : Moves L s0 (changeDefs old new s) := by
  unfold changeDefs
  try simp only []
  repeat' first
    | with_reducible exact hM
    | with_reducible assumption
    | ((with_reducible apply changeDef_moves) <;> [exact sub_of hL (by decide); skip])
    | (with_reducible refine Moves.forEach (fun a x hx => ?_) ?_)

theorem takeNewImage_moves {L : List Part} {s0 : State} (old : Image) (new : Image) {s : State} (hL : ∀ p ∈ [.start, .lanes, .ctl, .mram], p ∈ L)
    (hM : Moves L s0 s) : Moves L s0 (takeNewImage old new s) := by
  unfold takeNewImage
  try simp only []
  repeat' first
    | with_reducible exact hM
    | split
    | (with_reducible apply Moves.leafMk; (with_reducible exact rfl); all_goals first | with_reducible exact rfl | exact Or.inl (hL _ (by decide)) | exact Or.inl rfl | exact Or.inr rfl | skip)

theorem lastSwitch_moves {L : List Part} {s0 : State} (old : Image) (new : Image) (a : Announcement) {s : State} (hL : ∀ p ∈ [.bank, .heldWrites, .start, .pair, .tasks, .lanes, .ctl, .jrn, .exch, .mram, .sbox, .chans, .acq, .outbox], p ∈ L)
    (hM : Moves L s0 s) : Moves L s0 (lastSwitch old new a s) := by
  unfold lastSwitch
  try simp only []
  repeat' first
    | with_reducible exact hM
    | ((with_reducible apply closeRemoved_moves) <;> [exact sub_of hL (by decide); skip])
    | ((with_reducible apply changeDefs_moves) <;> [exact sub_of hL (by decide); skip])
    | ((with_reducible apply changeChannels_moves) <;> [exact sub_of hL (by decide); skip])
    | ((with_reducible apply takeNewImage_moves) <;> [exact sub_of hL (by decide); skip])
    | split
    | (with_reducible apply Moves.leafMk; (with_reducible exact rfl); all_goals first | with_reducible exact rfl | exact Or.inl (hL _ (by decide)) | exact Or.inl rfl | exact Or.inr rfl | skip)

theorem switchTask_moves {L : List Part} {s0 : State} (i : Nat) {s : State} (hL : ∀ p ∈ [.bank, .heldWrites, .start, .pair, .tasks, .lanes, .ctl, .jrn, .exch, .mram, .sbox, .chans, .acq, .net, .outbox], p ∈ L)
    (hM : Moves L s0 s) : Moves L s0 (switchTask i s) := by
  unfold switchTask
  try simp only []
  repeat' first
    | with_reducible exact hM
    | ((with_reducible apply beginMixed_moves) <;> [exact sub_of hL (by decide); skip])
    | ((with_reducible apply moveLanes_moves) <;> [exact sub_of hL (by decide); skip])
    | ((with_reducible apply switchObjects_moves) <;> [exact sub_of hL (by decide); skip])
    | ((with_reducible apply lastSwitch_moves) <;> [exact sub_of hL (by decide); skip])
    | split
    | (with_reducible apply Moves.leafMk; (with_reducible exact rfl); all_goals first | with_reducible exact rfl | exact Or.inl (hL _ (by decide)) | exact Or.inl rfl | exact Or.inr rfl | skip)

theorem finishExchange_moves {L : List Part} {s0 : State} {s : State} (hL : ∀ p ∈ [.bank, .start, .pair, .tasks, .jrn, .exch, .mram, .outbox], p ∈ L)
    (hM : Moves L s0 s) : Moves L s0 (finishExchange s) := by
  unfold finishExchange
  try simp only []
  repeat' first
    | with_reducible exact hM
    | ((with_reducible apply closeWaybill_moves) <;> [exact sub_of hL (by decide); skip])
    | split
    | (with_reducible apply Moves.leafMk; (with_reducible exact rfl); all_goals first | with_reducible exact rfl | exact Or.inl (hL _ (by decide)) | exact Or.inl rfl | exact Or.inr rfl | skip)

theorem sendPage_moves {L : List Part} {s0 : State} (n : Nat) {s : State} (hL : ∀ p ∈ [.pair, .outbox], p ∈ L)
    (hM : Moves L s0 s) : Moves L s0 (sendPage n s) := by
  unfold sendPage
  try simp only []
  repeat' first
    | with_reducible exact hM
    | ((with_reducible apply State_sendFrames_moves) <;> [exact sub_of hL (by decide); skip])

theorem answerResync_moves {L : List Part} {s0 : State} {s : State} (hL : ∀ p ∈ [.pair, .outbox], p ∈ L)
    (hM : Moves L s0 s) : Moves L s0 (answerResync s) := by
  unfold answerResync
  try simp only []
  repeat' first
    | with_reducible exact hM
    | with_reducible assumption
    | ((with_reducible apply State_sendFrame_moves) <;> [exact sub_of hL (by decide); skip])
    | ((with_reducible apply sendPage_moves) <;> [exact sub_of hL (by decide); skip])
    | (with_reducible refine Moves.forEach (fun a x hx => ?_) ?_)
    | split
    | (with_reducible apply Moves.leafMk; (with_reducible exact rfl); all_goals first | with_reducible exact rfl | exact Or.inl (hL _ (by decide)) | exact Or.inl rfl | exact Or.inr rfl | skip)

theorem restartBox_moves {L : List Part} {s0 : State} {s : State} (hL : ∀ p ∈ [.bank, .pair, .sbox, .chans, .mil], p ∈ L)
    (hM : Moves L s0 s) : Moves L s0 (restartBox s) := by
  unfold restartBox
  try simp only []
  repeat' first
    | with_reducible exact hM
    | ((with_reducible apply refreshOutputs_moves) <;> [exact sub_of hL (by decide); skip])
    | split
    | (with_reducible apply Moves.leafMk; (with_reducible exact rfl); all_goals first | with_reducible exact rfl | exact Or.inl (hL _ (by decide)) | exact Or.inl rfl | exact Or.inr rfl | skip)

end Sys2Proof.Machine
end

