-- ==== Sys2Proof/Laws/MovesTasks.lean ====
section
/-! SUPPORT. What each operation of Machine/Tasks.lean does to the whole state: the parts it leaves alone, and the invariants it keeps. -/

set_option Elab.async false

namespace Sys2Proof.Machine

open Sys2Proof

theorem addTagOp_moves {L : List Part} {s0 : State} (i : Nat) (o : TagOp) {s : State} (hL : ∀ p ∈ [.tasks], p ∈ L)
    (hM : Moves L s0 s) : Moves L s0 (addTagOp i o s) := by
  unfold addTagOp
  try simp only []
  repeat' first
    | with_reducible exact hM
    | ((with_reducible apply State_setTask_moves) <;> [exact sub_of hL (by decide); skip])

theorem constantOps_moves {L : List Part} {s0 : State} (i : Nat) (img : Image) (pairs : List (Nat × DWord)) {s : State} (hL : ∀ p ∈ [.tasks], p ∈ L)
    (hM : Moves L s0 s) : Moves L s0 (constantOps i img pairs s) := by
  unfold constantOps
  try simp only []
  repeat' first
    | with_reducible exact hM
    | with_reducible assumption
    | ((with_reducible apply State_setTask_moves) <;> [exact sub_of hL (by decide); skip])
    | (with_reducible refine Moves.forEach (fun a x hx => ?_) ?_)
    | split

theorem deliverRoleExchange_moves {L : List Part} {s0 : State} {s : State} (hL : ∀ p ∈ [.pair, .outbox], p ∈ L)
    (hM : Moves L s0 s) : Moves L s0 (deliverRoleExchange s).2 := by
  unfold deliverRoleExchange
  try simp only []
  repeat' first
    | with_reducible exact hM
    | ((with_reducible apply State_sendFrame_moves) <;> [exact sub_of hL (by decide); skip])
    | split
    | (with_reducible apply Moves.leafMk; (with_reducible exact rfl); all_goals first | with_reducible exact rfl | exact Or.inl (hL _ (by decide)) | exact Or.inl rfl | exact Or.inr rfl | skip)

theorem deliverRestart_moves {L : List Part} {s0 : State} (w : Waybill) (scope : Nat) (cold : Bool) {s : State} (hL : ∀ p ∈ [.pair, .mram, .outbox], p ∈ L)
    (hM : Moves L s0 s) : Moves L s0 (deliverRestart w scope cold s).2 := by
  unfold deliverRestart
  try simp only []
  repeat' first
    | with_reducible exact hM
    | ((with_reducible apply State_sendFrame_moves) <;> [exact sub_of hL (by decide); skip])
    | split
    | (with_reducible apply Moves.leafMk; (with_reducible exact rfl); all_goals first | with_reducible exact rfl | exact Or.inl (hL _ (by decide)) | exact Or.inl rfl | exact Or.inr rfl | skip)

theorem deliverAbandon_moves {L : List Part} {s0 : State} (digest : Nat) {s : State} (hL : ∀ p ∈ [.bank, .pair, .jrn, .exch, .mram, .outbox], p ∈ L)
    (hM : Moves L s0 s) : Moves L s0 (deliverAbandon digest s).2 := by
  unfold deliverAbandon
  try simp only []
  repeat' first
    | with_reducible exact hM
    | ((with_reducible apply abandonExchange_moves) <;> [exact sub_of hL (by decide); skip])
    | split

theorem takeWaybill_moves {L : List Part} {s0 : State} (i : Nat) (w : Waybill) {s : State} (hL : ∀ p ∈ [.bank, .start, .pair, .tasks, .jrn, .exch, .mram, .outbox], p ∈ L)
    (hM : Moves L s0 s) : Moves L s0 (takeWaybill i w s).2 := by
  unfold takeWaybill
  try simp only []
  repeat' first
    | with_reducible exact hM
    | ((with_reducible apply addTagOp_moves) <;> [exact sub_of hL (by decide); skip])
    | ((with_reducible apply State_setTask_moves) <;> [exact sub_of hL (by decide); skip])
    | ((with_reducible apply constantOps_moves) <;> [exact sub_of hL (by decide); skip])
    | ((with_reducible apply beginExchange_moves) <;> [exact sub_of hL (by decide); skip])
    | ((with_reducible apply deliverAbandon_moves) <;> [exact sub_of hL (by decide); skip])
    | ((with_reducible apply deliverRestart_moves) <;> [exact sub_of hL (by decide); skip])
    | ((with_reducible apply deliverRoleExchange_moves) <;> [exact sub_of hL (by decide); skip])
    | split

theorem handMessage_moves {L : List Part} {s0 : State} (i : Nat) (m : UnitMsg) {s : State} (hL : ∀ p ∈ [.start, .tasks], p ∈ L)
    (hM : Moves L s0 s) : Moves L s0 (handMessage i m s) := by
  unfold handMessage
  try simp only []
  repeat' first
    | with_reducible exact hM
    | ((with_reducible apply State_setTask_moves) <;> [exact sub_of hL (by decide); skip])
    | split

theorem deliverWaybill_moves {L : List Part} {s0 : State} (i : Nat) (w : Waybill) {s : State} (hL : ∀ p ∈ [.bank, .start, .pair, .tasks, .jrn, .exch, .mram, .outbox], p ∈ L)
    (hM : Moves L s0 s) : Moves L s0 (deliverWaybill i w s) := by
  unfold deliverWaybill
  try simp only []
  repeat' first
    | with_reducible exact hM
    | ((with_reducible apply takeWaybill_moves) <;> [exact sub_of hL (by decide); skip])
    | ((with_reducible apply State_setTask_moves) <;> [exact sub_of hL (by decide); skip])
    | ((with_reducible apply handMessage_moves) <;> [exact sub_of hL (by decide); skip])
    | split

theorem deliverMessage_moves {L : List Part} {s0 : State} (i : Nat) (m : UnitMsg) {s : State} (hL : ∀ p ∈ [.start, .tasks], p ∈ L)
    (hM : Moves L s0 s) : Moves L s0 (deliverMessage i m s) := by
  unfold deliverMessage
  try simp only []
  repeat' first
    | with_reducible exact hM
    | ((with_reducible apply State_setTask_moves) <;> [exact sub_of hL (by decide); skip])
    | ((with_reducible apply returnMessage_moves) <;> [exact sub_of hL (by decide); skip])
    | ((with_reducible apply handMessage_moves) <;> [exact sub_of hL (by decide); skip])
    | split

theorem deliverAll_moves {L : List Part} {s0 : State} (i : Nat) (limit : Nat) {s : State} (hL : ∀ p ∈ [.bank, .start, .pair, .tasks, .jrn, .exch, .mram, .net, .outbox], p ∈ L)
    (hM : Moves L s0 s) : Moves L s0 (deliverAll i limit s) := by
  unfold deliverAll
  try simp only []
  repeat' first
    | with_reducible exact hM
    | with_reducible assumption
    | ((with_reducible apply State_setTask_moves) <;> [exact sub_of hL (by decide); skip])
    | ((with_reducible apply deliverWaybill_moves) <;> [exact sub_of hL (by decide); skip])
    | ((with_reducible apply deliverMessage_moves) <;> [exact sub_of hL (by decide); skip])
    | ((with_reducible apply State_raiseIf_moves) <;> [exact sub_of hL (by decide); skip])
    | ((with_reducible apply State_put_moves) <;> [exact sub_of hL (by decide); skip])
    | (with_reducible refine Moves.forEach (fun a x hx => ?_) ?_)

theorem closeInvalid_moves {L : List Part} {s0 : State} (i : Nat) {s : State} (hL : ∀ p ∈ [.bank, .start, .pair, .tasks, .jrn, .exch, .mram, .outbox], p ∈ L)
    (hM : Moves L s0 s) : Moves L s0 (closeInvalid i s) := by
  unfold closeInvalid
  try simp only []
  repeat' first
    | with_reducible exact hM
    | with_reducible assumption
    | ((with_reducible apply noteClosed_moves) <;> [exact sub_of hL (by decide); skip])
    | ((with_reducible apply closeWaybill_moves) <;> [exact sub_of hL (by decide); skip])
    | ((with_reducible apply returnMessage_moves) <;> [exact sub_of hL (by decide); skip])
    | ((with_reducible apply State_setTask_moves) <;> [exact sub_of hL (by decide); skip])
    | (with_reducible refine Moves.forEach (fun a x hx => ?_) ?_)
    | split

theorem freezeCore_moves {L : List Part} {s0 : State} (i : Nat) {s : State} (hL : ∀ p ∈ [.bank, .heldWrites, .start, .pair, .tasks, .lanes, .ctl, .jrn, .exch, .mram, .sbox, .chans, .acq, .net, .can0, .can1, .outbox], p ∈ L)
    (hM : Moves L s0 s) : Moves L s0 (freezeCore i s) := by
  unfold freezeCore
  try simp only []
  repeat' first
    | with_reducible exact hM
    | ((with_reducible apply execApplyHeld_moves) <;> [exact sub_of hL (by decide); skip])
    | ((with_reducible apply State_setTask_moves) <;> [exact sub_of hL (by decide); skip])
    | ((with_reducible apply takeGone_moves) <;> [exact sub_of hL (by decide); skip])
    | ((with_reducible apply closeInvalid_moves) <;> [exact sub_of hL (by decide); skip])
    | ((with_reducible apply switchTask_moves) <;> [exact sub_of hL (by decide); skip])
    | ((with_reducible apply canFreeze_moves) <;> [exact sub_of hL (by decide); skip])
    | ((with_reducible apply deliverAll_moves) <;> [exact sub_of hL (by decide); skip])
    | split

theorem storeEffect_moves {L : List Part} {s0 : State} (i : Nat) (lane : Nat) (block : Nat) (unit : Nat) (o : Store) {s : State} (hL : ∀ p ∈ [.start, .tasks], p ∈ L)
    (hM : Moves L s0 s) : Moves L s0 (storeEffect i lane block unit o s) := by
  unfold storeEffect
  try simp only []
  repeat' first
    | with_reducible exact hM
    | ((with_reducible apply State_setTask_moves) <;> [exact sub_of hL (by decide); skip])
    | ((with_reducible apply addTagOp_moves) <;> [exact sub_of hL (by decide); skip])
    | split

theorem applyCommits_moves {L : List Part} {s0 : State} (i : Nat) {s : State} (hL : ∀ p ∈ [.start, .tasks], p ∈ L)
    (hM : Moves L s0 s) : Moves L s0 (applyCommits i s) := by
  unfold applyCommits
  try simp only []
  repeat' first
    | with_reducible exact hM
    | with_reducible assumption
    | ((with_reducible apply storeEffect_moves) <;> [exact sub_of hL (by decide); skip])
    | ((with_reducible apply State_setTask_moves) <;> [exact sub_of hL (by decide); skip])
    | (with_reducible refine Moves.forEach (fun a x hx => ?_) ?_)

theorem commitStores_moves {L : List Part} {s0 : State} (i : Nat) (lane : Nat) (block : Nat) (unit : Nat) (l : List Store) {s : State} (hL : ∀ p ∈ [.start, .tasks], p ∈ L)
    (hM : Moves L s0 s) : Moves L s0 (commitStores i lane block unit l s) := by
  unfold commitStores
  try simp only []
  repeat' first
    | with_reducible exact hM
    | ((with_reducible apply State_setTask_moves) <;> [exact sub_of hL (by decide); skip])

theorem undoBlock_moves {L : List Part} {s0 : State} (i : Nat) (lane : Nat) (block : Nat) {s : State} (hL : ∀ p ∈ [.start, .tasks], p ∈ L)
    (hM : Moves L s0 s) : Moves L s0 (undoBlock i lane block s) := by
  unfold undoBlock
  try simp only []
  repeat' first
    | with_reducible exact hM
    | ((with_reducible apply State_setTask_moves) <;> [exact sub_of hL (by decide); skip])

theorem settleMessages_moves {L : List Part} {s0 : State} (i : Nat) {s : State} (hL : ∀ p ∈ [.start, .tasks], p ∈ L)
    (hM : Moves L s0 s) : Moves L s0 (settleMessages i s) := by
  unfold settleMessages
  try simp only []
  repeat' first
    | with_reducible exact hM
    | with_reducible assumption
    | ((with_reducible apply State_setTask_moves) <;> [exact sub_of hL (by decide); skip])
    | ((with_reducible apply returnMessage_moves) <;> [exact sub_of hL (by decide); skip])
    | (with_reducible refine Moves.forEach (fun a x hx => ?_) ?_)
    | split

theorem settleRoles_moves {L : List Part} {s0 : State} (i : Nat) {s : State} (hL : ∀ p ∈ [.start, .tasks], p ∈ L)
    (hM : Moves L s0 s) : Moves L s0 (settleRoles i s) := by
  unfold settleRoles
  try simp only []
  repeat' first
    | with_reducible exact hM
    | ((with_reducible apply State_setTask_moves) <;> [exact sub_of hL (by decide); skip])

theorem settleDoubt_moves {L : List Part} {s0 : State} (i : Nat) {s : State} (hL : ∀ p ∈ [.tasks], p ∈ L)
    (hM : Moves L s0 s) : Moves L s0 (settleDoubt i s) := by
  unfold settleDoubt
  try simp only []
  repeat' first
    | with_reducible exact hM
    | ((with_reducible apply State_setTask_moves) <;> [exact sub_of hL (by decide); skip])
    | split

theorem postWaybill_moves {L : List Part} {s0 : State} (i : Nat) (unit : Nat) (clientSeq : Nat) (work : Work) {s : State} (hL : ∀ p ∈ [.bank, .start, .pair, .tasks, .jrn, .mram, .net, .outbox], p ∈ L)
    (hM : Moves L s0 s) : Moves L s0 (postWaybill i unit clientSeq work s) := by
  unfold postWaybill
  try simp only []
  repeat' first
    | with_reducible exact hM
    | ((with_reducible apply State_raiseIf_moves) <;> [exact sub_of hL (by decide); skip])
    | ((with_reducible apply State_setTask_moves) <;> [exact sub_of hL (by decide); skip])
    | ((with_reducible apply pushWaybill_moves) <;> [exact sub_of hL (by decide); skip])
    | ((with_reducible apply carry_moves) <;> [exact sub_of hL (by decide); skip])
    | ((with_reducible apply nearFull_moves) <;> [exact sub_of hL (by decide); skip])
    | split

theorem postAll_moves {L : List Part} {s0 : State} (i : Nat) {s : State} (hL : ∀ p ∈ [.bank, .start, .pair, .tasks, .jrn, .mram, .net, .outbox], p ∈ L)
    (hM : Moves L s0 s) : Moves L s0 (postAll i s) := by
  unfold postAll
  try simp only []
  repeat' first
    | with_reducible exact hM
    | with_reducible assumption
    | ((with_reducible apply postWaybill_moves) <;> [exact sub_of hL (by decide); skip])
    | ((with_reducible apply State_setTask_moves) <;> [exact sub_of hL (by decide); skip])
    | (with_reducible refine Moves.forEach (fun a x hx => ?_) ?_)
    | split

theorem endStep2_moves {L : List Part} {s0 : State} (i : Nat) {s : State} (hL : ∀ p ∈ [.tasks, .mram], p ∈ L)
    (hM : Moves L s0 s) : Moves L s0 (endStep2 i s) := by
  unfold endStep2
  try simp only []
  repeat' first
    | with_reducible exact hM
    | ((with_reducible apply writeMark_moves) <;> [exact sub_of hL (by decide); skip])
    | ((with_reducible apply State_setTask_moves) <;> [exact sub_of hL (by decide); skip])

theorem closesAlone_moves {L : List Part} {s0 : State} (i : Nat) {s : State} (hL : ∀ p ∈ [.mram], p ∈ L)
    (hM : Moves L s0 s) : Moves L s0 (closesAlone i s) := by
  unfold closesAlone
  try simp only []
  repeat' first
    | with_reducible exact hM
    | with_reducible assumption
    | ((with_reducible apply setWbState_moves) <;> [exact sub_of hL (by decide); skip])
    | (with_reducible refine Moves.forEach (fun a x hx => ?_) ?_)

theorem deltaDone_moves {L : List Part} {s0 : State} (i : Nat) {s : State} (hL : ∀ p ∈ [.pair, .tasks, .mram], p ∈ L)
    (hM : Moves L s0 s) : Moves L s0 (deltaDone i s) := by
  unfold deltaDone
  try simp only []
  repeat' first
    | with_reducible exact hM
    | ((with_reducible apply State_setTask_moves) <;> [exact sub_of hL (by decide); skip])
    | ((with_reducible apply endStep2_moves) <;> [exact sub_of hL (by decide); skip])
    | split
    | (with_reducible apply Moves.leafMk; (with_reducible exact rfl); all_goals first | with_reducible exact rfl | exact Or.inl (hL _ (by decide)) | exact Or.inl rfl | exact Or.inr rfl | skip)

theorem restartFailed_moves {L : List Part} {s0 : State} {s : State} (hL : ∀ p ∈ [.pair, .tasks, .mram, .outbox], p ∈ L)
    (hM : Moves L s0 s) : Moves L s0 (restartFailed s) := by
  unfold restartFailed
  try simp only []
  repeat' first
    | with_reducible exact hM
    | ((with_reducible apply State_setTask_moves) <;> [exact sub_of hL (by decide); skip])
    | ((with_reducible apply State_sendFrame_moves) <;> [exact sub_of hL (by decide); skip])
    | split
    | (with_reducible apply Moves.leafMk; (with_reducible exact rfl); all_goals first | with_reducible exact rfl | exact Or.inl (hL _ (by decide)) | exact Or.inl rfl | exact Or.inr rfl | skip)

theorem closureStep2_moves {L : List Part} {s0 : State} (i : Nat) {s : State} (hL : ∀ p ∈ [.bank, .start, .pair, .tasks, .jrn, .mram, .net, .outbox], p ∈ L)
    (hM : Moves L s0 s) : Moves L s0 (closureStep2 i s) := by
  unfold closureStep2
  try simp only []
  repeat' first
    | with_reducible exact hM
    | ((with_reducible apply settleRoles_moves) <;> [exact sub_of hL (by decide); skip])
    | ((with_reducible apply settleDoubt_moves) <;> [exact sub_of hL (by decide); skip])
    | ((with_reducible apply settleMessages_moves) <;> [exact sub_of hL (by decide); skip])
    | ((with_reducible apply applyCommits_moves) <;> [exact sub_of hL (by decide); skip])
    | ((with_reducible apply postAll_moves) <;> [exact sub_of hL (by decide); skip])
    | ((with_reducible apply State_setTask_moves) <;> [exact sub_of hL (by decide); skip])
    | ((with_reducible apply State_sendDelta_moves) <;> [exact sub_of hL (by decide); skip])
    | ((with_reducible apply State_raiseIf_moves) <;> [exact sub_of hL (by decide); skip])
    | ((with_reducible apply deltaDone_moves) <;> [exact sub_of hL (by decide); skip])
    | split
    | (with_reducible apply Moves.leafMk; (with_reducible exact rfl); all_goals first | with_reducible exact rfl | exact Or.inl (hL _ (by decide)) | exact Or.inl rfl | exact Or.inr rfl | skip)

theorem startBlock_moves {L : List Part} {s0 : State} (i : Nat) (n : Nat) {s : State} (hL : ∀ p ∈ [.lanes], p ∈ L)
    (hM : Moves L s0 s) : Moves L s0 (startBlock i n s) := by
  unfold startBlock
  try simp only []
  repeat' first
    | with_reducible exact hM
    | ((with_reducible apply State_setLane_moves) <;> [exact sub_of hL (by decide); skip])

theorem startLanes_moves {L : List Part} {s0 : State} (i : Nat) {s : State} (hL : ∀ p ∈ [.lanes], p ∈ L)
    (hM : Moves L s0 s) : Moves L s0 (startLanes i s) := by
  unfold startLanes
  try simp only []
  repeat' first
    | with_reducible exact hM
    | with_reducible assumption
    | ((with_reducible apply startBlock_moves) <;> [exact sub_of hL (by decide); skip])
    | (with_reducible refine Moves.forEach (fun a x hx => ?_) ?_)

theorem recordRefusals_moves {L : List Part} {s0 : State} (i : Nat) (l : List (Nat × Nat × Nat)) {s : State} (hL : ∀ p ∈ [.bank, .net, .outbox], p ∈ L)
    (hM : Moves L s0 s) : Moves L s0 (recordRefusals i l s) := by
  unfold recordRefusals
  try simp only []
  repeat' first
    | with_reducible exact hM
    | with_reducible assumption
    | ((with_reducible apply State_put_moves) <;> [exact sub_of hL (by decide); skip])
    | ((with_reducible apply State_raise_moves) <;> [exact sub_of hL (by decide); skip])
    | ((with_reducible apply State_inc_moves) <;> [exact sub_of hL (by decide); skip])
    | (with_reducible refine Moves.forEach (fun a x hx => ?_) ?_)

theorem enterReturn_moves {L : List Part} {s0 : State} (task : Nat) (e : ReturnEntry) {s : State} (hL : ∀ p ∈ [.tasks], p ∈ L)
    (hM : Moves L s0 s) : Moves L s0 (enterReturn task e s) := by
  unfold enterReturn
  try simp only []
  repeat' first
    | with_reducible exact hM
    | ((with_reducible apply State_setTask_moves) <;> [exact sub_of hL (by decide); skip])
    | split

theorem enterMessage_moves {L : List Part} {s0 : State} (task : Nat) (m : UnitMsg) {s : State} (hL : ∀ p ∈ [.tasks], p ∈ L)
    (hM : Moves L s0 s) : Moves L s0 (enterMessage task m s) := by
  unfold enterMessage
  try simp only []
  repeat' first
    | with_reducible exact hM
    | ((with_reducible apply State_setTask_moves) <;> [exact sub_of hL (by decide); skip])

theorem releaseOutput_moves {L : List Part} {s0 : State} (n : Nat) (value : Nat) {s : State} (hL : ∀ p ∈ [.chans], p ∈ L)
    (hM : Moves L s0 s) : Moves L s0 (releaseOutput n value s) := by
  unfold releaseOutput
  try simp only []
  repeat' first
    | with_reducible exact hM
    | ((with_reducible apply State_setChan_moves) <;> [exact sub_of hL (by decide); skip])

theorem closureStep3_moves {L : List Part} {s0 : State} (i : Nat) {s : State} (hL : ∀ p ∈ [.mode, .bank, .heldWrites, .shadows, .carrier, .standby, .start, .claim, .pair, .tasks, .lanes, .ctl, .jrn, .exch, .mram, .sbox, .chans, .conv, .acq, .time, .net, .can0, .can1, .mpu, .upd, .panel, .mil, .outbox, .freeCount], p ∈ L)
    (hM : Moves L s0 s) : Moves L s0 (closureStep3 i s) := by
  unfold closureStep3
  try simp only []
  repeat' first
    | with_reducible exact hM
    | with_reducible assumption
    | ((with_reducible apply applyTagOps_moves) <;> [exact sub_of hL (by decide); skip])
    | ((with_reducible apply enterMessage_moves) <;> [exact sub_of hL (by decide); skip])
    | ((with_reducible apply enterReturn_moves) <;> [exact sub_of hL (by decide); skip])
    | ((with_reducible apply writeBy_moves) <;> [exact sub_of hL (by decide); skip])
    | ((with_reducible apply canStores_moves) <;> [exact sub_of hL (by decide); skip])
    | ((with_reducible apply recordRefusals_moves) <;> [exact sub_of hL (by decide); skip])
    | ((with_reducible apply releaseOutput_moves) <;> [exact sub_of hL (by decide); skip])
    | ((with_reducible apply pubCheckAll_moves) <;> [exact sub_of hL (by decide); skip])
    | ((with_reducible apply refreshOutputs_moves) <;> [exact sub_of hL (by decide); skip])
    | (with_reducible refine Moves.forEach (fun a x hx => ?_) ?_)
    | (with_reducible refine Moves.foldl (fun a x hx => ?_) ?_)
    | (with_reducible apply Moves.leafMk; (with_reducible exact rfl); all_goals first | with_reducible exact rfl | exact Or.inl (hL _ (by decide)) | exact Or.inl rfl | exact Or.inr rfl | skip)

theorem closureStep4_moves {L : List Part} {s0 : State} (i : Nat) {s : State} (hL : ∀ p ∈ [.bank, .pair, .tasks, .jrn, .mram, .outbox], p ∈ L)
    (hM : Moves L s0 s) : Moves L s0 (closureStep4 i s) := by
  unfold closureStep4
  try simp only []
  repeat' first
    | with_reducible exact hM
    | with_reducible assumption
    | ((with_reducible apply State_setTask_moves) <;> [exact sub_of hL (by decide); skip])
    | ((with_reducible apply pushCompletion_moves) <;> [exact sub_of hL (by decide); skip])
    | ((with_reducible apply carry_moves) <;> [exact sub_of hL (by decide); skip])
    | ((with_reducible apply mirrorOut_moves) <;> [exact sub_of hL (by decide); skip])
    | (with_reducible refine Moves.forEach (fun a x hx => ?_) ?_)
    | split

theorem writeStatuses_moves {L : List Part} {s0 : State} {s : State} (hL : ∀ p ∈ [.bank, .pair, .jrn, .mram, .outbox], p ∈ L)
    (hM : Moves L s0 s) : Moves L s0 (writeStatuses s) := by
  unfold writeStatuses
  try simp only []
  repeat' first
    | with_reducible exact hM
    | with_reducible assumption
    | ((with_reducible apply pushCompletion_moves) <;> [exact sub_of hL (by decide); skip])
    | (with_reducible refine Moves.forEach (fun a x hx => ?_) ?_)
    | split
    | (with_reducible apply Moves.leafMk; (with_reducible exact rfl); all_goals first | with_reducible exact rfl | exact Or.inl (hL _ (by decide)) | exact Or.inl rfl | exact Or.inr rfl | skip)

theorem recordLoad_moves {L : List Part} {s0 : State} (i : Nat) (c : TaskCfg) (t : Task) {s : State} (hL : ∀ p ∈ [.bank, .net, .outbox], p ∈ L)
    (hM : Moves L s0 s) : Moves L s0 (recordLoad i c t s) := by
  unfold recordLoad
  try simp only []
  repeat' first
    | with_reducible exact hM
    | ((with_reducible apply State_atLeast_moves) <;> [exact sub_of hL (by decide); skip])
    | ((with_reducible apply State_put_moves) <;> [exact sub_of hL (by decide); skip])
    | ((with_reducible apply State_raiseIf_moves) <;> [exact sub_of hL (by decide); skip])

theorem resyncCapture_moves {L : List Part} {s0 : State} {s : State} (hL : ∀ p ∈ [.bank, .pair, .exch, .net, .outbox, .freeCount], p ∈ L)
    (hM : Moves L s0 s) : Moves L s0 (resyncCapture s) := by
  unfold resyncCapture
  try simp only []
  repeat' first
    | with_reducible exact hM
    | ((with_reducible apply State_free_moves) <;> [exact sub_of hL (by decide); skip])
    | ((with_reducible apply State_sendFrame_moves) <;> [exact sub_of hL (by decide); skip])
    | ((with_reducible apply State_sendFrames_moves) <;> [exact sub_of hL (by decide); skip])
    | ((with_reducible apply State_raise_moves) <;> [exact sub_of hL (by decide); skip])
    | ((with_reducible apply State_inc_moves) <;> [exact sub_of hL (by decide); skip])
    | split
    | (with_reducible apply Moves.leafMk; (with_reducible exact rfl); all_goals first | with_reducible exact rfl | exact Or.inl (hL _ (by decide)) | exact Or.inl rfl | exact Or.inr rfl | skip)

theorem restartStep4_moves {L : List Part} {s0 : State} {s : State} (hL : ∀ p ∈ [.bank, .claim, .pair, .tasks, .lanes, .chans, .net, .can0, .can1, .mil, .outbox, .freeCount], p ∈ L)
    (hM : Moves L s0 s) : Moves L s0 (restartStep4 s) := by
  unfold restartStep4
  try simp only []
  repeat' first
    | with_reducible exact hM
    | ((with_reducible apply State_sendFrame_moves) <;> [exact sub_of hL (by decide); skip])
    | ((with_reducible apply dropClaim_moves) <;> [exact sub_of hL (by decide); skip])
    | ((with_reducible apply stopLanes_moves) <;> [exact sub_of hL (by decide); skip])
    | ((with_reducible apply cancelHandover_moves) <;> [exact sub_of hL (by decide); skip])
    | split
    | (with_reducible apply Moves.leafMk; (with_reducible exact rfl); all_goals first | with_reducible exact rfl | exact Or.inl (hL _ (by decide)) | exact Or.inl rfl | exact Or.inr rfl | skip)

theorem releaseCycle_moves {L : List Part} {s0 : State} (i : Nat) {s : State} (hL : ∀ p ∈ [.mode, .bank, .heldWrites, .shadows, .carrier, .standby, .start, .claim, .pair, .tasks, .lanes, .ctl, .jrn, .exch, .mram, .sbox, .chans, .conv, .acq, .time, .net, .can0, .can1, .mpu, .upd, .panel, .mil, .outbox, .freeCount], p ∈ L)
    (hM : Moves L s0 s) : Moves L s0 (releaseCycle i s) := by
  unfold releaseCycle
  try simp only []
  repeat' first
    | with_reducible exact hM
    | ((with_reducible apply closureStep4_moves) <;> [exact sub_of hL (by decide); skip])
    | ((with_reducible apply writeStatuses_moves) <;> [exact sub_of hL (by decide); skip])
    | ((with_reducible apply closureStep3_moves) <;> [exact sub_of hL (by decide); skip])
    | ((with_reducible apply recordLoad_moves) <;> [exact sub_of hL (by decide); skip])
    | ((with_reducible apply State_setTask_moves) <;> [exact sub_of hL (by decide); skip])
    | ((with_reducible apply restartStep4_moves) <;> [exact sub_of hL (by decide); skip])
    | ((with_reducible apply resyncCapture_moves) <;> [exact sub_of hL (by decide); skip])
    | split

theorem markOverran_moves {L : List Part} {s0 : State} (i : Nat) {s : State} (hL : ∀ p ∈ [.mram], p ∈ L)
    (hM : Moves L s0 s) : Moves L s0 (markOverran i s) := by
  unfold markOverran
  try simp only []
  repeat' first
    | with_reducible exact hM
    | split
    | (with_reducible apply Moves.leafMk; (with_reducible exact rfl); all_goals first | with_reducible exact rfl | exact Or.inl (hL _ (by decide)) | exact Or.inl rfl | exact Or.inr rfl | skip)

end Sys2Proof.Machine
end

