-- ==== Sys2Proof/Laws/MovesLanes.lean ====
section
/-! SUPPORT. What each operation of Machine/Lanes.lean does to the whole state: the parts it leaves alone, and the invariants it keeps. -/

set_option Elab.async false

namespace Sys2Proof.Machine

open Sys2Proof

theorem migrateTo_moves {L : List Part} {s0 : State} (n : Nat) (spare : Nat) {s : State} (hL : ∀ p ∈ [.start, .tasks, .lanes], p ∈ L)
    (hM : Moves L s0 s) : Moves L s0 (migrateTo n spare s) := by
  unfold migrateTo
  try simp only []
  repeat' first
    | with_reducible exact hM
    | ((with_reducible apply undoBlock_moves) <;> [exact sub_of hL (by decide); skip])
    | ((with_reducible apply State_setLane_moves) <;> [exact sub_of hL (by decide); skip])
    | split

theorem retireServing_moves {L : List Part} {s0 : State} (n : Nat) (i : Nat) (kinds : List Nat) (diff : Nat) (p : FaultAt) {s : State} (hL : ∀ p ∈ [.mode, .bank, .start, .claim, .pair, .tasks, .lanes, .mram, .chans, .conv, .net, .can0, .can1, .panel, .mil, .outbox, .freeCount], p ∈ L)
    (hM : Moves L s0 s) : Moves L s0 (retireServing n i kinds diff p s) := by
  unfold retireServing
  try simp only []
  repeat' first
    | with_reducible exact hM
    | with_reducible assumption
    | ((with_reducible apply State_raise_moves) <;> [exact sub_of hL (by decide); skip])
    | ((with_reducible apply migrateTo_moves) <;> [exact sub_of hL (by decide); skip])
    | ((with_reducible apply retireMark_moves) <;> [exact sub_of hL (by decide); skip])
    | ((with_reducible apply writeFault_moves) <;> [exact sub_of hL (by decide); skip])
    | ((with_reducible apply State_raiseIf_moves) <;> [exact sub_of hL (by decide); skip])
    | ((with_reducible apply enterHalt_moves) <;> [exact sub_of hL (by decide); skip])
    | (with_reducible refine Moves.forEach (fun a x hx => ?_) ?_)
    | split

theorem retireIdle_moves {L : List Part} {s0 : State} (n : Nat) (kinds : List Nat) (diff : Nat) {s : State} (hL : ∀ p ∈ [.mode, .bank, .start, .claim, .pair, .tasks, .lanes, .mram, .chans, .conv, .net, .can0, .can1, .panel, .mil, .outbox, .freeCount], p ∈ L)
    (hM : Moves L s0 s) : Moves L s0 (retireIdle n kinds diff s) := by
  unfold retireIdle
  try simp only []
  repeat' first
    | with_reducible exact hM
    | with_reducible assumption
    | ((with_reducible apply migrateTo_moves) <;> [exact sub_of hL (by decide); skip])
    | ((with_reducible apply State_raise_moves) <;> [exact sub_of hL (by decide); skip])
    | ((with_reducible apply retireMark_moves) <;> [exact sub_of hL (by decide); skip])
    | ((with_reducible apply writeFault_moves) <;> [exact sub_of hL (by decide); skip])
    | ((with_reducible apply State_raiseIf_moves) <;> [exact sub_of hL (by decide); skip])
    | ((with_reducible apply enterHalt_moves) <;> [exact sub_of hL (by decide); skip])
    | (with_reducible refine Moves.forEach (fun a x hx => ?_) ?_)
    | split

theorem retireLane_moves {L : List Part} {s0 : State} (n : Nat) (kinds : List Nat) (diff : Nat) (p : FaultAt) {s : State} (hL : ∀ p ∈ [.mode, .bank, .start, .claim, .pair, .tasks, .lanes, .mram, .chans, .conv, .net, .can0, .can1, .panel, .mil, .outbox, .freeCount], p ∈ L)
    (hM : Moves L s0 s) : Moves L s0 (retireLane n kinds diff p s) := by
  unfold retireLane
  try simp only []
  repeat' first
    | with_reducible exact hM
    | ((with_reducible apply retireServing_moves) <;> [exact sub_of hL (by decide); skip])
    | ((with_reducible apply retireIdle_moves) <;> [exact sub_of hL (by decide); skip])
    | split

theorem noteLag_moves {L : List Part} {s0 : State} (c : Checkpoint) {s : State} (hL : ∀ p ∈ [.bank], p ∈ L)
    (hM : Moves L s0 s) : Moves L s0 (noteLag c s) := by
  unfold noteLag
  try simp only []
  repeat' first
    | with_reducible exact hM
    | ((with_reducible apply State_atLeast_moves) <;> [exact sub_of hL (by decide); skip])

theorem commitCheckpoint_moves {L : List Part} {s0 : State} (i : Nat) (c : Checkpoint) {s : State} (hL : ∀ p ∈ [.mode, .bank, .start, .claim, .pair, .tasks, .lanes, .jrn, .mram, .chans, .conv, .net, .can0, .can1, .mpu, .panel, .mil, .outbox, .freeCount], p ∈ L)
    (hM : Moves L s0 s) : Moves L s0 (commitCheckpoint i c s) := by
  unfold commitCheckpoint
  try simp only []
  repeat' first
    | with_reducible exact hM
    | ((with_reducible apply commitStores_moves) <;> [exact sub_of hL (by decide); skip])
    | ((with_reducible apply takeUnits_moves) <;> [exact sub_of hL (by decide); skip])
    | ((with_reducible apply State_setLane_moves) <;> [exact sub_of hL (by decide); skip])
    | ((with_reducible apply State_setTask_moves) <;> [exact sub_of hL (by decide); skip])
    | ((with_reducible apply startBlock_moves) <;> [exact sub_of hL (by decide); skip])
    | ((with_reducible apply retireLane_moves) <;> [exact sub_of hL (by decide); skip])
    | ((with_reducible apply closureStep2_moves) <;> [exact sub_of hL (by decide); skip])
    | split

theorem mismatchAt_moves {L : List Part} {s0 : State} (n : Nat) (diff : Nat) (kind : Nat) {s : State} (hL : ∀ p ∈ [.lanes], p ∈ L)
    (hM : Moves L s0 s) : Moves L s0 (mismatchAt n diff kind s) := by
  unfold mismatchAt
  try simp only []
  repeat' first
    | with_reducible exact hM
    | ((with_reducible apply State_setLane_moves) <;> [exact sub_of hL (by decide); skip])

theorem firstCompare_moves {L : List Part} {s0 : State} (i : Nat) (c : Checkpoint) {s : State} (hL : ∀ p ∈ [.mode, .bank, .start, .claim, .pair, .tasks, .lanes, .jrn, .mram, .chans, .conv, .net, .can0, .can1, .mpu, .panel, .mil, .outbox, .freeCount], p ∈ L)
    (hM : Moves L s0 s) : Moves L s0 (firstCompare i c s) := by
  unfold firstCompare
  try simp only []
  repeat' first
    | with_reducible exact hM
    | ((with_reducible apply enterHalt_moves) <;> [exact sub_of hL (by decide); skip])
    | ((with_reducible apply noteRefusals_moves) <;> [exact sub_of hL (by decide); skip])
    | ((with_reducible apply State_raise_moves) <;> [exact sub_of hL (by decide); skip])
    | ((with_reducible apply mismatchAt_moves) <;> [exact sub_of hL (by decide); skip])
    | ((with_reducible apply commitCheckpoint_moves) <;> [exact sub_of hL (by decide); skip])
    | ((with_reducible apply State_setLane_moves) <;> [exact sub_of hL (by decide); skip])
    | split

theorem noteRecovered_moves {L : List Part} {s0 : State} (n : Nat) {s : State} (hL : ∀ p ∈ [.lanes], p ∈ L)
    (hM : Moves L s0 s) : Moves L s0 (noteRecovered n s) := by
  unfold noteRecovered
  try simp only []
  repeat' first
    | with_reducible exact hM
    | ((with_reducible apply State_setLane_moves) <;> [exact sub_of hL (by decide); skip])

theorem recordRecovered_moves {L : List Part} {s0 : State} (i : Nat) (n : Nat) (diff : Nat) (m : Mismatch) {s : State} (hL : ∀ p ∈ [.bank, .lanes, .mram, .net, .outbox], p ∈ L)
    (hM : Moves L s0 s) : Moves L s0 (recordRecovered i n diff m s) := by
  unfold recordRecovered
  try simp only []
  repeat' first
    | with_reducible exact hM
    | with_reducible assumption
    | ((with_reducible apply writeFault_moves) <;> [exact sub_of hL (by decide); skip])
    | ((with_reducible apply noteRecovered_moves) <;> [exact sub_of hL (by decide); skip])
    | ((with_reducible apply State_raiseIf_moves) <;> [exact sub_of hL (by decide); skip])
    | ((with_reducible apply State_raise_moves) <;> [exact sub_of hL (by decide); skip])
    | ((with_reducible apply State_inc_moves) <;> [exact sub_of hL (by decide); skip])
    | (with_reducible refine Moves.forEach (fun a x hx => ?_) ?_)

theorem secondCompare_moves {L : List Part} {s0 : State} (i : Nat) (c : Checkpoint) (m : Mismatch) {s : State} (hL : ∀ p ∈ [.mode, .bank, .start, .claim, .pair, .tasks, .lanes, .jrn, .mram, .chans, .conv, .net, .can0, .can1, .mpu, .panel, .mil, .outbox, .freeCount], p ∈ L)
    (hM : Moves L s0 s) : Moves L s0 (secondCompare i c m s) := by
  unfold secondCompare
  try simp only []
  repeat' first
    | with_reducible exact hM
    | ((with_reducible apply State_setLane_moves) <;> [exact sub_of hL (by decide); skip])
    | ((with_reducible apply enterHalt_moves) <;> [exact sub_of hL (by decide); skip])
    | ((with_reducible apply noteRefusals_moves) <;> [exact sub_of hL (by decide); skip])
    | ((with_reducible apply retireLane_moves) <;> [exact sub_of hL (by decide); skip])
    | ((with_reducible apply State_raise_moves) <;> [exact sub_of hL (by decide); skip])
    | ((with_reducible apply commitCheckpoint_moves) <;> [exact sub_of hL (by decide); skip])
    | ((with_reducible apply recordRecovered_moves) <;> [exact sub_of hL (by decide); skip])
    | split

theorem askAgain_moves {L : List Part} {s0 : State} {s : State} (hL : ∀ p ∈ [.pair, .outbox], p ∈ L)
    (hM : Moves L s0 s) : Moves L s0 (askAgain s) := by
  unfold askAgain
  try simp only []
  repeat' first
    | with_reducible exact hM
    | ((with_reducible apply State_sendFrame_moves) <;> [exact sub_of hL (by decide); skip])
    | split
    | (with_reducible apply Moves.leafMk; (with_reducible exact rfl); all_goals first | with_reducible exact rfl | exact Or.inl (hL _ (by decide)) | exact Or.inl rfl | exact Or.inr rfl | skip)

theorem sharedUncorrectable_moves {L : List Part} {s0 : State} (word : Nat) {s : State} (hL : ∀ p ∈ [.mode, .bank, .start, .claim, .pair, .tasks, .lanes, .mram, .chans, .conv, .net, .can0, .can1, .panel, .mil, .outbox, .freeCount], p ∈ L)
    (hM : Moves L s0 s) : Moves L s0 (sharedUncorrectable word s) := by
  unfold sharedUncorrectable
  try simp only []
  repeat' first
    | with_reducible exact hM
    | ((with_reducible apply State_raise_moves) <;> [exact sub_of hL (by decide); skip])
    | ((with_reducible apply State_free_moves) <;> [exact sub_of hL (by decide); skip])
    | ((with_reducible apply enterHalt_moves) <;> [exact sub_of hL (by decide); skip])
    | ((with_reducible apply writeFault_moves) <;> [exact sub_of hL (by decide); skip])
    | ((with_reducible apply askAgain_moves) <;> [exact sub_of hL (by decide); skip])
    | ((with_reducible apply markStale_moves) <;> [exact sub_of hL (by decide); skip])
    | ((with_reducible apply startFault_moves) <;> [exact sub_of hL (by decide); skip])
    | split
    | (with_reducible apply Moves.leafMk; (with_reducible exact rfl); all_goals first | with_reducible exact rfl | exact Or.inl (hL _ (by decide)) | exact Or.inl rfl | exact Or.inr rfl | skip)

theorem eccHandle_moves {L : List Part} {s0 : State} (scrub : Bool) (f : EccFinding) {s : State} (hL : ∀ p ∈ [.mode, .bank, .start, .claim, .pair, .tasks, .lanes, .mram, .chans, .conv, .net, .can0, .can1, .upd, .panel, .mil, .outbox, .freeCount], p ∈ L)
    (hM : Moves L s0 s) : Moves L s0 (eccHandle scrub f s) := by
  unfold eccHandle
  try simp only []
  repeat' first
    | with_reducible exact hM
    | ((with_reducible apply State_raise_moves) <;> [exact sub_of hL (by decide); skip])
    | ((with_reducible apply State_inc_moves) <;> [exact sub_of hL (by decide); skip])
    | ((with_reducible apply State_setLane_moves) <;> [exact sub_of hL (by decide); skip])
    | ((with_reducible apply retireLane_moves) <;> [exact sub_of hL (by decide); skip])
    | ((with_reducible apply sharedUncorrectable_moves) <;> [exact sub_of hL (by decide); skip])
    | ((with_reducible apply spoil_moves) <;> [exact sub_of hL (by decide); skip])
    | ((with_reducible apply spoilAt_moves) <;> [exact sub_of hL (by decide); skip])
    | split

theorem bistVerdict_moves {L : List Part} {s0 : State} (n : Nat) (first : VectorRun) (second : VectorRun) {s : State} (hL : ∀ p ∈ [.mode, .bank, .start, .claim, .pair, .tasks, .lanes, .mram, .chans, .conv, .net, .can0, .can1, .panel, .mil, .outbox, .freeCount], p ∈ L)
    (hM : Moves L s0 s) : Moves L s0 (bistVerdict n first second s) := by
  unfold bistVerdict
  try simp only []
  repeat' first
    | with_reducible exact hM
    | ((with_reducible apply State_setLane_moves) <;> [exact sub_of hL (by decide); skip])
    | ((with_reducible apply writeFault_moves) <;> [exact sub_of hL (by decide); skip])
    | ((with_reducible apply noteRecovered_moves) <;> [exact sub_of hL (by decide); skip])
    | ((with_reducible apply State_raiseIf_moves) <;> [exact sub_of hL (by decide); skip])
    | ((with_reducible apply State_raise_moves) <;> [exact sub_of hL (by decide); skip])
    | ((with_reducible apply State_inc_moves) <;> [exact sub_of hL (by decide); skip])
    | ((with_reducible apply retireIdle_moves) <;> [exact sub_of hL (by decide); skip])
    | split

end Sys2Proof.Machine
end

