-- ==== Sys2Proof/Laws/MovesLink.lean ====
section
/-! SUPPORT. What each operation of Machine/Link.lean does to the whole state: the parts it leaves alone, and the invariants it keeps. -/

set_option Elab.async false

namespace Sys2Proof.Machine

open Sys2Proof

theorem releaseWaits_moves {L : List Part} {s0 : State} (waiting : List Nat) {s : State} (hL : ∀ p ∈ [.pair, .tasks, .mram], p ∈ L)
    (hM : Moves L s0 s) : Moves L s0 (releaseWaits waiting s) := by
  unfold releaseWaits
  try simp only []
  repeat' first
    | with_reducible exact hM
    | with_reducible assumption
    | ((with_reducible apply deltaDone_moves) <;> [exact sub_of hL (by decide); skip])
    | ((with_reducible apply closesAlone_moves) <;> [exact sub_of hL (by decide); skip])
    | (with_reducible refine Moves.forEach (fun a x hx => ?_) ?_)

theorem leaveExchange_moves {L : List Part} {s0 : State} {s : State} (hL : ∀ p ∈ [.bank, .pair, .jrn, .exch, .mram, .outbox, .freeCount], p ∈ L)
    (hM : Moves L s0 s) : Moves L s0 (leaveExchange s) := by
  unfold leaveExchange
  try simp only []
  repeat' first
    | with_reducible exact hM
    | ((with_reducible apply abandonExchange_moves) <;> [exact sub_of hL (by decide); skip])
    | ((with_reducible apply commitAlone_moves) <;> [exact sub_of hL (by decide); skip])
    | ((with_reducible apply announceExchange_moves) <;> [exact sub_of hL (by decide); skip])
    | split

theorem countAbsent_moves {L : List Part} {s0 : State} {s : State} (hL : ∀ p ∈ [.bank, .pair, .tasks, .mram, .net, .outbox], p ∈ L)
    (hM : Moves L s0 s) : Moves L s0 (countAbsent s) := by
  unfold countAbsent
  try simp only []
  repeat' first
    | with_reducible exact hM
    | ((with_reducible apply releaseWaits_moves) <;> [exact sub_of hL (by decide); skip])
    | ((with_reducible apply partnerLost_moves) <;> [exact sub_of hL (by decide); skip])

theorem partnerLeaves_moves {L : List Part} {s0 : State} (m : Mode) {s : State} (hL : ∀ p ∈ [.bank, .pair, .tasks, .jrn, .exch, .mram, .net, .outbox, .freeCount], p ∈ L)
    (hM : Moves L s0 s) : Moves L s0 (partnerLeaves m s) := by
  unfold partnerLeaves
  try simp only []
  repeat' first
    | with_reducible exact hM
    | ((with_reducible apply leaveExchange_moves) <;> [exact sub_of hL (by decide); skip])
    | ((with_reducible apply cancelHandover_moves) <;> [exact sub_of hL (by decide); skip])
    | ((with_reducible apply countAbsent_moves) <;> [exact sub_of hL (by decide); skip])
    | split

theorem resyncEnds_moves {L : List Part} {s0 : State} {s : State} (hL : ∀ p ∈ [.pair], p ∈ L)
    (hM : Moves L s0 s) : Moves L s0 (resyncEnds s) := by
  unfold resyncEnds
  try simp only []
  repeat' first
    | with_reducible exact hM
    | split
    | (with_reducible apply Moves.leafMk; (with_reducible exact rfl); all_goals first | with_reducible exact rfl | exact Or.inl (hL _ (by decide)) | exact Or.inl rfl | exact Or.inr rfl | skip)

theorem joinPartner_moves {L : List Part} {s0 : State} (m : Mode) {s : State} (hL : ∀ p ∈ [.mode, .bank, .start, .claim, .pair, .tasks, .lanes, .ctl, .jrn, .mram, .sbox, .chans, .conv, .acq, .net, .can0, .can1, .panel, .mil, .outbox, .freeCount], p ∈ L)
    (hM : Moves L s0 s) : Moves L s0 (joinPartner m s) := by
  unfold joinPartner
  try simp only []
  repeat' first
    | with_reducible exact hM
    | ((with_reducible apply decideAgain_moves) <;> [exact sub_of hL (by decide); skip])
    | ((with_reducible apply requestResync_moves) <;> [exact sub_of hL (by decide); skip])
    | split

theorem partnerIs_moves {L : List Part} {s0 : State} (m : Mode) (stale : Bool) {s : State} (hL : ∀ p ∈ [.mode, .bank, .start, .claim, .pair, .tasks, .lanes, .ctl, .jrn, .exch, .mram, .sbox, .chans, .conv, .acq, .net, .can0, .can1, .panel, .mil, .outbox, .freeCount], p ∈ L)
    (hM : Moves L s0 s) : Moves L s0 (partnerIs m stale s) := by
  unfold partnerIs
  try simp only []
  repeat' first
    | with_reducible exact hM
    | ((with_reducible apply countAbsent_moves) <;> [exact sub_of hL (by decide); skip])
    | ((with_reducible apply partnerLeaves_moves) <;> [exact sub_of hL (by decide); skip])
    | ((with_reducible apply resyncEnds_moves) <;> [exact sub_of hL (by decide); skip])
    | ((with_reducible apply joinPartner_moves) <;> [exact sub_of hL (by decide); skip])
    | split
    | (with_reducible apply Moves.leafMk; (with_reducible exact rfl); all_goals first | with_reducible exact rfl | exact Or.inl (hL _ (by decide)) | exact Or.inl rfl | exact Or.inr rfl | skip)

theorem frame_moves {L : List Part} {s0 : State} (kind : Nat) (h : LinkHdr) (f : State → State) {s : State} (hL : ∀ p ∈ [.mode, .bank, .start, .claim, .pair, .tasks, .lanes, .ctl, .jrn, .exch, .mram, .sbox, .chans, .conv, .acq, .net, .can0, .can1, .panel, .mil, .outbox, .freeCount], p ∈ L)
    (hf : ∀ x, Moves L s0 x → Moves L s0 (f x)) (hM : Moves L s0 s) : Moves L s0 (frame kind h f s) := by
  unfold frame
  try simp only []
  repeat' first
    | with_reducible exact hM
    | with_reducible assumption
    | ((with_reducible apply partnerIs_moves) <;> [exact sub_of hL (by decide); skip])
    | ((with_reducible apply State_inc_moves) <;> [exact sub_of hL (by decide); skip])
    | apply hf
    | split
    | (with_reducible apply Moves.leafMk; (with_reducible exact rfl); all_goals first | with_reducible exact rfl | exact Or.inl (hL _ (by decide)) | exact Or.inl rfl | exact Or.inr rfl | skip)

theorem takePairTime_moves {L : List Part} {s0 : State} (f : StatusFrame) {s : State} (hL : ∀ p ∈ [.bank, .pair, .acq, .time, .net, .outbox, .freeCount], p ∈ L)
    (hM : Moves L s0 s) : Moves L s0 (takePairTime f s) := by
  unfold takePairTime
  try simp only []
  repeat' first
    | with_reducible exact hM
    | ((with_reducible apply State_raiseIf_moves) <;> [exact sub_of hL (by decide); skip])
    | ((with_reducible apply servoSelect_moves) <;> [exact sub_of hL (by decide); skip])
    | ((with_reducible apply servoFollow_moves) <;> [exact sub_of hL (by decide); skip])
    | split
    | (with_reducible apply Moves.leafMk; (with_reducible exact rfl); all_goals first | with_reducible exact rfl | exact Or.inl (hL _ (by decide)) | exact Or.inl rfl | exact Or.inr rfl | skip)

theorem takeStatus_moves {L : List Part} {s0 : State} (f : StatusFrame) {s : State} (hL : ∀ p ∈ [.bank, .pair, .acq, .time, .net, .outbox, .freeCount], p ∈ L)
    (hM : Moves L s0 s) : Moves L s0 (takeStatus f s) := by
  unfold takeStatus
  try simp only []
  repeat' first
    | with_reducible exact hM
    | ((with_reducible apply takePairTime_moves) <;> [exact sub_of hL (by decide); skip])
    | ((with_reducible apply State_raiseIf_moves) <;> [exact sub_of hL (by decide); skip])
    | ((with_reducible apply cancelHandover_moves) <;> [exact sub_of hL (by decide); skip])
    | split
    | (with_reducible apply Moves.leafMk; (with_reducible exact rfl); all_goals first | with_reducible exact rfl | exact Or.inl (hL _ (by decide)) | exact Or.inl rfl | exact Or.inr rfl | skip)

theorem sendStatus_moves {L : List Part} {s0 : State} {s : State} (hL : ∀ p ∈ [.pair, .outbox], p ∈ L)
    (hM : Moves L s0 s) : Moves L s0 (sendStatus s) := by
  unfold sendStatus
  try simp only []
  repeat' first
    | with_reducible exact hM
    | ((with_reducible apply State_sendFrame_moves) <;> [exact sub_of hL (by decide); skip])
    | split
    | (with_reducible apply Moves.leafMk; (with_reducible exact rfl); all_goals first | with_reducible exact rfl | exact Or.inl (hL _ (by decide)) | exact Or.inl rfl | exact Or.inr rfl | skip)

theorem copyTag_moves {L : List Part} {s0 : State} (t : Nat) (g : Tag) {s : State} (hL : ∀ p ∈ [.ctl, .acq], p ∈ L)
    (hM : Moves L s0 s) : Moves L s0 (copyTag t g s) := by
  unfold copyTag
  try simp only []
  repeat' first
    | with_reducible exact hM
    | ((with_reducible apply acqTagChanged_moves) <;> [exact sub_of hL (by decide); skip])
    | split
    | (with_reducible apply Moves.leafMk; (with_reducible exact rfl); all_goals first | with_reducible exact rfl | exact Or.inl (hL _ (by decide)) | exact Or.inl rfl | exact Or.inr rfl | skip)

theorem copiedOutcome_moves {L : List Part} {s0 : State} (task : Nat) (handle : Nat) (p : Nat) {s : State} (hL : ∀ p ∈ [.can0, .can1], p ∈ L)
    (hM : Moves L s0 s) : Moves L s0 (copiedOutcome task handle p s) := by
  unfold copiedOutcome
  try simp only []
  repeat' first
    | with_reducible exact hM
    | ((with_reducible apply State_setCanPort_moves) <;> [exact sub_of hL (by decide); skip])

theorem applyRec_moves {L : List Part} {s0 : State} (task : Nat) (r : DeltaRec) {s : State} (hL : ∀ p ∈ [.bank, .heldWrites, .pair, .tasks, .lanes, .ctl, .jrn, .mram, .sbox, .chans, .acq, .can0, .can1], p ∈ L)
    (hM : Moves L s0 s) : Moves L s0 (applyRec task r s) := by
  unfold applyRec
  try simp only []
  repeat' first
    | with_reducible exact hM
    | ((with_reducible apply copyTag_moves) <;> [exact sub_of hL (by decide); skip])
    | ((with_reducible apply laneRegWrite_moves) <;> [exact sub_of hL (by decide); skip])
    | ((with_reducible apply State_setCanPort_moves) <;> [exact sub_of hL (by decide); skip])
    | ((with_reducible apply copiedOutcome_moves) <;> [exact sub_of hL (by decide); skip])
    | ((with_reducible apply State_setTask_moves) <;> [exact sub_of hL (by decide); skip])
    | ((with_reducible apply enterMessage_moves) <;> [exact sub_of hL (by decide); skip])
    | ((with_reducible apply enterReturn_moves) <;> [exact sub_of hL (by decide); skip])
    | ((with_reducible apply ringWaybill_moves) <;> [exact sub_of hL (by decide); skip])
    | ((with_reducible apply rateAdd_moves) <;> [exact sub_of hL (by decide); skip])
    | ((with_reducible apply writeMark_moves) <;> [exact sub_of hL (by decide); skip])
    | ((with_reducible apply State_setChan_moves) <;> [exact sub_of hL (by decide); skip])
    | split
    | (with_reducible apply Moves.leafMk; (with_reducible exact rfl); all_goals first | with_reducible exact rfl | exact Or.inl (hL _ (by decide)) | exact Or.inl rfl | exact Or.inr rfl | skip)

theorem loseCopy_moves {L : List Part} {s0 : State} {s : State} (hL : ∀ p ∈ [.bank, .pair, .net, .outbox], p ∈ L)
    (hM : Moves L s0 s) : Moves L s0 (loseCopy s) := by
  unfold loseCopy
  try simp only []
  repeat' first
    | with_reducible exact hM
    | ((with_reducible apply requestResync_moves) <;> [exact sub_of hL (by decide); skip])
    | ((with_reducible apply markStale_moves) <;> [exact sub_of hL (by decide); skip])

theorem switchFor_moves {L : List Part} {s0 : State} (d : DeltaMsg) {s : State} (hL : ∀ p ∈ [.bank, .heldWrites, .start, .pair, .tasks, .lanes, .ctl, .jrn, .exch, .mram, .sbox, .chans, .acq, .net, .outbox], p ∈ L)
    (hM : Moves L s0 s) : Moves L s0 (switchFor d s).2 := by
  unfold switchFor
  try simp only []
  repeat' first
    | with_reducible exact hM
    | ((with_reducible apply switchTask_moves) <;> [exact sub_of hL (by decide); skip])
    | split

theorem takeDelta_moves {L : List Part} {s0 : State} (d : DeltaMsg) {s : State} (hL : ∀ p ∈ [.bank, .heldWrites, .start, .pair, .tasks, .lanes, .ctl, .jrn, .exch, .mram, .sbox, .chans, .acq, .net, .can0, .can1, .mil, .outbox], p ∈ L)
    (hM : Moves L s0 s) : Moves L s0 (takeDelta d s) := by
  unfold takeDelta
  try simp only []
  repeat' first
    | with_reducible exact hM
    | with_reducible assumption
    | ((with_reducible apply State_raise_moves) <;> [exact sub_of hL (by decide); skip])
    | ((with_reducible apply loseCopy_moves) <;> [exact sub_of hL (by decide); skip])
    | ((with_reducible apply switchFor_moves) <;> [exact sub_of hL (by decide); skip])
    | ((with_reducible apply State_sendFrame_moves) <;> [exact sub_of hL (by decide); skip])
    | ((with_reducible apply refreshOutputs_moves) <;> [exact sub_of hL (by decide); skip])
    | ((with_reducible apply applyRec_moves) <;> [exact sub_of hL (by decide); skip])
    | (with_reducible refine Moves.forEach (fun a x hx => ?_) ?_)
    | split
    | (with_reducible apply Moves.leafMk; (with_reducible exact rfl); all_goals first | with_reducible exact rfl | exact Or.inl (hL _ (by decide)) | exact Or.inl rfl | exact Or.inr rfl | skip)

theorem resyncRec_moves {L : List Part} {s0 : State} (task : Nat) (closeSeq : Nat) (r : DeltaRec) {s : State} (hL : ∀ p ∈ [.bank, .heldWrites, .pair, .tasks, .lanes, .ctl, .jrn, .mram, .sbox, .chans, .acq, .can0, .can1], p ∈ L)
    (hM : Moves L s0 s) : Moves L s0 (resyncRec task closeSeq r s) := by
  unfold resyncRec
  try simp only []
  repeat' first
    | with_reducible exact hM
    | ((with_reducible apply applyRec_moves) <;> [exact sub_of hL (by decide); skip])
    | split
    | (with_reducible apply Moves.leafMk; (with_reducible exact rfl); all_goals first | with_reducible exact rfl | exact Or.inl (hL _ (by decide)) | exact Or.inl rfl | exact Or.inr rfl | skip)

theorem applyHeldRec_moves {L : List Part} {s0 : State} (r : DeltaRec) {s : State} (hL : ∀ p ∈ [.bank, .heldWrites, .pair, .tasks, .lanes, .ctl, .jrn, .mram, .sbox, .chans, .acq, .can0, .can1], p ∈ L)
    (hM : Moves L s0 s) : Moves L s0 (applyHeldRec r s) := by
  unfold applyHeldRec
  try simp only []
  repeat' first
    | with_reducible exact hM
    | ((with_reducible apply applyRec_moves) <;> [exact sub_of hL (by decide); skip])
    | split

theorem resyncDelta_moves {L : List Part} {s0 : State} (d : DeltaMsg) {s : State} (hL : ∀ p ∈ [.bank, .heldWrites, .pair, .tasks, .lanes, .ctl, .jrn, .mram, .sbox, .chans, .acq, .can0, .can1], p ∈ L)
    (hM : Moves L s0 s) : Moves L s0 (resyncDelta d s) := by
  unfold resyncDelta
  try simp only []
  repeat' first
    | with_reducible exact hM
    | with_reducible assumption
    | ((with_reducible apply resyncRec_moves) <;> [exact sub_of hL (by decide); skip])
    | (with_reducible refine Moves.forEach (fun a x hx => ?_) ?_)
    | split
    | (with_reducible apply Moves.leafMk; (with_reducible exact rfl); all_goals first | with_reducible exact rfl | exact Or.inl (hL _ (by decide)) | exact Or.inl rfl | exact Or.inr rfl | skip)

theorem mirrorEntry_moves {L : List Part} {s0 : State} (e : Entry) {s : State} (hL : ∀ p ∈ [.bank, .pair, .jrn, .exch, .mram, .outbox], p ∈ L)
    (hM : Moves L s0 s) : Moves L s0 (mirrorEntry e s) := by
  unfold mirrorEntry
  try simp only []
  repeat' first
    | with_reducible exact hM
    | ((with_reducible apply State_sendFrame_moves) <;> [exact sub_of hL (by decide); skip])
    | ((with_reducible apply replayEntry_moves) <;> [exact sub_of hL (by decide); skip])
    | ((with_reducible apply ringWaybill_moves) <;> [exact sub_of hL (by decide); skip])
    | ((with_reducible apply rateAdd_moves) <;> [exact sub_of hL (by decide); skip])
    | ((with_reducible apply ringPut_moves) <;> [exact sub_of hL (by decide); skip])
    | ((with_reducible apply clearExchange_moves) <;> [exact sub_of hL (by decide); skip])
    | ((with_reducible apply reportCompletion_moves) <;> [exact sub_of hL (by decide); skip])
    | split
    | (with_reducible apply Moves.leafMk; (with_reducible exact rfl); all_goals first | with_reducible exact rfl | exact Or.inl (hL _ (by decide)) | exact Or.inl rfl | exact Or.inr rfl | skip)

theorem couplingDown_moves {L : List Part} {s0 : State} {s : State} (hL : ∀ p ∈ [.bank, .start, .pair, .tasks, .jrn, .exch, .mram, .time, .net, .outbox, .freeCount], p ∈ L)
    (hM : Moves L s0 s) : Moves L s0 (couplingDown s) := by
  unfold couplingDown
  try simp only []
  repeat' first
    | with_reducible exact hM
    | ((with_reducible apply State_raise_moves) <;> [exact sub_of hL (by decide); skip])
    | ((with_reducible apply servoSelect_moves) <;> [exact sub_of hL (by decide); skip])
    | ((with_reducible apply leaveExchange_moves) <;> [exact sub_of hL (by decide); skip])
    | ((with_reducible apply cancelHandover_moves) <;> [exact sub_of hL (by decide); skip])
    | ((with_reducible apply countAbsent_moves) <;> [exact sub_of hL (by decide); skip])
    | ((with_reducible apply resyncEnds_moves) <;> [exact sub_of hL (by decide); skip])
    | split
    | (with_reducible apply Moves.leafMk; (with_reducible exact rfl); all_goals first | with_reducible exact rfl | exact Or.inl (hL _ (by decide)) | exact Or.inl rfl | exact Or.inr rfl | skip)

theorem resyncAnswered_moves {L : List Part} {s0 : State} {s : State} (hL : ∀ p ∈ [.pair, .ctl], p ∈ L)
    (hM : Moves L s0 s) : Moves L s0 (resyncAnswered s) := by
  unfold resyncAnswered
  try simp only []
  repeat' first
    | with_reducible exact hM
    | split
    | (with_reducible apply Moves.leafMk; (with_reducible exact rfl); all_goals first | with_reducible exact rfl | exact Or.inl (hL _ (by decide)) | exact Or.inl rfl | exact Or.inr rfl | skip)

theorem takePage_moves {L : List Part} {s0 : State} (p : Page) {s : State} (hL : ∀ p ∈ [.bank, .heldWrites, .pair, .tasks, .lanes, .ctl, .jrn, .mram, .sbox, .chans, .acq, .can0, .can1], p ∈ L)
    (hM : Moves L s0 s) : Moves L s0 (takePage p s) := by
  unfold takePage
  try simp only []
  repeat' first
    | with_reducible exact hM
    | with_reducible assumption
    | ((with_reducible apply copyTag_moves) <;> [exact sub_of hL (by decide); skip])
    | ((with_reducible apply applyRec_moves) <;> [exact sub_of hL (by decide); skip])
    | (with_reducible refine Moves.forEach (fun a x hx => ?_) ?_)
    | (with_reducible refine Moves.foldl (fun a x hx => ?_) ?_)
    | split
    | (with_reducible apply Moves.leafMk; (with_reducible exact rfl); all_goals first | with_reducible exact rfl | exact Or.inl (hL _ (by decide)) | exact Or.inl rfl | exact Or.inr rfl | skip)

theorem takeControl_moves {L : List Part} {s0 : State} (c : ControlSet) {s : State} (hL : ∀ p ∈ [.pair, .tasks, .ctl, .jrn, .exch, .mram], p ∈ L)
    (hM : Moves L s0 s) : Moves L s0 (takeControl c s) := by
  unfold takeControl
  try simp only []
  repeat' first
    | with_reducible exact hM
    | with_reducible assumption
    | ((with_reducible apply clearExchange_moves) <;> [exact sub_of hL (by decide); skip])
    | (with_reducible refine Moves.forEach (fun a x hx => ?_) ?_)
    | split
    | (with_reducible apply Moves.leafMk; (with_reducible exact rfl); all_goals first | with_reducible exact rfl | exact Or.inl (hL _ (by decide)) | exact Or.inl rfl | exact Or.inr rfl | skip)

theorem resyncComplete_moves {L : List Part} {s0 : State} (closeSeq : Nat) {s : State} (hL : ∀ p ∈ [.mode, .bank, .heldWrites, .pair, .tasks, .lanes, .ctl, .jrn, .mram, .sbox, .chans, .acq, .net, .can0, .can1, .upd, .panel, .mil, .outbox], p ∈ L)
    (hM : Moves L s0 s) : Moves L s0 (resyncComplete closeSeq s) := by
  unfold resyncComplete
  try simp only []
  repeat' first
    | with_reducible exact hM
    | with_reducible assumption
    | ((with_reducible apply applyHeldRec_moves) <;> [exact sub_of hL (by decide); skip])
    | ((with_reducible apply State_raise_moves) <;> [exact sub_of hL (by decide); skip])
    | ((with_reducible apply State_inc_moves) <;> [exact sub_of hL (by decide); skip])
    | ((with_reducible apply refreshOutputs_moves) <;> [exact sub_of hL (by decide); skip])
    | ((with_reducible apply serviceEntry_moves) <;> [exact sub_of hL (by decide); skip])
    | ((with_reducible apply setMode_moves) <;> [exact sub_of hL (by decide); exact Or.inl rfl; skip])
    | (with_reducible refine Moves.forEach (fun a x hx => ?_) ?_)
    | split
    | (with_reducible apply Moves.leafMk; (with_reducible exact rfl); all_goals first | with_reducible exact rfl | exact Or.inl (hL _ (by decide)) | exact Or.inl rfl | exact Or.inr rfl | skip)

end Sys2Proof.Machine
end

