-- ==== Sys2Proof/Laws/MovesPair.lean ====
section
/-! SUPPORT. What each operation of Machine/Pair.lean does to the whole state: the parts it leaves alone, and the invariants it keeps. -/

set_option Elab.async false

namespace Sys2Proof.Machine

open Sys2Proof

theorem takeClaim_moves {L : List Part} {s0 : State} (forHandover : Bool) {s : State} (hL : ∀ p ∈ [.bank, .claim], p ∈ L)
    (hd : mayDrive s.mode = true) (hM : Moves L s0 s) : Moves L s0 (takeClaim forHandover s) := by
  unfold takeClaim
  simp only []
  refine Moves.set_claim _ (hL _ (by decide)) (fun _ => Or.inr hd) ?_
  exact State_put_moves _ _ (sub_of hL (by decide)) (State_put_moves _ _ (sub_of hL (by decide)) (State_put_moves _ _ (sub_of hL (by decide)) hM))

theorem freezeCopy_moves {L : List Part} {s0 : State} {s : State} (hL : ∀ p ∈ [.bank, .heldWrites, .start, .pair, .tasks, .lanes, .ctl, .jrn, .exch, .mram, .sbox, .chans, .acq, .net, .can0, .can1, .outbox], p ∈ L)
    (hM : Moves L s0 s) : Moves L s0 (freezeCopy s) := by
  unfold freezeCopy
  try simp only []
  repeat' first
    | with_reducible exact hM
    | ((with_reducible apply startLanes_moves) <;> [exact sub_of hL (by decide); skip])
    | ((with_reducible apply freezeCore_moves) <;> [exact sub_of hL (by decide); skip])

theorem adoptImage_moves {L : List Part} {s0 : State} {s : State} (hL : ∀ p ∈ [.chans], p ∈ L)
    (hM : Moves L s0 s) : Moves L s0 (adoptImage s) := by
  unfold adoptImage
  try simp only []
  repeat' first
    | with_reducible exact hM
    | with_reducible assumption
    | ((with_reducible apply State_setChan_moves) <;> [exact sub_of hL (by decide); skip])
    | (with_reducible refine Moves.forEach (fun a x hx => ?_) ?_)

theorem enterActive_moves {L : List Part} {s0 : State} {s : State} (hL : ∀ p ∈ [.mode, .bank, .pair, .jrn, .exch, .mram, .chans, .upd, .panel, .outbox], p ∈ L)
    (hM : Moves L s0 s) : Moves L s0 (enterActive s) := by
  unfold enterActive
  try simp only []
  repeat' first
    | with_reducible exact hM
    | ((with_reducible apply serviceEntry_moves) <;> [exact sub_of hL (by decide); skip])
    | ((with_reducible apply setMode_moves) <;> [exact sub_of hL (by decide); exact Or.inl rfl; skip])
    | ((with_reducible apply adoptImage_moves) <;> [exact sub_of hL (by decide); skip])
    | ((with_reducible apply abandonExchange_moves) <;> [exact sub_of hL (by decide); skip])
    | ((with_reducible apply clearExchange_moves) <;> [exact sub_of hL (by decide); skip])
    | split
    | (with_reducible apply Moves.leafMk; (with_reducible exact rfl); all_goals first | with_reducible exact rfl | exact Or.inl (hL _ (by decide)) | exact Or.inl rfl | exact Or.inr rfl | skip)

theorem handedOver_moves {L : List Part} {s0 : State} {s : State} (hL : ∀ p ∈ [.mode, .bank, .pair, .panel, .outbox], p ∈ L)
    (hM : Moves L s0 s) : Moves L s0 (handedOver s) := by
  unfold handedOver
  try simp only []
  repeat' first
    | with_reducible exact hM
    | ((with_reducible apply setMode_moves) <;> [exact sub_of hL (by decide); exact Or.inl rfl; skip])
    | ((with_reducible apply requestResync_moves) <;> [exact sub_of hL (by decide); skip])
    | split
    | (with_reducible apply Moves.leafMk; (with_reducible exact rfl); all_goals first | with_reducible exact rfl | exact Or.inl (hL _ (by decide)) | exact Or.inl rfl | exact Or.inr rfl | skip)

theorem loseContest_moves {L : List Part} {s0 : State} {s : State} (hL : ∀ p ∈ [.mode, .bank, .claim, .pair, .tasks, .lanes, .chans, .net, .can0, .can1, .panel, .mil, .outbox, .freeCount], p ∈ L)
    (hM : Moves L s0 s) : Moves L s0 (loseContest s) := by
  unfold loseContest
  try simp only []
  repeat' first
    | with_reducible exact hM
    | ((with_reducible apply canUnclaim_moves) <;> [exact sub_of hL (by decide); skip])
    | ((with_reducible apply State_raise_moves) <;> [exact sub_of hL (by decide); skip])
    | ((with_reducible apply stopLanes_moves) <;> [exact sub_of hL (by decide); skip])
    | ((with_reducible apply partnerLost_moves) <;> [exact sub_of hL (by decide); skip])
    | ((with_reducible apply resyncEnds_moves) <;> [exact sub_of hL (by decide); skip])
    | ((with_reducible apply cancelHandover_moves) <;> [exact sub_of hL (by decide); skip])
    | ((with_reducible apply requestResync_moves) <;> [exact sub_of hL (by decide); skip])
    | ((with_reducible apply markStale_moves) <;> [exact sub_of hL (by decide); skip])
    | ((with_reducible apply setMode_moves) <;> [exact sub_of hL (by decide); exact Or.inl rfl; skip])
    | ((with_reducible apply refreshOutputs_moves) <;> [exact sub_of hL (by decide); skip])
    | split
    | (with_reducible apply Moves.leafMk; (with_reducible exact rfl); all_goals first | with_reducible exact rfl | exact Or.inl (hL _ (by decide)) | exact Or.inl rfl | exact Or.inr rfl | skip)

theorem releaseAtQh_moves {L : List Part} {s0 : State} {s : State} (hL : ∀ p ∈ [.bank, .claim, .pair, .tasks, .lanes, .chans, .net, .can0, .can1, .mil, .outbox, .freeCount], p ∈ L)
    (hM : Moves L s0 s) : Moves L s0 (releaseAtQh s) := by
  unfold releaseAtQh
  try simp only []
  repeat' first
    | with_reducible exact hM
    | ((with_reducible apply dropClaim_moves) <;> [exact sub_of hL (by decide); skip])
    | ((with_reducible apply stopLanes_moves) <;> [exact sub_of hL (by decide); skip])
    | ((with_reducible apply refreshOutputs_moves) <;> [exact sub_of hL (by decide); skip])
    | split
    | (with_reducible apply Moves.leafMk; (with_reducible exact rfl); all_goals first | with_reducible exact rfl | exact Or.inl (hL _ (by decide)) | exact Or.inl rfl | exact Or.inr rfl | skip)

theorem endRestartWait_moves {L : List Part} {s0 : State} {s : State} (hL : ∀ p ∈ [.tasks, .mram], p ∈ L)
    (hM : Moves L s0 s) : Moves L s0 (endRestartWait s) := by
  unfold endRestartWait
  try simp only []
  repeat' first
    | with_reducible exact hM
    | ((with_reducible apply endStep2_moves) <;> [exact sub_of hL (by decide); skip])
    | split

theorem restartNow_moves {L : List Part} {s0 : State} (i : StartInput) {s : State} (hL : ∀ p ∈ [.mode, .bank, .heldWrites, .shadows, .carrier, .standby, .start, .claim, .pair, .tasks, .lanes, .ctl, .jrn, .exch, .mram, .sbox, .chans, .conv, .acq, .time, .net, .can0, .can1, .mpu, .upd, .panel, .mil, .outbox, .freeCount], p ∈ L)
    (hM : Moves L s0 s) : Moves L s0 (restartNow i s) := by
  unfold restartNow
  try simp only []
  repeat' first
    | with_reducible exact hM
    | ((with_reducible apply startModule_moves) <;> [exact sub_of hL (by decide); skip])
    | ((with_reducible apply dropClaim_moves) <;> [exact sub_of hL (by decide); skip])
    | ((with_reducible apply stopLanes_moves) <;> [exact sub_of hL (by decide); skip])
    | ((with_reducible apply writePlr_moves) <;> [exact sub_of hL (by decide); skip])
    | ((with_reducible apply writeStatuses_moves) <;> [exact sub_of hL (by decide); skip])
    | split

end Sys2Proof.Machine
end

