-- ==== Sys2Proof/Laws/MovesNetworks.lean ====
section
/-! SUPPORT. What each operation of Machine/Networks.lean does to the whole state: the parts it leaves alone, and the invariants it keeps. -/

set_option Elab.async false

namespace Sys2Proof.Machine

open Sys2Proof

theorem receive_moves {L : List Part} {s0 : State} (f : FrameId) {s : State} (hL : ∀ p ∈ [.bank, .net, .outbox], p ∈ L)
    (hM : Moves L s0 s) : Moves L s0 (receive f s).2 := by
  unfold receive
  try simp only []
  repeat' first
    | with_reducible exact hM
    | ((with_reducible apply State_raise_moves) <;> [exact sub_of hL (by decide); skip])
    | ((with_reducible apply State_inc_moves) <;> [exact sub_of hL (by decide); skip])
    | split
    | (with_reducible apply Moves.leafMk; (with_reducible exact rfl); all_goals first | with_reducible exact rfl | exact Or.inl (hL _ (by decide)) | exact Or.inl rfl | exact Or.inr rfl | skip)

theorem onBus_moves {L : List Part} {s0 : State} (sv : Bool) (f : FrameId) (g : State → State) {s : State} (hL : ∀ p ∈ [.bank, .heldWrites, .net, .outbox], p ∈ L)
    (hf : ∀ x, Moves L s0 x → Moves L s0 (g x)) (hM : Moves L s0 s) : Moves L s0 (onBus sv f g s) := by
  unfold onBus
  try simp only []
  repeat' first
    | with_reducible exact hM
    | with_reducible assumption
    | ((with_reducible apply receive_moves) <;> [exact sub_of hL (by decide); skip])
    | ((with_reducible apply receiveStamp_moves) <;> [exact sub_of hL (by decide); skip])
    | ((with_reducible apply pbusBoundary_moves) <;> [exact sub_of hL (by decide); skip])
    | apply hf
    | split

theorem portDown_moves {L : List Part} {s0 : State} (p : Port) {s : State} (hL : ∀ p ∈ [.bank, .net, .outbox], p ∈ L)
    (hM : Moves L s0 s) : Moves L s0 (portDown p s) := by
  unfold portDown
  try simp only []
  repeat' first
    | with_reducible exact hM
    | ((with_reducible apply State_raiseIf_moves) <;> [exact sub_of hL (by decide); skip])
    | ((with_reducible apply State_raise_moves) <;> [exact sub_of hL (by decide); skip])
    | split
    | (with_reducible apply Moves.leafMk; (with_reducible exact rfl); all_goals first | with_reducible exact rfl | exact Or.inl (hL _ (by decide)) | exact Or.inl rfl | exact Or.inr rfl | skip)

theorem State_setSv_moves {L : List Part} {s0 : State} (k : Nat) (x : SvState) {s : State} (hL : ∀ p ∈ [.net], p ∈ L)
    (hM : Moves L s0 s) : Moves L s0 (State.setSv s k x) := by
  unfold State.setSv
  try simp only []
  repeat' first
    | with_reducible exact hM
    | (with_reducible apply Moves.leafMk; (with_reducible exact rfl); all_goals first | with_reducible exact rfl | exact Or.inl (hL _ (by decide)) | exact Or.inl rfl | exact Or.inr rfl | skip)

theorem svcGood_moves {L : List Part} {s0 : State} (c : Nat) (g : SvcCfg) (v : Int) (len : Nat) {s : State} (hL : ∀ p ∈ [.sbox], p ∈ L)
    (hM : Moves L s0 s) : Moves L s0 (svcGood c g v len s) := by
  unfold svcGood
  try simp only []
  repeat' first
    | with_reducible exact hM
    | with_reducible assumption
    | (with_reducible refine Moves.foldl (fun a x hx => ?_) ?_)
    | split
    | (with_reducible apply Moves.leafMk; (with_reducible exact rfl); all_goals first | with_reducible exact rfl | exact Or.inl (hL _ (by decide)) | exact Or.inl rfl | exact Or.inr rfl | skip)

theorem svcMissing_moves {L : List Part} {s0 : State} (c : Nat) {s : State} (hL : ∀ p ∈ [.bank, .sbox, .net, .outbox], p ∈ L)
    (hM : Moves L s0 s) : Moves L s0 (svcMissing c s) := by
  unfold svcMissing
  try simp only []
  repeat' first
    | with_reducible exact hM
    | ((with_reducible apply svcFail_moves) <;> [exact sub_of hL (by decide); skip])
    | split
    | (with_reducible apply Moves.leafMk; (with_reducible exact rfl); all_goals first | with_reducible exact rfl | exact Or.inl (hL _ (by decide)) | exact Or.inl rfl | exact Or.inr rfl | skip)

theorem svMissing_moves {L : List Part} {s0 : State} (k : Nat) (n : Nat) {s : State} (hL : ∀ p ∈ [.bank, .sbox, .acq, .net, .outbox], p ∈ L)
    (hM : Moves L s0 s) : Moves L s0 (svMissing k n s) := by
  unfold svMissing
  try simp only []
  repeat' first
    | with_reducible exact hM
    | with_reducible assumption
    | ((with_reducible apply State_addSat_moves) <;> [exact sub_of hL (by decide); skip])
    | ((with_reducible apply acqSvGap_moves) <;> [exact sub_of hL (by decide); skip])
    | ((with_reducible apply svcMissing_moves) <;> [exact sub_of hL (by decide); skip])
    | (with_reducible refine Moves.forEach (fun a x hx => ?_) ?_)
    | split

theorem svFrameOf_moves {L : List Part} {s0 : State} (k : Nat) (rate : Nat) (cnt : Nat) (at_ : Stamp) (samples : List SvSample) (d : Nat) (c : DefCfg) {s : State} (hL : ∀ p ∈ [.acq], p ∈ L)
    (hM : Moves L s0 s) : Moves L s0 (svFrameOf k rate cnt at_ samples d c s) := by
  unfold svFrameOf
  try simp only []
  repeat' first
    | with_reducible exact hM
    | with_reducible assumption
    | ((with_reducible apply addFrame_moves) <;> [exact sub_of hL (by decide); skip])
    | ((with_reducible apply State_setDef_moves) <;> [exact sub_of hL (by decide); skip])
    | (with_reducible refine Moves.forEach (fun a x hx => ?_) ?_)
    | split

theorem takeAsdu_moves {L : List Part} {s0 : State} (k : Nat) (c : SvSub) (a : Asdu) {s : State} (hL : ∀ p ∈ [.bank, .sbox, .acq, .net, .outbox], p ∈ L)
    (hM : Moves L s0 s) : Moves L s0 (takeAsdu k c a s) := by
  unfold takeAsdu
  try simp only []
  repeat' first
    | with_reducible exact hM
    | with_reducible assumption
    | ((with_reducible apply State_setSv_moves) <;> [exact sub_of hL (by decide); skip])
    | ((with_reducible apply svcGood_moves) <;> [exact sub_of hL (by decide); skip])
    | ((with_reducible apply svcMissing_moves) <;> [exact sub_of hL (by decide); skip])
    | ((with_reducible apply acqSvSample_moves) <;> [exact sub_of hL (by decide); skip])
    | ((with_reducible apply svFrameOf_moves) <;> [exact sub_of hL (by decide); skip])
    | (with_reducible refine Moves.forEach (fun a x hx => ?_) ?_)
    | split

theorem svAsdu_moves {L : List Part} {s0 : State} (k : Nat) (c : SvSub) (a : Asdu) {s : State} (hL : ∀ p ∈ [.bank, .sbox, .acq, .net, .outbox], p ∈ L)
    (hM : Moves L s0 s) : Moves L s0 (svAsdu k c a s) := by
  unfold svAsdu
  try simp only []
  repeat' first
    | with_reducible exact hM
    | ((with_reducible apply svMissing_moves) <;> [exact sub_of hL (by decide); skip])
    | ((with_reducible apply takeAsdu_moves) <;> [exact sub_of hL (by decide); skip])
    | ((with_reducible apply State_setSv_moves) <;> [exact sub_of hL (by decide); skip])
    | split

theorem svTake_moves {L : List Part} {s0 : State} (f : SvFrame) (k : Nat) (c : SvSub) {s : State} (hL : ∀ p ∈ [.bank, .sbox, .acq, .net, .outbox], p ∈ L)
    (hM : Moves L s0 s) : Moves L s0 (svTake f k c s) := by
  unfold svTake
  try simp only []
  repeat' first
    | with_reducible exact hM
    | with_reducible assumption
    | ((with_reducible apply svAsdu_moves) <;> [exact sub_of hL (by decide); skip])
    | ((with_reducible apply State_raiseIf_moves) <;> [exact sub_of hL (by decide); skip])
    | ((with_reducible apply svMissing_moves) <;> [exact sub_of hL (by decide); skip])
    | ((with_reducible apply State_setSv_moves) <;> [exact sub_of hL (by decide); skip])
    | (with_reducible refine Moves.forEach (fun a x hx => ?_) ?_)
    | split

theorem State_setGoose_moves {L : List Part} {s0 : State} (g : Nat) (x : GooseState) {s : State} (hL : ∀ p ∈ [.net], p ∈ L)
    (hM : Moves L s0 s) : Moves L s0 (State.setGoose s g x) := by
  unfold State.setGoose
  try simp only []
  repeat' first
    | with_reducible exact hM
    | (with_reducible apply Moves.leafMk; (with_reducible exact rfl); all_goals first | with_reducible exact rfl | exact Or.inl (hL _ (by decide)) | exact Or.inl rfl | exact Or.inr rfl | skip)

theorem gbitSet_moves {L : List Part} {s0 : State} (b : Nat) (v : Option Bool) {s : State} (hL : ∀ p ∈ [.bank, .sbox, .net, .outbox], p ∈ L)
    (hM : Moves L s0 s) : Moves L s0 (gbitSet b v s) := by
  unfold gbitSet
  try simp only []
  repeat' first
    | with_reducible exact hM
    | ((with_reducible apply State_raiseIf_moves) <;> [exact sub_of hL (by decide); skip])
    | split
    | (with_reducible apply Moves.leafMk; (with_reducible exact rfl); all_goals first | with_reducible exact rfl | exact Or.inl (hL _ (by decide)) | exact Or.inl rfl | exact Or.inr rfl | skip)

theorem gbitsFail_moves {L : List Part} {s0 : State} (g : Nat) {s : State} (hL : ∀ p ∈ [.bank, .sbox, .net, .outbox], p ∈ L)
    (hM : Moves L s0 s) : Moves L s0 (gbitsFail g s) := by
  unfold gbitsFail
  try simp only []
  repeat' first
    | with_reducible exact hM
    | with_reducible assumption
    | ((with_reducible apply gbitSet_moves) <;> [exact sub_of hL (by decide); skip])
    | (with_reducible refine Moves.forEach (fun a x hx => ?_) ?_)

theorem gooseTake_moves {L : List Part} {s0 : State} (m : GooseMsg) (g : Nat) {s : State} (hL : ∀ p ∈ [.bank, .sbox, .net, .outbox], p ∈ L)
    (hM : Moves L s0 s) : Moves L s0 (gooseTake m g s) := by
  unfold gooseTake
  try simp only []
  repeat' first
    | with_reducible exact hM
    | with_reducible assumption
    | ((with_reducible apply State_raiseIf_moves) <;> [exact sub_of hL (by decide); skip])
    | ((with_reducible apply State_setGoose_moves) <;> [exact sub_of hL (by decide); skip])
    | ((with_reducible apply gbitSet_moves) <;> [exact sub_of hL (by decide); skip])
    | (with_reducible refine Moves.forEach (fun a x hx => ?_) ?_)
    | split

theorem gooseMismatch_moves {L : List Part} {s0 : State} (m : GooseMsg) {s : State} (hL : ∀ p ∈ [.bank, .net, .outbox], p ∈ L)
    (hM : Moves L s0 s) : Moves L s0 (gooseMismatch m s) := by
  unfold gooseMismatch
  try simp only []
  repeat' first
    | with_reducible exact hM
    | with_reducible assumption
    | ((with_reducible apply State_raiseIf_moves) <;> [exact sub_of hL (by decide); skip])
    | ((with_reducible apply State_setGoose_moves) <;> [exact sub_of hL (by decide); skip])
    | (with_reducible refine Moves.forEach (fun a x hx => ?_) ?_)

end Sys2Proof.Machine
end

