-- ==== Sys2Proof/Laws/MovesPower.lean ====
section
/-! SUPPORT. What each operation of Machine/Power.lean does to the whole state: the parts it leaves alone, and the invariants it keeps. -/

set_option Elab.async false

namespace Sys2Proof.Machine

open Sys2Proof

theorem sbyFlag_moves {L : List Part} {s0 : State} (bit : Nat) (f : Standby → Standby) {s : State} (hL : ∀ p ∈ [.standby, .net, .outbox], p ∈ L)
    (hf : ∀ b, (f b).sec = b.sec ∧ (f b).frac = b.frac) (hM : Moves L s0 s) : Moves L s0 (sbyFlag bit f s) := by
  unfold sbyFlag
  simp only []
  have hb : Moves L s0 { s with standby := { f s.standby with seq := nextSeq s.standby.seq } } :=
    Moves.set_standby _ (hL _ (by decide)) (fun g => by
      show (f s.standby).sec < 2 ^ 48 ∧ (f s.standby).frac < 32768
      rw [(hf s.standby).1, (hf s.standby).2]
      exact ⟨g.2.2.2.2.1, g.2.2.2.2.2⟩) hM
  split
  · exact hM
  · split
    · exact Moves.forEach (fun a x hx => eventTo_moves _ _ _ _ _ _ (sub_of hL (by decide)) hx) hb
    · exact hb

theorem enterHoldup_moves {L : List Part} {s0 : State} {s : State} (hL : ∀ p ∈ [.mode, .bank, .carrier, .claim, .pair, .tasks, .lanes, .mram, .chans, .conv, .acq, .net, .can0, .can1, .panel, .mil, .outbox, .freeCount], p ∈ L)
    (hM : Moves L s0 s) : Moves L s0 (enterHoldup s) := by
  unfold enterHoldup
  try simp only []
  repeat' first
    | with_reducible exact hM
    | ((with_reducible apply State_raise_moves) <;> [exact sub_of hL (by decide); skip])
    | ((with_reducible apply panelOff_moves) <;> [exact sub_of hL (by decide); skip])
    | ((with_reducible apply refreshOutputs_moves) <;> [exact sub_of hL (by decide); skip])
    | ((with_reducible apply acqStop_moves) <;> [exact sub_of hL (by decide); skip])
    | ((with_reducible apply enterHalt_moves) <;> [exact sub_of hL (by decide); skip])
    | ((with_reducible apply holdupVisits_moves) <;> [exact sub_of hL (by decide); skip])
    | split
    | (with_reducible apply Moves.leafMk; (with_reducible exact rfl); all_goals first | with_reducible exact rfl | exact Or.inl (hL _ (by decide)) | exact Or.inl rfl | exact Or.inr rfl | skip)

theorem powerOff_moves {L : List Part} {s0 : State} {s : State} (hL : ∀ p ∈ [.mode, .bank, .heldWrites, .shadows, .carrier, .start, .claim, .pair, .tasks, .lanes, .ctl, .jrn, .exch, .sbox, .chans, .conv, .acq, .time, .net, .can0, .can1, .mpu, .upd, .panel], p ∈ L)
    (hM : Moves L s0 s) : Moves L s0 (powerOff s) := by
  have hc := clearWorking_moves (L := L) (sub_of hL (by decide)) hM
  refine ⟨fun p hp => ?_, hc.bank, fun g => ?_, fun _ k => ?_⟩
  · have := hc.keeps p hp
    cases p <;> first | exact this | exact absurd (hL _ (by decide)) hp
  · obtain ⟨_, _, _, h4, h5, h6⟩ := hc.clock g
    exact ⟨Nat.two_pow_pos 48, Nat.zero_lt_succ _, Nat.two_pow_pos 32, h4, h5, h6⟩
  · exact absurd k (by simp [powerOff, clearWorking, Claim.reset])

theorem stayOut_moves {L : List Part} {s0 : State} {s : State} (hL : ∀ p ∈ [.bank, .claim, .pair, .tasks, .lanes, .chans, .net, .can0, .can1, .mil, .outbox, .freeCount], p ∈ L)
    (hM : Moves L s0 s) : Moves L s0 (stayOut s) := by
  unfold stayOut
  try simp only []
  repeat' first
    | with_reducible exact hM
    | ((with_reducible apply refreshOutputs_moves) <;> [exact sub_of hL (by decide); skip])
    | ((with_reducible apply dropClaim_moves) <;> [exact sub_of hL (by decide); skip])
    | ((with_reducible apply stopLanes_moves) <;> [exact sub_of hL (by decide); skip])
    | split
    | (with_reducible apply Moves.leafMk; (with_reducible exact rfl); all_goals first | with_reducible exact rfl | exact Or.inl (hL _ (by decide)) | exact Or.inl rfl | exact Or.inr rfl | skip)

end Sys2Proof.Machine
end

