-- ==== Sys2Proof/Laws/MovesDpp.lean ====
section
/-! SUPPORT. What each operation of Machine/Dpp.lean does to the whole state: the parts it leaves alone, and the invariants it keeps. -/

set_option Elab.async false

namespace Sys2Proof.Machine

open Sys2Proof

theorem plantFrame_moves {L : List Part} {s0 : State} (port : Port) (wrongLan : Bool) {s : State} (hL : ∀ p ∈ [.bank, .net, .outbox], p ∈ L)
    (hM : Moves L s0 s) : Moves L s0 (plantFrame port wrongLan s) := by
  unfold plantFrame
  try simp only []
  repeat' first
    | with_reducible exact hM
    | ((with_reducible apply State_raiseIf_moves) <;> [exact sub_of hL (by decide); skip])

theorem lostTransfers_moves {L : List Part} {s0 : State} (x : Session) {s : State} (hL : ∀ p ∈ [.upd], p ∈ L)
    (hM : Moves L s0 s) : Moves L s0 (lostTransfers x s) := by
  unfold lostTransfers
  try simp only []
  repeat' first
    | with_reducible exact hM
    | with_reducible assumption
    | ((with_reducible apply State_setUpdSession_moves) <;> [exact sub_of hL (by decide); skip])
    | (with_reducible refine Moves.forEach (fun a x hx => ?_) ?_)
    | split

theorem endSession_moves {L : List Part} {s0 : State} (k : Nat) {s : State} (hL : ∀ p ∈ [.jrn, .net, .upd], p ∈ L)
    (hM : Moves L s0 s) : Moves L s0 (endSession k s) := by
  unfold endSession
  try simp only []
  repeat' first
    | with_reducible exact hM
    | ((with_reducible apply lostTransfers_moves) <;> [exact sub_of hL (by decide); skip])
    | split
    | (with_reducible apply Moves.leafMk; (with_reducible exact rfl); all_goals first | with_reducible exact rfl | exact Or.inl (hL _ (by decide)) | exact Or.inl rfl | exact Or.inr rfl | skip)

theorem newSession_moves {L : List Part} {s0 : State} (port : Port) (reqId : Nat) (clientId : Nat) (role : ClientRole) (viaPair : Bool) (events : Bool) {s : State} (hL : ∀ p ∈ [.bank, .net, .outbox], p ∈ L)
    (hM : Moves L s0 s) : Moves L s0 (newSession port reqId clientId role viaPair events s) := by
  unfold newSession
  try simp only []
  repeat' first
    | with_reducible exact hM
    | ((with_reducible apply State_raise_moves) <;> [exact sub_of hL (by decide); skip])
    | ((with_reducible apply reply_moves) <;> [exact sub_of hL (by decide); skip])
    | (with_reducible apply Moves.leafMk; (with_reducible exact rfl); all_goals first | with_reducible exact rfl | exact Or.inl (hL _ (by decide)) | exact Or.inl rfl | exact Or.inr rfl | skip)

theorem heard_moves {L : List Part} {s0 : State} (k : Nat) (x : Session) {s : State} (hL : ∀ p ∈ [.net], p ∈ L)
    (hM : Moves L s0 s) : Moves L s0 (heard k x s) := by
  unfold heard
  try simp only []
  repeat' first
    | with_reducible exact hM
    | (with_reducible apply Moves.leafMk; (with_reducible exact rfl); all_goals first | with_reducible exact rfl | exact Or.inl (hL _ (by decide)) | exact Or.inl rfl | exact Or.inr rfl | skip)

theorem serve_moves {L : List Part} {s0 : State} (kind : Nat) (r : Req) (f : Session → State → State) {s : State} (hL : ∀ p ∈ [.net, .outbox], p ∈ L)
    (hf : ∀ a x, Moves L s0 x → Moves L s0 (f a x)) (hM : Moves L s0 s) : Moves L s0 (serve kind r f s) := by
  unfold serve
  try simp only []
  repeat' first
    | with_reducible exact hM
    | with_reducible assumption
    | ((with_reducible apply heard_moves) <;> [exact sub_of hL (by decide); skip])
    | ((with_reducible apply State_send_moves) <;> [exact sub_of hL (by decide); skip])
    | apply hf
    | split

theorem answer_moves {L : List Part} {s0 : State} (r : Req) (kind : Nat) (code : Nat) (detail : Nat) (body : List Byte) {s : State} (hL : ∀ p ∈ [.net, .outbox], p ∈ L)
    (hM : Moves L s0 s) : Moves L s0 (answer r kind code detail body s) := by
  unfold answer
  try simp only []
  repeat' first
    | with_reducible exact hM
    | ((with_reducible apply reply_moves) <;> [exact sub_of hL (by decide); skip])

theorem shedReply_moves {L : List Part} {s0 : State} (r : Req) (kind : Nat) {s : State} (hL : ∀ p ∈ [.bank, .net, .outbox], p ∈ L)
    (hM : Moves L s0 s) : Moves L s0 (shedReply r kind s) := by
  unfold shedReply
  try simp only []
  repeat' first
    | with_reducible exact hM
    | ((with_reducible apply answer_moves) <;> [exact sub_of hL (by decide); skip])
    | ((with_reducible apply State_inc_moves) <;> [exact sub_of hL (by decide); skip])

theorem restartOutside_moves {L : List Part} {s0 : State} (r : Req) (x : Session) (clientSeq : Nat) (scope : Nat) (cold : Bool) {s : State} (hL : ∀ p ∈ [.bank, .pair, .mram, .net, .outbox], p ∈ L)
    (hM : Moves L s0 s) : Moves L s0 (restartOutside r x clientSeq scope cold s) := by
  unfold restartOutside
  try simp only []
  repeat' first
    | with_reducible exact hM
    | ((with_reducible apply answer_moves) <;> [exact sub_of hL (by decide); skip])
    | ((with_reducible apply State_inc_moves) <;> [exact sub_of hL (by decide); skip])
    | split
    | (with_reducible apply Moves.leafMk; (with_reducible exact rfl); all_goals first | with_reducible exact rfl | exact Or.inl (hL _ (by decide)) | exact Or.inl rfl | exact Or.inr rfl | skip)

theorem submitBody_moves {L : List Part} {s0 : State} (r : Req) (clientSeq : Nat) (work : Work) (x : Session) {s : State} (hL : ∀ p ∈ [.bank, .pair, .jrn, .mram, .net, .outbox], p ∈ L)
    (hM : Moves L s0 s) : Moves L s0 (submitBody r clientSeq work x s) := by
  unfold submitBody
  try simp only []
  repeat' first
    | with_reducible exact hM
    | ((with_reducible apply State_inc_moves) <;> [exact sub_of hL (by decide); skip])
    | ((with_reducible apply answer_moves) <;> [exact sub_of hL (by decide); skip])
    | ((with_reducible apply shedReply_moves) <;> [exact sub_of hL (by decide); skip])
    | ((with_reducible apply journalSubmit_moves) <;> [exact sub_of hL (by decide); skip])
    | ((with_reducible apply restartOutside_moves) <;> [exact sub_of hL (by decide); skip])
    | split

theorem State_setSub_moves {L : List Part} {s0 : State} (n : Nat) (x : Subscription) {s : State} (hL : ∀ p ∈ [.net], p ∈ L)
    (hM : Moves L s0 s) : Moves L s0 (State.setSub s n x) := by
  unfold State.setSub
  try simp only []
  repeat' first
    | with_reducible exact hM
    | (with_reducible apply Moves.leafMk; (with_reducible exact rfl); all_goals first | with_reducible exact rfl | exact Or.inl (hL _ (by decide)) | exact Or.inl rfl | exact Or.inr rfl | skip)

theorem notifyMsg_moves {L : List Part} {s0 : State} (n : Nat) (tags : List Nat) {s : State} (hL : ∀ p ∈ [.net, .outbox], p ∈ L)
    (hM : Moves L s0 s) : Moves L s0 (notifyMsg n tags s) := by
  unfold notifyMsg
  try simp only []
  repeat' first
    | with_reducible exact hM
    | ((with_reducible apply State_send_moves) <;> [exact sub_of hL (by decide); skip])
    | ((with_reducible apply State_setSub_moves) <;> [exact sub_of hL (by decide); skip])
    | split

theorem notifyBatch_moves {L : List Part} {s0 : State} (n : Nat) (tags : List Nat) {s : State} (hL : ∀ p ∈ [.net, .outbox], p ∈ L)
    (hM : Moves L s0 s) : Moves L s0 (notifyBatch n tags s) := by
  unfold notifyBatch
  try simp only []
  repeat' first
    | with_reducible exact hM
    | with_reducible assumption
    | ((with_reducible apply notifyMsg_moves) <;> [exact sub_of hL (by decide); skip])
    | (with_reducible refine Moves.forEach (fun a x hx => ?_) ?_)

theorem readWords_moves {L : List Part} {s0 : State} (o : Origin) (addr : Nat) (x2 : Nat) {s : State} (hL : ∀ p ∈ [.bank, .shadows, .net, .outbox], p ∈ L)
    (hM : Moves L s0 s) : Moves L s0 (readWords o addr x2 s).2 := by
  induction x2 generalizing addr s with
  | zero => exact hM
  | succ n ih => exact ih (addr + 4) (readBy_moves _ _ (sub_of hL (by decide)) hM)

theorem writeWords_moves {L : List Part} {s0 : State} (o : Origin) (addr : Nat) (x2 : List Word) {s : State} (hL : ∀ p ∈ [.mode, .bank, .heldWrites, .shadows, .carrier, .standby, .start, .claim, .pair, .tasks, .lanes, .ctl, .jrn, .exch, .mram, .sbox, .chans, .conv, .acq, .time, .net, .can0, .can1, .mpu, .upd, .panel, .mil, .outbox, .freeCount], p ∈ L)
    (hM : Moves L s0 s) : Moves L s0 (writeWords o addr x2 s).2 := by
  induction x2 generalizing addr s with
  | nil => exact hM
  | cons w t ih => exact ih _ (writeBy_moves _ _ _ (sub_of hL (by decide)) hM)

theorem State_setSession_moves {L : List Part} {s0 : State} (k : Nat) (x : Session) {s : State} (hL : ∀ p ∈ [.net], p ∈ L)
    (hM : Moves L s0 s) : Moves L s0 (State.setSession s k x) := by
  unfold State.setSession
  try simp only []
  repeat' first
    | with_reducible exact hM
    | (with_reducible apply Moves.leafMk; (with_reducible exact rfl); all_goals first | with_reducible exact rfl | exact Or.inl (hL _ (by decide)) | exact Or.inl rfl | exact Or.inr rfl | skip)

theorem openBegins_moves {L : List Part} {s0 : State} (name : FileName) {s : State} (hL : ∀ p ∈ [.bank, .mram, .upd], p ∈ L)
    (hM : Moves L s0 s) : Moves L s0 (openBegins name s) := by
  unfold openBegins
  try simp only []
  repeat' first
    | with_reducible exact hM
    | ((with_reducible apply State_setUpdSession_moves) <;> [exact sub_of hL (by decide); skip])
    | ((with_reducible apply State_put_moves) <;> [exact sub_of hL (by decide); skip])
    | split
    | (with_reducible apply Moves.leafMk; (with_reducible exact rfl); all_goals first | with_reducible exact rfl | exact Or.inl (hL _ (by decide)) | exact Or.inl rfl | exact Or.inr rfl | skip)

theorem noteProgress_moves {L : List Part} {s0 : State} (name : FileName) (bytes : Nat) {s : State} (hL : ∀ p ∈ [.bank], p ∈ L)
    (hM : Moves L s0 s) : Moves L s0 (noteProgress name bytes s) := by
  unfold noteProgress
  try simp only []
  repeat' first
    | with_reducible exact hM
    | ((with_reducible apply State_put_moves) <;> [exact sub_of hL (by decide); skip])
    | split

theorem closeWritten_moves {L : List Part} {s0 : State} (name : FileName) (crcOk : Bool) (data : List Byte) (content : Option FileContent) {s : State} (hL : ∀ p ∈ [.bank, .mram, .upd], p ∈ L)
    (hM : Moves L s0 s) : Moves L s0 (closeWritten name crcOk data content s) := by
  unfold closeWritten
  try simp only []
  repeat' first
    | with_reducible exact hM
    | ((with_reducible apply State_put_moves) <;> [exact sub_of hL (by decide); skip])
    | ((with_reducible apply State_setUpdSession_moves) <;> [exact sub_of hL (by decide); skip])
    | split
    | (with_reducible apply Moves.leafMk; (with_reducible exact rfl); all_goals first | with_reducible exact rfl | exact Or.inl (hL _ (by decide)) | exact Or.inl rfl | exact Or.inr rfl | skip)

end Sys2Proof.Machine
end

