-- ==== Sys2Proof/WellFormed.lean ====
section
/-! DEFINITION. Which commands are well formed: every operand fits the field that carries it in the manual. The step does not
ask this of a command; statements about encodings and ranges may. -/

namespace Sys2Proof

/-- An operand of w bits. -/
def bits (w n : Nat) : Bool := n < 2 ^ w

/-- Origins of R411: 16 lanes, four management cores (R430), 64 plant bus sessions and 4 on SVC (R382) with 32-bit numbers (R380). -/
def Origin.wf : Origin → Bool
  | .lane n => n < 16
  | .mgmt core => core < 4
  | .plant session => bits 32 session
  | .svc session => bits 32 session

/-- Header fields and payload of R380, in 1,184 bytes (R378). -/
def Req.wf (r : Req) : Bool :=
  bits 8 r.version && bits 8 r.kind && bits 32 r.session && bits 32 r.reqId && bits 16 r.reply && bits 16 r.detail && (r.payload.length ≤ 1152 : Bool)

/-- Header fields of R223. -/
def FrameHdr.wf (h : FrameHdr) : Bool :=
  bits 8 h.kind && bits 32 h.linkSeq && bits 32 h.ack && bits 32 h.session && bits 8 h.state && ((h.task.getD 0) < 256 : Bool) && bits 16 h.chunk
    && bits 16 h.chunks && bits 64 h.cycle && bits 64 h.closeSeq && bits 64 h.jrnHead && bits 64 h.pairTag

/-- A coupling frame: its header, and a payload of at most 4,096 bytes (R223). -/
def LinkHdr.wf (h : LinkHdr) : Bool := h.hdr.wf && (h.payload.length ≤ 4096 : Bool)

/-- Fields of HELLO (R224, R61): 16 bytes of PAIR_ID, and SHA-384 digests. -/
def Hello.wf (h : Hello) : Bool :=
  bits 8 h.state && bits 128 h.pairId && bits 384 h.digest && bits 32 h.revision && bits 64 h.jrnHead && bits 32 h.session
    && (h.cycles.all fun p => (p.1 < 8 : Bool) && bits 64 p.2)

/-- A structure of persistent memory (R193): a ring of 524,288 entries, 8,192 marks of each of eight tasks, 16 checkpoints, 64 fault records, 16
power-loss slots, and two of each other structure; two slots of each of seven regions. -/
def MramSite.wf : MramSite → Bool
  | MramSite.slot n => n < 524288
  | .stateWord n => n < 524288
  | .mark task n => (task < 8 : Bool) && (n < 8192 : Bool)
  | .snapshot k => k < 2
  | .powerLoss k => k < 16
  | .checkpoint k => k < 16
  | .fault k => k < 64
  | .oscillator k => k < 2
  | .mileage k => k < 2
  | .coefficient k => k < 2
  | .firmware r k => (r < 7 : Bool) && (k < 2 : Bool)
  | .activation r => r < 7
  | .siding k => k < 2
  | .chain k => k < 2

/-- Supply readings of 16 bits (R32), structures of persistent memory, and lanes (R61). -/
def StartInput.wf (i : StartInput) : Bool :=
  bits 16 i.mod1Mv && bits 16 i.mod2Mv && bits 16 i.fld1Mv && bits 16 i.fld2Mv && i.unreadable.all MramSite.wf && i.badLanes.all (fun l => (l < 16 : Bool))

/-- Bodies of R386. -/
def Work.wf : Work → Bool
  | .tagWrite tag .. => bits 32 tag
  | .forceSet tag .. => bits 32 tag
  | .forceRelease tag => bits 32 tag
  | .forceReleaseAll => true
  | .unitMessage unit epoch kind _ payload => bits 32 unit && bits 32 epoch && bits 16 kind && (payload.length ≤ 64 : Bool)
  | .roleAssign unit role => bits 32 unit && bits 16 role
  | .constantChange digest task pairs =>
    bits 384 digest && bits 8 task && pairs.all fun p => bits 32 p.1
  | .exchangeRequest digest .. => bits 384 digest
  | .exchangeAbandon digest => bits 384 digest
  | .restart scope _ => scope < 3
  | .roleExchange => true

/-- Transmit requests of R402, with the identifier and data code of R397. -/
def CanReq.wf (r : CanReq) : Bool :=
  bits 16 r.handle && bits (if r.extended then 29 else 11) r.ident && (r.dlc < 16 : Bool) && (r.data.length ≤ 64 : Bool)

/-- Frames of the bus, as R397 enters them. -/
def CanFrame.wf (f : CanFrame) : Bool :=
  bits (if f.extended then 29 else 11) f.ident && (f.dlc < 16 : Bool) && (f.data.length ≤ 64 : Bool)

/-- Stores of a block (R165): tag indices of R76, messages of R110, 32-bit register addresses in the window of R9. -/
def Store.wf : Store → Bool
  | .tag index .. => bits 20 index
  | .message sender unit epoch kind _ payload =>
    bits 32 sender && bits 32 unit && bits 32 epoch && bits 16 kind && (payload.length ≤ 64 : Bool)
  | .role u r => bits 32 u && bits 16 r
  | .post sender work => bits 32 sender && work.wf
  | .reg addr _ => bits 21 addr
  | .object .. => true
  | .canSend port req => (port < 2 : Bool) && req.wf
  | .canCancel port handle => (port < 2 : Bool) && bits 16 handle

/-- What a copy asks of its protection unit: one of 16 regions of three words, or an access of at most 64 bytes of a 40-bit address (R430, R433). -/
def LaneOp.wf : LaneOp → Bool
  | .region r w _ => (r < 16 : Bool) && (w < 3 : Bool)
  | .arm => true
  | .swap => true
  | .access addr len kind => bits 40 addr && (len ≤ 64 : Bool) && (kind < 3 : Bool)

/-- A report of a copy: a store buffer of at most 512 entries with 8-byte masks (R166). -/
def CopyReport.wf (c : CopyReport) : Bool := (c.stores.length ≤ 512 : Bool) && c.stores.all fun e => bits 8 e.2.1

/-- A checkpoint: one of 16 lanes, the reports of its copies, and a lead of at most 4,096 (R167). -/
def Checkpoint.wf (c : Checkpoint) : Bool :=
  (c.lane < 16 : Bool) && c.copyA.wf && c.copyB.wf && (c.lead ≤ 4096 : Bool) && c.effects.all Store.wf && c.opsA.all LaneOp.wf && c.opsB.all LaneOp.wf

/-- A run of a background test vector (R183). -/
def VectorRun.wf (v : VectorRun) : Bool := v.copyA.wf && v.copyB.wf && v.known.wf

/-- An error names one of the 16 lanes, a word of shared memory, a structure of persistent memory or an address of its 4 GiB (R175, R193). -/
def EccFinding.wf (f : EccFinding) : Bool :=
  match f.site with
  | .laneLocal lane => lane < 16
  | .shared _ => true
  | .mram site => site.wf
  | .mramWord addr => bits 32 addr

/-- An entry of the journal (R196, R197, R200): 64-bit sequences, and a continuation's part of a body of at most 64 bytes. -/
def Entry.wf : Entry → Bool
  | .waybill w => bits 64 w.seq && w.work.wf
  | .cont seq waybillSeq index body => bits 64 seq && bits 64 waybillSeq && bits 8 index && (body.length ≤ 128 : Bool)
  | .completion c => bits 64 c.seq && bits 16 c.status

/-- Delta records whose subjects the manual numbers (R227). -/
def DeltaRec.wf : DeltaRec → Bool
  | .tag index _ => bits 20 index
  | .sbx addr _ => bits 21 addr
  | .canRequest port _ req => (port < 2 : Bool) && req.wf
  | .output channel _ => channel < 96
  | .force index _ => bits 20 index
  | .role unit _ => bits 32 unit
  | .waybill w => w.work.wf
  | _ => true

/-- A page is one of 768 (R235). -/
def Page.wf (p : Page) : Bool := (p.number < 768 : Bool) && (p.tags.all fun t => bits 20 t.1) && p.sbx.all fun x => bits 21 x.1

/-- A measurement of the turntable names one of the eight platforms (R312). -/
def TtMeasure.wf (m : TtMeasure) : Bool := m.platform < 8

/-- A readback names one of the 96 channels (R293). -/
def Readback.wf (r : Readback) : Bool := r.channel < 96

/-- Stamps and sequence of a received frame (R361, R367). -/
def FrameId.wf (i : FrameId) : Bool := bits 48 i.src && bits 16 i.seq

/-- A DELTA message names one of the eight tasks (R223, R114). -/
def DeltaMsg.wf (d : DeltaMsg) : Bool := (d.task < 8 : Bool) && d.records.all DeltaRec.wf

/-- An access of a core covers at most 64 bytes of 40-bit addresses, through one of 36 units (R430, R433). -/
def MemAccess.wf (a : MemAccess) : Bool := (a.unit < 36 : Bool) && bits 40 a.addr && (a.len ≤ 64 : Bool)

/-- Every operand of the command fits its field. -/
def Instr.wf : Instr → Bool
  | .modSupplyLost _ mv => bits 16 mv
  | .fieldSupplyLost _ mv => bits 16 mv
  | .fieldFuseTrip _ ma => bits 16 ma
  | .reservoirHealthTest healthPct holdupMs => bits 16 healthPct && bits 16 holdupMs
  | .checkpoint c => c.wf
  | .reexecutionCompare c => c.wf
  | .eccError f => f.wf
  | .scrubPass fs => fs.all EccFinding.wf
  | .bistVisit _ first second => first.wf && second.wf
  | .insertionStart i => i.wf
  | .supplyReturnRestart i => i.wf
  | .startHoldRetry i => i.wf
  | .moduleRestart i => i.wf
  | .holdupRailsDown => true
  | .couplingHello h => h.wf
  | .commonFaultSet _ readbacks => readbacks.all Readback.wf
  | .commonFaultCleared _ readbacks => readbacks.all Readback.wf
  | .localisationRepeat _ readbacks => readbacks.all Readback.wf
  | .ptpMessage m => bits 8 m.domain
  | .svFrame f => f.id.wf
  | .gooseMessage m => m.id.wf && bits 32 m.stNum && bits 32 m.sqNum
  | .heldRecordExpiry page => page < 768
  | .paceWindow paces => paces.all fun p => (p.1 < 16 : Bool) && bits 16 p.2.1 && bits 16 p.2.2
  | .clearMax origin _ => origin.wf
  | .cmpInject origin .. => origin.wf
  | .faultSelect origin _ => origin.wf
  | .submit r clientSeq work => r.wf && bits 64 clientSeq && work.wf
  | .mirrorAck f => f.1.wf && bits 64 f.2
  | .mirrorTimeout seq => bits 64 seq
  | .unconfirmedExpiry seq => bits 64 seq
  | .clientEviction clientId => bits 64 clientId
  | .couplingRetrain session _ => bits 32 session
  | .idle (some h) => h.wf
  | .status h _ => h.wf
  | .delta h d => h.wf && d.wf
  | .mapAck f => f.1.wf
  | .announce f => f.1.wf
  | .announceAck h => h.wf
  | .deltaAck h _ cycle closeSeq _ => h.wf && bits 64 cycle && bits 64 closeSeq
  | .mirror h entries => h.wf && entries.all Entry.wf
  | .image h _ _ => h.wf
  | .resyncReq h (.page n) => h.wf && (n < 768 : Bool)
  | .resyncReq h _ => h.wf
  | .resyncPage h p => h.wf && p.wf
  | .resyncControl h _ => h.wf
  | .resyncDone h closeSeq => h.wf && bits 64 closeSeq
  | .handover h _ => h.wf
  | .handoverAck h => h.wf
  | .restartReq h _ => h.wf
  | .restartAck h => h.wf
  | .restartGo h _ => h.wf
  | .latchReset origin _ => origin.wf
  | .locate origin _ => origin.wf
  | .qpop origin => origin.wf
  | .calStart origin _ => origin.wf
  | .takeZero origin _ => origin.wf
  | .takeSpan origin _ => origin.wf
  | .commit origin _ => origin.wf
  | .calEnd origin _ => origin.wf
  | .abort origin _ => origin.wf
  | .testReq origin _ => origin.wf
  | .acqTrig origin _ => origin.wf
  | .close origin _ => origin.wf
  | .fastSample samples => samples.all fun x => (x.channel < 96 : Bool)
  | .converterPeriodBoundary results tt => (results.all fun x => (x.channel < 96 : Bool)) && tt.all TtMeasure.wf
  | .incCommit origin _ => origin.wf
  | .stepGo origin _ => origin.wf
  | .timeLatch origin => origin.wf
  | .timeServo origin .. => origin.wf
  | .testMode origin _ => origin.wf
  | .openSession r _ _ clientId _ => r.wf && bits 64 clientId
  | .closeSession r => r.wf
  | .keepalive r => r.wf
  | .sessionTimeout session => bits 32 session
  | .query r clientSeq => r.wf && bits 64 clientSeq
  | .tagRead r tags => r.wf && tags.all (bits 32)
  | .subscribe r minIntervalMs tags => r.wf && bits 32 minIntervalMs && tags.all (bits 32)
  | .unsubscribe r subscription => r.wf && bits 32 subscription
  | .resend r subscription => r.wf && bits 32 subscription
  | .regRead r addr count => r.wf && bits 32 addr && bits 32 count
  | .regWrite r addr _ => r.wf && bits 32 addr
  | .fileOpen r _ _ => r.wf
  | .fileRead r handle offset => r.wf && bits 32 handle && bits 32 offset
  | .fileWrite r handle offset data => r.wf && bits 32 handle && bits 32 offset && (data.length ≤ 1152 : Bool)
  | .fileClose r handle _ _ => r.wf && bits 32 handle
  | .canFrameReceived _ f _ => f.wf
  | .canTxTimeout _ handle => bits 16 handle
  | .canCancel _ handle => bits 16 handle
  | .canFrameError _ tec recv => bits 9 tec && bits 8 recv
  | .rxpop origin _ => origin.wf
  | .registerWrite origin addr _ => origin.wf && bits 21 addr
  | .misalignedAccess origin a _ => origin.wf && bits 21 a.addr && (a.width ≤ 4 : Bool)
  | .eventRegisterClear origin addr _ => origin.wf && bits 21 addr
  | .multiwordMode origin .. => origin.wf
  | .multiwordLowRead origin addr => origin.wf && bits 21 addr
  | .mpuRegionWrite origin .. => origin.wf
  | .arm origin _ => origin.wf
  | .swap origin _ => origin.wf
  | .protectionException a => a.wf
  | .impreciseNotice a _ => a.wf && (32 ≤ a.unit : Bool)
  | .release origin => origin.wf
  | .activate origin .. => origin.wf
  | .confirm origin _ => origin.wf
  | .fallback origin _ => origin.wf
  | .updateAbort origin _ => origin.wf
  | .anchorClear origin _ => origin.wf
  | .leaveTerminus origin i => origin.wf && i.wf
  | .attestGo origin => origin.wf
  | .redraw origin => origin.wf
  | .milSel origin .. => origin.wf
  | .seatedMade => true
  | .seatedBreak => true
  | .cellLow => true
  | .countLost => true
  | .fieldFuseReclose _ => true
  | .cageOverload _ => true
  | .holdupEntered => true
  | .powerLossRecord => true
  | .leverOpened => true
  | .claimKeeperRefresh => true
  | .claimKeeperRelease => true
  | .claimStuckHigh => true
  | .claimStuckLow => true
  | .partnerWindowExpiry => true
  | .startEnterActive => true
  | .taskFreeze _ => true
  | .gatedRead .. => true
  | .barrierRelease _ => true
  | .spareTakeover _ => true
  | .closureRelease _ => true
  | .alignedRelease _ => true
  | .overrunWatchdog .. => true
  | .exchangeLoaded => true
  | .exchangeComplete => true
  | .sbxExchangeRestart => true
  | .clientCheckpoint => true
  | .snapshotCapture => true
  | .couplingDown _ => true
  | .deltaAckTimeout .. => true
  | .frameResend => true
  | .idle none => true
  | .doubtWindowEnd => true
  | .standbyLinkWaitEnd => true
  | .partnerClaimDropped => true
  | .standbyReady => true
  | .takeoverClaim => true
  | .claimConfirmed => true
  | .partnerClaimAsserted => true
  | .claimContest => true
  | .partnerAbsentTimeout => true
  | .handoverQuantum => true
  | .handoverCancel => true
  | .handoverFailTimeout => true
  | .restartAckTimeout => true
  | .claimFibreSample .. => true
  | .sbxPass .. => true
  | .pickupExpiry _ => true
  | .dropoutExpiry _ => true
  | .sbxEvalFault _ => true
  | .acmpDisagree _ => true
  | .svcmpFail _ => true
  | .diInputEdge .. => true
  | .diDebounceExpiry _ => true
  | .diSampleWindow .. => true
  | .doLimitEnter _ => true
  | .doLimitClear _ => true
  | .doThermalEnter _ => true
  | .doThermalRetry _ => true
  | .doLockedRelease _ => true
  | .adaptiveSupplyStep .. => true
  | .compliance .. => true
  | .openLoop .. => true
  | .liveZeroLost _ => true
  | .periodMeasurement .. => true
  | .periodNominal => true
  | .calTakeDone => true
  | .calTimeout => true
  | .turntableVisitStart _ => true
  | .coefficientBatchWrite => true
  | .acqTrigger .. => true
  | .canTxEnd _ _ handle _ => bits 16 handle
  | .segmentClose _ => true
  | .rearm _ => true
  | .recordGapClose _ => true
  | .recordCommit => true
  | .recordIndexRebuild => true
  | .holdoverExpired => true
  | .holdoverSteer _ => true
  | .standbyCounterCopy => true
  | .oscillatorSample _ => true
  | .oscillatorModelWrite => true
  | .svHoldExpiry _ => true
  | .gooseExpiry _ => true
  | .gooseHoldExpiry _ => true
  | .gooseDeferredSend _ => true
  | .gooseRetransmit _ => true
  | .supervisionFrame => true
  | .linkDown _ => true
  | .pairAddressRepeat => true
  | .notify _ => true
  | .event .. => true
  | .canBusOff _ => true
  | .busOffRecovered _ => true
  | .canMappingHoldExpiry .. => true
  | .swapAck _ => true
  | .mgmtWatchdogRestart => true
  | .loadWindow _ => true
  | .verifyComplete .. => true
  | .imageTakesEffect _ => true
  | .reportSigned randomiser => bits 256 randomiser
  | .nextTreeBuilt => true
  | .panelRefresh => true
  | .pixelShift => true
  | .contrastUpdate _ => true
  | .labelUpdateStart => true
  | .labelUpdateEnd => true
  | .operatingMinute => true
  | .mileageSample _ => true
  | .syncInterval => true
  | .dtlsHandshake .. => true
  | .handoverClaimWaitEnd => true
  | .canErrRead => true
  | .mgmtRestartEnd => true

end Sys2Proof
end

