-- ==== Sys2Proof/Laws/PerInstr.lean ====
section
/-! SUPPORT. What holds of every command as syntax, one lemma per constructor. Family Header: the frame that a well-formed coupling
message carries is well formed itself (R223), and no other command carries one. -/

set_option Elab.async false

namespace Sys2Proof.Laws

def Header.Statement (i : Instr) : Prop := i.wf = true → ∀ e, Machine.frameHeader i = some e → e.2.wf = true

namespace Header

theorem seatedMade : Statement .seatedMade := by intro _ _ e; cases e
theorem insertionStart : ∀ i, Statement (.insertionStart i) := by intro _ _ _ e; cases e
theorem seatedBreak : Statement .seatedBreak := by intro _ _ e; cases e
theorem cellLow : Statement .cellLow := by intro _ _ e; cases e
theorem countLost : Statement .countLost := by intro _ _ e; cases e
theorem modSupplyLost : ∀ input mv, Statement (.modSupplyLost input mv) := by intro _ _ _ _ e; cases e
theorem fieldSupplyLost : ∀ input mv, Statement (.fieldSupplyLost input mv) := by intro _ _ _ _ e; cases e
theorem fieldFuseTrip : ∀ input ma, Statement (.fieldFuseTrip input ma) := by intro _ _ _ _ e; cases e
theorem fieldFuseReclose : ∀ input, Statement (.fieldFuseReclose input) := by intro _ _ _ e; cases e
theorem cageOverload : ∀ port, Statement (.cageOverload port) := by intro _ _ _ e; cases e
theorem holdupEntered : Statement .holdupEntered := by intro _ _ e; cases e
theorem powerLossRecord : Statement .powerLossRecord := by intro _ _ e; cases e
theorem holdupRailsDown : Statement .holdupRailsDown := by intro _ _ e; cases e
theorem supplyReturnRestart : ∀ i, Statement (.supplyReturnRestart i) := by intro _ _ _ e; cases e
theorem leverOpened : Statement .leverOpened := by intro _ _ e; cases e
theorem reservoirHealthTest : ∀ healthPct holdupMs, Statement (.reservoirHealthTest healthPct holdupMs) := by intro _ _ _ _ e; cases e
theorem claimKeeperRefresh : Statement .claimKeeperRefresh := by intro _ _ e; cases e
theorem claimKeeperRelease : Statement .claimKeeperRelease := by intro _ _ e; cases e
theorem claimStuckHigh : Statement .claimStuckHigh := by intro _ _ e; cases e
theorem claimStuckLow : Statement .claimStuckLow := by intro _ _ e; cases e
theorem couplingHello : ∀ h, Statement (.couplingHello h) := by intro _ _ _ e; cases e
theorem partnerWindowExpiry : Statement .partnerWindowExpiry := by intro _ _ e; cases e
theorem startHoldRetry : ∀ i, Statement (.startHoldRetry i) := by intro _ _ _ e; cases e
theorem startEnterActive : Statement .startEnterActive := by intro _ _ e; cases e
theorem taskFreeze : ∀ task, Statement (.taskFreeze task) := by intro _ _ _ e; cases e
theorem gatedRead : ∀ lane copy request sample, Statement (.gatedRead lane copy request sample) := by intro _ _ _ _ _ _ e; cases e
theorem barrierRelease : ∀ lane, Statement (.barrierRelease lane) := by intro _ _ _ e; cases e
theorem checkpoint : ∀ c, Statement (.checkpoint c) := by intro _ _ _ e; cases e
theorem reexecutionCompare : ∀ c, Statement (.reexecutionCompare c) := by intro _ _ _ e; cases e
theorem spareTakeover : ∀ lane, Statement (.spareTakeover lane) := by intro _ _ _ e; cases e
theorem eccError : ∀ f, Statement (.eccError f) := by intro _ _ _ e; cases e
theorem scrubPass : ∀ findings, Statement (.scrubPass findings) := by intro _ _ _ e; cases e
theorem bistVisit : ∀ lane first second, Statement (.bistVisit lane first second) := by intro _ _ _ _ _ e; cases e
theorem closureRelease : ∀ task, Statement (.closureRelease task) := by intro _ _ _ e; cases e
theorem alignedRelease : ∀ task, Statement (.alignedRelease task) := by intro _ _ _ e; cases e
theorem overrunWatchdog : ∀ task lane, Statement (.overrunWatchdog task lane) := by intro _ _ _ _ e; cases e
theorem paceWindow : ∀ paces, Statement (.paceWindow paces) := by intro _ _ _ e; cases e
theorem clearMax : ∀ origin task, Statement (.clearMax origin task) := by intro _ _ _ _ e; cases e
theorem cmpInject : ∀ origin lane copy repeated arm, Statement (.cmpInject origin lane copy repeated arm) := by intro _ _ _ _ _ _ _ e; cases e
theorem faultSelect : ∀ origin index, Statement (.faultSelect origin index) := by intro _ _ _ _ e; cases e
theorem exchangeLoaded : Statement .exchangeLoaded := by intro _ _ e; cases e
theorem mapAck : ∀ f, Statement (.mapAck f) := by intro _ w x e; cases e; simp_all [Instr.wf]
theorem announce : ∀ f, Statement (.announce f) := by intro _ w x e; cases e; simp_all [Instr.wf]
theorem announceAck : ∀ h, Statement (.announceAck h) := by intro _ w x e; cases e; simp_all [Instr.wf]
theorem exchangeComplete : Statement .exchangeComplete := by intro _ _ e; cases e
theorem sbxExchangeRestart : Statement .sbxExchangeRestart := by intro _ _ e; cases e
theorem submit : ∀ r clientSeq work, Statement (.submit r clientSeq work) := by intro _ _ _ _ _ e; cases e
theorem mirrorAck : ∀ f, Statement (.mirrorAck f) := by intro _ w x e; cases e; simp_all [Instr.wf]
theorem mirrorTimeout : ∀ seq, Statement (.mirrorTimeout seq) := by intro _ _ _ e; cases e
theorem unconfirmedExpiry : ∀ seq, Statement (.unconfirmedExpiry seq) := by intro _ _ _ e; cases e
theorem clientCheckpoint : Statement .clientCheckpoint := by intro _ _ e; cases e
theorem clientEviction : ∀ clientId, Statement (.clientEviction clientId) := by intro _ _ _ e; cases e
theorem snapshotCapture : Statement .snapshotCapture := by intro _ _ e; cases e
theorem couplingDown : ∀ cause, Statement (.couplingDown cause) := by intro _ _ _ e; cases e
theorem deltaAckTimeout : ∀ task staleSeen, Statement (.deltaAckTimeout task staleSeen) := by intro _ _ _ _ e; cases e
theorem couplingRetrain : ∀ session locked, Statement (.couplingRetrain session locked) := by intro _ _ _ _ e; cases e
theorem frameResend : Statement .frameResend := by intro _ _ e; cases e
theorem idle : ∀ received, Statement (.idle received) := by
  intro r w x e
  cases r with
  | none => cases e
  | some h => cases e; exact w
theorem status : ∀ h f, Statement (.status h f) := by intro _ _ w x e; cases e; simp_all [Instr.wf]
theorem delta : ∀ h d, Statement (.delta h d) := by intro _ _ w x e; cases e; simp_all [Instr.wf]
theorem deltaAck : ∀ h task cycle closeSeq crc, Statement (.deltaAck h task cycle closeSeq crc) := by intro _ _ _ _ _ w x e; cases e; simp_all [Instr.wf]
theorem mirror : ∀ h entries, Statement (.mirror h entries) := by intro _ _ w x e; cases e; simp_all [Instr.wf]
theorem image : ∀ h i forExchange, Statement (.image h i forExchange) := by intro _ _ _ w x e; cases e; simp_all [Instr.wf]
theorem doubtWindowEnd : Statement .doubtWindowEnd := by intro _ _ e; cases e
theorem standbyLinkWaitEnd : Statement .standbyLinkWaitEnd := by intro _ _ e; cases e
theorem resyncReq : ∀ h ask, Statement (.resyncReq h ask) := by intro _ ask w x e; cases ask <;> cases e <;> simp_all [Instr.wf]
theorem resyncPage : ∀ h p, Statement (.resyncPage h p) := by intro _ _ w x e; cases e; simp_all [Instr.wf]
theorem resyncControl : ∀ h c, Statement (.resyncControl h c) := by intro _ _ w x e; cases e; simp_all [Instr.wf]
theorem resyncDone : ∀ h closeSeq, Statement (.resyncDone h closeSeq) := by intro _ _ w x e; cases e; simp_all [Instr.wf]
theorem heldRecordExpiry : ∀ page, Statement (.heldRecordExpiry page) := by intro _ _ _ e; cases e
theorem partnerClaimDropped : Statement .partnerClaimDropped := by intro _ _ e; cases e
theorem standbyReady : Statement .standbyReady := by intro _ _ e; cases e
theorem takeoverClaim : Statement .takeoverClaim := by intro _ _ e; cases e
theorem claimConfirmed : Statement .claimConfirmed := by intro _ _ e; cases e
theorem partnerClaimAsserted : Statement .partnerClaimAsserted := by intro _ _ e; cases e
theorem claimContest : Statement .claimContest := by intro _ _ e; cases e
theorem partnerAbsentTimeout : Statement .partnerAbsentTimeout := by intro _ _ e; cases e
theorem handover : ∀ h qh, Statement (.handover h qh) := by intro _ _ w x e; cases e; simp_all [Instr.wf]
theorem handoverAck : ∀ h, Statement (.handoverAck h) := by intro _ w x e; cases e; simp_all [Instr.wf]
theorem handoverQuantum : Statement .handoverQuantum := by intro _ _ e; cases e
theorem handoverCancel : Statement .handoverCancel := by intro _ _ e; cases e
theorem handoverFailTimeout : Statement .handoverFailTimeout := by intro _ _ e; cases e
theorem restartReq : ∀ h r, Statement (.restartReq h r) := by intro _ _ w x e; cases e; simp_all [Instr.wf]
theorem restartAck : ∀ h, Statement (.restartAck h) := by intro _ w x e; cases e; simp_all [Instr.wf]
theorem restartAckTimeout : Statement .restartAckTimeout := by intro _ _ e; cases e
theorem restartGo : ∀ h cancel, Statement (.restartGo h cancel) := by intro _ _ w x e; cases e; simp_all [Instr.wf]
theorem moduleRestart : ∀ i, Statement (.moduleRestart i) := by intro _ _ _ e; cases e
theorem claimFibreSample : ∀ dark1 dark2, Statement (.claimFibreSample dark1 dark2) := by intro _ _ _ _ e; cases e
theorem sbxPass : ∀ levels flips timerFault, Statement (.sbxPass levels flips timerFault) := by intro _ _ _ _ _ e; cases e
theorem pickupExpiry : ∀ equation, Statement (.pickupExpiry equation) := by intro _ _ _ e; cases e
theorem dropoutExpiry : ∀ equation, Statement (.dropoutExpiry equation) := by intro _ _ _ e; cases e
theorem latchReset : ∀ origin equation, Statement (.latchReset origin equation) := by intro _ _ _ _ e; cases e
theorem sbxEvalFault : ∀ evaluator, Statement (.sbxEvalFault evaluator) := by intro _ _ _ e; cases e
theorem acmpDisagree : ∀ comparator, Statement (.acmpDisagree comparator) := by intro _ _ _ e; cases e
theorem svcmpFail : ∀ comparator, Statement (.svcmpFail comparator) := by intro _ _ _ e; cases e
theorem diInputEdge : ∀ channel level, Statement (.diInputEdge channel level) := by intro _ _ _ _ e; cases e
theorem diDebounceExpiry : ∀ channel, Statement (.diDebounceExpiry channel) := by intro _ _ _ e; cases e
theorem diSampleWindow : ∀ channel steady level, Statement (.diSampleWindow channel steady level) := by intro _ _ _ _ _ e; cases e
theorem doLimitEnter : ∀ channel, Statement (.doLimitEnter channel) := by intro _ _ _ e; cases e
theorem doLimitClear : ∀ channel, Statement (.doLimitClear channel) := by intro _ _ _ e; cases e
theorem doThermalEnter : ∀ channel, Statement (.doThermalEnter channel) := by intro _ _ _ e; cases e
theorem doThermalRetry : ∀ channel, Statement (.doThermalRetry channel) := by intro _ _ _ e; cases e
theorem doLockedRelease : ∀ channel, Statement (.doLockedRelease channel) := by intro _ _ _ e; cases e
theorem adaptiveSupplyStep : ∀ channel loopMv, Statement (.adaptiveSupplyStep channel loopMv) := by intro _ _ _ _ e; cases e
theorem compliance : ∀ channel achievedUa, Statement (.compliance channel achievedUa) := by intro _ _ _ _ e; cases e
theorem openLoop : ∀ channel achievedUa, Statement (.openLoop channel achievedUa) := by intro _ _ _ _ e; cases e
theorem liveZeroLost : ∀ channel, Statement (.liveZeroLost channel) := by intro _ _ _ e; cases e
theorem commonFaultSet : ∀ platform readbacks, Statement (.commonFaultSet platform readbacks) := by intro _ _ _ _ e; cases e
theorem commonFaultCleared : ∀ platform readbacks, Statement (.commonFaultCleared platform readbacks) := by intro _ _ _ _ e; cases e
theorem locate : ∀ origin platform, Statement (.locate origin platform) := by intro _ _ _ _ e; cases e
theorem localisationRepeat : ∀ platform readbacks, Statement (.localisationRepeat platform readbacks) := by intro _ _ _ _ e; cases e
theorem converterPeriodBoundary : ∀ results tt, Statement (.converterPeriodBoundary results tt) := by intro _ _ _ _ e; cases e
theorem fastSample : ∀ samples, Statement (.fastSample samples) := by intro _ _ _ e; cases e
theorem periodMeasurement : ∀ secondary periodNs amplitudePct qualityGood, Statement (.periodMeasurement secondary periodNs amplitudePct qualityGood) := by intro _ _ _ _ _ _ e; cases e
theorem periodNominal : Statement .periodNominal := by intro _ _ e; cases e
theorem qpop : ∀ origin, Statement (.qpop origin) := by intro _ _ _ e; cases e
theorem calStart : ∀ origin channel, Statement (.calStart origin channel) := by intro _ _ _ _ e; cases e
theorem takeZero : ∀ origin channel, Statement (.takeZero origin channel) := by intro _ _ _ _ e; cases e
theorem takeSpan : ∀ origin channel, Statement (.takeSpan origin channel) := by intro _ _ _ _ e; cases e
theorem calTakeDone : Statement .calTakeDone := by intro _ _ e; cases e
theorem commit : ∀ origin channel, Statement (.commit origin channel) := by intro _ _ _ _ e; cases e
theorem calEnd : ∀ origin channel, Statement (.calEnd origin channel) := by intro _ _ _ _ e; cases e
theorem abort : ∀ origin channel, Statement (.abort origin channel) := by intro _ _ _ _ e; cases e
theorem calTimeout : Statement .calTimeout := by intro _ _ e; cases e
theorem turntableVisitStart : ∀ platform, Statement (.turntableVisitStart platform) := by intro _ _ _ e; cases e
theorem testReq : ∀ origin channel, Statement (.testReq origin channel) := by intro _ _ _ _ e; cases e
theorem coefficientBatchWrite : Statement .coefficientBatchWrite := by intro _ _ e; cases e
theorem acqTrigger : ∀ t, Statement (.acqTrigger t) := by intro _ _ _ e; cases e
theorem acqTrig : ∀ origin defMask, Statement (.acqTrig origin defMask) := by intro _ _ _ _ e; cases e
theorem segmentClose : ∀ definition, Statement (.segmentClose definition) := by intro _ _ _ e; cases e
theorem rearm : ∀ definition, Statement (.rearm definition) := by intro _ _ _ e; cases e
theorem recordGapClose : ∀ definition, Statement (.recordGapClose definition) := by intro _ _ _ e; cases e
theorem close : ∀ origin definition, Statement (.close origin definition) := by intro _ _ _ _ e; cases e
theorem recordCommit : Statement .recordCommit := by intro _ _ e; cases e
theorem recordIndexRebuild : Statement .recordIndexRebuild := by intro _ _ e; cases e
theorem incCommit : ∀ origin intNs, Statement (.incCommit origin intNs) := by intro _ _ _ _ e; cases e
theorem stepGo : ∀ origin fraction, Statement (.stepGo origin fraction) := by intro _ _ _ _ e; cases e
theorem timeLatch : ∀ origin, Statement (.timeLatch origin) := by intro _ _ _ e; cases e
theorem timeServo : ∀ origin quality source port errNs, Statement (.timeServo origin quality source port errNs) := by intro _ _ _ _ _ _ _ e; cases e
theorem holdoverExpired : Statement .holdoverExpired := by intro _ _ e; cases e
theorem holdoverSteer : ∀ temp, Statement (.holdoverSteer temp) := by intro _ _ _ e; cases e
theorem ptpMessage : ∀ m, Statement (.ptpMessage m) := by intro _ _ _ e; cases e
theorem standbyCounterCopy : Statement .standbyCounterCopy := by intro _ _ e; cases e
theorem oscillatorSample : ∀ temp, Statement (.oscillatorSample temp) := by intro _ _ _ e; cases e
theorem oscillatorModelWrite : Statement .oscillatorModelWrite := by intro _ _ e; cases e
theorem svFrame : ∀ f, Statement (.svFrame f) := by intro _ _ _ e; cases e
theorem svHoldExpiry : ∀ subscription, Statement (.svHoldExpiry subscription) := by intro _ _ _ e; cases e
theorem gooseMessage : ∀ m, Statement (.gooseMessage m) := by intro _ _ _ e; cases e
theorem gooseExpiry : ∀ subscription, Statement (.gooseExpiry subscription) := by intro _ _ _ e; cases e
theorem gooseHoldExpiry : ∀ subscription, Statement (.gooseHoldExpiry subscription) := by intro _ _ _ e; cases e
theorem gooseDeferredSend : ∀ publication, Statement (.gooseDeferredSend publication) := by intro _ _ _ e; cases e
theorem gooseRetransmit : ∀ publication, Statement (.gooseRetransmit publication) := by intro _ _ _ e; cases e
theorem supervisionFrame : Statement .supervisionFrame := by intro _ _ e; cases e
theorem linkDown : ∀ port, Statement (.linkDown port) := by intro _ _ _ e; cases e
theorem testMode : ∀ origin on, Statement (.testMode origin on) := by intro _ _ _ _ e; cases e
theorem pairAddressRepeat : Statement .pairAddressRepeat := by intro _ _ e; cases e
theorem openSession : ∀ r connection pairAddress clientId events, Statement (.openSession r connection pairAddress clientId events) := by intro _ _ _ _ _ _ _ e; cases e
theorem closeSession : ∀ r, Statement (.closeSession r) := by intro _ _ _ e; cases e
theorem keepalive : ∀ r, Statement (.keepalive r) := by intro _ _ _ e; cases e
theorem sessionTimeout : ∀ session, Statement (.sessionTimeout session) := by intro _ _ _ e; cases e
theorem query : ∀ r clientSeq, Statement (.query r clientSeq) := by intro _ _ _ _ e; cases e
theorem tagRead : ∀ r tags, Statement (.tagRead r tags) := by intro _ _ _ _ e; cases e
theorem subscribe : ∀ r minIntervalMs tags, Statement (.subscribe r minIntervalMs tags) := by intro _ _ _ _ _ e; cases e
theorem unsubscribe : ∀ r subscription, Statement (.unsubscribe r subscription) := by intro _ _ _ _ e; cases e
theorem resend : ∀ r subscription, Statement (.resend r subscription) := by intro _ _ _ _ e; cases e
theorem notify : ∀ subscription, Statement (.notify subscription) := by intro _ _ _ e; cases e
theorem event : ∀ base offset bit, Statement (.event base offset bit) := by intro _ _ _ _ _ e; cases e
theorem regRead : ∀ r addr count, Statement (.regRead r addr count) := by intro _ _ _ _ _ e; cases e
theorem regWrite : ∀ r addr words, Statement (.regWrite r addr words) := by intro _ _ _ _ _ e; cases e
theorem fileOpen : ∀ r name write, Statement (.fileOpen r name write) := by intro _ _ _ _ _ e; cases e
theorem fileRead : ∀ r handle offset, Statement (.fileRead r handle offset) := by intro _ _ _ _ _ e; cases e
theorem fileWrite : ∀ r handle offset data, Statement (.fileWrite r handle offset data) := by intro _ _ _ _ _ _ e; cases e
theorem fileClose : ∀ r handle crc content, Statement (.fileClose r handle crc content) := by intro _ _ _ _ _ _ e; cases e
theorem canFrameReceived : ∀ port f sofTick, Statement (.canFrameReceived port f sofTick) := by intro _ _ _ _ _ e; cases e
theorem canTxEnd : ∀ port outcome handle sofTick, Statement (.canTxEnd port outcome handle sofTick) := by intro _ _ _ _ _ _ e; cases e
theorem canTxTimeout : ∀ port handle, Statement (.canTxTimeout port handle) := by intro _ _ _ _ e; cases e
theorem canCancel : ∀ port handle, Statement (.canCancel port handle) := by intro _ _ _ _ e; cases e
theorem canBusOff : ∀ port, Statement (.canBusOff port) := by intro _ _ _ e; cases e
theorem busOffRecovered : ∀ port, Statement (.busOffRecovered port) := by intro _ _ _ e; cases e
theorem canMappingHoldExpiry : ∀ port mapping twice, Statement (.canMappingHoldExpiry port mapping twice) := by intro _ _ _ _ _ e; cases e
theorem rxpop : ∀ origin port, Statement (.rxpop origin port) := by intro _ _ _ _ e; cases e
theorem registerWrite : ∀ origin addr value, Statement (.registerWrite origin addr value) := by intro _ _ _ _ _ e; cases e
theorem misalignedAccess : ∀ origin span write, Statement (.misalignedAccess origin span write) := by intro _ _ _ _ _ e; cases e
theorem eventRegisterClear : ∀ origin addr value, Statement (.eventRegisterClear origin addr value) := by intro _ _ _ _ _ e; cases e
theorem multiwordMode : ∀ origin block on, Statement (.multiwordMode origin block on) := by intro _ _ _ _ _ e; cases e
theorem multiwordLowRead : ∀ origin addr, Statement (.multiwordLowRead origin addr) := by intro _ _ _ _ e; cases e
theorem mpuRegionWrite : ∀ origin unit set region word value, Statement (.mpuRegionWrite origin unit set region word value) := by intro _ _ _ _ _ _ _ _ e; cases e
theorem arm : ∀ origin unit, Statement (.arm origin unit) := by intro _ _ _ _ e; cases e
theorem swap : ∀ origin unit, Statement (.swap origin unit) := by intro _ _ _ _ e; cases e
theorem swapAck : ∀ unit, Statement (.swapAck unit) := by intro _ _ _ e; cases e
theorem protectionException : ∀ a, Statement (.protectionException a) := by intro _ _ _ e; cases e
theorem impreciseNotice : ∀ a set, Statement (.impreciseNotice a set) := by intro _ _ _ _ e; cases e
theorem release : ∀ origin, Statement (.release origin) := by intro _ _ _ e; cases e
theorem mgmtWatchdogRestart : Statement .mgmtWatchdogRestart := by intro _ _ e; cases e
theorem loadWindow : ∀ busyPct, Statement (.loadWindow busyPct) := by intro _ _ _ e; cases e
theorem verifyComplete : ∀ session unreadable, Statement (.verifyComplete session unreadable) := by intro _ _ _ _ e; cases e
theorem activate : ∀ origin session unreadable, Statement (.activate origin session unreadable) := by intro _ _ _ _ _ e; cases e
theorem imageTakesEffect : ∀ session, Statement (.imageTakesEffect session) := by intro _ _ _ e; cases e
theorem confirm : ∀ origin session, Statement (.confirm origin session) := by intro _ _ _ _ e; cases e
theorem fallback : ∀ origin session, Statement (.fallback origin session) := by intro _ _ _ _ e; cases e
theorem updateAbort : ∀ origin session, Statement (.updateAbort origin session) := by intro _ _ _ _ e; cases e
theorem anchorClear : ∀ origin session, Statement (.anchorClear origin session) := by intro _ _ _ _ e; cases e
theorem leaveTerminus : ∀ origin i, Statement (.leaveTerminus origin i) := by intro _ _ _ _ e; cases e
theorem attestGo : ∀ origin, Statement (.attestGo origin) := by intro _ _ _ e; cases e
theorem reportSigned : ∀ randomiser, Statement (.reportSigned randomiser) := by intro _ _ _ e; cases e
theorem nextTreeBuilt : Statement .nextTreeBuilt := by intro _ _ e; cases e
theorem panelRefresh : Statement .panelRefresh := by intro _ _ e; cases e
theorem pixelShift : Statement .pixelShift := by intro _ _ e; cases e
theorem contrastUpdate : ∀ temp, Statement (.contrastUpdate temp) := by intro _ _ _ e; cases e
theorem labelUpdateStart : Statement .labelUpdateStart := by intro _ _ e; cases e
theorem labelUpdateEnd : Statement .labelUpdateEnd := by intro _ _ e; cases e
theorem redraw : ∀ origin, Statement (.redraw origin) := by intro _ _ _ e; cases e
theorem operatingMinute : Statement .operatingMinute := by intro _ _ e; cases e
theorem mileageSample : ∀ values, Statement (.mileageSample values) := by intro _ _ _ e; cases e
theorem milSel : ∀ origin series live, Statement (.milSel origin series live) := by intro _ _ _ _ _ e; cases e
theorem syncInterval : Statement .syncInterval := by intro _ _ e; cases e
theorem dtlsHandshake : ∀ arrival client, Statement (.dtlsHandshake arrival client) := by intro _ _ _ _ e; cases e
theorem canFrameError : ∀ port tec recv, Statement (.canFrameError port tec recv) := by intro _ _ _ _ _ e; cases e
theorem handoverClaimWaitEnd : Statement .handoverClaimWaitEnd := by intro _ _ e; cases e
theorem canErrRead : Statement .canErrRead := by intro _ _ e; cases e
theorem mgmtRestartEnd : Statement .mgmtRestartEnd := by intro _ _ e; cases e

end Header

end Sys2Proof.Laws
end

