-- ==== Sys2Proof/Laws/Regs.lean ====
section
/-! SUPPORT. Tables and register fields: a read after a write, and what an event does to the registers. -/

set_option Elab.async false

namespace Sys2Proof.Machine

open Sys2Proof

/-! Tables. -/

theorem Tab.get?_set_self {α : Type} (t : Tab α) (i : Nat) (v : α) : Tab.get? (Tab.set t i v) i = some v := by
  induction t with
  | nil => simp [Tab.set, Tab.get?]
  | cons e t ih =>
    obtain ⟨k, w⟩ := e
    simp only [Tab.set]
    split
    · simp [Tab.get?]
    · split
      · simp [Tab.get?]
      · rename_i h1 h2
        simp only [Tab.get?, if_neg (Ne.symm h2)]
        exact ih

theorem Tab.get?_set_ne {α : Type} (t : Tab α) {i j : Nat} (v : α) (h : j ≠ i) : Tab.get? (Tab.set t i v) j = Tab.get? t j := by
  induction t with
  | nil => simp [Tab.set, Tab.get?, Ne.symm h]
  | cons e t ih =>
    obtain ⟨k, w⟩ := e
    simp only [Tab.set]
    split
    · simp [Tab.get?, Ne.symm h]
    · split
      · rename_i h1 h2
        subst h2
        simp [Tab.get?, Ne.symm h]
      · simp only [Tab.get?]
        rw [ih]

theorem Tab.get?_filter {α : Type} (t : Tab α) (p : Nat × α → Bool) (i : Nat) (hp : ∀ v, p (i, v) = true) :
    Tab.get? (t.filter p) i = Tab.get? t i := by
  induction t with
  | nil => rfl
  | cons e t ih =>
    obtain ⟨k, w⟩ := e
    by_cases h : p (k, w) = true
    · rw [List.filter_cons_of_pos h]
      simp only [Tab.get?]
      rw [ih]
    · rw [List.filter_cons_of_neg h, ih]
      have : k ≠ i := fun e => h (e ▸ hp w)
      simp [Tab.get?, this]

theorem Tab.get?_filter_none {α : Type} (t : Tab α) (p : Nat × α → Bool) (i : Nat) (hp : ∀ v, p (i, v) = false) :
    Tab.get? (t.filter p) i = none := by
  induction t with
  | nil => rfl
  | cons e t ih =>
    obtain ⟨k, w⟩ := e
    by_cases h : p (k, w) = true
    · rw [List.filter_cons_of_pos h]
      have : k ≠ i := fun e => by rw [e, hp w] at h; cases h
      simp only [Tab.get?, if_neg this]
      exact ih
    · rw [List.filter_cons_of_neg h]
      exact ih

theorem Tab.getD_put_self {α : Type} [DecidableEq α] (d : α) (t : Tab α) (i : Nat) (v : α) : Tab.getD (Tab.put d t i v) i d = v := by
  unfold Tab.getD Tab.put
  split
  · rename_i h
    rw [Tab.erase, Tab.get?_filter_none t _ i (fun _ => by simp)]
    exact h.symm
  · rw [Tab.get?_set_self]
    rfl

theorem Tab.getD_put_ne {α : Type} [DecidableEq α] (d : α) (t : Tab α) {i j : Nat} (v : α) (h : j ≠ i) :
    Tab.getD (Tab.put d t i v) j d = Tab.getD t j d := by
  unfold Tab.getD Tab.put
  split
  · rw [Tab.erase, Tab.get?_filter t _ j (fun _ => by simp [h])]
  · rw [Tab.get?_set_ne t v h]

/-! Register fields. -/

/-- A field reads what was written last, narrowed to its width. -/
@[simp] theorem State.get_put_self (s : State) (f : Fld) (v : Nat) : (s.put f v).get f = v % 2 ^ f.w := Tab.getD_put_self _ _ _ _

/-- A field of the same place reads it too. -/
theorem State.get_put_key (s : State) {f g : Fld} (v : Nat) (h : f.key = g.key) : (s.put f v).get g = v % 2 ^ f.w := by
  unfold State.get
  rw [← h]
  exact Tab.getD_put_self _ _ _ _

/-- Every other field reads as before. -/
theorem State.get_put_ne (s : State) {f g : Fld} (v : Nat) (h : f.key ≠ g.key) : (s.put f v).get g = s.get g :=
  Tab.getD_put_ne _ _ _ (Ne.symm h)

/-- Fields depend on the bank alone. -/
theorem State.get_congr {s t : State} (h : t.bank = s.bank) (f : Fld) : t.get f = s.get f := by
  unfold State.get
  rw [h]

theorem RegsBut.refl (l : List Fld) (s : State) : RegsBut l s s := fun _ _ => rfl

theorem RegsBut.of_bank {l : List Fld} {s t : State} (h : t.bank = s.bank) : RegsBut l s t := fun f _ => State.get_congr h f

theorem RegsBut.trans {l : List Fld} {s t u : State} (h : RegsBut l s t) (k : RegsBut l t u) : RegsBut l s u :=
  fun f hf => (k f hf).trans (h f hf)

theorem RegsBut.mono {l m : List Fld} {s t : State} (h : RegsBut l s t) (hs : ∀ f ∈ l, f ∈ m) : RegsBut m s t :=
  fun f hf => h f (fun g hg => hf g (hs g hg))

theorem RegsBut.put {l : List Fld} (s : State) (f : Fld) (v : Nat) (hf : f ∈ l) : RegsBut l s (s.put f v) :=
  fun _ hg => State.get_put_ne s v (hg f hf)

theorem RegsBut.inc {l : List Fld} (s : State) (f : Fld) (hf : f ∈ l) : RegsBut l s (s.inc f) := RegsBut.put s f _ hf

/-! Events. -/

theorem eventTo_bank (base offset bit seq k : Nat) (x : Session) (s : State) : (eventTo base offset bit seq k x s).bank = s.bank := by
  unfold eventTo
  split
  · rfl
  · simp only []
    repeat' split
    all_goals rfl

theorem eventTo_only (base offset bit seq k : Nat) (x : Session) (s : State) : EventsOnly s (eventTo base offset bit seq k x s) := by
  unfold eventTo
  split
  · exact ⟨⟨[], by simp⟩, rfl⟩
  · simp only []
    repeat' split
    all_goals first
      | exact ⟨⟨[_], rfl, by simp [Msg.isEvent]⟩, rfl⟩
      | exact ⟨⟨[], by simp⟩, rfl⟩

theorem EventsOnly.refl (s : State) : EventsOnly s s := ⟨⟨[], by simp⟩, rfl⟩

theorem EventsOnly.of_eq {s t : State} (ho : t.outbox = s.outbox) (hn : t.net = s.net) : EventsOnly s t :=
  ⟨⟨[], by simp [ho]⟩, by rw [hn]⟩

theorem EventsOnly.trans {s t u : State} (h : EventsOnly s t) (k : EventsOnly t u) : EventsOnly s u := by
  obtain ⟨⟨l, h1, h2⟩, h3⟩ := h
  obtain ⟨⟨m, k1, k2⟩, k3⟩ := k
  refine ⟨⟨l ++ m, by rw [k1, h1, List.append_assoc], fun x hx => ?_⟩, k3.trans h3⟩
  exact (List.mem_append.1 hx).elim (h2 x) (k2 x)

theorem forEach_bank {α : Type} (l : List α) (f : α → State → State) (hf : ∀ a s, (f a s).bank = s.bank) (s : State) :
    (forEach l f s).bank = s.bank := by
  unfold forEach
  induction l generalizing s with
  | nil => rfl
  | cons a t ih => exact (ih (f a s)).trans (hf a s)

theorem forEach_only {α : Type} (l : List α) (f : α → State → State) (hf : ∀ a s, EventsOnly s (f a s)) (s : State) :
    EventsOnly s (forEach l f s) := by
  unfold forEach
  induction l generalizing s with
  | nil => exact EventsOnly.refl s
  | cons a t ih => exact (hf a s).trans (ih (f a s))

/-- An event writes its register and no other (R417). -/
theorem State.raise_bank (s : State) (e : EvBit) :
    (s.raise e).bank = ((s.put ⟨e.addr, e.bit, 1⟩ 1).put ⟨e.addr, 16, 16⟩ (nextSeq (s.get ⟨e.addr, 16, 16⟩))).bank := by
  unfold State.raise
  simp only []
  exact forEach_bank _ _ (fun _ _ => eventTo_bank _ _ _ _ _ _ _) _

theorem State.raise_only (s : State) (e : EvBit) : EventsOnly s (s.raise e) := by
  unfold State.raise
  simp only []
  exact EventsOnly.trans (EventsOnly.of_eq rfl rfl) (forEach_only _ _ (fun _ _ => eventTo_only _ _ _ _ _ _ _) _)

theorem State.raise_get_ne (s : State) {e : EvBit} {f : Fld} (h1 : 32 * e.addr + e.bit ≠ f.key) (h2 : 32 * e.addr + 16 ≠ f.key) :
    (s.raise e).get f = s.get f := by
  rw [State.get_congr (State.raise_bank s e)]
  rw [State.get_put_ne _ _ (f := ⟨e.addr, 16, 16⟩) h2, State.get_put_ne _ _ (f := ⟨e.addr, e.bit, 1⟩) h1]

theorem State.raise_get_bit (s : State) {e : EvBit} (h : e.bit < 16) : (s.raise e).get ⟨e.addr, e.bit, 1⟩ = 1 := by
  rw [State.get_congr (State.raise_bank s e), State.get_put_ne _ _ (by simp only [Fld.key]; omega), State.get_put_self]
  rfl

/-- A sequence number stays within its 16 bits. -/
theorem nextSeq_lt (q : Nat) : nextSeq q < 2 ^ 16 := by
  unfold nextSeq
  split <;> omega

theorem State.raise_get_seq (s : State) (e : EvBit) : (s.raise e).get ⟨e.addr, 16, 16⟩ = nextSeq (s.get ⟨e.addr, 16, 16⟩) := by
  rw [State.get_congr (State.raise_bank s e), State.get_put_self]
  exact Nat.mod_eq_of_lt (nextSeq_lt _)

/-- An event is raised once. -/
theorem State.raised (s : State) {e : EvBit} (h : e.bit < 16) : Raised e s (s.raise e) := ⟨State.raise_get_bit s h, State.raise_get_seq s e⟩

theorem RegsBut.raise {l : List Fld} (s : State) (e : EvBit) (h : ∀ f ∈ e.flds, f ∈ l) : RegsBut l s (s.raise e) :=
  fun f hf => State.raise_get_ne s (hf ⟨e.addr, e.bit, 1⟩ (h _ (by simp [EvBit.flds]))) (hf ⟨e.addr, 16, 16⟩ (h _ (by simp [EvBit.flds])))

end Sys2Proof.Machine
end

