-- ==== Sys2Proof/Laws/State.lean ====
section
/-! SUPPORT. The parts of the state after each named update: one lemma per part, so that no later proof unfolds a record update. -/

set_option Elab.async false

namespace Sys2Proof.Machine

open Sys2Proof

/-! State.put -/

@[simp] theorem State.put_pending (s : State) (f : Fld) (v : Nat) : (s.put f v).pending = s.pending := rfl
@[simp] theorem State.put_mode (s : State) (f : Fld) (v : Nat) : (s.put f v).mode = s.mode := rfl
@[simp] theorem State.put_heldWrites (s : State) (f : Fld) (v : Nat) : (s.put f v).heldWrites = s.heldWrites := rfl
@[simp] theorem State.put_shadows (s : State) (f : Fld) (v : Nat) : (s.put f v).shadows = s.shadows := rfl
@[simp] theorem State.put_carrier (s : State) (f : Fld) (v : Nat) : (s.put f v).carrier = s.carrier := rfl
@[simp] theorem State.put_standby (s : State) (f : Fld) (v : Nat) : (s.put f v).standby = s.standby := rfl
@[simp] theorem State.put_fixed (s : State) (f : Fld) (v : Nat) : (s.put f v).fixed = s.fixed := rfl
@[simp] theorem State.put_start (s : State) (f : Fld) (v : Nat) : (s.put f v).start = s.start := rfl
@[simp] theorem State.put_claim (s : State) (f : Fld) (v : Nat) : (s.put f v).claim = s.claim := rfl
@[simp] theorem State.put_pair (s : State) (f : Fld) (v : Nat) : (s.put f v).pair = s.pair := rfl
@[simp] theorem State.put_tasks (s : State) (f : Fld) (v : Nat) : (s.put f v).tasks = s.tasks := rfl
@[simp] theorem State.put_lanes (s : State) (f : Fld) (v : Nat) : (s.put f v).lanes = s.lanes := rfl
@[simp] theorem State.put_ctl (s : State) (f : Fld) (v : Nat) : (s.put f v).ctl = s.ctl := rfl
@[simp] theorem State.put_jrn (s : State) (f : Fld) (v : Nat) : (s.put f v).jrn = s.jrn := rfl
@[simp] theorem State.put_exch (s : State) (f : Fld) (v : Nat) : (s.put f v).exch = s.exch := rfl
@[simp] theorem State.put_mram (s : State) (f : Fld) (v : Nat) : (s.put f v).mram = s.mram := rfl
@[simp] theorem State.put_sbox (s : State) (f : Fld) (v : Nat) : (s.put f v).sbox = s.sbox := rfl
@[simp] theorem State.put_chans (s : State) (f : Fld) (v : Nat) : (s.put f v).chans = s.chans := rfl
@[simp] theorem State.put_conv (s : State) (f : Fld) (v : Nat) : (s.put f v).conv = s.conv := rfl
@[simp] theorem State.put_acq (s : State) (f : Fld) (v : Nat) : (s.put f v).acq = s.acq := rfl
@[simp] theorem State.put_time (s : State) (f : Fld) (v : Nat) : (s.put f v).time = s.time := rfl
@[simp] theorem State.put_net (s : State) (f : Fld) (v : Nat) : (s.put f v).net = s.net := rfl
@[simp] theorem State.put_can0 (s : State) (f : Fld) (v : Nat) : (s.put f v).can0 = s.can0 := rfl
@[simp] theorem State.put_can1 (s : State) (f : Fld) (v : Nat) : (s.put f v).can1 = s.can1 := rfl
@[simp] theorem State.put_mpu (s : State) (f : Fld) (v : Nat) : (s.put f v).mpu = s.mpu := rfl
@[simp] theorem State.put_upd (s : State) (f : Fld) (v : Nat) : (s.put f v).upd = s.upd := rfl
@[simp] theorem State.put_panel (s : State) (f : Fld) (v : Nat) : (s.put f v).panel = s.panel := rfl
@[simp] theorem State.put_mil (s : State) (f : Fld) (v : Nat) : (s.put f v).mil = s.mil := rfl
@[simp] theorem State.put_outbox (s : State) (f : Fld) (v : Nat) : (s.put f v).outbox = s.outbox := rfl
@[simp] theorem State.put_freeCount (s : State) (f : Fld) (v : Nat) : (s.put f v).freeCount = s.freeCount := rfl

/-! State.inc -/

@[simp] theorem State.inc_pending (s : State) (f : Fld) : (s.inc f).pending = s.pending := rfl
@[simp] theorem State.inc_mode (s : State) (f : Fld) : (s.inc f).mode = s.mode := rfl
@[simp] theorem State.inc_heldWrites (s : State) (f : Fld) : (s.inc f).heldWrites = s.heldWrites := rfl
@[simp] theorem State.inc_shadows (s : State) (f : Fld) : (s.inc f).shadows = s.shadows := rfl
@[simp] theorem State.inc_carrier (s : State) (f : Fld) : (s.inc f).carrier = s.carrier := rfl
@[simp] theorem State.inc_standby (s : State) (f : Fld) : (s.inc f).standby = s.standby := rfl
@[simp] theorem State.inc_fixed (s : State) (f : Fld) : (s.inc f).fixed = s.fixed := rfl
@[simp] theorem State.inc_start (s : State) (f : Fld) : (s.inc f).start = s.start := rfl
@[simp] theorem State.inc_claim (s : State) (f : Fld) : (s.inc f).claim = s.claim := rfl
@[simp] theorem State.inc_pair (s : State) (f : Fld) : (s.inc f).pair = s.pair := rfl
@[simp] theorem State.inc_tasks (s : State) (f : Fld) : (s.inc f).tasks = s.tasks := rfl
@[simp] theorem State.inc_lanes (s : State) (f : Fld) : (s.inc f).lanes = s.lanes := rfl
@[simp] theorem State.inc_ctl (s : State) (f : Fld) : (s.inc f).ctl = s.ctl := rfl
@[simp] theorem State.inc_jrn (s : State) (f : Fld) : (s.inc f).jrn = s.jrn := rfl
@[simp] theorem State.inc_exch (s : State) (f : Fld) : (s.inc f).exch = s.exch := rfl
@[simp] theorem State.inc_mram (s : State) (f : Fld) : (s.inc f).mram = s.mram := rfl
@[simp] theorem State.inc_sbox (s : State) (f : Fld) : (s.inc f).sbox = s.sbox := rfl
@[simp] theorem State.inc_chans (s : State) (f : Fld) : (s.inc f).chans = s.chans := rfl
@[simp] theorem State.inc_conv (s : State) (f : Fld) : (s.inc f).conv = s.conv := rfl
@[simp] theorem State.inc_acq (s : State) (f : Fld) : (s.inc f).acq = s.acq := rfl
@[simp] theorem State.inc_time (s : State) (f : Fld) : (s.inc f).time = s.time := rfl
@[simp] theorem State.inc_net (s : State) (f : Fld) : (s.inc f).net = s.net := rfl
@[simp] theorem State.inc_can0 (s : State) (f : Fld) : (s.inc f).can0 = s.can0 := rfl
@[simp] theorem State.inc_can1 (s : State) (f : Fld) : (s.inc f).can1 = s.can1 := rfl
@[simp] theorem State.inc_mpu (s : State) (f : Fld) : (s.inc f).mpu = s.mpu := rfl
@[simp] theorem State.inc_upd (s : State) (f : Fld) : (s.inc f).upd = s.upd := rfl
@[simp] theorem State.inc_panel (s : State) (f : Fld) : (s.inc f).panel = s.panel := rfl
@[simp] theorem State.inc_mil (s : State) (f : Fld) : (s.inc f).mil = s.mil := rfl
@[simp] theorem State.inc_outbox (s : State) (f : Fld) : (s.inc f).outbox = s.outbox := rfl
@[simp] theorem State.inc_freeCount (s : State) (f : Fld) : (s.inc f).freeCount = s.freeCount := rfl

/-! State.addSat -/

@[simp] theorem State.addSat_pending (s : State) (f : Fld) (n : Nat) : (s.addSat f n).pending = s.pending := rfl
@[simp] theorem State.addSat_mode (s : State) (f : Fld) (n : Nat) : (s.addSat f n).mode = s.mode := rfl
@[simp] theorem State.addSat_heldWrites (s : State) (f : Fld) (n : Nat) : (s.addSat f n).heldWrites = s.heldWrites := rfl
@[simp] theorem State.addSat_shadows (s : State) (f : Fld) (n : Nat) : (s.addSat f n).shadows = s.shadows := rfl
@[simp] theorem State.addSat_carrier (s : State) (f : Fld) (n : Nat) : (s.addSat f n).carrier = s.carrier := rfl
@[simp] theorem State.addSat_standby (s : State) (f : Fld) (n : Nat) : (s.addSat f n).standby = s.standby := rfl
@[simp] theorem State.addSat_fixed (s : State) (f : Fld) (n : Nat) : (s.addSat f n).fixed = s.fixed := rfl
@[simp] theorem State.addSat_start (s : State) (f : Fld) (n : Nat) : (s.addSat f n).start = s.start := rfl
@[simp] theorem State.addSat_claim (s : State) (f : Fld) (n : Nat) : (s.addSat f n).claim = s.claim := rfl
@[simp] theorem State.addSat_pair (s : State) (f : Fld) (n : Nat) : (s.addSat f n).pair = s.pair := rfl
@[simp] theorem State.addSat_tasks (s : State) (f : Fld) (n : Nat) : (s.addSat f n).tasks = s.tasks := rfl
@[simp] theorem State.addSat_lanes (s : State) (f : Fld) (n : Nat) : (s.addSat f n).lanes = s.lanes := rfl
@[simp] theorem State.addSat_ctl (s : State) (f : Fld) (n : Nat) : (s.addSat f n).ctl = s.ctl := rfl
@[simp] theorem State.addSat_jrn (s : State) (f : Fld) (n : Nat) : (s.addSat f n).jrn = s.jrn := rfl
@[simp] theorem State.addSat_exch (s : State) (f : Fld) (n : Nat) : (s.addSat f n).exch = s.exch := rfl
@[simp] theorem State.addSat_mram (s : State) (f : Fld) (n : Nat) : (s.addSat f n).mram = s.mram := rfl
@[simp] theorem State.addSat_sbox (s : State) (f : Fld) (n : Nat) : (s.addSat f n).sbox = s.sbox := rfl
@[simp] theorem State.addSat_chans (s : State) (f : Fld) (n : Nat) : (s.addSat f n).chans = s.chans := rfl
@[simp] theorem State.addSat_conv (s : State) (f : Fld) (n : Nat) : (s.addSat f n).conv = s.conv := rfl
@[simp] theorem State.addSat_acq (s : State) (f : Fld) (n : Nat) : (s.addSat f n).acq = s.acq := rfl
@[simp] theorem State.addSat_time (s : State) (f : Fld) (n : Nat) : (s.addSat f n).time = s.time := rfl
@[simp] theorem State.addSat_net (s : State) (f : Fld) (n : Nat) : (s.addSat f n).net = s.net := rfl
@[simp] theorem State.addSat_can0 (s : State) (f : Fld) (n : Nat) : (s.addSat f n).can0 = s.can0 := rfl
@[simp] theorem State.addSat_can1 (s : State) (f : Fld) (n : Nat) : (s.addSat f n).can1 = s.can1 := rfl
@[simp] theorem State.addSat_mpu (s : State) (f : Fld) (n : Nat) : (s.addSat f n).mpu = s.mpu := rfl
@[simp] theorem State.addSat_upd (s : State) (f : Fld) (n : Nat) : (s.addSat f n).upd = s.upd := rfl
@[simp] theorem State.addSat_panel (s : State) (f : Fld) (n : Nat) : (s.addSat f n).panel = s.panel := rfl
@[simp] theorem State.addSat_mil (s : State) (f : Fld) (n : Nat) : (s.addSat f n).mil = s.mil := rfl
@[simp] theorem State.addSat_outbox (s : State) (f : Fld) (n : Nat) : (s.addSat f n).outbox = s.outbox := rfl
@[simp] theorem State.addSat_freeCount (s : State) (f : Fld) (n : Nat) : (s.addSat f n).freeCount = s.freeCount := rfl

/-! State.send -/

@[simp] theorem State.send_pending (s : State) (m : Msg) : (s.send m).pending = s.pending := rfl
@[simp] theorem State.send_mode (s : State) (m : Msg) : (s.send m).mode = s.mode := rfl
@[simp] theorem State.send_bank (s : State) (m : Msg) : (s.send m).bank = s.bank := rfl
@[simp] theorem State.send_heldWrites (s : State) (m : Msg) : (s.send m).heldWrites = s.heldWrites := rfl
@[simp] theorem State.send_shadows (s : State) (m : Msg) : (s.send m).shadows = s.shadows := rfl
@[simp] theorem State.send_carrier (s : State) (m : Msg) : (s.send m).carrier = s.carrier := rfl
@[simp] theorem State.send_standby (s : State) (m : Msg) : (s.send m).standby = s.standby := rfl
@[simp] theorem State.send_fixed (s : State) (m : Msg) : (s.send m).fixed = s.fixed := rfl
@[simp] theorem State.send_start (s : State) (m : Msg) : (s.send m).start = s.start := rfl
@[simp] theorem State.send_claim (s : State) (m : Msg) : (s.send m).claim = s.claim := rfl
@[simp] theorem State.send_pair (s : State) (m : Msg) : (s.send m).pair = s.pair := rfl
@[simp] theorem State.send_tasks (s : State) (m : Msg) : (s.send m).tasks = s.tasks := rfl
@[simp] theorem State.send_lanes (s : State) (m : Msg) : (s.send m).lanes = s.lanes := rfl
@[simp] theorem State.send_ctl (s : State) (m : Msg) : (s.send m).ctl = s.ctl := rfl
@[simp] theorem State.send_jrn (s : State) (m : Msg) : (s.send m).jrn = s.jrn := rfl
@[simp] theorem State.send_exch (s : State) (m : Msg) : (s.send m).exch = s.exch := rfl
@[simp] theorem State.send_mram (s : State) (m : Msg) : (s.send m).mram = s.mram := rfl
@[simp] theorem State.send_sbox (s : State) (m : Msg) : (s.send m).sbox = s.sbox := rfl
@[simp] theorem State.send_chans (s : State) (m : Msg) : (s.send m).chans = s.chans := rfl
@[simp] theorem State.send_conv (s : State) (m : Msg) : (s.send m).conv = s.conv := rfl
@[simp] theorem State.send_acq (s : State) (m : Msg) : (s.send m).acq = s.acq := rfl
@[simp] theorem State.send_time (s : State) (m : Msg) : (s.send m).time = s.time := rfl
@[simp] theorem State.send_net (s : State) (m : Msg) : (s.send m).net = s.net := rfl
@[simp] theorem State.send_can0 (s : State) (m : Msg) : (s.send m).can0 = s.can0 := rfl
@[simp] theorem State.send_can1 (s : State) (m : Msg) : (s.send m).can1 = s.can1 := rfl
@[simp] theorem State.send_mpu (s : State) (m : Msg) : (s.send m).mpu = s.mpu := rfl
@[simp] theorem State.send_upd (s : State) (m : Msg) : (s.send m).upd = s.upd := rfl
@[simp] theorem State.send_panel (s : State) (m : Msg) : (s.send m).panel = s.panel := rfl
@[simp] theorem State.send_mil (s : State) (m : Msg) : (s.send m).mil = s.mil := rfl
@[simp] theorem State.send_freeCount (s : State) (m : Msg) : (s.send m).freeCount = s.freeCount := rfl
@[simp] theorem State.send_outbox (s : State) (m : Msg) : (s.send m).outbox = s.outbox ++ [m] := rfl

/-! State.setTask -/

@[simp] theorem State.setTask_pending (s : State) (i : Nat) (x : Task) : (s.setTask i x).pending = s.pending := rfl
@[simp] theorem State.setTask_mode (s : State) (i : Nat) (x : Task) : (s.setTask i x).mode = s.mode := rfl
@[simp] theorem State.setTask_bank (s : State) (i : Nat) (x : Task) : (s.setTask i x).bank = s.bank := rfl
@[simp] theorem State.setTask_heldWrites (s : State) (i : Nat) (x : Task) : (s.setTask i x).heldWrites = s.heldWrites := rfl
@[simp] theorem State.setTask_shadows (s : State) (i : Nat) (x : Task) : (s.setTask i x).shadows = s.shadows := rfl
@[simp] theorem State.setTask_carrier (s : State) (i : Nat) (x : Task) : (s.setTask i x).carrier = s.carrier := rfl
@[simp] theorem State.setTask_standby (s : State) (i : Nat) (x : Task) : (s.setTask i x).standby = s.standby := rfl
@[simp] theorem State.setTask_fixed (s : State) (i : Nat) (x : Task) : (s.setTask i x).fixed = s.fixed := rfl
@[simp] theorem State.setTask_start (s : State) (i : Nat) (x : Task) : (s.setTask i x).start = s.start := rfl
@[simp] theorem State.setTask_claim (s : State) (i : Nat) (x : Task) : (s.setTask i x).claim = s.claim := rfl
@[simp] theorem State.setTask_pair (s : State) (i : Nat) (x : Task) : (s.setTask i x).pair = s.pair := rfl
@[simp] theorem State.setTask_lanes (s : State) (i : Nat) (x : Task) : (s.setTask i x).lanes = s.lanes := rfl
@[simp] theorem State.setTask_ctl (s : State) (i : Nat) (x : Task) : (s.setTask i x).ctl = s.ctl := rfl
@[simp] theorem State.setTask_jrn (s : State) (i : Nat) (x : Task) : (s.setTask i x).jrn = s.jrn := rfl
@[simp] theorem State.setTask_exch (s : State) (i : Nat) (x : Task) : (s.setTask i x).exch = s.exch := rfl
@[simp] theorem State.setTask_mram (s : State) (i : Nat) (x : Task) : (s.setTask i x).mram = s.mram := rfl
@[simp] theorem State.setTask_sbox (s : State) (i : Nat) (x : Task) : (s.setTask i x).sbox = s.sbox := rfl
@[simp] theorem State.setTask_chans (s : State) (i : Nat) (x : Task) : (s.setTask i x).chans = s.chans := rfl
@[simp] theorem State.setTask_conv (s : State) (i : Nat) (x : Task) : (s.setTask i x).conv = s.conv := rfl
@[simp] theorem State.setTask_acq (s : State) (i : Nat) (x : Task) : (s.setTask i x).acq = s.acq := rfl
@[simp] theorem State.setTask_time (s : State) (i : Nat) (x : Task) : (s.setTask i x).time = s.time := rfl
@[simp] theorem State.setTask_net (s : State) (i : Nat) (x : Task) : (s.setTask i x).net = s.net := rfl
@[simp] theorem State.setTask_can0 (s : State) (i : Nat) (x : Task) : (s.setTask i x).can0 = s.can0 := rfl
@[simp] theorem State.setTask_can1 (s : State) (i : Nat) (x : Task) : (s.setTask i x).can1 = s.can1 := rfl
@[simp] theorem State.setTask_mpu (s : State) (i : Nat) (x : Task) : (s.setTask i x).mpu = s.mpu := rfl
@[simp] theorem State.setTask_upd (s : State) (i : Nat) (x : Task) : (s.setTask i x).upd = s.upd := rfl
@[simp] theorem State.setTask_panel (s : State) (i : Nat) (x : Task) : (s.setTask i x).panel = s.panel := rfl
@[simp] theorem State.setTask_mil (s : State) (i : Nat) (x : Task) : (s.setTask i x).mil = s.mil := rfl
@[simp] theorem State.setTask_outbox (s : State) (i : Nat) (x : Task) : (s.setTask i x).outbox = s.outbox := rfl
@[simp] theorem State.setTask_freeCount (s : State) (i : Nat) (x : Task) : (s.setTask i x).freeCount = s.freeCount := rfl
@[simp] theorem State.setTask_tasks (s : State) (i : Nat) (x : Task) : (s.setTask i x).tasks = Tab.put Task.reset s.tasks i x := rfl

/-! State.setLane -/

@[simp] theorem State.setLane_pending (s : State) (i : Nat) (x : Lane) : (s.setLane i x).pending = s.pending := rfl
@[simp] theorem State.setLane_mode (s : State) (i : Nat) (x : Lane) : (s.setLane i x).mode = s.mode := rfl
@[simp] theorem State.setLane_bank (s : State) (i : Nat) (x : Lane) : (s.setLane i x).bank = s.bank := rfl
@[simp] theorem State.setLane_heldWrites (s : State) (i : Nat) (x : Lane) : (s.setLane i x).heldWrites = s.heldWrites := rfl
@[simp] theorem State.setLane_shadows (s : State) (i : Nat) (x : Lane) : (s.setLane i x).shadows = s.shadows := rfl
@[simp] theorem State.setLane_carrier (s : State) (i : Nat) (x : Lane) : (s.setLane i x).carrier = s.carrier := rfl
@[simp] theorem State.setLane_standby (s : State) (i : Nat) (x : Lane) : (s.setLane i x).standby = s.standby := rfl
@[simp] theorem State.setLane_fixed (s : State) (i : Nat) (x : Lane) : (s.setLane i x).fixed = s.fixed := rfl
@[simp] theorem State.setLane_start (s : State) (i : Nat) (x : Lane) : (s.setLane i x).start = s.start := rfl
@[simp] theorem State.setLane_claim (s : State) (i : Nat) (x : Lane) : (s.setLane i x).claim = s.claim := rfl
@[simp] theorem State.setLane_pair (s : State) (i : Nat) (x : Lane) : (s.setLane i x).pair = s.pair := rfl
@[simp] theorem State.setLane_tasks (s : State) (i : Nat) (x : Lane) : (s.setLane i x).tasks = s.tasks := rfl
@[simp] theorem State.setLane_ctl (s : State) (i : Nat) (x : Lane) : (s.setLane i x).ctl = s.ctl := rfl
@[simp] theorem State.setLane_jrn (s : State) (i : Nat) (x : Lane) : (s.setLane i x).jrn = s.jrn := rfl
@[simp] theorem State.setLane_exch (s : State) (i : Nat) (x : Lane) : (s.setLane i x).exch = s.exch := rfl
@[simp] theorem State.setLane_mram (s : State) (i : Nat) (x : Lane) : (s.setLane i x).mram = s.mram := rfl
@[simp] theorem State.setLane_sbox (s : State) (i : Nat) (x : Lane) : (s.setLane i x).sbox = s.sbox := rfl
@[simp] theorem State.setLane_chans (s : State) (i : Nat) (x : Lane) : (s.setLane i x).chans = s.chans := rfl
@[simp] theorem State.setLane_conv (s : State) (i : Nat) (x : Lane) : (s.setLane i x).conv = s.conv := rfl
@[simp] theorem State.setLane_acq (s : State) (i : Nat) (x : Lane) : (s.setLane i x).acq = s.acq := rfl
@[simp] theorem State.setLane_time (s : State) (i : Nat) (x : Lane) : (s.setLane i x).time = s.time := rfl
@[simp] theorem State.setLane_net (s : State) (i : Nat) (x : Lane) : (s.setLane i x).net = s.net := rfl
@[simp] theorem State.setLane_can0 (s : State) (i : Nat) (x : Lane) : (s.setLane i x).can0 = s.can0 := rfl
@[simp] theorem State.setLane_can1 (s : State) (i : Nat) (x : Lane) : (s.setLane i x).can1 = s.can1 := rfl
@[simp] theorem State.setLane_mpu (s : State) (i : Nat) (x : Lane) : (s.setLane i x).mpu = s.mpu := rfl
@[simp] theorem State.setLane_upd (s : State) (i : Nat) (x : Lane) : (s.setLane i x).upd = s.upd := rfl
@[simp] theorem State.setLane_panel (s : State) (i : Nat) (x : Lane) : (s.setLane i x).panel = s.panel := rfl
@[simp] theorem State.setLane_mil (s : State) (i : Nat) (x : Lane) : (s.setLane i x).mil = s.mil := rfl
@[simp] theorem State.setLane_outbox (s : State) (i : Nat) (x : Lane) : (s.setLane i x).outbox = s.outbox := rfl
@[simp] theorem State.setLane_freeCount (s : State) (i : Nat) (x : Lane) : (s.setLane i x).freeCount = s.freeCount := rfl
@[simp] theorem State.setLane_lanes (s : State) (i : Nat) (x : Lane) : (s.setLane i x).lanes = Tab.put Lane.reset s.lanes i x := rfl

/-! State.setChan -/

@[simp] theorem State.setChan_pending (s : State) (i : Nat) (x : Chan) : (s.setChan i x).pending = s.pending := rfl
@[simp] theorem State.setChan_mode (s : State) (i : Nat) (x : Chan) : (s.setChan i x).mode = s.mode := rfl
@[simp] theorem State.setChan_bank (s : State) (i : Nat) (x : Chan) : (s.setChan i x).bank = s.bank := rfl
@[simp] theorem State.setChan_heldWrites (s : State) (i : Nat) (x : Chan) : (s.setChan i x).heldWrites = s.heldWrites := rfl
@[simp] theorem State.setChan_shadows (s : State) (i : Nat) (x : Chan) : (s.setChan i x).shadows = s.shadows := rfl
@[simp] theorem State.setChan_carrier (s : State) (i : Nat) (x : Chan) : (s.setChan i x).carrier = s.carrier := rfl
@[simp] theorem State.setChan_standby (s : State) (i : Nat) (x : Chan) : (s.setChan i x).standby = s.standby := rfl
@[simp] theorem State.setChan_fixed (s : State) (i : Nat) (x : Chan) : (s.setChan i x).fixed = s.fixed := rfl
@[simp] theorem State.setChan_start (s : State) (i : Nat) (x : Chan) : (s.setChan i x).start = s.start := rfl
@[simp] theorem State.setChan_claim (s : State) (i : Nat) (x : Chan) : (s.setChan i x).claim = s.claim := rfl
@[simp] theorem State.setChan_pair (s : State) (i : Nat) (x : Chan) : (s.setChan i x).pair = s.pair := rfl
@[simp] theorem State.setChan_tasks (s : State) (i : Nat) (x : Chan) : (s.setChan i x).tasks = s.tasks := rfl
@[simp] theorem State.setChan_lanes (s : State) (i : Nat) (x : Chan) : (s.setChan i x).lanes = s.lanes := rfl
@[simp] theorem State.setChan_ctl (s : State) (i : Nat) (x : Chan) : (s.setChan i x).ctl = s.ctl := rfl
@[simp] theorem State.setChan_jrn (s : State) (i : Nat) (x : Chan) : (s.setChan i x).jrn = s.jrn := rfl
@[simp] theorem State.setChan_exch (s : State) (i : Nat) (x : Chan) : (s.setChan i x).exch = s.exch := rfl
@[simp] theorem State.setChan_mram (s : State) (i : Nat) (x : Chan) : (s.setChan i x).mram = s.mram := rfl
@[simp] theorem State.setChan_sbox (s : State) (i : Nat) (x : Chan) : (s.setChan i x).sbox = s.sbox := rfl
@[simp] theorem State.setChan_conv (s : State) (i : Nat) (x : Chan) : (s.setChan i x).conv = s.conv := rfl
@[simp] theorem State.setChan_acq (s : State) (i : Nat) (x : Chan) : (s.setChan i x).acq = s.acq := rfl
@[simp] theorem State.setChan_time (s : State) (i : Nat) (x : Chan) : (s.setChan i x).time = s.time := rfl
@[simp] theorem State.setChan_net (s : State) (i : Nat) (x : Chan) : (s.setChan i x).net = s.net := rfl
@[simp] theorem State.setChan_can0 (s : State) (i : Nat) (x : Chan) : (s.setChan i x).can0 = s.can0 := rfl
@[simp] theorem State.setChan_can1 (s : State) (i : Nat) (x : Chan) : (s.setChan i x).can1 = s.can1 := rfl
@[simp] theorem State.setChan_mpu (s : State) (i : Nat) (x : Chan) : (s.setChan i x).mpu = s.mpu := rfl
@[simp] theorem State.setChan_upd (s : State) (i : Nat) (x : Chan) : (s.setChan i x).upd = s.upd := rfl
@[simp] theorem State.setChan_panel (s : State) (i : Nat) (x : Chan) : (s.setChan i x).panel = s.panel := rfl
@[simp] theorem State.setChan_mil (s : State) (i : Nat) (x : Chan) : (s.setChan i x).mil = s.mil := rfl
@[simp] theorem State.setChan_outbox (s : State) (i : Nat) (x : Chan) : (s.setChan i x).outbox = s.outbox := rfl
@[simp] theorem State.setChan_freeCount (s : State) (i : Nat) (x : Chan) : (s.setChan i x).freeCount = s.freeCount := rfl
@[simp] theorem State.setChan_chans (s : State) (i : Nat) (x : Chan) : (s.setChan i x).chans = Tab.put Chan.reset s.chans i x := rfl

/-! State.free -/

@[simp] theorem State.free_pending (s : State) : s.free.2.pending = s.pending := rfl
@[simp] theorem State.free_mode (s : State) : s.free.2.mode = s.mode := rfl
@[simp] theorem State.free_bank (s : State) : s.free.2.bank = s.bank := rfl
@[simp] theorem State.free_heldWrites (s : State) : s.free.2.heldWrites = s.heldWrites := rfl
@[simp] theorem State.free_shadows (s : State) : s.free.2.shadows = s.shadows := rfl
@[simp] theorem State.free_carrier (s : State) : s.free.2.carrier = s.carrier := rfl
@[simp] theorem State.free_standby (s : State) : s.free.2.standby = s.standby := rfl
@[simp] theorem State.free_fixed (s : State) : s.free.2.fixed = s.fixed := rfl
@[simp] theorem State.free_start (s : State) : s.free.2.start = s.start := rfl
@[simp] theorem State.free_claim (s : State) : s.free.2.claim = s.claim := rfl
@[simp] theorem State.free_pair (s : State) : s.free.2.pair = s.pair := rfl
@[simp] theorem State.free_tasks (s : State) : s.free.2.tasks = s.tasks := rfl
@[simp] theorem State.free_lanes (s : State) : s.free.2.lanes = s.lanes := rfl
@[simp] theorem State.free_ctl (s : State) : s.free.2.ctl = s.ctl := rfl
@[simp] theorem State.free_jrn (s : State) : s.free.2.jrn = s.jrn := rfl
@[simp] theorem State.free_exch (s : State) : s.free.2.exch = s.exch := rfl
@[simp] theorem State.free_mram (s : State) : s.free.2.mram = s.mram := rfl
@[simp] theorem State.free_sbox (s : State) : s.free.2.sbox = s.sbox := rfl
@[simp] theorem State.free_chans (s : State) : s.free.2.chans = s.chans := rfl
@[simp] theorem State.free_conv (s : State) : s.free.2.conv = s.conv := rfl
@[simp] theorem State.free_acq (s : State) : s.free.2.acq = s.acq := rfl
@[simp] theorem State.free_time (s : State) : s.free.2.time = s.time := rfl
@[simp] theorem State.free_net (s : State) : s.free.2.net = s.net := rfl
@[simp] theorem State.free_can0 (s : State) : s.free.2.can0 = s.can0 := rfl
@[simp] theorem State.free_can1 (s : State) : s.free.2.can1 = s.can1 := rfl
@[simp] theorem State.free_mpu (s : State) : s.free.2.mpu = s.mpu := rfl
@[simp] theorem State.free_upd (s : State) : s.free.2.upd = s.upd := rfl
@[simp] theorem State.free_panel (s : State) : s.free.2.panel = s.panel := rfl
@[simp] theorem State.free_mil (s : State) : s.free.2.mil = s.mil := rfl
@[simp] theorem State.free_outbox (s : State) : s.free.2.outbox = s.outbox := rfl
@[simp] theorem State.free_freeCount (s : State) : s.free.2.freeCount = s.freeCount + 1 := rfl

/-! State.choice -/

@[simp] theorem State.choice_pending (s : State) : s.choice.2.pending = s.pending := rfl
@[simp] theorem State.choice_mode (s : State) : s.choice.2.mode = s.mode := rfl
@[simp] theorem State.choice_bank (s : State) : s.choice.2.bank = s.bank := rfl
@[simp] theorem State.choice_heldWrites (s : State) : s.choice.2.heldWrites = s.heldWrites := rfl
@[simp] theorem State.choice_shadows (s : State) : s.choice.2.shadows = s.shadows := rfl
@[simp] theorem State.choice_carrier (s : State) : s.choice.2.carrier = s.carrier := rfl
@[simp] theorem State.choice_standby (s : State) : s.choice.2.standby = s.standby := rfl
@[simp] theorem State.choice_fixed (s : State) : s.choice.2.fixed = s.fixed := rfl
@[simp] theorem State.choice_start (s : State) : s.choice.2.start = s.start := rfl
@[simp] theorem State.choice_claim (s : State) : s.choice.2.claim = s.claim := rfl
@[simp] theorem State.choice_pair (s : State) : s.choice.2.pair = s.pair := rfl
@[simp] theorem State.choice_tasks (s : State) : s.choice.2.tasks = s.tasks := rfl
@[simp] theorem State.choice_lanes (s : State) : s.choice.2.lanes = s.lanes := rfl
@[simp] theorem State.choice_ctl (s : State) : s.choice.2.ctl = s.ctl := rfl
@[simp] theorem State.choice_jrn (s : State) : s.choice.2.jrn = s.jrn := rfl
@[simp] theorem State.choice_exch (s : State) : s.choice.2.exch = s.exch := rfl
@[simp] theorem State.choice_mram (s : State) : s.choice.2.mram = s.mram := rfl
@[simp] theorem State.choice_sbox (s : State) : s.choice.2.sbox = s.sbox := rfl
@[simp] theorem State.choice_chans (s : State) : s.choice.2.chans = s.chans := rfl
@[simp] theorem State.choice_conv (s : State) : s.choice.2.conv = s.conv := rfl
@[simp] theorem State.choice_acq (s : State) : s.choice.2.acq = s.acq := rfl
@[simp] theorem State.choice_time (s : State) : s.choice.2.time = s.time := rfl
@[simp] theorem State.choice_net (s : State) : s.choice.2.net = s.net := rfl
@[simp] theorem State.choice_can0 (s : State) : s.choice.2.can0 = s.can0 := rfl
@[simp] theorem State.choice_can1 (s : State) : s.choice.2.can1 = s.can1 := rfl
@[simp] theorem State.choice_mpu (s : State) : s.choice.2.mpu = s.mpu := rfl
@[simp] theorem State.choice_upd (s : State) : s.choice.2.upd = s.upd := rfl
@[simp] theorem State.choice_panel (s : State) : s.choice.2.panel = s.panel := rfl
@[simp] theorem State.choice_mil (s : State) : s.choice.2.mil = s.mil := rfl
@[simp] theorem State.choice_outbox (s : State) : s.choice.2.outbox = s.outbox := rfl
@[simp] theorem State.choice_freeCount (s : State) : s.choice.2.freeCount = s.freeCount + 1 := rfl

/-! labelRequest -/

@[simp] theorem labelRequest_pending (s : State) : (labelRequest s).pending = s.pending := rfl
@[simp] theorem labelRequest_mode (s : State) : (labelRequest s).mode = s.mode := rfl
@[simp] theorem labelRequest_bank (s : State) : (labelRequest s).bank = s.bank := rfl
@[simp] theorem labelRequest_heldWrites (s : State) : (labelRequest s).heldWrites = s.heldWrites := rfl
@[simp] theorem labelRequest_shadows (s : State) : (labelRequest s).shadows = s.shadows := rfl
@[simp] theorem labelRequest_carrier (s : State) : (labelRequest s).carrier = s.carrier := rfl
@[simp] theorem labelRequest_standby (s : State) : (labelRequest s).standby = s.standby := rfl
@[simp] theorem labelRequest_fixed (s : State) : (labelRequest s).fixed = s.fixed := rfl
@[simp] theorem labelRequest_start (s : State) : (labelRequest s).start = s.start := rfl
@[simp] theorem labelRequest_claim (s : State) : (labelRequest s).claim = s.claim := rfl
@[simp] theorem labelRequest_pair (s : State) : (labelRequest s).pair = s.pair := rfl
@[simp] theorem labelRequest_tasks (s : State) : (labelRequest s).tasks = s.tasks := rfl
@[simp] theorem labelRequest_lanes (s : State) : (labelRequest s).lanes = s.lanes := rfl
@[simp] theorem labelRequest_ctl (s : State) : (labelRequest s).ctl = s.ctl := rfl
@[simp] theorem labelRequest_jrn (s : State) : (labelRequest s).jrn = s.jrn := rfl
@[simp] theorem labelRequest_exch (s : State) : (labelRequest s).exch = s.exch := rfl
@[simp] theorem labelRequest_mram (s : State) : (labelRequest s).mram = s.mram := rfl
@[simp] theorem labelRequest_sbox (s : State) : (labelRequest s).sbox = s.sbox := rfl
@[simp] theorem labelRequest_chans (s : State) : (labelRequest s).chans = s.chans := rfl
@[simp] theorem labelRequest_conv (s : State) : (labelRequest s).conv = s.conv := rfl
@[simp] theorem labelRequest_acq (s : State) : (labelRequest s).acq = s.acq := rfl
@[simp] theorem labelRequest_time (s : State) : (labelRequest s).time = s.time := rfl
@[simp] theorem labelRequest_net (s : State) : (labelRequest s).net = s.net := rfl
@[simp] theorem labelRequest_can0 (s : State) : (labelRequest s).can0 = s.can0 := rfl
@[simp] theorem labelRequest_can1 (s : State) : (labelRequest s).can1 = s.can1 := rfl
@[simp] theorem labelRequest_mpu (s : State) : (labelRequest s).mpu = s.mpu := rfl
@[simp] theorem labelRequest_upd (s : State) : (labelRequest s).upd = s.upd := rfl
@[simp] theorem labelRequest_mil (s : State) : (labelRequest s).mil = s.mil := rfl
@[simp] theorem labelRequest_outbox (s : State) : (labelRequest s).outbox = s.outbox := rfl
@[simp] theorem labelRequest_freeCount (s : State) : (labelRequest s).freeCount = s.freeCount := rfl

/-! State.raise and State.raiseIf -/

theorem State.raise_keeps (s : State) (e : EvBit) : KeepsBut [.bank, .net, .outbox] s (s.raise e) :=
  (State_raise_moves e (fun _ h => h) (Moves.refl _ s)).keeps

theorem State.raiseIf_keeps (s : State) (c : Bool) (e : EvBit) : KeepsBut [.bank, .net, .outbox] s (s.raiseIf c e) :=
  (State_raiseIf_moves c e (fun _ h => h) (Moves.refl _ s)).keeps

@[simp] theorem State.raise_pending (s : State) (e : EvBit) : (s.raise e).pending = s.pending := (State.raise_keeps s e .pending (by decide) : s.pending = _).symm
@[simp] theorem State.raise_mode (s : State) (e : EvBit) : (s.raise e).mode = s.mode := (State.raise_keeps s e .mode (by decide) : s.mode = _).symm
@[simp] theorem State.raise_heldWrites (s : State) (e : EvBit) : (s.raise e).heldWrites = s.heldWrites := (State.raise_keeps s e .heldWrites (by decide) : s.heldWrites = _).symm
@[simp] theorem State.raise_shadows (s : State) (e : EvBit) : (s.raise e).shadows = s.shadows := (State.raise_keeps s e .shadows (by decide) : s.shadows = _).symm
@[simp] theorem State.raise_carrier (s : State) (e : EvBit) : (s.raise e).carrier = s.carrier := (State.raise_keeps s e .carrier (by decide) : s.carrier = _).symm
@[simp] theorem State.raise_standby (s : State) (e : EvBit) : (s.raise e).standby = s.standby := (State.raise_keeps s e .standby (by decide) : s.standby = _).symm
@[simp] theorem State.raise_fixed (s : State) (e : EvBit) : (s.raise e).fixed = s.fixed := (State.raise_keeps s e .fixed (by decide) : s.fixed = _).symm
@[simp] theorem State.raise_start (s : State) (e : EvBit) : (s.raise e).start = s.start := (State.raise_keeps s e .start (by decide) : s.start = _).symm
@[simp] theorem State.raise_claim (s : State) (e : EvBit) : (s.raise e).claim = s.claim := (State.raise_keeps s e .claim (by decide) : s.claim = _).symm
@[simp] theorem State.raise_pair (s : State) (e : EvBit) : (s.raise e).pair = s.pair := (State.raise_keeps s e .pair (by decide) : s.pair = _).symm
@[simp] theorem State.raise_tasks (s : State) (e : EvBit) : (s.raise e).tasks = s.tasks := (State.raise_keeps s e .tasks (by decide) : s.tasks = _).symm
@[simp] theorem State.raise_lanes (s : State) (e : EvBit) : (s.raise e).lanes = s.lanes := (State.raise_keeps s e .lanes (by decide) : s.lanes = _).symm
@[simp] theorem State.raise_ctl (s : State) (e : EvBit) : (s.raise e).ctl = s.ctl := (State.raise_keeps s e .ctl (by decide) : s.ctl = _).symm
@[simp] theorem State.raise_jrn (s : State) (e : EvBit) : (s.raise e).jrn = s.jrn := (State.raise_keeps s e .jrn (by decide) : s.jrn = _).symm
@[simp] theorem State.raise_exch (s : State) (e : EvBit) : (s.raise e).exch = s.exch := (State.raise_keeps s e .exch (by decide) : s.exch = _).symm
@[simp] theorem State.raise_mram (s : State) (e : EvBit) : (s.raise e).mram = s.mram := (State.raise_keeps s e .mram (by decide) : s.mram = _).symm
@[simp] theorem State.raise_sbox (s : State) (e : EvBit) : (s.raise e).sbox = s.sbox := (State.raise_keeps s e .sbox (by decide) : s.sbox = _).symm
@[simp] theorem State.raise_chans (s : State) (e : EvBit) : (s.raise e).chans = s.chans := (State.raise_keeps s e .chans (by decide) : s.chans = _).symm
@[simp] theorem State.raise_conv (s : State) (e : EvBit) : (s.raise e).conv = s.conv := (State.raise_keeps s e .conv (by decide) : s.conv = _).symm
@[simp] theorem State.raise_acq (s : State) (e : EvBit) : (s.raise e).acq = s.acq := (State.raise_keeps s e .acq (by decide) : s.acq = _).symm
@[simp] theorem State.raise_time (s : State) (e : EvBit) : (s.raise e).time = s.time := (State.raise_keeps s e .time (by decide) : s.time = _).symm
@[simp] theorem State.raise_can0 (s : State) (e : EvBit) : (s.raise e).can0 = s.can0 := (State.raise_keeps s e .can0 (by decide) : s.can0 = _).symm
@[simp] theorem State.raise_can1 (s : State) (e : EvBit) : (s.raise e).can1 = s.can1 := (State.raise_keeps s e .can1 (by decide) : s.can1 = _).symm
@[simp] theorem State.raise_mpu (s : State) (e : EvBit) : (s.raise e).mpu = s.mpu := (State.raise_keeps s e .mpu (by decide) : s.mpu = _).symm
@[simp] theorem State.raise_upd (s : State) (e : EvBit) : (s.raise e).upd = s.upd := (State.raise_keeps s e .upd (by decide) : s.upd = _).symm
@[simp] theorem State.raise_panel (s : State) (e : EvBit) : (s.raise e).panel = s.panel := (State.raise_keeps s e .panel (by decide) : s.panel = _).symm
@[simp] theorem State.raise_mil (s : State) (e : EvBit) : (s.raise e).mil = s.mil := (State.raise_keeps s e .mil (by decide) : s.mil = _).symm
@[simp] theorem State.raise_freeCount (s : State) (e : EvBit) : (s.raise e).freeCount = s.freeCount := (State.raise_keeps s e .freeCount (by decide) : s.freeCount = _).symm

@[simp] theorem State.raiseIf_pending (s : State) (c : Bool) (e : EvBit) : (s.raiseIf c e).pending = s.pending := (State.raiseIf_keeps s c e .pending (by decide) : s.pending = _).symm
@[simp] theorem State.raiseIf_mode (s : State) (c : Bool) (e : EvBit) : (s.raiseIf c e).mode = s.mode := (State.raiseIf_keeps s c e .mode (by decide) : s.mode = _).symm
@[simp] theorem State.raiseIf_heldWrites (s : State) (c : Bool) (e : EvBit) : (s.raiseIf c e).heldWrites = s.heldWrites := (State.raiseIf_keeps s c e .heldWrites (by decide) : s.heldWrites = _).symm
@[simp] theorem State.raiseIf_shadows (s : State) (c : Bool) (e : EvBit) : (s.raiseIf c e).shadows = s.shadows := (State.raiseIf_keeps s c e .shadows (by decide) : s.shadows = _).symm
@[simp] theorem State.raiseIf_carrier (s : State) (c : Bool) (e : EvBit) : (s.raiseIf c e).carrier = s.carrier := (State.raiseIf_keeps s c e .carrier (by decide) : s.carrier = _).symm
@[simp] theorem State.raiseIf_standby (s : State) (c : Bool) (e : EvBit) : (s.raiseIf c e).standby = s.standby := (State.raiseIf_keeps s c e .standby (by decide) : s.standby = _).symm
@[simp] theorem State.raiseIf_fixed (s : State) (c : Bool) (e : EvBit) : (s.raiseIf c e).fixed = s.fixed := (State.raiseIf_keeps s c e .fixed (by decide) : s.fixed = _).symm
@[simp] theorem State.raiseIf_start (s : State) (c : Bool) (e : EvBit) : (s.raiseIf c e).start = s.start := (State.raiseIf_keeps s c e .start (by decide) : s.start = _).symm
@[simp] theorem State.raiseIf_claim (s : State) (c : Bool) (e : EvBit) : (s.raiseIf c e).claim = s.claim := (State.raiseIf_keeps s c e .claim (by decide) : s.claim = _).symm
@[simp] theorem State.raiseIf_pair (s : State) (c : Bool) (e : EvBit) : (s.raiseIf c e).pair = s.pair := (State.raiseIf_keeps s c e .pair (by decide) : s.pair = _).symm
@[simp] theorem State.raiseIf_tasks (s : State) (c : Bool) (e : EvBit) : (s.raiseIf c e).tasks = s.tasks := (State.raiseIf_keeps s c e .tasks (by decide) : s.tasks = _).symm
@[simp] theorem State.raiseIf_lanes (s : State) (c : Bool) (e : EvBit) : (s.raiseIf c e).lanes = s.lanes := (State.raiseIf_keeps s c e .lanes (by decide) : s.lanes = _).symm
@[simp] theorem State.raiseIf_ctl (s : State) (c : Bool) (e : EvBit) : (s.raiseIf c e).ctl = s.ctl := (State.raiseIf_keeps s c e .ctl (by decide) : s.ctl = _).symm
@[simp] theorem State.raiseIf_jrn (s : State) (c : Bool) (e : EvBit) : (s.raiseIf c e).jrn = s.jrn := (State.raiseIf_keeps s c e .jrn (by decide) : s.jrn = _).symm
@[simp] theorem State.raiseIf_exch (s : State) (c : Bool) (e : EvBit) : (s.raiseIf c e).exch = s.exch := (State.raiseIf_keeps s c e .exch (by decide) : s.exch = _).symm
@[simp] theorem State.raiseIf_mram (s : State) (c : Bool) (e : EvBit) : (s.raiseIf c e).mram = s.mram := (State.raiseIf_keeps s c e .mram (by decide) : s.mram = _).symm
@[simp] theorem State.raiseIf_sbox (s : State) (c : Bool) (e : EvBit) : (s.raiseIf c e).sbox = s.sbox := (State.raiseIf_keeps s c e .sbox (by decide) : s.sbox = _).symm
@[simp] theorem State.raiseIf_chans (s : State) (c : Bool) (e : EvBit) : (s.raiseIf c e).chans = s.chans := (State.raiseIf_keeps s c e .chans (by decide) : s.chans = _).symm
@[simp] theorem State.raiseIf_conv (s : State) (c : Bool) (e : EvBit) : (s.raiseIf c e).conv = s.conv := (State.raiseIf_keeps s c e .conv (by decide) : s.conv = _).symm
@[simp] theorem State.raiseIf_acq (s : State) (c : Bool) (e : EvBit) : (s.raiseIf c e).acq = s.acq := (State.raiseIf_keeps s c e .acq (by decide) : s.acq = _).symm
@[simp] theorem State.raiseIf_time (s : State) (c : Bool) (e : EvBit) : (s.raiseIf c e).time = s.time := (State.raiseIf_keeps s c e .time (by decide) : s.time = _).symm
@[simp] theorem State.raiseIf_can0 (s : State) (c : Bool) (e : EvBit) : (s.raiseIf c e).can0 = s.can0 := (State.raiseIf_keeps s c e .can0 (by decide) : s.can0 = _).symm
@[simp] theorem State.raiseIf_can1 (s : State) (c : Bool) (e : EvBit) : (s.raiseIf c e).can1 = s.can1 := (State.raiseIf_keeps s c e .can1 (by decide) : s.can1 = _).symm
@[simp] theorem State.raiseIf_mpu (s : State) (c : Bool) (e : EvBit) : (s.raiseIf c e).mpu = s.mpu := (State.raiseIf_keeps s c e .mpu (by decide) : s.mpu = _).symm
@[simp] theorem State.raiseIf_upd (s : State) (c : Bool) (e : EvBit) : (s.raiseIf c e).upd = s.upd := (State.raiseIf_keeps s c e .upd (by decide) : s.upd = _).symm
@[simp] theorem State.raiseIf_panel (s : State) (c : Bool) (e : EvBit) : (s.raiseIf c e).panel = s.panel := (State.raiseIf_keeps s c e .panel (by decide) : s.panel = _).symm
@[simp] theorem State.raiseIf_mil (s : State) (c : Bool) (e : EvBit) : (s.raiseIf c e).mil = s.mil := (State.raiseIf_keeps s c e .mil (by decide) : s.mil = _).symm
@[simp] theorem State.raiseIf_freeCount (s : State) (c : Bool) (e : EvBit) : (s.raiseIf c e).freeCount = s.freeCount := (State.raiseIf_keeps s c e .freeCount (by decide) : s.freeCount = _).symm

theorem KeepsBut.refl (l : List Part) (s : State) : KeepsBut l s s := fun p _ => by cases p <;> rfl

theorem KeepsBut.trans {l : List Part} {s t u : State} (h : KeepsBut l s t) (k : KeepsBut l t u) : KeepsBut l s u :=
  fun p hp => Part.same_trans p (h p hp) (k p hp)

theorem KeepsBut.mono {l m : List Part} {s t : State} (h : KeepsBut l s t) (hs : ∀ p ∈ l, p ∈ m) : KeepsBut m s t :=
  fun p hp => h p (fun hq => hp (hs p hq))

/-- An event raised after other changes. -/
theorem RaisedBut.of {e : EvBit} {l : List Fld} {ps : List Part} {s x : State} (hb : e.bit < 16) (hr : RegsBut l s x)
    (hq : x.get ⟨e.addr, 16, 16⟩ = s.get ⟨e.addr, 16, 16⟩) (ho : EventsOnly s x) (hk : KeepsBut ([.bank, .net, .outbox] ++ ps) s x) :
    RaisedBut e l ps s (x.raise e) := by
  refine ⟨⟨State.raise_get_bit x hb, by rw [State.raise_get_seq, hq]⟩, ?_, ho.trans (State.raise_only x e), ?_⟩
  · exact (hr.mono (fun f hf => List.mem_append_left _ hf)).trans (RegsBut.raise x e (fun f hf => List.mem_append_right _ hf))
  · exact hk.trans ((State.raise_keeps x e).mono (fun p hp => List.mem_append_left _ hp))

/-! Tasks, lanes and channels read back. -/

@[simp] theorem State.task_setTask (s : State) (i : Nat) (x : Task) : (s.setTask i x).task i = x := Tab.getD_put_self _ _ _ _
@[simp] theorem State.lane_setLane (s : State) (i : Nat) (x : Lane) : (s.setLane i x).lane i = x := Tab.getD_put_self _ _ _ _
@[simp] theorem State.chan_setChan (s : State) (i : Nat) (x : Chan) : (s.setChan i x).chan i = x := Tab.getD_put_self _ _ _ _
theorem State.task_setTask_ne (s : State) {i j : Nat} (x : Task) (h : j ≠ i) : (s.setTask i x).task j = s.task j := Tab.getD_put_ne _ _ _ h
theorem State.lane_setLane_ne (s : State) {i j : Nat} (x : Lane) (h : j ≠ i) : (s.setLane i x).lane j = s.lane j := Tab.getD_put_ne _ _ _ h
theorem State.chan_setChan_ne (s : State) {i j : Nat} (x : Chan) (h : j ≠ i) : (s.setChan i x).chan j = s.chan j := Tab.getD_put_ne _ _ _ h

/-! Whether a task, a lane or a channel is read depends on its table alone. -/

theorem State.task_congr {s t : State} (h : t.tasks = s.tasks) (i : Nat) : t.task i = s.task i := by unfold State.task; rw [h]
theorem State.lane_congr {s t : State} (h : t.lanes = s.lanes) (i : Nat) : t.lane i = s.lane i := by unfold State.lane; rw [h]
theorem State.chan_congr {s t : State} (h : t.chans = s.chans) (i : Nat) : t.chan i = s.chan i := by unfold State.chan; rw [h]

end Sys2Proof.Machine
end

