-- ==== Sys2Proof/Tests/Slice0.lean ====
section
/-! SUPPORT. Tests of the author: ill-formed commands that WellFormed refuses, single steps on small states whose results the manual
states, and for every statement with hypotheses a state and operands that meet them. -/

namespace Sys2Proof.Tests
open Sys2Proof.Machine

set_option Elab.async false

/-! Small values of the record types. -/

/-- A key pair of P-384, the public half. -/
def keyA : Nat × Nat :=
  (0x1B4D8DF377CA0C942D82BFAFFEEC3BF7B1EF26EF8B46D227A4DA2C6E1B9FCA8B10A723569B20B03E83788C482C0E22A5,
   0xAACD41CC06C7F42EE37EC963DA5E67F91CB534099F1D1B78780AACCB5D5D29510E0BC2F48465A75652C095C0465A96C2)

/-- A certificate signed with keyA: its signed part is one byte. -/
def certA : Cert :=
  ⟨[0x61#8], keyA,
   (0x63110061E15A51190CEF8C3D91F0D705E8A3015D93BA0D39A29CF53272EF075AA258C6A1784F7F42F377DD785AC4CE37,
    0x945A7D2E02A9CCFC3E422B52C7CBE76ABE7A57D4928F4D455348CED03457EA619037A9673251B527FEB342FFF182C7DB)⟩

/-- The words of a token for serial 0 and epoch 0, signed with keyA. -/
def tokenWords : List Nat :=
  [0x0, 0x0, 0x0, 0x0, 0x8D4D1B04, 0xCCA77F3,
   0xBF822D94, 0x3BECFEAF, 0x26EFB1F7, 0xD2468BEF, 0x2CDAA427, 0xCA9F1B6E,
   0x23A7108B, 0xB0209B56, 0x8C78833E, 0x220E2C48, 0x41CDAAA5, 0xF4C706CC,
   0xC97EE32E, 0x675EDA63, 0x34B51CF9, 0x1B1D9F09, 0xAC0A7878, 0x295D5DCB,
   0xC20B0E51, 0xA76584F4, 0x95C05256, 0x965A46C0, 0xC2, 0x28772C57,
   0x5112064C, 0x34202840, 0xD53C7D3, 0x31B12716, 0x2485FCA7, 0xF59CA718,
   0x1F86B7A7, 0xDB027763, 0x8D4EDA11, 0x8520FC44, 0xFD35E060, 0x50ECC76B,
   0x2216D053, 0x414624D8, 0x77B7077E, 0x613DB009, 0x54957F90, 0x63F26AF3,
   0xA520890E, 0x66D6D357, 0x1BAC4A93, 0xE802897E, 0xA7A31D28]

/-- A firmware image of one block of zeros for region 4, signed with the key of certA; its hash-based signature is all zeros but its type codes. -/
def fwGood : FwImage :=
  { cert := certA, signingUse := true,
    bytes :=
      [0x44#8, 0x46#8, 0x57#8, 0x4D#8, 0x01#8, 0x00#8, 0x04#8, 0x03#8, 0x00#8, 0x00#8, 0x00#8, 0x01#8, 0x01#8] ++ List.replicate
      35 0#8 ++ [0x7C#8, 0x0B#8] ++ List.replicate 458 0#8 ++ [0x18#8, 0x7A#8, 0x79#8, 0x03#8] ++ List.replicate 4092 0#8 ++
      [0x6E#8, 0x58#8, 0x32#8, 0xA7#8, 0x46#8, 0x57#8, 0x53#8, 0x47#8, 0x05#8, 0x00#8, 0x00#8, 0x00#8, 0xF4#8, 0xEA#8, 0x25#8,
      0xEF#8, 0xA6#8, 0xA7#8, 0x53#8, 0x43#8, 0xB9#8, 0x0C#8, 0x55#8, 0x75#8, 0xE4#8, 0xBD#8, 0x62#8, 0x9E#8, 0x7E#8, 0x43#8,
      0xE6#8, 0x37#8, 0x15#8, 0xB3#8, 0x82#8, 0x09#8, 0x25#8, 0xFC#8, 0x2E#8, 0x66#8, 0xE0#8, 0xA3#8, 0x34#8, 0x0E#8, 0xD8#8,
      0x95#8, 0x72#8, 0xD1#8, 0xEB#8, 0x49#8, 0x94#8, 0x37#8, 0xCB#8, 0x28#8, 0x28#8, 0x5D#8, 0xC9#8, 0xAB#8, 0xE4#8, 0x00#8,
      0x99#8, 0x00#8, 0xA0#8, 0x1E#8, 0xAE#8, 0x22#8, 0xD2#8, 0xF1#8, 0x21#8, 0x6A#8, 0x3D#8, 0x37#8, 0x5C#8, 0x5B#8, 0x50#8,
      0x45#8, 0xCF#8, 0x4D#8, 0xC7#8, 0x83#8, 0x09#8, 0x14#8, 0x42#8, 0x74#8, 0x27#8, 0x74#8, 0x6A#8, 0x1D#8, 0x15#8, 0xCB#8,
      0x5B#8, 0x1F#8, 0x10#8, 0xC7#8, 0x28#8, 0xC4#8, 0x9D#8, 0xB1#8, 0x87#8, 0x88#8, 0x81#8, 0x76#8, 0x16#8, 0x62#8, 0x3D#8,
      0x2E#8, 0xA6#8, 0x54#8, 0x00#8, 0x00#8, 0x00#8, 0x00#8, 0x00#8, 0x00#8, 0x00#8, 0x03#8] ++ List.replicate 2179 0#8 ++
      [0x08#8] ++ List.replicate 640 0#8 ++ [0x68#8, 0x64#8, 0x72#8, 0x3A#8, 0x61#8, 0x00#8, 0x00#8, 0x00#8] }

def ch0 : ChanCfg :=
  { mode := .di, type3 := false, pulsed := false, interval := 0, debounce := 3, limit := 0, bipolar := false, loopPower := false,
    liveZero := false, safeKind := .deEnergise, safeOn := false, safeUa := 0, inputTag := some 0, commandTag := none,
    readbackTag := none, readbackMaTag := none, characteristic := .none, tagSourceFast := false, fastQueue := false,
    calSubstitute := none }

def tag0 : TagDecl :=
  { type := .bool, owner := 0, writer := .task 0, retentive := false, writable := true, initial := 0#64, initQuality := 0#16, enum := [],
    hasEnum := false, mgmt := false }

def task0 : TaskCfg :=
  { periodQ := 1, phaseQ := 0, budgetPct := 50, aligned := false, deliveryLimit := 8, lanes := [0], admittedPm := 100, blocks := [0, 0],
    barriers := [(1, [0])] }

def eq0 : EqCfg :=
  { terms := [⟨2, false, 0⟩], k := 1, latch := true, armed := true, pickupUs := 0, dropoutMs := 0, outCh := none, pub := none }

def svSub0 : SvSub := { dest := 1, appid := 0x4000, svId := 1, confRev := 1, entries := 1, rate := 4800, localSync := false, holdMs := 10, maps := [] }

def gooseSub0 : GooseSub := { appid := 1, gocbRef := 1, datSet := 1, confRev := 1, entries := 1, holdMs := 10, maps := [] }

def pub0 : PubCfg := { members := [], tMaxMs := 1000 }

def canMap0 : CanMap := { ident := 1, mask := 0x7FF, byteOff := 0, bitOff := 0, bitLen := 8, tag := 0, scale := 0#64, holdMs := 10 }

def def0 : DefCfg :=
  { sv := false, rate := 1, channels := [(0, 1)], tags := [], pre := 1, post := 1, extendMax := 1, reduceN := 1, reduceCount := 0,
    tagEntries := 0, segsPerRecord := 2, gapMs := 10, allotMib := 1, armed := true, name := [],
    labels := [⟨0, 0#32, 0#32, []⟩] }

def trig0 : TrigCfg := { kind := 3, source := 0, edge := 0, level := 0#32, hyst := 0#32, defMask := 1 }

def img : Image :=
  { magic := 0#32, format := 1, headerLen := 0, imageLen := 0, sectionCount := 0, projectId := 0#64, revision := 1, variant := 0, pairId := 0,
    buildTime := 0#64, sigOffset := 0, sigLen := 0, sections := [], headerCrc := 0#32, body := [], digest := 1, projectCert := certA,
    ownerCert := certA, sig := (0, 0), tasks := [(0, task0), (1, { task0 with aligned := true, lanes := [1] })], spares := 0,
    tags := [(0, tag0)], units := [], roles := [], constants := [], objects := [], equations := [(0, eq0)], trips := [], acmps := [],
    svcs := [(0, { sub := 0, chan := 0, rms := false, count := 1, threshold := 1, hyst := 0, failValue := false })], gbits := [],
    channels := [(0, ch0), (1, { ch0 with pulsed := true }), (2, { ch0 with mode := .dout }), (3, { ch0 with mode := .ao }),
      (4, { ch0 with mode := .ci, liveZero := true })],
    mains60 := false, primary := some (.channel 5), secondary := none,
    net := { hsr := false, svSubs := [(0, svSub0)], gooseSubs := [(0, gooseSub0)], pubs := [(0, pub0)], ptpDomain := 0, ptpBoundary := false,
             ptpPeer := false },
    can := [(0, { nomRate := 0, dataRate := 0, nomSp := 0, dataSp := 0, txTimeoutMs := 10, maps := [canMap0] })], defs := [(0, def0)],
    triggers := [(0, trig0), (1, { trig0 with kind := 2 })],
    policy := ⟨0, 256, 60, 10, 168, [0, 2]⟩, start := ⟨1, 10⟩ }

def key0 : SlotKey :=
  { magic := 0#32, format := 1, serial := 0#64, keyCrc := 0#32, slotCode := 0, carrierCode := 0, carrierSerial := 0#64, slotName := 0,
    slotCrc := 0#32, pairId := 0, projectId := 0#64, pairName := 0, pairCrc := 0#32, copy1 := some img, copy2 := none }

def start0 : StartInput :=
  { mod1Mv := 19200, mod2Mv := 0, fld1Mv := 24000, fld2Mv := 24000, slotB := false, split := false, key := some key0, unreadable := [],
    badLanes := [], tagStoreFault := false }

/-- A powered module with the image running, in the given state. -/
def base (m : Mode) : State :=
  { State.reset with
    mode := m,
    start := { Start.reset with running := some img, platformsUp := true, timetableLoaded := true },
    carrier := { Carrier.reset with seated := true, mod1Mv := 24000, mod2Mv := 24000, fld1Mv := 24000, fld2Mv := 24000 },
    sbox := { Sbox.reset with running := true, evalOk := [0, 1, 2], table := ⟨img.equations, [], [], img.svcs, []⟩ },
    acq := { Recorder.reset with running := true },
    lanes := [(0, { Lane.reset with task := some 0, block := some 0 })],
    net := { Net.reset with up := [.pba, .pbb, .pla, .plb, .svc] } }

/-- Confirmed and in control. -/
def act : State := { base .active with claim := { Claim.reset with drive := true, own := true, confirmed := true } }

/-- A current standby. -/
def sby : State := { base .standby with pair := { Pair.reset with copyCurrent := true } }

def off : State := State.reset

/-- The coupling is up. -/
def linked (s : State) : State := { s with pair := { s.pair with linkUp := true, rxNext := 0xFFFFFFFF, session := 5, partnerMode := some .standby } }

/-- The next frame of that KIND from the partner over that payload, and a request of that KIND on session 1. -/
def frm (kind : Nat) (m : Mode) (payload : List Byte) : LinkHdr :=
  sealFrame { kind := kind, first := true, last := true, stale := false, linkSeq := 0xFFFFFFFF, ack := 0, session := 5, state := modeCode m,
              slotB := true, task := none, chunk := 0, chunks := 1, cycle := 0, closeSeq := 0, jrnHead := 0, pairTag := 0 } payload
def hdr : LinkHdr := frm 0 .standby []
def req (kind : Nat) : Req := sealReq kind 1 1 []

def sess (p : Port) (role : ClientRole) : Session :=
  { port := p, clientId := 9, role := role, events := false, replies := [], files := [], eventSecond := 0, eventCount := 0, eventDropped := 0,
    viaPair := false, lastHeard := 0 }

/-- Session 1 open. -/
def talk (x : Session) (s : State) : State := { s with net := { s.net with sessions := [(1, x)] } }

def opr : Session := sess .pla .operator
def eng : Session := sess .plb .engineer
def srv : Session := sess .svc .service

def task (t : Task) (s : State) : State := { s with tasks := [(0, t), (1, t)] }
def lane (l : Lane) (s : State) : State := { s with lanes := [(0, l)] }
def chan (n : Nat) (c : Chan) (s : State) : State := { s with chans := [(n, c)] }
def bank (l : List (Nat × Nat)) (s : State) : State := { s with bank := l }
def clock (t : TimeBase) (s : State) : State := { s with time := t }
def recd (x : DefState) (s : State) : State := { s with acq := { s.acq with defs := [(0, x)] } }
def run0 : Lane := { Lane.reset with task := some 0, block := some 0 }
def running (s : State) : State := task { Task.reset with phase := .execute } (lane run0 s)
def rep (v : DWord) : CopyReport := ⟨[(1, v)], [], []⟩
def ck (a b : DWord) : Checkpoint :=
  { lane := 0, cause := .blockEnd, block := 0, unit := 0, copyA := rep a, copyB := rep b, effects := [], opsA := [], opsB := [], lead := 0 }
def refused : LaneOp := .access 0 1 1
def wb : Waybill :=
  { seq := 3, carried := false, origin := .plant, work := .forceReleaseAll, target := none, unpartnered := false, cont := 0, waybillSeq := 3,
    clientId := 9, clientSeq := 1, state := .localOnly, wordBad := false, acceptTime := 0#64 }
def delta0 : DeltaMsg := { task := 0, cycle := 1, closeSeq := 1, crc := deltaCrc [], count := 0, carryCrc := none, records := [] }
def hello0 : Hello :=
  { state := 2, pairId := 0, projectId := 0#64, digest := 1, revision := 1, keyRevision := 1, keyAccepted := true, anchor := none,
    cycles := [], lastClosed := none, staleCopy := false, jrnHead := 0, atStep10 := true, image := some img, keyImage := some img, timeSec := 0,
    timeNs := 0, session := 5 }
def ann : Announcement := ⟨401, [(0, 401, 1), (1, 401, 1)]⟩
def stamp0 : PortStamp := ⟨0, false, 0⟩
def fid : FrameId := ⟨.pba, 1, 1, false, stamp0⟩
def sv0 : SvFrame := { id := fid, dest := 1, appid := 0x4000, svId := 1, confRev := 1, entries := 1, asdus := [] }
def asdu0 : Asdu := ⟨0, 2, []⟩
def goose0 : GooseMsg :=
  { id := fid, appid := 1, gocbRef := 1, datSet := 1, confRev := 1, entries := 1, ndsCom := false, stNum := 1, sqNum := 0, tal := 10,
    test := false, eventTime := 0#64, members := [(1#64, 0#16)] }
def ptp0 : PtpMsg := { port := .pla, domain := 0, slave := true, stamp := stamp0, body := .sync 1 false 0 0 }
def canF : CanFrame := { ident := 0x7FF, extended := false, rtr := false, fdf := false, brs := false, esi := false, dlc := 0, data := [] }
def canReq : CanReq := { handle := 7, ident := 0x7FF, extended := false, fdf := false, brs := false, rtr := false, dlc := 0, data := [] }
def can1 (h : CanHeld) (s : State) : State := { s with can0 := { s.can0 with held := [h] } }
def held0 (started : Bool) : CanHeld := ⟨0, canReq, started, false, 0⟩
def trigE : TrigEvent := { trigger := 0, kind := 3, time := Stamp.zero }
def seg0 : Segment :=
  { trigger := trigE, raw := [], reduced := [], interval := [], rawLimit := 0, rawNeed := 0, redNeed := 0, retriggers := [], retrigCount := 0,
    extended := false, cut := false, preShort := false, tagEntries := [], tagsCut := false, stepped := false, quality := 0, errNs := 0, freeId := 0 }
def rec0 : Record :=
  { id := 1, definition := 0, openTime := Stamp.zero, digest := 1, segments := [], lost := 0, closeReason := 0, cfg := def0, table := [],
    serial := 0#64, slotB := false }
def armed0 : DefState := { DefState.reset with cfg := some def0, armed := true }
def reg0 : Region := { base := 0, size := 8, en := true, read := true, write := false, exec := false }
def unit0 : Unit36 := { Unit36.reset with regions := [(0, reg0)] }
def mpu (u : Unit36) (s : State) : State := { s with mpu := { s.mpu with units := [(32, u), (35, u)] } }
/-- Both copies of lane 0 under a set whose region 0 permits reads alone. -/
def lmpu (s : State) : State := { s with mpu := { s.mpu with units := [(0, unit0), (1, unit0)] } }
def mem0 : MemAccess := ⟨32, 0, 1, 1⟩
/-- A public key of 56 bytes under which a signature of 2,828 bytes over m verifies: the root is the one the signature leads to. -/
def lmsRoot (sig m : List Byte) : List Byte :=
  let q := beNat (sig.take 4)
  let a : LmsLeaf := ⟨zeros 16, q⟩
  let ends := ((otsDigits (otsHash a ((sig.drop 8).take 32) m)).zip (parts32 otsChains (sig.drop 40))).zipIdx.map
    (fun e => otsChain a e.2 (15 - e.1.1) e.1.1 e.1.2)
  lmsClimb (zeros 16) (2 ^ lmsHeight + q) (lmsLeafNode (zeros 16) (2 ^ lmsHeight + q) (otsPublic a ends)) (parts32 lmsHeight (sig.drop 2188))
def lmsKeyFor (sig m : List Byte) : List Byte := beBytes 4 lmsType ++ beBytes 4 otsType ++ zeros 16 ++ lmsRoot sig m

def upd (x : UpdSession) (s : State) : State := { s with upd := { s.upd with sessions := [(1, x)] } }
def fwi (r : Nat) : FwImage := FwImage.factory r
def clientA : ClientChain := ⟨some .operator, certA, certA⟩
def file (f : OpenFile) (x : Session) : Session := { x with files := [f] }
def eqs (x : EqState) (s : State) : State := { s with sbox := { s.sbox with voted := [(0, x)] } }
def pnl (p : Panel) (s : State) : State := { s with panel := p }
/-- Session 1 of the update: an image of region 4 that passes, in that state. -/
def good4 (st : Nat) (s : State) : State :=
  upd ⟨4, st, some fwGood, false, false⟩
    { s with fixed := { s.fixed with vendorKey := keyA, vendorLms := lmsKeyFor fwGood.lmsSig (hashBytes fwGood.digest) } }
def qe : QEntry := ⟨0, 0, 0, 0, 0, 0#64, 0#64, false⟩


/-- A request outside a session, an accepted handshake, a subscription, trigger 0, CAN port 0's configuration, and a token in UPD_TOKEN. -/
def req0 (kind : Nat) : Req := sealReq kind 0 1 []
def hand (h : Handshake) (s : State) : State := { s with net := { s.net with handshakes := [h] } }
def subd (y : Subscription) (s : State) : State := { s with net := { s.net with subs := [(4, y)] } }
def trg (c : TrigCfg) (s : State) : State := { s with start := { s.start with running := some { img with triggers := [(0, c)] } } }
def can0cfg : CanCfg := { nomRate := 0, dataRate := 0, nomSp := 0, dataSp := 0, txTimeoutMs := 10, maps := [canMap0] }
def tokened (s : State) : State :=
  { s with mram := { s.mram with anchor := some (keyHash keyA) },
           bank := tokenWords.zipIdx.map (fun e => ((Reg.UPD_TOKEN_Wn_WORD e.2).addr * 32, e.1)) }

/-! An image passes R455's checks when each holds; the signature scheme's root is the one the signature leads to. -/

theorem leBytes_length : ∀ n v, (leBytes n v).length = n
  | 0, _ => rfl
  | n + 1, _ => congrArg (· + 1) (leBytes_length n _)

theorem sha256Bytes_length (l : List Byte) : (sha256Bytes l).length = 32 := by
  unfold sha256Bytes beBytes
  rw [List.length_reverse, leBytes_length]

theorem lmsClimb_length (id : List Byte) : ∀ (p : List (List Byte)) (n : Nat) (x : List Byte), x.length = 32 → (lmsClimb id n x p).length = 32
  | [], _, _, h => h
  | _ :: t, n, x, _ => by
    unfold lmsClimb
    exact lmsClimb_length id t _ _ (by split <;> exact sha256Bytes_length _)

theorem lmsRoot_length (sig m : List Byte) : (lmsRoot sig m).length = 32 := lmsClimb_length _ _ _ _ (sha256Bytes_length _)

theorem lmsKeyFor_verifies (sig m : List Byte) (hl : sig.length = 2828) (ho : beNat ((sig.drop 4).take 4) = otsType)
    (ht : beNat ((sig.drop 2184).take 4) = lmsType) (hq : beNat (sig.take 4) < 2 ^ lmsHeight) : lmsVerify (lmsKeyFor sig m) m sig = true := by
  have h24 : (beBytes 4 lmsType ++ beBytes 4 otsType ++ zeros 16).length = 24 := rfl
  have hk : (lmsKeyFor sig m).length = 56 := by unfold lmsKeyFor; rw [List.length_append, h24, lmsRoot_length]
  have hd : (lmsKeyFor sig m).drop 24 = lmsRoot sig m := by unfold lmsKeyFor; rw [← h24, List.drop_left]
  have hi : ((lmsKeyFor sig m).drop 8).take 16 = zeros 16 := rfl
  have h1 : beNat ((lmsKeyFor sig m).take 4) = lmsType := rfl
  have h2 : beNat (((lmsKeyFor sig m).drop 4).take 4) = otsType := rfl
  unfold lmsVerify
  simp only [hk, hl, hd, hi, h1, h2, ho, ht, hq, decide_true, Bool.and_true]
  exact decide_eq_true rfl

theorem fwGood_lms : lmsVerify (lmsKeyFor fwGood.lmsSig (hashBytes fwGood.digest)) (hashBytes fwGood.digest) fwGood.lmsSig = true :=
  lmsKeyFor_verifies _ _ (by decide +kernel) (by decide +kernel) (by decide +kernel) (by decide +kernel)

theorem checkFw_passes (s : State) (r : Nat) (f : FwImage) (h1 : f.headerOk r (fun k => (structRegion k).any (fun q => decide (q ≠ r))) = true)
    (h2 : ¬ slotBytes r < f.bytes.length) (h3 : ¬ f.variants / (if s.fixed.variantF then 2 else 1) % 2 = 0) (h4 : ¬ s.fwVersion 0 < f.minLoader)
    (h5 : ¬ f.rollback < (s.fwRegion r).rollbackMin) (h6 : f.blocksOk = true) (h7 : f.formats.any (fun e => (structRegion e.1).isNone) = false)
    (h8 : (certOk s.fixed.vendorKey f.cert && f.signingUse && f.certSpelled && ecdsaVerify f.cert.key f.digest f.ecdsaSig) = true)
    (h9 : lmsVerify s.fixed.vendorLms (hashBytes f.digest) f.lmsSig = true) : s.checkFw r false f = 0 := by
  unfold State.checkFw
  simp only [h1, h2, h3, h4, h5, h6, h7, h8, h9, Bool.not_true, Bool.false_or, Bool.false_eq_true, if_false]

/-! A check value over thousands of bytes, computed with its running value evaluated at every byte. -/

def crcGo (c : Nat) : List Byte → Nat
  | [] => c
  | b :: t => match (crcByte (BitVec.ofNat 32 c) b).toNat with
    | 0 => crcGo 0 t
    | n + 1 => crcGo (n + 1) t

theorem crcGo_eq : ∀ (l : List Byte) (c : Word), crcGo c.toNat l = (l.foldl crcByte c).toNat
  | [], _ => rfl
  | b :: t, c => by
    unfold crcGo
    rw [BitVec.ofNat_toNat, BitVec.setWidth_eq, List.foldl_cons, ← crcGo_eq t]
    split <;> rename_i h <;> rw [h]

theorem crc32c_eq (l : List Byte) : crc32c l = BitVec.ofNat 32 (crcGo 0xFFFFFFFF l) ^^^ 0xFFFFFFFF#32 := by
  have h : BitVec.ofNat 32 (crcGo (0xFFFFFFFF#32).toNat l) = l.foldl crcByte 0xFFFFFFFF#32 := by
    rw [crcGo_eq, BitVec.ofNat_toNat, BitVec.setWidth_eq]
  exact congrArg (· ^^^ 0xFFFFFFFF#32) h.symm

set_option maxRecDepth 100000 in
theorem fwGood_blocks : fwGood.blocksOk = true := by
  have hb : fwGood.blocks = 1 := by decide +kernel
  have hl : ((fwGood.bytes.drop 512).take 4096).length = 4096 := by decide +kernel
  have hc : crc32c (((fwGood.bytes.drop 512).take 4096).take 4092) = BitVec.ofNat 32 (leNat (((fwGood.bytes.drop 512).take 4096).drop 4092)) := by
    rw [crc32c_eq]; decide +kernel
  unfold FwImage.blocksOk
  rw [hb]
  simp only [List.range_one, List.all_cons, List.all_nil, Bool.and_true, Nat.mul_zero, Nat.add_zero, hl, hc, decide_true]

theorem fwGood_signed : (certOk keyA fwGood.cert && fwGood.signingUse && fwGood.certSpelled && ecdsaVerify fwGood.cert.key fwGood.digest fwGood.ecdsaSig)
    = true := by decide +kernel

set_option maxRecDepth 100000 in
theorem good4_passes (st : Nat) (s : State) (hv : s.fixed.variantF = true) (hr : s.upd.regions = Update.reset.regions) :
    (good4 st s).checkSiding ((good4 st s).updSession 1) false = 0 := by
  have h4 : (good4 st s).fwVersion 0 = act.fwVersion 0 := by
    unfold State.fwVersion State.fwRegion good4 upd; simp only [hr]; rfl
  have h5 : ((good4 st s).fwRegion 4).rollbackMin = 0 := by
    unfold State.fwRegion good4 upd; simp only [hr]; rfl
  have h3 : (good4 st s).fixed.variantF = true := hv
  exact checkFw_passes (good4 st s) 4 fwGood (by decide +kernel) (by decide +kernel) (by rw [h3]; decide +kernel) (by rw [h4]; decide +kernel)
    (by rw [h5]; exact Nat.not_lt_zero _) fwGood_blocks (by decide +kernel) fwGood_signed fwGood_lms

/-! Ill-formed commands, one for each check of WellFormed. -/

def big : Nat := 2 ^ 200 * 2 ^ 200
def badO : Origin := .lane 16
def rq : Req := req 0x10
def badReqs : List Req :=
  [{ rq with version := 256 }, { rq with kind := 256 }, { rq with session := 2 ^ 32 }, { rq with reqId := 2 ^ 32 }, { rq with reply := 65536 },
   { rq with detail := 65536 }, { rq with payload := List.replicate 1153 0#8 }]
def withHdr (h : FrameHdr) : LinkHdr := { hdr with hdr := h }
def badHdrs : List LinkHdr :=
  [{ hdr.hdr with kind := 256 }, { hdr.hdr with linkSeq := 2 ^ 32 }, { hdr.hdr with ack := 2 ^ 32 }, { hdr.hdr with session := 2 ^ 32 },
   { hdr.hdr with state := 256 }, { hdr.hdr with task := some 256 }, { hdr.hdr with chunk := 65536 }, { hdr.hdr with chunks := 65536 },
   { hdr.hdr with cycle := 2 ^ 64 }, { hdr.hdr with closeSeq := 2 ^ 64 }, { hdr.hdr with jrnHead := 2 ^ 64 },
   { hdr.hdr with pairTag := 2 ^ 64 }].map withHdr ++ [{ hdr with payload := List.replicate 4097 0#8 }]
def badHellos : List Hello :=
  [{ hello0 with state := 256 }, { hello0 with pairId := 2 ^ 128 }, { hello0 with digest := big }, { hello0 with revision := 2 ^ 32 },
   { hello0 with jrnHead := 2 ^ 64 }, { hello0 with session := 2 ^ 32 }, { hello0 with cycles := [(8, 0)] }, { hello0 with cycles := [(0, 2 ^ 64)] }]
def badSites : List MramSite :=
  [.slot 524288, .stateWord 524288, .mark 8 0, .mark 0 8192, .snapshot 2, .powerLoss 16, .checkpoint 16, .fault 64, .oscillator 2, .mileage 2,
   .coefficient 2, .firmware 7 0, .firmware 0 2, .activation 7, .siding 2, .chain 2]
def badStarts : List StartInput :=
  [{ start0 with mod1Mv := 65536 }, { start0 with mod2Mv := 65536 }, { start0 with fld1Mv := 65536 }, { start0 with fld2Mv := 65536 },
   { start0 with unreadable := [.snapshot 2] }, { start0 with badLanes := [16] }]
def badWorks : List Work :=
  [.tagWrite (2 ^ 32) .bool true 0#16 0#64, .forceSet (2 ^ 32) .bool true 0#16 0#64, .forceRelease (2 ^ 32), .unitMessage (2 ^ 32) 0 0 true [],
   .unitMessage 0 (2 ^ 32) 0 true [], .unitMessage 0 0 65536 true [], .unitMessage 0 0 0 true (List.replicate 65 0#8), .roleAssign (2 ^ 32) 0,
   .roleAssign 0 65536, .constantChange big 0 [], .constantChange 0 256 [], .constantChange 0 0 [(2 ^ 32, 0#64)],
   .exchangeRequest big false false false, .exchangeAbandon big, .restart 3 true]
def badReqsCan : List CanReq :=
  [{ canReq with handle := 65536 }, { canReq with ident := 2048 }, { canReq with extended := true, ident := 2 ^ 29 }, { canReq with dlc := 16 },
   { canReq with data := List.replicate 65 0#8 }]
def badStores : List Store :=
  [.tag (2 ^ 20) .bool 0#16 0#64 false, .message (2 ^ 32) 0 0 0 true [], .message 0 (2 ^ 32) 0 0 true [], .message 0 0 (2 ^ 32) 0 true [],
   .message 0 0 0 65536 true [], .message 0 0 0 0 true (List.replicate 65 0#8), .role (2 ^ 32) 0, .role 0 65536, .post (2 ^ 32) .roleExchange,
   .reg (2 ^ 21) 0#32, .canSend 2 canReq, .canCancel 2 0, .canCancel 0 65536]
def ck0 : Checkpoint := ck 0#64 0#64
def badReport : CopyReport := ⟨[], [(0, 256, 0#64)], []⟩
def badOps : List LaneOp := [.region 16 0 0#32, .region 0 3 0#32, .access (2 ^ 40) 0 0, .access 0 65 0, .access 0 0 3]
def badCkpts : List Checkpoint :=
  [{ ck0 with lane := 16 }, { ck0 with lead := 4097 }, { ck0 with copyA := badReport }, { ck0 with copyB := badReport },
   { ck0 with copyA := ⟨[], List.replicate 513 (0, 0, 0#64), []⟩ }, { ck0 with effects := [.canCancel 2 0] }, { ck0 with opsA := [.region 16 0 0#32] },
   { ck0 with opsB := [.region 16 0 0#32] }]
def vec0 : VectorRun := ⟨rep 0#64, rep 0#64, rep 0#64⟩
def badVectors : List VectorRun := [{ vec0 with copyA := badReport }, { vec0 with copyB := badReport }, { vec0 with known := badReport }]
def badFinds : List EccFinding := [.laneLocal 16, .mram (.snapshot 2), .mramWord (2 ^ 32)].map (⟨·, true⟩)
def badEntries : List Entry :=
  [.waybill { wb with seq := 2 ^ 64 }, .waybill { wb with work := .restart 3 true }, .cont (2 ^ 64) 0 0 [], .cont 0 (2 ^ 64) 0 [], .cont 0 0 256 [],
   .cont 0 0 0 (List.replicate 129 0#8), .completion ⟨2 ^ 64, 0, none, 0, 0, 0, 0, 0⟩, .completion ⟨0, 65536, none, 0, 0, 0, 0, 0⟩]
def badRecs : List DeltaRec :=
  [.tag (2 ^ 20) Tag.zero, .sbx (2 ^ 21) 0#32, .canRequest 2 0 canReq, .canRequest 0 0 { canReq with handle := 65536 }, .output 96 0,
   .force (2 ^ 20) none, .role (2 ^ 32) ⟨0, 0, none⟩, .waybill { wb with work := .restart 3 true }]
def badPages : List Page := [⟨768, 0, [], [], []⟩, ⟨0, 0, [(2 ^ 20, Tag.zero)], [], []⟩, ⟨0, 0, [], [], [(2 ^ 21, 0#32)]⟩]
def badFrames : List FrameId := [{ fid with src := 2 ^ 48 }, { fid with seq := 65536 }]

theorem test_wf_base :
    [Origin.lane 16, .mgmt 4, .plant (2 ^ 32), .svc (2 ^ 32)].all (fun o => !o.wf) = true ∧ badReqs.all (fun r => !r.wf) = true ∧
    badHdrs.all (fun h => !h.wf) = true ∧ badHellos.all (fun h => !h.wf) = true ∧ badSites.all (fun x => !x.wf) = true ∧
    badStarts.all (fun x => !x.wf) = true ∧ badWorks.all (fun w => !w.wf) = true ∧ badReqsCan.all (fun r => !r.wf) = true ∧
    badStores.all (fun x => !x.wf) = true ∧ badOps.all (fun x => !x.wf) = true ∧ badVectors.all (fun x => !x.wf) = true ∧
    badFinds.all (fun x => !x.wf) = true ∧ badEntries.all (fun x => !x.wf) = true ∧ badRecs.all (fun x => !x.wf) = true ∧
    badPages.all (fun x => !x.wf) = true ∧ badFrames.all (fun x => !x.wf) = true ∧ badCkpts.all (fun c => !c.wf) = true := by decide +kernel

theorem test_wf_carrier : [Instr.modSupplyLost 0 65536, .fieldSupplyLost 0 65536, .fieldFuseTrip 0 65536, .reservoirHealthTest 65536 0,
    .reservoirHealthTest 0 65536].all (fun i => !i.wf) = true := by decide +kernel

theorem test_wf_start : badStarts.all (fun x => [Instr.insertionStart x, .supplyReturnRestart x, .startHoldRetry x, .moduleRestart x,
      .leaveTerminus (.mgmt 0) x].all (fun i => !i.wf)) = true ∧ badHellos.all (fun h => !(Instr.couplingHello h).wf) = true := by decide +kernel

theorem test_wf_execution : badCkpts.all (fun c => [Instr.checkpoint c, .reexecutionCompare c].all (fun i => !i.wf)) = true ∧
    badFinds.all (fun f => [Instr.eccError f, .scrubPass [f]].all (fun i => !i.wf)) = true ∧
    badVectors.all (fun v => [Instr.bistVisit 0 v vec0, .bistVisit 0 vec0 v].all (fun i => !i.wf)) = true ∧
    [Instr.paceWindow [(16, 0, 0)], .paceWindow [(0, 65536, 0)], .paceWindow [(0, 0, 65536)], .clearMax badO 0, .cmpInject badO 0 0 true true,
     .faultSelect badO 0].all (fun i => !i.wf) = true := by decide +kernel

theorem test_wf_journal : [Instr.submit { rq with session := 2 ^ 32 } 0 .roleExchange, .submit rq (2 ^ 64) .roleExchange, .submit rq 0 (.restart 3 true),
    .mirrorAck (hdr, 2 ^ 64),
    .mirrorTimeout (2 ^ 64), .unconfirmedExpiry (2 ^ 64), .clientEviction (2 ^ 64)].all (fun i => !i.wf) = true := by decide +kernel

theorem test_wf_coupling : badHdrs.all (fun h => [Instr.idle (some h), .status h ⟨true, true, true, 0, none⟩, .delta h delta0, .deltaAck h 0 0 0 0#32,
      .mirror h [], .mirrorAck (h, 0), .mapAck (h, 0#32), .announce (h, ann), .announceAck h, .resyncReq h .reply, .resyncDone h 0, .handover h 0,
      .handoverAck h, .restartReq h ⟨true, 0, 0, false⟩, .restartAck h, .restartGo h true, .image h img true, .resyncPage h ⟨0, 1, [], [], []⟩,
      .resyncControl h ⟨[], [], [], [], [], [], [], [], [], 0, 0, 0⟩].all (fun i => !i.wf)) = true ∧
    badEntries.all (fun e => !(Instr.mirror hdr [e]).wf) = true ∧ badPages.all (fun p => !(Instr.resyncPage hdr p).wf) = true ∧
    badRecs.all (fun x => !(Instr.delta hdr { delta0 with records := [x] }).wf) = true ∧
    [Instr.couplingRetrain (2 ^ 32) true, .delta hdr { delta0 with task := 8 }, .deltaAck hdr 0 (2 ^ 64) 0 0#32, .deltaAck hdr 0 0 (2 ^ 64) 0#32,
      .resyncReq hdr (.page 768), .resyncDone hdr (2 ^ 64), .heldRecordExpiry 768].all (fun i => !i.wf) = true := by decide +kernel

theorem test_wf_origins : [Instr.latchReset badO 0, .locate badO 0, .qpop badO, .calStart badO 0, .takeZero badO 0, .takeSpan badO 0, .commit badO 0,
    .calEnd badO 0, .abort badO 0, .testReq badO 0, .acqTrig badO 0#16, .close badO 0, .incCommit badO 0#8, .stepGo badO 0#16, .timeLatch badO,
    .timeServo badO 0 0 0 0#16, .testMode badO true, .rxpop badO 0, .registerWrite badO 0 0#32, .misalignedAccess badO ⟨0, 4⟩ true,
    .eventRegisterClear badO 0 0#32, .multiwordMode badO 0 true, .multiwordLowRead badO 0, .mpuRegionWrite badO 0 0 0 0 0#32, .arm badO 0,
    .swap badO 0, .release badO, .activate badO 0 false, .confirm badO 0, .fallback badO 0, .updateAbort badO 0, .anchorClear badO 0,
    .leaveTerminus badO start0, .attestGo badO, .redraw badO, .milSel badO 0#8 true].all (fun i => !i.wf) = true := by decide +kernel

theorem test_wf_channels_and_bus : [Instr.fastSample [⟨96, 0#64⟩], .converterPeriodBoundary [⟨96, 0#64⟩] [],
    .converterPeriodBoundary [] [⟨8, 0#64, 0#64, 0#64, 0#64, true⟩], .commonFaultSet 0 [⟨96, 0, 0, 0⟩], .commonFaultCleared 0 [⟨96, 0, 0, 0⟩],
    .localisationRepeat 0 [⟨96, 0, 0, 0⟩], .ptpMessage { ptp0 with domain := 256 }, .svFrame { sv0 with id := { fid with src := 2 ^ 48 } },
    .gooseMessage { goose0 with id := { fid with src := 2 ^ 48 } }, .gooseMessage { goose0 with stNum := 2 ^ 32 },
    .gooseMessage { goose0 with sqNum := 2 ^ 32 }, .canFrameReceived 0 { canF with ident := 2048 } 0, .canFrameReceived 0 { canF with dlc := 16 } 0,
    .canFrameReceived 0 { canF with extended := true, ident := 2 ^ 29 } 0, .canFrameReceived 0 { canF with data := List.replicate 65 0#8 } 0,
    .canTxTimeout 0 65536, .canCancel 0 65536, .canFrameError 0 512 0, .canFrameError 0 0 256].all (fun i => !i.wf) = true := by decide +kernel

theorem test_wf_sessions : badReqs.all (fun r => [Instr.openSession r 0 false 0 true, .closeSession r, .keepalive r, .query r 0, .tagRead r [],
      .subscribe r 0 [], .unsubscribe r 0, .resend r 0, .regRead r 0 0, .regWrite r 0 [], .fileOpen r .faults true, .fileRead r 0 0, .fileWrite r 0 0 [],
      .fileClose r 0 0#32 none].all (fun i => !i.wf)) = true ∧
    [Instr.openSession rq 0 false (2 ^ 64) true, .sessionTimeout (2 ^ 32), .query rq (2 ^ 64), .tagRead rq [2 ^ 32], .subscribe rq (2 ^ 32) [],
      .subscribe rq 0 [2 ^ 32], .unsubscribe rq (2 ^ 32), .resend rq (2 ^ 32), .regRead rq (2 ^ 32) 0, .regRead rq 0 (2 ^ 32), .regWrite rq (2 ^ 32) [],
      .fileRead rq (2 ^ 32) 0, .fileRead rq 0 (2 ^ 32), .fileWrite rq (2 ^ 32) 0 [], .fileWrite rq 0 (2 ^ 32) [],
      .fileWrite rq 0 0 (List.replicate 1153 0#8), .fileClose rq (2 ^ 32) 0#32 none].all (fun i => !i.wf) = true := by decide +kernel

theorem test_wf_registers : [Instr.registerWrite (.mgmt 0) 0x200000 0#32, .misalignedAccess (.mgmt 0) ⟨0x200000, 4⟩ true,
    .misalignedAccess (.mgmt 0) ⟨0, 5⟩ true, .eventRegisterClear (.mgmt 0) 0x200000 0#32, .multiwordLowRead (.mgmt 0) 0x200000,
    .protectionException ⟨36, 0, 1, 1⟩, .protectionException ⟨32, 2 ^ 40, 1, 1⟩, .protectionException ⟨32, 0, 65, 1⟩,
    .impreciseNotice ⟨32, 0, 65, 1⟩ 0, .impreciseNotice ⟨31, 0, 1, 1⟩ 0].all (fun i => !i.wf) = true := by decide +kernel

theorem test_wf_accepts : [Instr.seatedMade, .submit rq (2 ^ 64 - 1) (.restart 2 true), .delta hdr delta0, .canTxTimeout 1 65535,
    .registerWrite (.lane 15) 0x1FFFFC 0#32].all Instr.wf = true := by decide +kernel

/-! Single steps whose results the manual states. -/

def go (c : Instr) (s : State) : State := match exec c s with | .next t => t | _ => s

/-- R10: a misaligned register access is refused and counted. -/
theorem test_misaligned_counted : (go (.misalignedAccess (.mgmt 0) ⟨2, 4⟩ true) act).get Reg.ID_REFUSED_SHAPE = 1 := by decide +kernel

/-- R46. -/
theorem test_lever_opened : (go .leverOpened act).carrier.leverOpen = true ∧ (go .leverOpened act).get ⟨0x1A0004, 16, 16⟩ = nextSeq (act.get ⟨0x1A0004, 16, 16⟩) := by decide +kernel

/-- R417: SEQ goes from 0xFFFF to 1. -/
theorem test_seq_wraps : ((act.put ⟨0x1A0004, 16, 16⟩ 0xFFFF).raise Ev.PWR_LEVER_OPENED).get ⟨0x1A0004, 16, 16⟩ = 1 := by decide +kernel

/-- R348: 7 ns is below the least increment; the one in force stays. -/
theorem test_increment_refused : (go (.incCommit (.mgmt 0) 7#8) act).time.inc = 8 * 2 ^ 32 := by decide +kernel

/-- R45, R37: unseating while ACTIVE halts the module and drops the claim. -/
theorem test_unseated : (go .seatedBreak act).mode = .halt ∧ (go .seatedBreak act).claim.drive = false := by decide +kernel

/-- R31: above 13 A for the stated time the field fuse opens. -/
theorem test_fuse : (go (.fieldFuseTrip 1 13001) act).carrier.fuse2Open = true := by decide +kernel

/-- R42: the standby counter is not moved by a command. -/
theorem test_seated_made : (go .seatedMade off).carrier.seated = true ∧ (go .seatedMade off).standby = off.standby := by decide +kernel

/-- R178: a mismatch on re-execution retires the lane. -/
theorem test_reexecution_retires :
    ((go (.reexecutionCompare (ck 1#64 2#64)) (task { Task.reset with phase := .execute } (lane { run0 with mismatch := some ⟨1, 1, 0#64, 0⟩ } act))).lane 0).retired
      = true := by decide +kernel

/-- R283: the eighth thermal event in 60 s locks the output. -/
theorem test_thermal_locks :
    ((go (.doThermalEnter 2) (chan 2 { Chan.reset with doState := .on, lastHeld := some 0, thermals := [0, 0, 0, 0, 0, 0, 0] } act)).chan 2).doState = .locked := by decide +kernel

/-- R380, R382: a session that is closed gets its reply and is gone. -/
theorem test_close_session : (go (.closeSession (req 0x02)) (talk srv act)).net.sessions = [] := by decide +kernel

/-- R413, R442: a lane does not swap protection sets. -/
theorem test_lane_swap_refused : (go (.swap (.lane 0) 32) act).mpu = act.mpu := by decide +kernel

/-- The opcode table gives no command bits. -/
theorem test_decode : decodeTableWord 8 0 = none ∧ (off.withFetchWord 8 0) = off := ⟨rfl, rfl⟩

/-- The queue: the first command waiting runs first. -/
theorem test_queue : step { off with pending := [.seatedMade, .countLost] } = exec .seatedMade { off with pending := [.countLost] } := rfl

/-! For every statement with hypotheses, values that meet the hypotheses of each of its clauses. -/

theorem witness_StepKeepsBankOk : ∃ (s : State) (t : State), BankOk s ∧ step s = .next t :=
  ⟨off, tick off, ⟨by unfold BankOk; decide, rfl⟩⟩

theorem witness_StepKeepsClockOk : ∃ (s : State) (t : State), ClockOk s ∧ step s = .next t :=
  ⟨off, tick off, ⟨by unfold ClockOk; decide, rfl⟩⟩

theorem witness_StepKeepsClaimOk : ∃ (s : State) (t : State), ClaimOk s ∧ step s = .next t :=
  ⟨off, tick off, ⟨by unfold ClaimOk; decide, rfl⟩⟩

theorem witness_CommandsTouchOnly : ∃ (c : Instr) (s : State) (t : State), exec c s = .next t :=
  ⟨.seatedMade, off, { off with carrier := { off.carrier with seated := true } }, rfl⟩

theorem witness_EventRaised :
    (∃ (e : EvBit), e.bit < 16) ∧
    (∃ (n : Nat), n < 0xFFFF) ∧
    (∃ (n : Nat), n ≤ 0xFFFF) ∧
    (∃ (e : EvBit) (d : EvBit), d.addr = e.addr ∧ d.bit ≠ e.bit ∧ d.bit < 16) :=
  ⟨⟨⟨0x1A0004, 15⟩, by decide +kernel⟩,
   ⟨0xFFFE, by decide +kernel⟩,
   ⟨0xFFFF, by decide +kernel⟩,
   ⟨⟨0x1A0004, 0⟩, ⟨0x1A0004, 15⟩, by decide +kernel⟩⟩

theorem witness_UnpoweredServesNothing :
    (∃ (s : State), s.mode = .off) ∧
    (∃ (s : State) (c : Instr) (k : Nat) (h : LinkHdr), s.mode = .off ∧ frameHeader c = some (k, h)) :=
  ⟨⟨off, by decide +kernel⟩,
   ⟨off, .handoverAck hdr, 0x51, hdr, by decide +kernel⟩⟩

theorem witness_LeverOpened : ∃ (s : State), s.powered = true ∧ s.carrier.leverOpen = false :=
  ⟨base .halt, by decide +kernel⟩

theorem witness_StandbyAndClaimKeeper :
    (∃ (s : State), s.standby.stopped = false) ∧
    (∃ (s : State), s.carrier.seated = true ∧ s.powered = true ∧ s.carrier.holdup = false) ∧
    (∃ (s : State), s.carrier.seated = true ∧ s.powered = false ∧ s.standby.stopped = false) ∧
    (∃ (s : State), s.powered = true ∧ s.claim.drive = true) ∧
    (∃ (s : State), s.powered = true ∧ s.claim.own = true ∧ s.claim.drive = true) ∧
    (∃ (s : State), s.powered = true ∧ s.claim.drive = false) :=
  ⟨⟨off, by decide +kernel⟩,
   ⟨act, by decide +kernel⟩,
   ⟨{ off with carrier := { off.carrier with seated := true } }, by decide +kernel⟩,
   ⟨act, by decide +kernel⟩,
   ⟨act, by decide +kernel⟩,
   ⟨base .standby, by decide +kernel⟩⟩

theorem witness_SuppliesAndReservoir :
    (∃ (k : Fin 2) (mv : Nat) (s : State), s.powered = true ∧ 19200 ≤ (if k.val = 0 then s.carrier.mod1Mv else s.carrier.mod2Mv) ∧ mv < 19200) ∧
    (∃ (k : Fin 2) (mv : Nat) (s : State), s.powered = true ∧ 19200 ≤ (if k.val = 0 then s.carrier.fld1Mv else s.carrier.fld2Mv) ∧ mv < 19200) ∧
    (∃ (k : Fin 2) (ma : Nat) (s : State), s.powered = true ∧ (if k.val = 0 then s.carrier.fuse1Open else s.carrier.fuse2Open) = false ∧ 13000 < ma) ∧
    (∃ (k : Fin 2) (s : State), s.powered = true ∧ (if k.val = 0 then s.carrier.fuse1Open else s.carrier.fuse2Open) = true) ∧
    (∃ (p : Port) (s : State), s.powered = true ∧ p ≠ .svc) ∧
    (∃ (s : State), s.powered = true ∧ s.carrier.holdup = false) :=
  ⟨⟨1, 19199, { act with carrier := { act.carrier with mod2Mv := 19200 } }, by decide +kernel⟩,
   ⟨0, 19199, { act with carrier := { act.carrier with fld1Mv := 19200 } }, by decide +kernel⟩,
   ⟨0, 13001, act, by decide +kernel⟩,
   ⟨1, { act with carrier := { act.carrier with fuse2Open := true } }, by decide +kernel⟩,
   ⟨.pba, act, by decide +kernel⟩,
   ⟨act, by decide +kernel⟩⟩

theorem witness_HaltEntry :
    (∃ (s : State), (s.mode = .starting ∨ s.mode = .standby ∨ s.mode = .active)) ∧
    (∃ (s : State), (s.mode = .off ∨ s.mode = .halt ∨ s.mode = .terminus)) :=
  ⟨⟨act, by decide +kernel⟩,
   ⟨off, by decide +kernel⟩⟩

theorem witness_HoldUpSequence :
    (∃ (s : State), (s.mode = .starting ∨ s.mode = .standby ∨ s.mode = .active) ∧ s.carrier.holdup = false) ∧
    (∃ (s : State), s.powered = true ∧ s.carrier.holdup = true ∧ s.carrier.recordWritten = false) ∧
    (∃ (s : State), s.powered = true) :=
  ⟨⟨act, by decide +kernel⟩,
   ⟨{ act with carrier := { act.carrier with holdup := true } }, by decide +kernel⟩,
   ⟨{ act with carrier := { act.carrier with holdup := true } }, by decide +kernel⟩⟩

theorem witness_StartsProceed :
    (∃ (i : StartInput) (s : State), s.mode = .off ∧ s.carrier.seated = true ∧ (19200 ≤ i.mod1Mv ∨ 19200 ≤ i.mod2Mv)) ∧
    (∃ (k : Nat) (x : Session) (s : State), s.mode = .terminus ∧ Tab.get? s.net.sessions k = some x ∧ x.role = .service) ∧
    (∃ (w : Bool) (s : State), s.powered = true ∧ s.carrier.holdup = false ∧ s.pair.restartGoDue = some w ∧ (w = false ∨ s.claim.partner = true ∨ s.claim.partnerAbsent = true)) ∧
    (∃ (s : State), s.mode = .starting ∧ s.get Reg.ID_START_HOLD ≠ 0) ∧
    (∃ (h : Hello) (m : Mode) (k : SlotKey) (s : State), modeOfCode h.state = some m ∧ s.mode = .starting ∧ s.start.step = 10 ∧ s.start.path11b = false ∧ s.pair.resync = false ∧ s.start.key = some k ∧ m ≠ .terminus ∧ (m ≠ .starting ∨ h.atStep10 = true)) ∧
    (∃ (h : Hello) (m : Mode) (s : State), modeOfCode h.state = some m ∧ (s.mode = .standby ∨ s.mode = .active ∨ s.mode = .halt) ∧ m ≠ .terminus) ∧
    (∃ (h : Hello), modeOfCode h.state = none) ∧
    (∃ (k : SlotKey) (img : Image) (s : State), s.mode = .starting ∧ s.start.step = 10 ∧ s.start.path11a = false ∧ s.start.path11b = false ∧ s.pair.linkUp = false ∧ s.start.key = some k ∧ s.start.keyImage = some img ∧ s.start.imageChosen = true ∧ s.start.running = some (s.aloneImage k img) ∧ s.mram.anchor ≠ none ∧ s.ownerOk (s.aloneImage k img) = true) ∧
    (∃ (s : State), s.mode = .starting ∧ s.start.path11b = true ∧ s.critical = false ∧ s.claim.partner = false ∧ s.claim.stuck = false ∧ s.claim.drive = false) ∧
    (∃ (s : State), s.mode = .starting ∧ s.start.path11b = true ∧ s.critical = false ∧ s.claim.partner = false ∧ s.claim.stuck = false ∧ s.claim.drive = true ∧ s.claim.confirmed = true ∧ s.dueNow 0 = true) :=
  ⟨⟨start0, { off with carrier := { off.carrier with seated := true } }, by decide +kernel⟩,
   ⟨1, srv, talk srv (base .terminus), by decide +kernel⟩,
   ⟨true, { act with pair := { act.pair with restartGoDue := some true }, claim := { act.claim with partner := true } }, by decide +kernel⟩,
   ⟨(base .starting).put Reg.ID_START_HOLD 1, by decide +kernel⟩,
   ⟨hello0, .standby, key0, { base .starting with start := { (base .starting).start with step := 10, key := some key0 } }, by decide +kernel⟩,
   ⟨hello0, .standby, sby, by decide +kernel⟩,
   ⟨{ hello0 with state := 6 }, by decide +kernel⟩,
   ⟨key0, img, { base .starting with start := { (base .starting).start with step := 10, key := some key0, keyImage := some img, imageChosen := true }, mram := { Mram.reset with anchor := some (keyHash keyA) } }, ⟨rfl, rfl, rfl, rfl, rfl, rfl, rfl, rfl, rfl, nofun, by decide +kernel⟩⟩,
   ⟨{ base .starting with start := { (base .starting).start with path11b := true } }, by decide +kernel⟩,
   ⟨{ base .starting with start := { (base .starting).start with path11b := true }, claim := { Claim.reset with drive := true, own := true, confirmed := true } }, by decide +kernel⟩⟩

theorem witness_TakingControl :
    (∃ (s : State), s.ready = true ∧ s.claim.drive = false ∧ s.claim.stuck = false ∧ s.pair.handoverWait = false) ∧
    (∃ (s : State), s.mode = .standby ∧ s.claim.drive = false ∧ s.claim.stuck = false ∧ s.pair.handoverWait = true) ∧
    (∃ (s : State), s.ready = true ∧ s.mayClaim = true ∧ s.claim.taking = false ∧ s.pair.handoverWait = false ∧ s.pair.partnerMode ≠ some .active) ∧
    (∃ (s : State), s.ready = true ∧ s.claim.taking = true ∧ s.mayClaim = true ∧ s.dueNow 0 = true) ∧
    (∃ (s : State), s.claim.drive = true ∧ s.claim.own = true ∧ s.claim.partner = false ∧ s.claim.confirmed = false ∧ (s.mode = .standby ∨ s.mode = .active)) ∧
    (∃ (s : State), s.claim.drive = true ∧ s.claim.own = true ∧ s.claim.partner = false ∧ s.claim.confirmed = false ∧ s.mode = .starting ∧ s.start.path11b = true) ∧
    (∃ (s : State), s.powered = true ∧ s.claim.drive = false) ∧
    (∃ (s : State), (s.powered = false ∨ s.claim.drive = true)) ∧
    (∃ (s : State), s.powered = true ∧ s.claim.drive = true ∧ s.carrier.slotB = false) ∧
    (∃ (s : State), s.powered = true ∧ s.claim.drive = true ∧ s.carrier.slotB = true) ∧
    (∃ (s : State), s.claim.releasing = true ∧ s.claim.partner = false ∧ s.claim.drive = false) ∧
    (∃ (s : State), s.powered = true ∧ s.carrier.split = true ∧ s.mode ≠ .starting) :=
  ⟨⟨sby, by decide +kernel⟩,
   ⟨{ sby with pair := { sby.pair with handoverWait := true } }, by decide +kernel⟩,
   ⟨sby, by decide +kernel⟩,
   ⟨{ sby with claim := { sby.claim with taking := true } }, by decide +kernel⟩,
   ⟨{ act with claim := { act.claim with confirmed := false } }, by decide +kernel⟩,
   ⟨{ base .starting with start := { (base .starting).start with path11b := true }, claim := { Claim.reset with drive := true, own := true } }, by decide +kernel⟩,
   ⟨sby, by decide +kernel⟩,
   ⟨act, by decide +kernel⟩,
   ⟨act, by decide +kernel⟩,
   ⟨{ act with carrier := { act.carrier with slotB := true } }, by decide +kernel⟩,
   ⟨{ sby with claim := { sby.claim with releasing := true } }, by decide +kernel⟩,
   ⟨{ act with carrier := { act.carrier with split := true } }, by decide +kernel⟩⟩

theorem witness_HandOver :
    (∃ (h : LinkHdr) (m : Mode) (s : State), FrameTaken 0x50 h m s) ∧
    (∃ (h : LinkHdr) (m : Mode) (s : State), FrameTaken 0x51 h m s) ∧
    (∃ (q : Nat) (s : State), s.mode = .active ∧ s.pair.handoverQ = some q ∧ q ≤ s.gridQuantum ∧ s.pair.handoverWait = false ∧ s.running = true ∧ s.pair.handoverAcked = true ∧ s.pair.partnerReady = true ∧ s.pair.partnerMode = some .standby) ∧
    (∃ (q : Nat) (s : State), s.pair.handoverQ = some q ∧ q ≤ s.gridQuantum ∧ s.pair.handoverWait = false ∧ s.running = false ∧ s.ready = true ∧ s.mayClaim = true) ∧
    (∃ (s : State), s.mode = .active ∧ s.pair.handoverQ ≠ none ∧ s.pair.handoverWait = false ∧ s.handoverEnds = true) ∧
    (∃ (s : State), s.mode = .active ∧ s.pair.handoverWait = true ∧ s.pair.handoverQ ≠ none ∧ s.claim.drive = false ∧ s.claim.partner = false ∧ s.claim.stuck = false) ∧
    (∃ (s : State), s.mode = .standby ∧ s.pair.handoverWait = true ∧ s.claim.drive = false) :=
  ⟨⟨frm 0x50 .active [], .active, linked sby, by unfold FrameTaken; decide +kernel⟩,
   ⟨frm 0x51 .standby [], .standby, linked act, by unfold FrameTaken; decide +kernel⟩,
   ⟨0, { act with pair := { act.pair with handoverQ := some 0, handoverAcked := true, partnerReady := true, partnerMode := some .standby } }, by decide +kernel⟩,
   ⟨0, { sby with pair := { sby.pair with handoverQ := some 0 } }, by decide +kernel⟩,
   ⟨{ act with pair := { act.pair with handoverQ := some 9 } }, by decide +kernel⟩,
   ⟨{ base .active with pair := { Pair.reset with handoverQ := some 9, handoverWait := true } }, by decide +kernel⟩,
   ⟨{ sby with pair := { sby.pair with handoverWait := true } }, by decide +kernel⟩⟩

theorem witness_PairRestart :
    (∃ (h : LinkHdr) (m : Mode) (s : State), FrameTaken 0x52 h m s) ∧
    (∃ (h : LinkHdr) (m : Mode) (s : State), FrameTaken 0x53 h m s) ∧
    (∃ (w : Waybill × Bool × Bool) (s : State), s.mode = .active ∧ s.restartAwaited 0 = true ∧ s.pair.restartWait = some w) ∧
    (∃ (h : LinkHdr) (m : Mode) (s : State), FrameTaken 0x54 h m s) :=
  ⟨⟨frm 0x52 .active [], .active, linked sby, by unfold FrameTaken; decide +kernel⟩,
   ⟨frm 0x53 .standby [], .standby, linked act, by unfold FrameTaken; decide +kernel⟩,
   ⟨(wb, true, true), { act with pair := { act.pair with restartWait := some (wb, true, true) } }, by decide +kernel⟩,
   ⟨frm 0x54 .active [], .active, linked sby, by unfold FrameTaken; decide +kernel⟩⟩

theorem witness_ExchangeOfPrograms :
    (∃ (n : Image) (s : State), s.mode = .active ∧ s.exch.image = some n ∧ s.exch.progress = .none ∧ s.pair.linkUp = true ∧ s.pair.partnerMode = some .standby) ∧
    (∃ (h : LinkHdr) (m : Mode) (n : Image) (old : Image) (s : State), FrameTaken 0x31 h m s ∧ (afterHeader h m s).mode = .active ∧ (afterHeader h m s).exch.sent = true ∧ (afterHeader h m s).exch.progress = .loaded ∧ (afterHeader h m s).exch.announcement = none ∧ (afterHeader h m s).exch.image = some n ∧ (afterHeader h m s).img = some old) ∧
    (∃ (h : LinkHdr) (m : Mode) (crc : Word) (s : State), FrameTaken 0x31 h m s ∧ (afterHeader h m s).mode = .active ∧ (afterHeader h m s).exch.sent = true ∧ (afterHeader h m s).exch.progress = .loaded ∧ (afterHeader h m s).exch.announcement = none ∧ crc ≠ (afterHeader h m s).exch.mapCrc) ∧
    (∃ (h : LinkHdr) (m : Mode) (s : State), FrameTaken 0x32 h m s ∧ (afterHeader h m s).mode = .standby ∧ (afterHeader h m s).exch.progress = .loaded) ∧
    (∃ (h : LinkHdr) (m : Mode) (a : Announcement) (s : State), FrameTaken 0x33 h m s ∧ (afterHeader h m s).mode = .active ∧ (afterHeader h m s).exch.sent = true ∧ (afterHeader h m s).exch.progress = .loaded ∧ (afterHeader h m s).exch.announcement = some a) ∧
    (∃ (new : Image) (s : State), s.mode = .active ∧ s.exchangeEnds = true ∧ s.exch.image = some new ∧ s.pair.resyncAsked = false) ∧
    (∃ (new : Image) (s : State), s.mode = .standby ∧ s.exchangeEnds = true ∧ s.exch.image = some new) ∧
    (∃ (new : Image) (s : State), s.mode = .standby ∧ s.pair.sbxRestartDue = true ∧ (if s.exchangeCommitted then s.exch.image else s.img) = some new) :=
  ⟨⟨img, linked { act with exch := { act.exch with image := some img } }, by decide +kernel⟩,
   ⟨frm 0x31 .standby [], .standby, img, img, linked { act with exch := { act.exch with image := some img, progress := .loaded, sent := true } }, by unfold FrameTaken; decide +kernel⟩,
   ⟨frm 0x31 .standby [], .standby, 1#32, linked { act with exch := { act.exch with image := some img, progress := .loaded, sent := true } }, by unfold FrameTaken; decide +kernel⟩,
   ⟨frm 0x32 .active [], .active, linked { sby with exch := { sby.exch with image := some img, progress := .loaded } }, by unfold FrameTaken; decide +kernel⟩,
   ⟨frm 0x33 .standby [], .standby, ann, linked { act with exch := { act.exch with image := some img, progress := .loaded, sent := true, announcement := some ann } }, by unfold FrameTaken; decide +kernel⟩,
   ⟨img, task { Task.reset with switched := true } { act with exch := { act.exch with image := some img, progress := .committed }, mram := { act.mram with running := some img } }, by decide +kernel⟩,
   ⟨img, task { Task.reset with switched := true } { sby with exch := { sby.exch with image := some img, progress := .committed }, mram := { sby.mram with running := some img } }, by decide +kernel⟩,
   ⟨img, { sby with pair := { sby.pair with sbxRestartDue := true } }, by decide +kernel⟩⟩

theorem witness_SubmissionsServed : ∃ (r : Req) (x : Session) (s : State), Asks 0x10 r x s :=
  ⟨req 0x10, eng, talk eng act, by unfold Asks; decide +kernel⟩

theorem witness_JournalWork :
    (∃ (h : LinkHdr) (m : Mode) (seq : Nat) (w : Waybill) (s : State), FrameTaken 0x21 h m s ∧ (afterHeader h m s).localAt seq = some w ∧ (afterHeader h m s).mode = .active ∧ (afterHeader h m s).inAcceptance w.waybillSeq = true) ∧
    (∃ (seq : Nat) (w : Waybill) (s : State), s.localAt seq = some w ∧ s.mode = .active ∧ s.inAcceptance w.waybillSeq = true ∧ s.pair.doubt = false) ∧
    (∃ (seq : Nat) (w : Waybill) (s : State), s.localAt seq = some w ∧ s.mode = .active ∧ s.inAcceptance w.waybillSeq = false ∧ s.completionOf w.waybillSeq = none) ∧
    (∃ (wseq : Nat) (st : WbState) (s : State) (seq : Nat) (w : Waybill), w.waybillSeq = wseq ∧ (seq, Entry.waybill w) ∈ (setWbState wseq st s).mram.ring) ∧
    (∃ (s : State), (s.mode = .standby ∨ s.mode = .active)) ∧
    (∃ (id : Nat) (x : ClientState) (s : State), (s.mode = .standby ∨ s.mode = .active) ∧ Tab.get? s.jrn.clients id = some x ∧ x.lastMinute + 60 * s.policy.retainH < s.mram.opMinutes) ∧
    (∃ (id : Nat) (x : ClientState) (s : State), (s.mode = .standby ∨ s.mode = .active) ∧ Tab.get? s.jrn.clients id = some x ∧ s.mram.opMinutes ≤ x.lastMinute + 60 * s.policy.retainH) ∧
    (∃ (s : State), s.mode = .active ∧ s.ctlLoaded = true) :=
  ⟨⟨frm 0x21 .standby [], .standby, 3, wb, linked { act with mram := { act.mram with ring := [(3, .waybill wb)] }, jrn := { act.jrn with waiters := [⟨3, 1, 1, none⟩] } }, by unfold FrameTaken; decide +kernel⟩,
   ⟨3, wb, { act with mram := { act.mram with ring := [(3, .waybill wb)] }, jrn := { act.jrn with waiters := [⟨3, 1, 1, none⟩] } }, by decide +kernel⟩,
   ⟨3, wb, { act with mram := { act.mram with ring := [(3, .waybill wb)] } }, by decide +kernel⟩,
   ⟨3, .mirrored, { act with mram := { act.mram with ring := [(3, .waybill wb)] } }, 3, { wb with state := .mirrored }, by decide +kernel⟩,
   ⟨sby, by decide +kernel⟩,
   ⟨9, ⟨1, 0, []⟩, { act with jrn := { act.jrn with clients := [(9, ⟨1, 0, []⟩)] }, mram := { act.mram with opMinutes := 10081 } }, by decide +kernel⟩,
   ⟨9, ⟨1, 0, []⟩, { act with jrn := { act.jrn with clients := [(9, ⟨1, 0, []⟩)] }, mram := { act.mram with opMinutes := 10080 } }, by decide +kernel⟩,
   ⟨{ act with ctl := { act.ctl with units := [(0, ⟨0, 0, none⟩)] } }, by decide +kernel⟩⟩

theorem witness_FramesDiscarded :
    (∃ (c : Instr) (k : Nat) (h : LinkHdr) (s : State), frameHeader c = some (k, h) ∧ s.powered = true ∧ s.mode ≠ .terminus ∧ s.pair.linkUp = true ∧ ((frameCrcOk h = false ∨ h.hdr.kind ≠ k ∨ h.hdr.linkSeq ≠ (s.pair.rxNext + h.hdr.chunk) % 2 ^ 32 ∨ h.hdr.session ≠ s.pair.session ∨ h.hdr.pairTag ≠ s.pairTag ∨ modeOfCode h.hdr.state = none ∨ 4096 < h.payload.length ∨ h.hdr.last = false ∨ h.hdr.chunk + 1 ≠ h.hdr.chunks))) ∧
    (∃ (c : Instr) (k : Nat) (h : LinkHdr) (s : State), frameHeader c = some (k, h) ∧ s.pair.linkUp = false) ∧
    (∃ (h : LinkHdr) (m : Mode) (s : State), FrameTaken 0x00 h m s) :=
  ⟨⟨.idle (some { hdr with crc := 0#32 }), 0, { hdr with crc := 0#32 }, linked act, ⟨rfl, rfl, nofun, rfl, .inl (by decide +kernel)⟩⟩,
   ⟨.idle (some hdr), 0, hdr, act, by decide +kernel⟩,
   ⟨hdr, .standby, linked act, by unfold FrameTaken; decide +kernel⟩⟩

theorem witness_CouplingDownAndUp :
    (∃ (cause : Fin 3) (s : State), s.powered = true ∧ s.pair.linkUp = true ∧ (cause.val ≠ 2 ∨ s.mode = .active)) ∧
    (∃ (task : Fin 8) (s : State), s.mode = .active ∧ task.val ∈ s.pair.awaitingDelta) ∧
    (∃ (s : State), s.powered = true ∧ s.mode ≠ .terminus ∧ s.mode ≠ .starting ∧ s.pair.linkUp = false) ∧
    (∃ (s : State), s.powered = true ∧ s.pair.linkUp = true ∧ s.uncovered ≠ 0) ∧
    (∃ (s : State), s.powered = true ∧ s.pair.linkUp = true) ∧
    (∃ (s : State), s.pair.doubt = true) ∧
    (∃ (s : State), s.mode = .standby ∧ s.pair.linkUp = false ∧ s.pair.copyCurrent = true ∧ s.claim.partner = true) :=
  ⟨⟨0, linked act, by decide +kernel⟩,
   ⟨7, { act with pair := { act.pair with awaitingDelta := [7] } }, by decide +kernel⟩,
   ⟨act, by decide +kernel⟩,
   ⟨linked { act with pair := { act.pair with txNext := 1 } }, by decide +kernel⟩,
   ⟨linked act, by decide +kernel⟩,
   ⟨{ sby with pair := { sby.pair with doubt := true } }, by decide +kernel⟩,
   ⟨{ sby with claim := { sby.claim with partner := true } }, by decide +kernel⟩⟩

theorem witness_DeltasAndImages :
    (∃ (h : LinkHdr) (m : Mode) (s : State), FrameTaken 0x02 h m s) ∧
    (∃ (h : LinkHdr) (m : Mode) (s : State), FrameTaken 0x10 h m s) ∧
    (∃ (d : DeltaMsg) (s : State), (d.count ≠ d.records.length ∨ d.crc ≠ deltaCrc d.records ∨ d.closeSeq ≠ s.pair.closeSeq + 1 ∨ d.cycle ≠ (s.task d.task).cycle + 1)) ∧
    (∃ (d : DeltaMsg) (s : State), d.count = d.records.length ∧ d.crc = deltaCrc d.records ∧ d.closeSeq = s.pair.closeSeq + 1 ∧ d.cycle = (s.task d.task).cycle + 1 ∧ s.exch.progress = .none ∧ d.carryCrc = none) ∧
    (∃ (h : LinkHdr) (task : Fin 8) (s : State), FrameTaken 0x11 h .standby s ∧ h.hdr.stale = false ∧ s.pair.partnerMode = some .standby ∧ s.mode = .active ∧ task.val ∈ s.pair.awaitingDelta ∧ (s.task task).phase = .awaitDelta) ∧
    (∃ (h : LinkHdr) (m : Mode) (s : State), FrameTaken 0x20 h m s) ∧
    (∃ (h : LinkHdr) (m : Mode) (s : State), FrameTaken 0x30 h m s) :=
  ⟨⟨frm 0x02 .standby [], .standby, linked act, by unfold FrameTaken; decide +kernel⟩,
   ⟨frm 0x10 .active [], .active, linked sby, by unfold FrameTaken; decide +kernel⟩,
   ⟨{ delta0 with cycle := 2 }, linked sby, by decide +kernel⟩,
   ⟨delta0, linked sby, by decide +kernel⟩,
   ⟨frm 0x11 .standby [], 1, task { Task.reset with phase := .awaitDelta } (linked { act with pair := { act.pair with awaitingDelta := [1] } }), by unfold FrameTaken; decide +kernel⟩,
   ⟨frm 0x20 .active [], .active, linked sby, by unfold FrameTaken; decide +kernel⟩,
   ⟨frm 0x30 .active [], .active, linked sby, by unfold FrameTaken; decide +kernel⟩⟩

theorem witness_Resynchronisation :
    (∃ (h : LinkHdr) (m : Mode) (s : State), FrameTaken 0x40 h m s) ∧
    (∃ (h : LinkHdr) (m : Mode) (s : State), FrameTaken 0x40 h m s) ∧
    (∃ (h : LinkHdr) (m : Mode) (s : State), FrameTaken 0x41 h m s) ∧
    (∃ (h : LinkHdr) (m : Mode) (s : State), FrameTaken 0x42 h m s) ∧
    (∃ (h : LinkHdr) (m : Mode) (s : State), FrameTaken 0x43 h m s) :=
  ⟨⟨frm 0x40 .active [], .active, linked act, by unfold FrameTaken; decide +kernel⟩,
   ⟨frm 0x40 .standby [], .standby, linked act, by unfold FrameTaken; decide +kernel⟩,
   ⟨frm 0x41 .active [], .active, linked sby, by unfold FrameTaken; decide +kernel⟩,
   ⟨frm 0x42 .active [], .active, linked sby, by unfold FrameTaken; decide +kernel⟩,
   ⟨frm 0x43 .active [], .active, linked sby, by unfold FrameTaken; decide +kernel⟩⟩

theorem witness_CycleOfATask :
    (∃ (task : Fin 8) (s : State), s.mode = .active ∧ s.claim.confirmed = true ∧ s.mayFreeze task = true ∧ ((∀ j, j < task.val → s.mayFreeze j = false)) ∧ s.handingOver = false) ∧
    (∃ (s : State), s.mode = .standby ∧ s.dueNow 0 = true) ∧
    (∃ (task : Fin 8) (c : TaskCfg) (s : State), s.mode = .active ∧ s.claim.confirmed = true ∧ s.taskCfg task = some c ∧ (s.task task).phase = .ready ∧ c.aligned = false) ∧
    (∃ (task : Fin 8) (c : TaskCfg) (s : State), s.mode = .active ∧ s.claim.confirmed = true ∧ s.taskCfg task = some c ∧ (s.task task).phase = .ready ∧ c.aligned = true ∧ s.budgetOver task c = true) ∧
    (∃ (task : Fin 8) (c : TaskCfg) (s : State), s.mode = .active ∧ s.claim.confirmed = true ∧ s.taskCfg task = some c ∧ (s.task task).phase = .ready ∧ c.aligned = true ∧ s.budgetOver task c = false) ∧
    (∃ (task : Fin 8) (c : TaskCfg) (s : State), s.mode = .active ∧ s.claim.confirmed = true ∧ s.taskCfg task = some c ∧ (s.task task).phase = .ready ∧ c.aligned = true) ∧
    (∃ (i : Nat), i < 8) ∧
    (∃ (i : Nat) (s : State), i < 8 ∧ s.partnered = true) ∧
    (∃ (i : Nat) (s : State), i < 8 ∧ s.partnered = false) :=
  ⟨⟨0, act, by decide +kernel⟩,
   ⟨sby, by decide +kernel⟩,
   ⟨0, task0, task { Task.reset with phase := .ready } act, by decide +kernel⟩,
   ⟨1, { task0 with aligned := true, lanes := [1] }, clock { TimeBase.reset with ran := 125000 * 2 ^ 32 } (task { Task.reset with phase := .ready } act), by decide +kernel⟩,
   ⟨1, { task0 with aligned := true, lanes := [1] }, clock { TimeBase.reset with ran := 125000 * 2 ^ 32 - 1 } (task { Task.reset with phase := .ready } act), by decide +kernel⟩,
   ⟨1, { task0 with aligned := true, lanes := [1] }, clock { TimeBase.reset with ran := 125000 * 2 ^ 32 - 1 } (task { Task.reset with phase := .ready } act), by decide +kernel⟩,
   ⟨7, by decide +kernel⟩,
   ⟨7, linked { act with pair := { act.pair with partnerCurrent := true } }, by decide +kernel⟩,
   ⟨0, act, by decide +kernel⟩⟩

theorem witness_OverrunAndPace :
    (∃ (task : Fin 8) (c : TaskCfg) (s : State), s.mode = .active ∧ s.claim.confirmed = true ∧ s.taskCfg task = some c ∧ (s.task task).phase ≠ .idle ∧ (c.aligned = false ∨ (s.task task).phase ≠ .ready) ∧ s.budgetOver task c = true) ∧
    (∃ (task : Fin 8) (c : TaskCfg) (s : State), s.mode = .active ∧ s.claim.confirmed = true ∧ s.taskCfg task = some c ∧ (s.task task).phase ≠ .idle ∧ (c.aligned = false ∨ (s.task task).phase ≠ .ready) ∧ s.budgetOver task c = false) ∧
    (∃ (l : Nat) (c : Nat) (m : Nat) (s : State), (s.mode = .active ∨ s.mode = .standby) ∧ l < 16 ∧ c < 2 ∧ m < 65536) :=
  ⟨⟨0, task0, clock { TimeBase.reset with ran := 125000 * 2 ^ 32 } (task { Task.reset with phase := .ready } act), by decide +kernel⟩,
   ⟨0, task0, clock { TimeBase.reset with ran := 125000 * 2 ^ 32 - 1 } (task { Task.reset with phase := .ready } act), by decide +kernel⟩,
   ⟨15, 1, 65535, sby, by decide +kernel⟩⟩

set_option maxRecDepth 20000 in
theorem witness_LanesCompared :
    (∃ (lane : Fin 16) (copy : Fin 2) (s : State), s.laneRuns lane ≠ none ∧ (s.lane lane).gateLog[(gotOf copy (s.lane lane)).length]? = none ∧ (s.lane lane).gateLog.length < 256) ∧
    (∃ (lane : Fin 16) (copy : Fin 2) (s : State), s.laneRuns lane ≠ none ∧ (s.lane lane).gateLog[(gotOf copy (s.lane lane)).length]? = none ∧ 256 ≤ (s.lane lane).gateLog.length) ∧
    (∃ (lane : Fin 16) (copy : Fin 2) (request : DWord) (e : GateEntry) (s : State), s.laneRuns lane ≠ none ∧ (s.lane lane).gateLog[(gotOf copy (s.lane lane)).length]? = some e ∧ e.request = request) ∧
    (∃ (lane : Fin 16) (copy : Fin 2) (request : DWord) (e : GateEntry) (s : State), s.laneRuns lane ≠ none ∧ (s.lane lane).gateLog[(gotOf copy (s.lane lane)).length]? = some e ∧ e.request ≠ request ∧ (s.lane lane).mismatch = none) ∧
    (∃ (lane : Fin 16) (copy : Fin 2) (request : DWord) (e : GateEntry) (s : State) (m : Mismatch), s.laneRuns lane ≠ none ∧ (s.lane lane).gateLog[(gotOf copy (s.lane lane)).length]? = some e ∧ e.request ≠ request ∧ (s.lane lane).mismatch = some m) ∧
    (∃ (lane : Fin 16) (i : Nat) (b : Nat) (s : State), (s.lane lane).task = some i ∧ (s.lane lane).block = some b ∧ (s.lane lane).waiting = true ∧ s.barrierOpen i b = true) ∧
    (∃ (lane : Fin 16) (i : Nat) (b : Nat) (s : State), (s.lane lane).task = some i ∧ (s.lane lane).block = some b ∧ (s.lane lane).waiting = true ∧ s.barrierOpen i b = false) ∧
    (∃ (lane : Fin 16) (s : State), (s.lane lane).starting = true) ∧
    (∃ (c : Checkpoint) (i : Nat) (s : State), s.laneRuns c.lane = some i ∧ (s.lane c.lane).mismatch = none ∧ (s.lane c.lane).block = some c.block ∧ s.ckptFalls c = false) ∧
    (∃ (c : Checkpoint) (i : Nat) (s : State), s.laneRuns c.lane = some i ∧ (s.lane c.lane).mismatch = none ∧ (s.lane c.lane).block = some c.block ∧ s.ckptFalls c = true ∧ s.flaky c.lane = true) ∧
    (∃ (c : Checkpoint) (i : Nat) (s : State), s.laneRuns c.lane = some i ∧ (s.lane c.lane).mismatch = none ∧ (s.lane c.lane).block = some c.block ∧ s.ckptFalls c = true ∧ s.flaky c.lane = false ∧ (noteLag c s).bothRefused c = false ∧ (noteLag c s).oneRefused c = false ∧ (noteLag c s).injected c.lane = (false, false) ∧ (noteLag c s).compareAt c (false, false) = 0) ∧
    (∃ (c : Checkpoint) (i : Nat) (s : State), s.laneRuns c.lane = some i ∧ (s.lane c.lane).mismatch = none ∧ (s.lane c.lane).block = some c.block ∧ s.ckptFalls c = true ∧ s.flaky c.lane = false ∧ (noteLag c s).bothRefused c = false ∧ (noteLag c s).oneRefused c = false ∧ (noteLag c s).injected c.lane = (false, false) ∧ (noteLag c s).compareAt c (false, false) ≠ 0) ∧
    (∃ (c : Checkpoint) (i : Nat) (s : State), s.laneRuns c.lane = some i ∧ (s.lane c.lane).mismatch = none ∧ (s.lane c.lane).block = some c.block ∧ s.ckptFalls c = true ∧ s.flaky c.lane = false ∧ (noteLag c s).bothRefused c = true) ∧
    (∃ (c : Checkpoint) (i : Nat) (m : Mismatch) (s : State), s.laneRuns c.lane = some i ∧ (s.lane c.lane).mismatch = some m ∧ (s.lane c.lane).block = some c.block ∧ s.ckptFalls c = true ∧ m.diff < 128 ∧ (noteLag c s).injected c.lane = (false, false) ∧ (noteLag c s).bothRefused c = false ∧ (noteLag c s).oneRefused c = false ∧ (noteLag c s).compareAt c (false, false) = 0) ∧
    (∃ (c : Checkpoint) (i : Nat) (m : Mismatch) (s : State), s.laneRuns c.lane = some i ∧ (s.lane c.lane).mismatch = some m ∧ (s.lane c.lane).block = some c.block ∧ s.ckptFalls c = true ∧ m.diff < 128 ∧ (noteLag c s).injected c.lane = (false, false) ∧ (noteLag c s).bothRefused c = false ∧ (noteLag c s).oneRefused c = false ∧ (noteLag c s).compareAt c (false, false) ≠ 0) ∧
    (∃ (a : CopyReport) (b : CopyReport), compareCopies a b false false = 0) :=
  ⟨⟨0, 0, running act, by decide +kernel⟩,
   ⟨0, 0, task { Task.reset with phase := .execute } (lane { run0 with gateLog := List.replicate 256 ⟨0#64, 0#64⟩, gotA := List.replicate 256 (0#64, 0#64) } act), by decide +kernel⟩,
   ⟨0, 1, 1#64, ⟨1#64, 3#64⟩, task { Task.reset with phase := .execute } (lane { run0 with gateLog := [⟨1#64, 3#64⟩] } act), by decide +kernel⟩,
   ⟨0, 1, 2#64, ⟨1#64, 3#64⟩, task { Task.reset with phase := .execute } (lane { run0 with gateLog := [⟨1#64, 3#64⟩] } act), by decide +kernel⟩,
   ⟨0, 1, 2#64, ⟨1#64, 3#64⟩, task { Task.reset with phase := .execute } (lane { run0 with gateLog := [⟨1#64, 3#64⟩], mismatch := some ⟨1, 1, 0#64, 0⟩ } act), ⟨1, 1, 0#64, 0⟩, by decide +kernel⟩,
   ⟨0, 0, 0, lane { run0 with waiting := true } act, by decide +kernel⟩,
   ⟨0, 0, 1, lane { run0 with waiting := true, block := some 1 } act, by decide +kernel⟩,
   ⟨0, lane { run0 with starting := true } act, by decide +kernel⟩,
   ⟨{ ck 1#64 1#64 with cause := .storeFull }, 0, running act, by decide +kernel⟩,
   ⟨ck 1#64 1#64, 0, (running act).put Reg.CMP_CTRL_FLAKY_LIMIT 0, by decide +kernel⟩,
   ⟨ck 1#64 1#64, 0, running act, by decide +kernel⟩,
   ⟨ck 1#64 2#64, 0, running act, by decide +kernel⟩,
   ⟨{ ck 1#64 1#64 with opsA := [refused], opsB := [refused] }, 0, lmpu (running act), by decide +kernel⟩,
   ⟨ck 1#64 1#64, 0, ⟨127, 1, 0#64, 0⟩, task { Task.reset with phase := .execute } (lane { run0 with mismatch := some ⟨127, 1, 0#64, 0⟩ } act), by decide +kernel⟩,
   ⟨ck 1#64 2#64, 0, ⟨127, 1, 0#64, 0⟩, task { Task.reset with phase := .execute } (lane { run0 with mismatch := some ⟨127, 1, 0#64, 0⟩ } act), by decide +kernel⟩,
   ⟨rep 1#64, rep 1#64, by decide +kernel⟩⟩

theorem witness_MemoryErrorsAndComparison :
    (∃ (n : Nat) (s : State), (s.mode = .active ∨ s.mode = .standby) ∧ n < 16) ∧
    (∃ (n : Nat) (s : State), (s.mode = .active ∨ s.mode = .standby) ∧ n < 16 ∧ s.laneOk n = true) ∧
    (∃ (s : State), s.mode = .active) ∧
    (∃ (s : State), s.powered = true) ∧
    (∃ (s : State), (s.mode = .active ∨ s.mode = .standby)) ∧
    (∃ (lane : Fin 16) (first : VectorRun) (s : State), s.visits lane = true ∧ s.flaky lane = false ∧ (s.lane lane).inject = none ∧ vectorDiff first (false, false) = 0) ∧
    (∃ (lane : Fin 16) (first : VectorRun) (second : VectorRun) (s : State), s.visits lane = true ∧ s.flaky lane = false ∧ (s.lane lane).inject = none ∧ vectorDiff first (false, false) ≠ 0 ∧ vectorDiff second (false, false) = 0) ∧
    (∃ (lane : Fin 16) (first : VectorRun) (second : VectorRun) (s : State), s.visits lane = true ∧ s.flaky lane = false ∧ (s.lane lane).inject = none ∧ vectorDiff first (false, false) ≠ 0 ∧ vectorDiff second (false, false) ≠ 0) ∧
    (∃ (o : Origin) (s : State), s.powered = true ∧ serviceOk s o = true) ∧
    (∃ (o : Origin) (s : State), s.powered = true ∧ serviceOk s o = false) ∧
    (∃ (k : Nat) (s : State), s.powered = true ∧ serviceOk s (.svc k) = true) ∧
    (∃ (o : Origin) (s : State), s.powered = true ∧ isSvc o = false) :=
  ⟨⟨15, act, by decide +kernel⟩,
   ⟨15, act, by decide +kernel⟩,
   ⟨act, by decide +kernel⟩,
   ⟨act, by decide +kernel⟩,
   ⟨sby, by decide +kernel⟩,
   ⟨15, ⟨rep 1#64, rep 1#64, rep 1#64⟩, sby, by decide +kernel⟩,
   ⟨15, ⟨rep 1#64, rep 1#64, rep 2#64⟩, ⟨rep 1#64, rep 1#64, rep 1#64⟩, sby, by decide +kernel⟩,
   ⟨15, ⟨rep 1#64, rep 1#64, rep 2#64⟩, ⟨rep 1#64, rep 2#64, rep 2#64⟩, sby, by decide +kernel⟩,
   ⟨.mgmt 0, act, by decide +kernel⟩,
   ⟨.svc 1, act, by decide +kernel⟩,
   ⟨1, talk srv act, by decide +kernel⟩,
   ⟨.plant 1, act, by decide +kernel⟩⟩

theorem witness_SignalBoxPass :
    (∃ (s : State), s.sbxRuns = true) ∧
    (∃ (s : State), s.sbxRuns = false) ∧
    (∃ (a : Bool) (b : Bool), a ≠ b) ∧
    (∃ (pk : Nat) (now : Nat) (since : Nat) (x : EqState), x.trueSince = some since ∧ pk ≤ now - since) ∧
    (∃ (x : EqState), x.latched = true) ∧
    (∃ (since : Nat) (x : EqState), x.latched = false ∧ x.falseSince = some since) :=
  ⟨⟨act, by decide +kernel⟩,
   ⟨off, by decide +kernel⟩,
   ⟨true, false, by decide +kernel⟩,
   ⟨10, 15, 5, { EqState.reset with trueSince := some 5 }, by decide +kernel⟩,
   ⟨{ EqState.reset with latched := true }, by decide +kernel⟩,
   ⟨5, { EqState.reset with falseSince := some 5 }, by decide +kernel⟩⟩

theorem witness_SignalBoxCommands :
    (∃ (e : Fin 512) (c : EqCfg) (s : State), s.sbxRuns = true ∧ s.eqCfg e = some c ∧ s.eqArmed e = true ∧ s.lasted (s.eqPickupUs e) (Tab.getD s.sbox.voted e EqState.reset).trueSince = true) ∧
    (∃ (e : Fin 512) (c : EqCfg) (s : State), s.sbxRuns = true ∧ s.eqCfg e = some c ∧ s.eqArmed e = true ∧ s.lasted (s.eqPickupUs e) (Tab.getD s.sbox.voted e EqState.reset).trueSince = false) ∧
    (∃ (e : Fin 512) (s : State), s.sbxRuns = true ∧ s.lasted (s.eqDropoutMs e * 1000) (Tab.getD s.sbox.voted e EqState.reset).falseSince = true ∧ (Tab.getD s.sbox.voted e EqState.reset).latched = false) ∧
    (∃ (e : Fin 512) (s : State), s.sbxRuns = true ∧ s.lasted (s.eqDropoutMs e * 1000) (Tab.getD s.sbox.voted e EqState.reset).falseSince = true ∧ (Tab.getD s.sbox.voted e EqState.reset).latched = true) ∧
    (∃ (s : State), s.powered = true) ∧
    (∃ (o : Origin) (s : State), s.powered = true ∧ isLane o = false) ∧
    (∃ (v : Fin 3) (s : State), s.sbxRuns = true ∧ v.val ∈ s.sbox.evalOk) ∧
    (∃ (c : Fin 192) (s : State), s.sbxRuns = true ∧ s.termUses 2 c = true ∧ s.calibrating (c.val / 2) = false ∧ (Tab.getD s.sbox.acmp c AcmpState.reset).failed = false) ∧
    (∃ (c : Fin 256) (s : State), s.sbxRuns = true ∧ (findKey s.sbox.table.svcs c.val).isSome = true ∧ (Tab.getD s.sbox.svc c SvcState.reset).failed = false) :=
  ⟨⟨0, eq0, eqs { EqState.reset with cond := true, trueSince := some 0 } act, by decide +kernel⟩,
   ⟨0, eq0, act, by decide +kernel⟩,
   ⟨511, { act with sbox := { act.sbox with voted := [(511, { EqState.reset with falseSince := some 0 })] } }, by decide +kernel⟩,
   ⟨0, eqs { EqState.reset with latched := true, falseSince := some 0 } act, by decide +kernel⟩,
   ⟨act, by decide +kernel⟩,
   ⟨.mgmt 0, act, by decide +kernel⟩,
   ⟨2, act, by decide +kernel⟩,
   ⟨0, act, by decide +kernel⟩,
   ⟨0, act, by decide +kernel⟩⟩

theorem witness_DiscreteChannels :
    (∃ (ch : Fin 96) (level : Bool) (c : ChanCfg) (s : State), s.chansRun = true ∧ s.chanCfg ch = some c ∧ c.mode = .di ∧ c.pulsed = false ∧ (s.chan ch).filtered ≠ level) ∧
    (∃ (ch : Fin 96) (s : State), s.chansRun = true ∧ (s.chan ch).debouncing = true) ∧
    (∃ (ch : Fin 96) (level : Bool) (c : ChanCfg) (s : State), s.chansRun = true ∧ s.chanCfg ch = some c ∧ c.mode = .di ∧ c.pulsed = true ∧ (s.chan ch).stateDi ≠ level) ∧
    (∃ (ch : Fin 96) (s : State), s.isDo ch = true ∧ (s.chan ch).doState = .on) ∧
    (∃ (ch : Fin 96) (s : State), s.isDo ch = true ∧ (s.chan ch).doState = .limit) ∧
    (∃ (ch : Fin 96) (s : State), s.isDo ch = true ∧ ((s.chan ch).doState = .on ∨ (s.chan ch).doState = .limit) ∧ (s.chan ch).hot s.time.tick = false) ∧
    (∃ (ch : Fin 96) (s : State), s.isDo ch = true ∧ (s.chan ch).doState = .on ∧ (s.chan ch).hot s.time.tick = true ∧ (recent60 s.time.tick (s.chan ch).thermals).length < 7) ∧
    (∃ (ch : Fin 96) (s : State), s.isDo ch = true ∧ (s.chan ch).doState = .on ∧ (s.chan ch).hot s.time.tick = true ∧ 7 ≤ (recent60 s.time.tick (s.chan ch).thermals).length) ∧
    (∃ (ch : Fin 96) (s : State), s.isDo ch = true ∧ (s.chan ch).doState = .thermal ∧ (s.chan ch).cmdOn = true ∧ (s.chan ch).thermals.all (fun x => decide (x + ticksOfMs 100 ≤ s.time.tick)) = true) ∧
    (∃ (ch : Fin 96) (s : State), s.isDo ch = true ∧ (s.chan ch).doState = .thermal ∧ (s.chan ch).cmdOn = false) ∧
    (∃ (ch : Fin 96) (s : State), s.isDo ch = true ∧ (s.chan ch).doState = .locked ∧ (s.chan ch).cmdOn = false ∧ (s.chan ch).offPeriods < 2) ∧
    (∃ (ch : Fin 96) (s : State), s.isDo ch = true ∧ (s.chan ch).doState = .locked ∧ (s.chan ch).cmdOn = false ∧ 2 ≤ (s.chan ch).offPeriods) :=
  ⟨⟨0, true, ch0, act, by decide +kernel⟩,
   ⟨95, chan 95 { Chan.reset with debouncing := true } act, by decide +kernel⟩,
   ⟨1, true, { ch0 with pulsed := true }, act, by decide +kernel⟩,
   ⟨2, chan 2 { Chan.reset with doState := .on } act, by decide +kernel⟩,
   ⟨2, chan 2 { Chan.reset with doState := .limit } act, by decide +kernel⟩,
   ⟨2, chan 2 { Chan.reset with doState := .on } act, by decide +kernel⟩,
   ⟨2, chan 2 { Chan.reset with doState := .on, lastHeld := some 0, thermals := [0, 0, 0, 0, 0, 0] } act, by decide +kernel⟩,
   ⟨2, chan 2 { Chan.reset with doState := .on, lastHeld := some 0, thermals := [0, 0, 0, 0, 0, 0, 0] } act, by decide +kernel⟩,
   ⟨2, chan 2 { Chan.reset with doState := .thermal, cmdOn := true } act, by decide +kernel⟩,
   ⟨2, chan 2 { Chan.reset with doState := .thermal } act, by decide +kernel⟩,
   ⟨2, chan 2 { Chan.reset with doState := .locked, offPeriods := 1 } act, by decide +kernel⟩,
   ⟨2, chan 2 { Chan.reset with doState := .locked, offPeriods := 2 } act, by decide +kernel⟩⟩

theorem witness_AnalogueChannelsAndFaults :
    (∃ (ch : Fin 96) (s : State), s.chansRun = true ∧ s.chanMode ch = .ao ∧ (s.chan ch).driven = true) ∧
    (∃ (ch : Fin 96) (ua : Nat) (s : State), s.chansRun = true ∧ s.chanMode ch = .ao ∧ (s.chan ch).driven = true ∧ s.vmax ch ≤ (s.chan ch).supplyMv ∧ ua + 24 < (s.chan ch).cmdUa ∧ (s.chan ch).compliance = false) ∧
    (∃ (ch : Fin 96) (ua : Nat) (s : State), s.chansRun = true ∧ s.chanMode ch = .ao ∧ (s.chan ch).driven = true ∧ s.vmax ch ≤ (s.chan ch).supplyMv ∧ 1000 ≤ (s.chan ch).cmdUa ∧ ua < 200 ∧ (s.chan ch).openLoop = false) ∧
    (∃ (ch : Fin 96) (c : ChanCfg) (s : State), s.chansRun = true ∧ s.chanCfg ch = some c ∧ c.mode = .ci ∧ c.liveZero = true ∧ (s.chan ch).liveZeroLost = false) ∧
    (∃ (s : State), s.chansRun = true) ∧
    (∃ (p : Fin 8) (s : State), s.chansRun = true ∧ s.get (Reg.CH_STATUS_COMMON_FAULT p) = 1) ∧
    (∃ (p : Fin 8) (s : State), s.chansRun = true ∧ s.get (Reg.CH_STATUS_COMMON_FAULT p) ≠ 1) ∧
    (∃ (o : Origin) (s : State), s.chansRun = true ∧ serviceOk s o = true) ∧
    (∃ (p : Nat) (s : State), p < 8 ∧ s.mode = .active ∧ s.fieldGood p = false ∧ s.critMask p = 2) ∧
    (∃ (p : Nat) (s : State), p < 8 ∧ s.critMask p = 0) :=
  ⟨⟨3, chan 3 { Chan.reset with driven := true } act, by decide +kernel⟩,
   ⟨3, 975, chan 3 { Chan.reset with driven := true, cmdUa := 1000, supplyMv := 26000 } act, by decide +kernel⟩,
   ⟨3, 199, chan 3 { Chan.reset with driven := true, cmdUa := 1000, supplyMv := 26000 } act, by decide +kernel⟩,
   ⟨4, { ch0 with mode := .ci, liveZero := true }, act, by decide +kernel⟩,
   ⟨act, by decide +kernel⟩,
   ⟨7, act.put (Reg.CH_STATUS_COMMON_FAULT 7) 1, by decide +kernel⟩,
   ⟨7, act, by decide +kernel⟩,
   ⟨.mgmt 0, act, by decide +kernel⟩,
   ⟨1, { act with carrier := { act.carrier with fld1Mv := 19199 } }, by decide +kernel⟩,
   ⟨7, act, by decide +kernel⟩⟩

theorem witness_ResultsAndPeriods :
    (∃ (e : QEntry) (s : State), s.conv.queue.length < 4096 ∧ (e.channel, e.kind) ∉ s.conv.lostBefore) ∧
    (∃ (s : State), 4096 ≤ s.conv.queue.length) ∧
    (∃ (o : Origin) (s : State), s.powered = true ∧ serviceOk s o = true) ∧
    (∃ (s : State), s.chansRun = true ∧ s.effectOver 5 = true ∧ s.defsNow.filter (fun e => !e.2.sv) = []) ∧
    (∃ (s : State), s.chansRun = true ∧ s.effectOver 5 = true ∧ s.acqRuns = false) ∧
    (∃ (s : State), s.effectOver 5 = false) ∧
    (∃ (s : State), s.chansRun = true) ∧
    (∃ (ns : Nat) (amp : Nat) (i : Image) (s : State), s.chansRun = true ∧ s.img = some i ∧ i.primary.isSome = true ∧ 10 ≤ amp ∧ 1000000000 ≤ ns * 70 ∧ ns * 40 ≤ 1000000000 ∧ ns * 100 ≤ s.conv.periodNs * 105 ∧ s.conv.periodNs * 95 ≤ ns * 100) ∧
    (∃ (i : Image) (s : State), s.chansRun = true ∧ s.img = some i ∧ i.primary.isSome = true ∧ s.conv.primary.lost = false) ∧
    (∃ (s : State), s.chansRun = true ∧ s.conv.primary.lost = true ∧ s.conv.secondary.lost = true ∧ s.conv.src ≠ 0) :=
  ⟨⟨qe, act, by decide +kernel⟩,
   ⟨{ act with conv := { act.conv with queue := List.replicate 4096 qe } }, by show 4096 ≤ (List.replicate 4096 qe).length; rw [List.length_replicate]⟩,
   ⟨.mgmt 0, act, by decide +kernel⟩,
   ⟨act, by decide +kernel⟩,
   ⟨{ act with acq := { act.acq with running := false } }, by decide +kernel⟩,
   ⟨{ act with upd := { act.upd with regions := [(5, { RegionRec.reset with effectEnd := 1 })] } }, by decide +kernel⟩,
   ⟨act, by decide +kernel⟩,
   ⟨20000000, 10, img, act, by decide +kernel⟩,
   ⟨img, { act with conv := { act.conv with primary := { PeriodState.reset with lost := false } } }, by decide +kernel⟩,
   ⟨{ act with conv := { act.conv with src := 1 } }, by decide +kernel⟩⟩

theorem witness_Calibration :
    (∃ (o : Origin) (s : State), s.powered = true ∧ serviceOk s o = true) ∧
    (∃ (s : State), s.chansRun = true ∧ s.conv.cal.phase = .taking ∧ s.conv.cal.takes.length = 16) ∧
    (∃ (s : State), s.chansRun = true ∧ s.conv.cal.lastAt + ticksOfMs 1800000 ≤ s.time.tick) ∧
    (∃ (ch : Nat) (s : State), s.conv.cal.phase = .idle ∧ (s.tt (ch / 12)).window = 0) ∧
    (∃ (s : State), s.conv.cal.phase ≠ .idle) ∧
    (∃ (ch : Nat) (s : State), s.conv.cal.channel = ch ∧ s.conv.cal.phase = .started) ∧
    (∃ (ch : Nat) (s : State), s.conv.cal.channel = ch ∧ s.conv.cal.phase ≠ .idle) ∧
    (∃ (ch : Nat) (cmd : Nat) (s : State), s.conv.cal.channel ≠ ch ∧ 2 ≤ cmd ∧ cmd ≠ 4) :=
  ⟨⟨.mgmt 0, act, by decide +kernel⟩,
   ⟨{ act with conv := { act.conv with cal := { Cal.reset with phase := .taking, takes := List.replicate 16 0#64 } } }, by decide +kernel⟩,
   ⟨clock { TimeBase.reset with tick := 225000000000 } act, by decide +kernel⟩,
   ⟨95, act, by decide +kernel⟩,
   ⟨{ act with conv := { act.conv with cal := { Cal.reset with phase := .started } } }, by decide +kernel⟩,
   ⟨95, { act with conv := { act.conv with cal := { Cal.reset with phase := .started, channel := 95 } } }, by decide +kernel⟩,
   ⟨95, { act with conv := { act.conv with cal := { Cal.reset with phase := .started, channel := 95 } } }, by decide +kernel⟩,
   ⟨95, 2, act, by decide +kernel⟩⟩

theorem witness_TurntableVisits :
    (∃ (p : Fin 8) (s : State) (c : Nat) (rest : List Nat), s.chansRun = true ∧ s.mode ≠ .terminus ∧ (s.tt p).faulty = false ∧ (s.tt p).window = 0 ∧ (s.tt p).checkLeft = 0 ∧ s.conv.cal.phase = .idle ∧ (s.tt p).queue = c :: rest) ∧
    (∃ (p : Fin 8) (s : State), s.chansRun = true ∧ s.mode ≠ .terminus ∧ (s.tt p).faulty = false ∧ (s.tt p).window = 0 ∧ (s.tt p).checkLeft = 0 ∧ s.conv.cal.phase = .idle ∧ (s.tt p).queue = []) ∧
    (∃ (o : Origin) (s : State), s.powered = true ∧ serviceOk s o = true) ∧
    (∃ (s : State), s.chansRun = true ∧ s.conv.adopted ≠ [] ∧ s.recent10 s.mram.calWrittenAt = false) ∧
    (∃ (s : State), s.recent10 s.mram.calWrittenAt = true) :=
  ⟨⟨7, { act with conv := { act.conv with tts := [(7, { Turntable.reset with queue := [84] })] } }, 84, [], by decide +kernel⟩,
   ⟨7, act, by decide +kernel⟩,
   ⟨.mgmt 0, act, by decide +kernel⟩,
   ⟨{ act with conv := { act.conv with adopted := [0] } }, by decide +kernel⟩,
   ⟨{ act with mram := { act.mram with calWrittenAt := some 0 } }, by decide +kernel⟩⟩

theorem witness_RecorderTriggers :
    (∃ (t : Nat) (fine : Fin 32) (rising : Bool) (c : TrigCfg) (s : State), s.acqRuns = true ∧ findKey (s.cfgList (·.triggers)) t = some c ∧ c.kind = 1 ∧ edgeTaken c rising = true ∧ s.acmpTriggers c.source = true ∧ s.edgeApart c.source (s.edgeInstant c.source fine) = true) ∧
    (∃ (t : Nat) (fine : Fin 32) (rising : Bool) (c : TrigCfg) (s : State), s.acqRuns = true ∧ findKey (s.cfgList (·.triggers)) t = some c ∧ c.kind = 1 ∧ (edgeTaken c rising = false ∨ s.acmpTriggers c.source = false ∨ s.edgeApart c.source (s.edgeInstant c.source fine) = false)) ∧
    (∃ (t : Nat) (c : TrigCfg) (s : State) (d : Stamp × Bool) (rest : List (Stamp × Bool)), s.acqRuns = true ∧ findKey (s.cfgList (·.triggers)) t = some c ∧ c.kind ≠ 1 ∧ (s.trig t).due = d :: rest) ∧
    (∃ (t : Nat) (v : Int) (c : TrigCfg) (x : Int × Stamp) (s : State), (s.trig t).crossed = none ∧ (s.trig t).last = some x ∧ x.1 < (s.svLevel t c).1 ∧ (s.svLevel t c).1 ≤ v ∧ edgeTaken c true = true) ∧
    (∃ (o : Origin) (s : State), s.acqRuns = true ∧ serviceOk s o = true ∧ isLane o = false) ∧
    (∃ (o : Origin) (s : State) (n : Nat) (task : Nat), s.acqRuns = true ∧ serviceOk s o = true ∧ o = .lane n ∧ (s.lane n).task = some task) ∧
    (∃ (d : Nat) (c : DefCfg) (s : State), d < 16 ∧ s.defCfg d = some c ∧ (s.defState d).armed = true ∧ (s.defState d).rearming = true) ∧
    (∃ (d : Nat) (c : DefCfg) (s : State), d < 16 ∧ s.defCfg d = some c ∧ (s.defState d).armed = true ∧ (s.defState d).rearming = false ∧ (s.defState d).seg = none ∧ (s.defState d).closing = none ∧ defCapacity c ≤ s.segsUsed d) ∧
    (∃ (d : Nat) (c : DefCfg) (s : State), d < 16 ∧ s.defCfg d = some c ∧ (s.defState d).armed = true ∧ (s.defState d).rearming = false ∧ (s.defState d).seg = none ∧ (s.defState d).closing = none ∧ s.segsUsed d < defCapacity c ∧ s.acq.openSecond = s.second ∧ s.acq.openCount < 100) ∧
    (∃ (d : Nat) (s : State), (s.defState d).armed = false) :=
  ⟨⟨0, 31, true, { trig0 with kind := 1 }, trg { trig0 with kind := 1 } act, ⟨rfl, rfl, rfl, rfl, rfl, rfl⟩⟩,
   ⟨0, 31, false, { trig0 with kind := 1 }, trg { trig0 with kind := 1 } act, ⟨rfl, rfl, rfl, .inl rfl⟩⟩,
   ⟨0, trig0, { act with acq := { act.acq with trigs := [(0, { TrigState.reset with due := [(Stamp.zero, true)] })] } }, (Stamp.zero, true), [], by decide +kernel⟩,
   ⟨1, 0, { trig0 with kind := 2 }, (-1, Stamp.zero), { act with acq := { act.acq with trigs := [(1, { TrigState.reset with last := some (-1, Stamp.zero) })] } }, by decide +kernel⟩,
   ⟨.mgmt 0, act, by decide +kernel⟩,
   ⟨.lane 0, act, 0, 0, by decide +kernel⟩,
   ⟨0, def0, recd { armed0 with rearming := true } act, by decide +kernel⟩,
   ⟨0, { def0 with allotMib := 0 }, recd { armed0 with cfg := some { def0 with allotMib := 0 } } act, by decide +kernel⟩,
   ⟨0, def0, recd armed0 { act with acq := { act.acq with openCount := 99 } }, by decide +kernel⟩,
   ⟨0, act, by decide +kernel⟩⟩

theorem witness_SegmentsAndRecords :
    (∃ (d : Fin 16) (g : Segment) (r : Record) (c : DefCfg) (s : State), s.acqRuns = true ∧ (s.defState d).seg = some g ∧ (s.defState d).record = some r ∧ s.defCfg d = some c ∧ segDone g = true ∧ (s.defState d).closing = none ∧ r.segments.length + 1 < c.segsPerRecord ∧ segMissing g = 0) ∧
    (∃ (d : Fin 16) (s : State), s.acqRuns = true ∧ (s.defState d).rearming = true ∧ (s.defState d).held = []) ∧
    (∃ (d : Fin 16) (s : State), s.acqRuns = true ∧ (s.defState d).rearming = true) ∧
    (∃ (d : Fin 16) (r : Record) (s : State), s.acqRuns = true ∧ (s.defState d).seg = none ∧ (s.defState d).held = [] ∧ (s.defState d).record = some r) ∧
    (∃ (d : Nat) (r : Record) (s : State), (s.defState d).record = some r ∧ s.heldWrites = []) ∧
    (∃ (o : Origin) (d : Fin 16) (r : Record) (s : State), s.acqRuns = true ∧ serviceOk s o = true ∧ (s.defState d).record = some r ∧ (s.defState d).seg ≠ none) ∧
    (∃ (o : Origin) (d : Fin 16) (r : Record) (s : State), s.acqRuns = true ∧ serviceOk s o = true ∧ (s.defState d).record = some r ∧ (s.defState d).seg = none) ∧
    (∃ (r : Record) (rest : List Record) (s : State), s.acqRuns = true ∧ s.acq.toCommit = r :: rest ∧ s.acq.commitFrom + 8000 * ((recordLen r + 4079) / 4080) ≤ s.time.tick ∧ (s.defState r.definition).rearmAfterCommit = false) ∧
    (∃ (r : Record) (rest : List Record) (s : State), s.acqRuns = true ∧ s.acq.toCommit = r :: rest ∧ s.time.tick < s.acq.commitFrom + 8000 * ((recordLen r + 4079) / 4080)) ∧
    (∃ (s : State), s.acqRuns = true ∧ s.acq.indexReady = false) :=
  ⟨⟨0, seg0, rec0, def0, recd { armed0 with seg := some seg0, record := some rec0 } act, by decide +kernel⟩,
   ⟨0, recd { armed0 with rearming := true } act, by decide +kernel⟩,
   ⟨0, recd { armed0 with rearming := true } act, by decide +kernel⟩,
   ⟨0, rec0, recd { armed0 with record := some rec0 } act, by decide +kernel⟩,
   ⟨0, rec0, recd { armed0 with record := some rec0 } act, by decide +kernel⟩,
   ⟨.mgmt 0, 0, rec0, recd { armed0 with seg := some seg0, record := some rec0 } act, by decide +kernel⟩,
   ⟨.mgmt 0, 0, rec0, recd { armed0 with record := some rec0 } act, by decide +kernel⟩,
   ⟨rec0, [], clock { TimeBase.reset with tick := 8000 } { act with acq := { act.acq with toCommit := [rec0] } }, by decide +kernel⟩,
   ⟨rec0, [], clock { TimeBase.reset with tick := 7999 } { act with acq := { act.acq with toCommit := [rec0] } }, by decide +kernel⟩,
   ⟨act, by decide +kernel⟩⟩

theorem witness_TickOfTheTimebase :
    (∃ (s : State), s.pending = []) ∧
    (∃ (s : State), s.powered = true) ∧
    (∃ (inc : Nat) (c : Stamp), c.ns < 1000000000 ∧ inc < 2 ^ 40 ∧ c.frac < 2 ^ 32 ∧ c.sec + 1 < 2 ^ 48) ∧
    (∃ (inc : Nat) (c : Stamp), c.ns < 1000000000 ∧ inc < 2 ^ 40 ∧ c.frac < 2 ^ 32) ∧
    (∃ (s : State), s.powered = false) ∧
    (∃ (b : Standby), b.stopped = true) :=
  ⟨⟨act, by decide +kernel⟩,
   ⟨act, by decide +kernel⟩,
   ⟨0xFFFFFFFFFF, ⟨0xFFFFFFFFFFFE, 999999999, 0xFFFFFFFF⟩, by decide +kernel⟩,
   ⟨0xFFFFFFFFFF, ⟨0xFFFFFFFFFFFE, 999999999, 0xFFFFFFFF⟩, by decide +kernel⟩,
   ⟨off, by decide +kernel⟩,
   ⟨{ Standby.reset with stopped := true }, by decide +kernel⟩⟩

theorem witness_IncrementLimits :
    (∃ (o : Origin) (b : Byte) (s : State), s.powered = true ∧ timeOrigin s o = true ∧ 0x07FEF9DB23 ≤ (b.toNat * 2 ^ 32 + s.get Reg.TIME_INC_LO_INC_FRAC) ∧ (b.toNat * 2 ^ 32 + s.get Reg.TIME_INC_LO_INC_FRAC) ≤ 0x08010624DD) ∧
    (∃ (o : Origin) (b : Byte) (s : State), s.powered = true ∧ timeOrigin s o = true ∧ ((b.toNat * 2 ^ 32 + s.get Reg.TIME_INC_LO_INC_FRAC) < 0x07FEF9DB23 ∨ 0x08010624DD < (b.toNat * 2 ^ 32 + s.get Reg.TIME_INC_LO_INC_FRAC))) :=
  ⟨⟨.mgmt 0, 8#8, act, by decide +kernel⟩,
   ⟨.mgmt 0, 7#8, act, by decide +kernel⟩⟩

theorem witness_StepsLatchAndServo :
    (∃ (o : Origin) (s : State), s.powered = true ∧ timeOrigin s o = true) ∧
    (∃ (o : Origin) (s : State), s.powered = true ∧ timeOrigin s o = false) ∧
    (∃ (o : Origin) (s : State), s.powered = true ∧ serviceOk s o = true) ∧
    (∃ (o : Origin) (s : State), s.powered = true ∧ timeOrigin s o = true) ∧
    (∃ (o : Origin) (s : State), s.powered = true ∧ timeOrigin s o = true ∧ s.time.quality = 0) ∧
    (∃ (h : Nat) (s : State), s.powered = true ∧ s.time.holdoverSince = some h ∧ s.time.quality ≠ 0 ∧ h + ticksOfMs 5000 ≤ s.time.tick) ∧
    (∃ (h : Nat) (s : State), s.powered = true ∧ s.time.holdoverSince = some h ∧ s.time.quality ≠ 0 ∧ s.time.tick < h + ticksOfMs 5000) :=
  ⟨⟨.mgmt 3, act, by decide +kernel⟩,
   ⟨.plant 1, act, by decide +kernel⟩,
   ⟨.mgmt 0, act, by decide +kernel⟩,
   ⟨.mgmt 0, act, by decide +kernel⟩,
   ⟨.mgmt 0, clock { TimeBase.reset with quality := 0 } act, by decide +kernel⟩,
   ⟨0, clock { TimeBase.reset with quality := 1, holdoverSince := some 0, tick := 625000000 } act, by decide +kernel⟩,
   ⟨0, clock { TimeBase.reset with quality := 1, holdoverSince := some 0, tick := 624999999 } act, by decide +kernel⟩⟩

theorem witness_OscillatorAndPtp :
    (∃ (s : State), s.powered = true ∧ s.time.quality = 0 ∧ s.time.source = 1) ∧
    (∃ (s : State), s.powered = true ∧ s.time.quality ≠ 0) ∧
    (∃ (s : State), s.powered = true ∧ 25920 ≤ s.time.lockedSamples ∧ s.time.qualified = false) ∧
    (∃ (s : State), s.powered = true ∧ s.time.lockedSamples < 25920) ∧
    (∃ (s : State), s.powered = true) ∧
    (∃ (a : OscSlot) (b : OscSlot) (s : State), s.mram.osc = [(0, a), (1, b)]) ∧
    (∃ (temp : Int) (s : State) (off : Int), s.powered = true ∧ s.get Reg.TIME_CTRL_SERVO_EN = 1 ∧ s.time.holdoverSince ≠ none ∧ s.time.qualified = true ∧ modelOffset s.time.bins temp = some off) ∧
    (∃ (temp : Int) (s : State), s.powered = true ∧ s.get Reg.TIME_CTRL_SERVO_EN = 1 ∧ s.time.holdoverSince ≠ none ∧ ((s.time.qualified = false ∨ modelOffset s.time.bins temp = none)) ∧ s.time.lastLockedInc < 2 ^ 40) ∧
    (∃ (s : State), s.powered = true ∧ s.time.quality = 0 ∧ s.standby.stopped = false) ∧
    (∃ (m : PtpMsg) (s : State), (s.powered = false ∨ m.port ∉ s.net.up ∨ m.port = .svc)) ∧
    (∃ (m : PtpMsg) (i : Image) (s : State), s.powered = true ∧ s.img = some i ∧ m.port ∈ s.net.up ∧ m.port ≠ .svc ∧ m.domain ≠ i.net.ptpDomain) ∧
    (∃ (m : PtpMsg) (i : Image) (s : State) (q : Nat) (origin : Nat) (corr : Int), s.powered = true ∧ s.img = some i ∧ m.port ∈ s.net.up ∧ m.port ≠ .svc ∧ m.domain = i.net.ptpDomain ∧ s.mpu.restarting = false ∧ m.slave = false ∧ (s.ptpPort (portCode m.port)).slave = false ∧ m.body = .sync q false origin corr) ∧
    (∃ (m : PtpMsg) (i : Image) (s : State) (q : Nat), s.powered = true ∧ s.img = some i ∧ m.port ∈ s.net.up ∧ m.port ≠ .svc ∧ m.domain = i.net.ptpDomain ∧ s.mpu.restarting = false ∧ m.slave = false ∧ (s.ptpPort (portCode m.port)).slave = false ∧ m.body = .delayReq q) ∧
    (∃ (m : PtpMsg) (i : Image) (s : State) (q : Nat) (origin : Nat) (corr : Int), s.powered = true ∧ s.img = some i ∧ m.port ∈ s.net.up ∧ m.port ≠ .svc ∧ m.domain = i.net.ptpDomain ∧ s.mpu.restarting = false ∧ m.slave = true ∧ (s.ptpPort (portCode m.port)).slave = true ∧ m.body = .sync q false origin corr ∧ s.get Reg.TIME_CTRL_SERVO_EN = 1 ∧ s.time.port = portCode m.port ∧ (s.ptpPort (portCode m.port)).good = 15 ∧ (((ingressStamp m.port m.stamp).1 : Int) - (origin : Int) * 65536 - corr - (s.ptpPort (portCode m.port)).delay).natAbs ≤ 1000 * 65536) ∧
    (∃ (i : Image) (p : Port) (s : State), s.powered = true ∧ s.mpu.restarting = false ∧ s.img = some i ∧ s.net.up = [p] ∧ p ≠ .svc ∧ i.net.ptpPeer = false ∧ (s.ptpPort (portCode p)).slave = true ∧ i.net.ptpBoundary = false) ∧
    (∃ (i : Image) (p : Port) (s : State) (g : GmSet), s.powered = true ∧ s.mpu.restarting = false ∧ s.img = some i ∧ s.net.up = [p] ∧ p ≠ .svc ∧ i.net.ptpPeer = false ∧ (s.ptpPort (portCode p)).slave = false ∧ i.net.ptpBoundary = true ∧ s.announced = some g ∧ portCode p ≠ s.time.port) :=
  ⟨⟨clock { TimeBase.reset with quality := 0, source := 1 } act, by decide +kernel⟩,
   ⟨act, by decide +kernel⟩,
   ⟨clock { TimeBase.reset with lockedSamples := 25920 } act, by decide +kernel⟩,
   ⟨clock { TimeBase.reset with lockedSamples := 25919 } act, by decide +kernel⟩,
   ⟨act, by decide +kernel⟩,
   ⟨⟨[], 0, false, 1, 1, true⟩, ⟨[], 0, false, 2, 1, true⟩, { act with mram := { act.mram with osc := [(0, ⟨[], 0, false, 1, 1, true⟩), (1, ⟨[], 0, false, 2, 1, true⟩)] } }, by decide +kernel⟩,
   ⟨0, clock { TimeBase.reset with qualified := true, holdoverSince := some 0, bins := [(40, (1, 5))] } (act.put Reg.TIME_CTRL_SERVO_EN 1), 5, by decide +kernel⟩,
   ⟨2500, clock { TimeBase.reset with quality := 2, holdoverSince := some 0 } (act.put Reg.TIME_CTRL_SERVO_EN 1), by decide +kernel⟩,
   ⟨clock { TimeBase.reset with quality := 0 } act, by decide +kernel⟩,
   ⟨{ ptp0 with port := .svc }, act, by decide +kernel⟩,
   ⟨{ ptp0 with domain := 1 }, img, act, by decide +kernel⟩,
   ⟨{ ptp0 with slave := false }, img, act, 1, 0, 0, by decide +kernel⟩,
   ⟨{ ptp0 with slave := false, body := .delayReq 1 }, img, act, 1, by decide +kernel⟩,
   ⟨ptp0, img, clock { TimeBase.reset with port := 2, ports := [(2, { PtpPort.reset with slave := true, good := 15 })] } (act.put Reg.TIME_CTRL_SERVO_EN 1), 1, 0, 0, by decide +kernel⟩,
   ⟨img, .pla, clock { TimeBase.reset with ports := [(2, { PtpPort.reset with slave := true })] } { act with net := { act.net with up := [.pla] } }, by decide +kernel⟩,
   ⟨{ img with net := { img.net with ptpBoundary := true } }, .pla, clock { TimeBase.reset with quality := 0, gm := some ⟨1, 6, 1, 1, 37⟩ } { act with net := { act.net with up := [.pla] }, start := { act.start with running := some { img with net := { img.net with ptpBoundary := true } } } }, ⟨1, 6, 1, 1, 37⟩, by decide +kernel⟩⟩

theorem witness_PortsAndSampledValues :
    (∃ (p : Port) (s : State), s.powered = true ∧ p ∈ s.net.up ∧ p ≠ .pba ∧ p ≠ .pbb) ∧
    (∃ (p : Port) (i : Image) (s : State), s.powered = true ∧ p ∈ s.net.up ∧ (p = .pba ∨ p = .pbb) ∧ s.img = some i) ∧
    (∃ (f : FrameId) (t0 : Nat) (s : State), f.wrongLan = false ∧ (frameKey f, t0) ∈ s.net.seen ∧ s.time.tick ≤ t0 + ticksOfMs 400) ∧
    (∃ (f : FrameId) (s : State), ((∀ e ∈ s.net.seen, e.1 ≠ frameKey f))) ∧
    (∃ (f : FrameId), f.wrongLan = true) ∧
    (∃ (s : State), s.netRuns = true ∧ .pla ∈ s.net.up) ∧
    (∃ (s : State), s.pair.pairAddr = true ∧ s.pair.pairRepeats = 0 ∧ s.pair.pairSince + ticksOfMs 100 ≤ s.time.tick) ∧
    (∃ (s : State), s.pair.pairAddr = true ∧ s.pair.pairRepeats = 1 ∧ s.pair.pairSince + ticksOfMs 500 ≤ s.time.tick) ∧
    (∃ (s : State), s.pair.pairAddr = true ∧ (2 ≤ s.pair.pairRepeats ∨ s.time.tick < s.pair.pairSince + ticksOfMs 100)) ∧
    (∃ (f : SvFrame) (s : State), s.netRuns = true ∧ (f.id.port = .pba ∨ f.id.port = .pbb) ∧ f.id.port ∈ s.net.up ∧ f.id.wrongLan = false ∧ ((∀ e ∈ s.net.seen, e.1 ≠ frameKey f.id))) ∧
    (∃ (f : SvFrame) (c : SvSub), f.dest = c.dest ∧ f.appid = c.appid ∧ f.svId ≠ c.svId) ∧
    (∃ (k : Nat) (c : SvSub) (a : Asdu) (s : State), (s.sv k).last = some a.smpCnt ∧ (s.sv k).expired = false ∧ 0 < c.rate) ∧
    (∃ (k : Nat) (c : SvSub) (a : Asdu) (s : State), (s.sv k).last = none ∧ 2 < c.rate ∧ a.smpSynch = 2) ∧
    (∃ (k : Fin 512) (c : SvSub) (s : State), s.netRuns = true ∧ s.svSub k = some c ∧ (s.sv k).expired = false ∧ (s.sv k).last ≠ none ∧ s.time.tick < (s.sv k).goodAt + ticksOfMs c.holdMs) ∧
    (∃ (k : Fin 512) (c : SvSub) (s : State), s.netRuns = true ∧ s.svSub k = some c ∧ (s.sv k).expired = false ∧ (s.sv k).last ≠ none ∧ (s.sv k).goodAt + ticksOfMs c.holdMs ≤ s.time.tick) :=
  ⟨⟨.pla, act, by decide +kernel⟩,
   ⟨.pba, img, act, by decide +kernel⟩,
   ⟨fid, 0, { act with net := { act.net with seen := [(65537, 0)] }, time := { TimeBase.reset with tick := 50000000 } }, by decide +kernel⟩,
   ⟨fid, act, by decide +kernel⟩,
   ⟨{ fid with wrongLan := true }, by decide +kernel⟩,
   ⟨act, by decide +kernel⟩,
   ⟨clock { TimeBase.reset with tick := 12500000 } { act with pair := { act.pair with pairAddr := true } }, by decide +kernel⟩,
   ⟨clock { TimeBase.reset with tick := 62500000 } { act with pair := { act.pair with pairAddr := true, pairRepeats := 1 } }, by decide +kernel⟩,
   ⟨clock { TimeBase.reset with tick := 12499999 } { act with pair := { act.pair with pairAddr := true } }, by decide +kernel⟩,
   ⟨sv0, act, by decide +kernel⟩,
   ⟨{ sv0 with svId := 2 }, svSub0, by decide +kernel⟩,
   ⟨0, svSub0, asdu0, { act with net := { act.net with sv := [(0, { SvState.reset with last := some 0 })] } }, by decide +kernel⟩,
   ⟨0, svSub0, asdu0, act, by decide +kernel⟩,
   ⟨0, svSub0, clock { TimeBase.reset with tick := 1249999 } { act with net := { act.net with sv := [(0, { SvState.reset with last := some 0 })] } }, by decide +kernel⟩,
   ⟨0, svSub0, clock { TimeBase.reset with tick := 1250000 } { act with net := { act.net with sv := [(0, { SvState.reset with last := some 0 })] } }, by decide +kernel⟩⟩

theorem witness_GooseAndTestMode :
    (∃ (m : GooseMsg) (s : State), s.netRuns = true ∧ (m.id.port = .pba ∨ m.id.port = .pbb) ∧ m.id.port ∈ s.net.up ∧ m.id.wrongLan = false ∧ ((∀ e ∈ s.net.seen, e.1 ≠ frameKey m.id))) ∧
    (∃ (m : GooseMsg) (g : Nat) (s : State), m.ndsCom = false ∧ ((s.goose g).state ≠ 1 ∨ m.stNum ≠ (s.goose g).stNum) ∧ s.gbitsOf g = []) ∧
    (∃ (g : Fin 1024) (c : GooseSub) (s : State), s.gooseSub g = some c ∧ s.netRuns = true ∧ (s.goose g).state = 1 ∧ (s.goose g).members ≠ [] ∧ (s.goose g).holdOver = false ∧ s.time.tick < (s.goose g).arrived + ticksOfMs (s.goose g).tal) ∧
    (∃ (g : Fin 1024) (c : GooseSub) (s : State), s.gooseSub g = some c ∧ s.netRuns = true ∧ (s.goose g).state = 1 ∧ (s.goose g).members ≠ [] ∧ (s.goose g).holdOver = false ∧ (s.goose g).arrived + ticksOfMs (s.goose g).tal ≤ s.time.tick) ∧
    (∃ (g : Fin 1024) (c : GooseSub) (s : State), s.gooseSub g = some c ∧ s.netRuns = true ∧ (s.goose g).state = 4 ∧ (s.goose g).expiredAt + ticksOfMs c.holdMs ≤ s.time.tick) ∧
    (∃ (p : Fin 256) (c : PubCfg) (s : State), s.pubCfg p = some c ∧ s.claim.confirmed = true ∧ (s.pub p).lastNew ≠ none) ∧
    (∃ (p : Fin 256) (c : PubCfg) (s : State) (n : Nat), s.pubCfg p = some c ∧ (s.pub p).deferred = true ∧ (s.pub p).lastNew = some n ∧ s.time.tick < n + ticksOfUs 20) ∧
    (∃ (p : Fin 256) (c : PubCfg) (s : State), s.pubCfg p = some c ∧ (s.pub p).deferred = true ∧ ((∀ n, (s.pub p).lastNew = some n → n + ticksOfUs 20 ≤ s.time.tick)) ∧ s.claim.confirmed = true) ∧
    (∃ (p : Fin 256) (c : PubCfg) (s : State), s.pubCfg p = some c ∧ (s.pub p).deferred = true ∧ ((∀ n, (s.pub p).lastNew = some n → n + ticksOfUs 20 ≤ s.time.tick)) ∧ s.claim.confirmed = false) ∧
    (∃ (k : Nat) (s : State), s.powered = true ∧ s.mode ≠ .terminus ∧ s.get ⟨0x120004, 0, 1⟩ < 2 ∧ serviceOk s (.svc k) = true) ∧
    (∃ (o : Origin) (b : Bool) (s : State), s.powered = true ∧ s.mode ≠ .terminus ∧ s.get ⟨0x120004, 0, 1⟩ < 2 ∧ isSvc o = false ∧ b ≠ s.net.testMode) :=
  ⟨⟨goose0, act, by decide +kernel⟩,
   ⟨goose0, 0, act, by decide +kernel⟩,
   ⟨0, gooseSub0, { act with net := { act.net with goose := [(0, { GooseState.reset with state := 1, tal := 1, members := [(1#64, 0#16)] })] } }, by decide +kernel⟩,
   ⟨0, gooseSub0, clock { TimeBase.reset with tick := 125000 } { act with net := { act.net with goose := [(0, { GooseState.reset with state := 1, tal := 1, members := [(1#64, 0#16)] })] } }, by decide +kernel⟩,
   ⟨0, gooseSub0, clock { TimeBase.reset with tick := 1250000 } { act with net := { act.net with goose := [(0, { GooseState.reset with state := 4 })] } }, by decide +kernel⟩,
   ⟨0, pub0, { act with net := { act.net with pubs := [(0, { PubState.reset with lastNew := some 0 })] } }, by decide +kernel⟩,
   ⟨0, pub0, clock { TimeBase.reset with tick := 2499 } { act with net := { act.net with pubs := [(0, { PubState.reset with deferred := true, lastNew := some 0 })] } }, 0, by decide +kernel⟩,
   ⟨0, pub0, { act with net := { act.net with pubs := [(0, { PubState.reset with deferred := true })] } }, ⟨rfl, rfl, nofun, rfl⟩⟩,
   ⟨0, pub0, { sby with net := { sby.net with pubs := [(0, { PubState.reset with deferred := true })] } }, ⟨rfl, rfl, nofun, rfl⟩⟩,
   ⟨1, talk srv act, by decide +kernel⟩,
   ⟨.mgmt 0, true, act, by decide +kernel⟩⟩

theorem witness_Sessions :
    (∃ (kind : Nat) (r : Req) (x : Session) (e : Nat × Reply) (s : State), Tab.get? s.net.sessions r.session = some x ∧ s.answersSession x = true ∧ dppOk kind r = true ∧ x.replies.find? (fun (e : Nat × Reply) => decide (e.1 = r.reqId)) = some e) ∧
    (∃ (kind : Nat) (r : Req) (s : State), (Tab.get? s.net.sessions r.session = none ∨ dppOk kind r = false)) ∧
    (∃ (r : Req) (x : Session) (s : State), Tab.get? s.net.sessions r.session = some x ∧ s.answersSession x = false) ∧
    (∃ (r : Req) (x : Session) (s : State), Tab.get? s.net.sessions r.session = some x) ∧
    (∃ (p : Port) (c : Option ClientChain) (s : State) (d : ClientChain), s.answers p = true ∧ c = some d ∧ s.clientOk d = true) ∧
    (∃ (p : Port) (c : Option ClientChain) (s : State), s.answers p = true ∧ ((∀ d, c = some d → s.clientOk d = false))) ∧
    (∃ (r : Req) (k : Nat) (p : Port) (pa : Bool) (s : State), s.net.handshakes[k]? = some ⟨p, none⟩ ∧ s.answers p = true ∧ dppOk 0x01 r = true ∧ pa = false) ∧
    (∃ (r : Req) (k : Nat) (p : Port) (role : ClientRole) (pa : Bool) (client : Nat) (s : State), s.net.handshakes[k]? = some ⟨p, some role⟩ ∧ s.answers p = true ∧ dppOk 0x01 r = true ∧ (pa = true → s.pair.pairAddr = true ∧ p ≠ .svc) ∧ s.mode ≠ .terminus ∧ s.sessionOfClient client = none ∧ (if p = .svc then s.sessionsOn true < 4 else s.sessionsOn false < 64)) ∧
    (∃ (r : Req) (k : Nat) (p : Port) (role : ClientRole) (pa : Bool) (client : Nat) (s : State), s.net.handshakes[k]? = some ⟨p, some role⟩ ∧ s.answers p = true ∧ dppOk 0x01 r = true ∧ (pa = true → s.pair.pairAddr = true ∧ p ≠ .svc) ∧ s.mode ≠ .terminus ∧ s.sessionOfClient client = none ∧ (if p = .svc then 4 ≤ s.sessionsOn true else 64 ≤ s.sessionsOn false)) ∧
    (∃ (r : Req) (x : Session) (s : State), Asks 0x02 r x s) ∧
    (∃ (k : Nat) (x : Session) (s : State), Tab.get? s.net.sessions k = some x ∧ x.lastHeard + ticksOfMs 10000 ≤ s.time.tick) ∧
    (∃ (k : Nat) (x : Session) (s : State), Tab.get? s.net.sessions k = some x ∧ s.time.tick < x.lastHeard + ticksOfMs 10000) ∧
    (∃ (r : Req) (x : Session) (s : State), Tab.get? s.net.sessions r.session = some x ∧ s.answersSession x = true ∧ dppOk 0x03 r = true) :=
  ⟨⟨0x02, req 0x02, { srv with replies := [(1, ⟨0, 0, 0, []⟩)] }, (1, ⟨0, 0, 0, []⟩), talk { srv with replies := [(1, ⟨0, 0, 0, []⟩)] } act, by decide +kernel⟩,
   ⟨0x02, req 0x02, act, by decide +kernel⟩,
   ⟨req 0x02, eng, talk eng (base .terminus), by decide +kernel⟩,
   ⟨req 0x02, srv, talk srv act, by decide +kernel⟩,
   ⟨.plb, some clientA, { act with mram := { act.mram with anchor := some (keyHash keyA) } }, clientA, by decide +kernel⟩,
   ⟨.plb, none, act, ⟨rfl, nofun⟩⟩,
   ⟨req0 0x01, 0, .pla, false, hand ⟨.pla, none⟩ act, by decide +kernel⟩,
   ⟨req0 0x01, 0, .pla, .operator, false, 9, hand ⟨.pla, some .operator⟩ act, by decide +kernel⟩,
   ⟨req0 0x01, 0, .svc, .service, false, 9, hand ⟨.svc, some .service⟩ { act with net := { act.net with sessions := (List.range 4).map (fun k => (k, { srv with clientId := k })) } }, by decide +kernel⟩,
   ⟨req 0x02, opr, talk opr act, by unfold Asks; decide +kernel⟩,
   ⟨1, opr, clock { TimeBase.reset with tick := 1250000000 } (talk opr act), by decide +kernel⟩,
   ⟨1, opr, clock { TimeBase.reset with tick := 1249999999 } (talk opr act), by decide +kernel⟩,
   ⟨req 0x03, opr, talk opr act, by decide +kernel⟩⟩

theorem witness_QueriesAndTagReads :
    (∃ (r : Req) (x : Session) (s : State), Asks 0x12 r x s ∧ s.mode = .terminus) ∧
    (∃ (r : Req) (x : Session) (s : State), Asks 0x12 r x s ∧ s.mode = .starting) ∧
    (∃ (r : Req) (x : Session) (q : Nat) (s : State), Asks 0x12 r x s ∧ s.mode ≠ .terminus ∧ s.mode ≠ .starting ∧ q + s.policy.clientWindow ≤ s.clientHigh x.clientId) ∧
    (∃ (r : Req) (x : Session) (q : Nat) (s : State), Asks 0x12 r x s ∧ s.mode ≠ .terminus ∧ s.mode ≠ .starting ∧ s.clientHigh x.clientId < q + s.policy.clientWindow) ∧
    (∃ (r : Req) (x : Session) (tags : List Nat) (s : State), Asks 0x20 r x s ∧ s.mode ≠ .terminus ∧ s.mode ≠ .starting ∧ (x.role = .operator ∨ s.shed < 4) ∧ tags ≠ [] ∧ tags.length ≤ 32) ∧
    (∃ (r : Req) (x : Session) (tags : List Nat) (s : State), Asks 0x20 r x s ∧ s.mode ≠ .terminus ∧ s.mode ≠ .starting ∧ (x.role = .operator ∨ s.shed < 4) ∧ (tags = [] ∨ 32 < tags.length)) ∧
    (∃ (r : Req) (x : Session) (s : State), Asks 0x20 r x s ∧ s.mode ≠ .terminus ∧ s.mode = .starting ∧ (x.role = .operator ∨ s.shed < 4)) ∧
    (∃ (r : Req) (x : Session) (s : State), Asks 0x20 r x s ∧ s.mode ≠ .terminus ∧ x.role ≠ .operator ∧ 4 ≤ s.shed) :=
  ⟨⟨req 0x12, srv, talk srv (base .terminus), by unfold Asks; decide +kernel⟩,
   ⟨req 0x12, opr, talk opr (base .starting), by unfold Asks; decide +kernel⟩,
   ⟨req 0x12, opr, 0, talk opr { act with jrn := { act.jrn with clients := [(9, ⟨256, 0, []⟩)] } }, by unfold Asks; decide +kernel⟩,
   ⟨req 0x12, opr, 1, talk opr { act with jrn := { act.jrn with clients := [(9, ⟨256, 0, []⟩)] } }, by unfold Asks; decide +kernel⟩,
   ⟨req 0x20, eng, [0], talk eng (act.put Reg.MPU_STATUS_SHED_LEVEL 3), by unfold Asks; decide +kernel⟩,
   ⟨req 0x20, opr, List.replicate 33 0, talk opr act, by unfold Asks; decide +kernel⟩,
   ⟨req 0x20, opr, talk opr (base .starting), by unfold Asks; decide +kernel⟩,
   ⟨req 0x20, eng, talk eng (act.put Reg.MPU_STATUS_SHED_LEVEL 4), by unfold Asks; decide +kernel⟩⟩

theorem witness_SubscriptionsNotify :
    (∃ (r : Req) (x : Session) (ms : Nat) (tags : List Nat) (s : State), Asks 0x21 r x s ∧ s.mode ≠ .terminus ∧ s.shed < 5 ∧ 10 ≤ ms ∧ ms ≤ 60000 ∧ ((∀ g ∈ tags, (s.tagDecl g).isSome = true)) ∧ s.subscribed (some r.session) + tags.length ≤ 16384 ∧ s.subscribed none + tags.length ≤ 65536) ∧
    (∃ (r : Req) (x : Session) (ms : Nat) (s : State), Asks 0x21 r x s ∧ s.mode ≠ .terminus ∧ s.shed < 5 ∧ (ms < 10 ∨ 60000 < ms)) ∧
    (∃ (r : Req) (x : Session) (n : Nat) (s : State), s.mode ≠ .terminus ∧ s.ownSub r n = true ∧ Asks 0x22 r x s) ∧
    (∃ (r : Req) (x : Session) (n : Nat) (s : State) (y : Subscription), s.mode ≠ .terminus ∧ s.ownSub r n = true ∧ Asks 0x24 r x s ∧ s.sub n = some y) ∧
    (∃ (r : Req) (x : Session) (n : Nat) (s : State), s.mode ≠ .terminus ∧ s.ownSub r n = false ∧ Asks 0x22 r x s) ∧
    (∃ (r : Req) (x : Session) (n : Nat) (s : State), s.mode ≠ .terminus ∧ s.ownSub r n = false ∧ Asks 0x24 r x s) ∧
    (∃ (n : Nat) (y : Subscription) (s : State), s.sub n = some y ∧ s.powered = true ∧ s.mpu.restarting = false ∧ ((∀ u, y.sentAt = some u → u + ticksOfMs y.minMs ≤ s.time.tick))) ∧
    (∃ (n : Nat) (y : Subscription) (s : State) (u : Nat), s.sub n = some y ∧ s.powered = true ∧ s.mpu.restarting = false ∧ y.sentAt = some u ∧ s.time.tick < u + ticksOfMs y.minMs) ∧
    (∃ (n : Nat) (y : Subscription) (s : State), s.sub n = some y ∧ s.powered = true ∧ s.mpu.restarting = false ∧ ((∀ e ∈ y.tags, s.noted e.1 = e.2))) ∧
    (∃ (base : Nat) (offset : Nat) (bit : Fin 16) (s : State), s.powered = true ∧ eventExists base offset bit = true) :=
  ⟨⟨req 0x21, opr, 60000, [0], talk opr act, by unfold Asks; decide +kernel⟩,
   ⟨req 0x21, opr, 9, talk opr act, by unfold Asks; decide +kernel⟩,
   ⟨req 0x22, opr, 4, talk opr (subd ⟨1, 10, [(0, 0)], 0, none⟩ act), by unfold Asks; decide +kernel⟩,
   ⟨req 0x24, opr, 4, talk opr (subd ⟨1, 10, [(0, 0)], 0, none⟩ act), ⟨1, 10, [(0, 0)], 0, none⟩, by unfold Asks; decide +kernel⟩,
   ⟨req 0x22, opr, 4, talk opr (subd ⟨2, 10, [(0, 0)], 0, none⟩ act), by unfold Asks; decide +kernel⟩,
   ⟨req 0x24, opr, 4, talk opr (subd ⟨2, 10, [(0, 0)], 0, none⟩ act), by unfold Asks; decide +kernel⟩,
   ⟨4, ⟨1, 10, [(0, 1)], 0, none⟩, talk opr (subd ⟨1, 10, [(0, 1)], 0, none⟩ act), ⟨rfl, rfl, rfl, nofun⟩⟩,
   ⟨4, ⟨1, 10, [(0, 1)], 0, some 0⟩, clock { TimeBase.reset with tick := 1249999 } (talk opr (subd ⟨1, 10, [(0, 1)], 0, some 0⟩ act)), 0, by decide +kernel⟩,
   ⟨4, ⟨1, 10, [(0, 0)], 0, none⟩, talk opr (subd ⟨1, 10, [(0, 0)], 0, none⟩ act), by decide +kernel⟩,
   ⟨0x1A0000, 4, 0, act, by decide +kernel⟩⟩

theorem witness_SessionRegistersAndFiles :
    (∃ (r : Req) (x : Session) (s : State), Asks 0x40 r x s ∧ x.role = .operator) ∧
    (∃ (r : Req) (x : Session) (n : Nat) (s : State), Asks 0x40 r x s ∧ x.role ≠ .operator ∧ s.shed < 4 ∧ 0 < n ∧ n ≤ 64) ∧
    (∃ (r : Req) (x : Session) (s : State), Asks 0x41 r x s ∧ x.role ≠ .service) ∧
    (∃ (r : Req) (x : Session) (l : List Word) (s : State), Asks 0x41 r x s ∧ x.role = .service ∧ s.mode ≠ .terminus ∧ l ≠ [] ∧ l.length ≤ 16) ∧
    (∃ (r : Req) (x : Session) (s : State), Asks 0x50 r x s ∧ x.role ≠ .operator ∧ s.mode ≠ .terminus ∧ 4 ≤ x.files.length) ∧
    (∃ (r : Req) (x : Session) (name : FileName) (w : Bool) (s : State), Asks 0x50 r x s ∧ x.role ≠ .operator ∧ s.mode ≠ .terminus ∧ x.files.length < 4 ∧ s.openRefusal name w = (0, 0)) ∧
    (∃ (r : Req) (x : Session) (h : Nat) (f : OpenFile) (s : State), Asks 0x51 r x s ∧ s.mode ≠ .terminus ∧ s.shed = 0 ∧ x.file h = some f ∧ f.name = .faults ∧ f.write = false) ∧
    (∃ (r : Req) (x : Session) (h : Nat) (f : OpenFile) (s : State), Asks 0x51 r x s ∧ s.mode ≠ .terminus ∧ s.shed = 0 ∧ x.file h = some f ∧ f.write = true) ∧
    (∃ (r : Req) (x : Session) (h : Nat) (off : Nat) (data : List Byte) (f : OpenFile) (s : State), Asks 0x52 r x s ∧ x.file h = some f ∧ f.write = true ∧ off = f.data.length ∧ data ≠ [] ∧ data.length ≤ 1024) ∧
    (∃ (r : Req) (x : Session) (h : Nat) (off : Nat) (f : OpenFile) (s : State), Asks 0x52 r x s ∧ x.file h = some f ∧ f.write = true ∧ off ≠ f.data.length) ∧
    (∃ (r : Req) (x : Session) (h : Nat) (f : OpenFile) (s : State), Asks 0x53 r x s ∧ x.file h = some f ∧ f.write = true) ∧
    (∃ (i : Image) (data : List Byte), imageBytes i ≠ data) :=
  ⟨⟨req 0x40, opr, talk opr act, by unfold Asks; decide +kernel⟩,
   ⟨req 0x40, eng, 64, talk eng act, by unfold Asks; decide +kernel⟩,
   ⟨req 0x41, eng, talk eng act, by unfold Asks; decide +kernel⟩,
   ⟨req 0x41, srv, List.replicate 16 0#32, talk srv act, by unfold Asks; decide +kernel⟩,
   ⟨req 0x50, { eng with files := List.replicate 4 ⟨1, .faults, false, []⟩ }, talk { eng with files := List.replicate 4 ⟨1, .faults, false, []⟩ } act, by unfold Asks; decide +kernel⟩,
   ⟨req 0x50, { eng with files := List.replicate 3 ⟨1, .faults, false, []⟩ }, .imagePending, true, talk { eng with files := List.replicate 3 ⟨1, .faults, false, []⟩ } act, by unfold Asks; decide +kernel⟩,
   ⟨req 0x51, file ⟨1, .faults, false, []⟩ eng, 1, ⟨1, .faults, false, []⟩, talk (file ⟨1, .faults, false, []⟩ eng) act, by unfold Asks; decide +kernel⟩,
   ⟨req 0x51, file ⟨1, .imagePending, true, []⟩ eng, 1, ⟨1, .imagePending, true, []⟩, talk (file ⟨1, .imagePending, true, []⟩ eng) act, by unfold Asks; decide +kernel⟩,
   ⟨req 0x52, file ⟨1, .imagePending, true, []⟩ eng, 1, 0, List.replicate 1024 0#8, ⟨1, .imagePending, true, []⟩, talk (file ⟨1, .imagePending, true, []⟩ eng) act, by unfold Asks; decide +kernel⟩,
   ⟨req 0x52, file ⟨1, .imagePending, true, []⟩ eng, 1, 1, ⟨1, .imagePending, true, []⟩, talk (file ⟨1, .imagePending, true, []⟩ eng) act, by unfold Asks; decide +kernel⟩,
   ⟨req 0x53, file ⟨1, .imagePending, true, []⟩ eng, 1, ⟨1, .imagePending, true, []⟩, talk (file ⟨1, .imagePending, true, []⟩ eng) act, by unfold Asks; decide +kernel⟩,
   ⟨img, [], by decide +kernel⟩⟩

theorem witness_FieldBusPorts :
    (∃ (p : Fin 2) (s : State), s.canMode p ≠ 0) ∧
    (∃ (p : Fin 2) (s : State), s.canMode p = 0) ∧
    (∃ (p : Fin 2) (h : CanHeld) (rest : List CanHeld) (s : State), (s.canPort p).held = h :: rest ∧ (s.canMode p = 2 ∨ h.started = true)) ∧
    (∃ (p : Fin 2) (n : Nat) (h : CanHeld) (s : State), (s.canPort p).held.find? (fun h => decide (h.req.handle = n)) = some h ∧ (h.started = true ∨ s.time.tick < h.since + s.canTimeout p)) ∧
    (∃ (p : Fin 2) (n : Nat) (h : CanHeld) (s : State), (s.canPort p).held.find? (fun h => decide (h.req.handle = n)) = some h ∧ h.started = false ∧ h.since + s.canTimeout p ≤ s.time.tick) ∧
    (∃ (p : Nat) (n : Nat) (h : CanHeld) (s : State), p < 2 ∧ (s.canPort p).held = [h] ∧ h.req.handle = n ∧ h.started = false) ∧
    (∃ (p : Fin 2) (tec : Nat) (rec_ : Nat) (s : State), s.canMode p ≠ 0 ∧ (s.canPort p).errState = 0 ∧ tec ≤ 511 ∧ rec_ ≤ 255 ∧ (128 ≤ tec ∨ 128 ≤ rec_)) ∧
    (∃ (p : Fin 2) (tec : Nat) (rec_ : Nat) (s : State), s.canMode p ≠ 0 ∧ (s.canPort p).errState = 0 ∧ tec ≤ 511 ∧ rec_ ≤ 255 ∧ tec < 128 ∧ rec_ < 128) ∧
    (∃ (p : Fin 2) (s : State), s.canMode p ≠ 0 ∧ (s.canPort p).errState ≠ 2) ∧
    (∃ (p : Fin 2) (s : State), s.canMode p ≠ 0 ∧ (s.canPort p).errState = 2) ∧
    (∃ (p : Fin 2) (m : Nat) (twice : Bool) (c : CanCfg) (s : State) (mp : CanMap), s.canCfg p = some c ∧ s.canMode p ≠ 0 ∧ c.maps[m]? = some mp ∧ s.mapSilent p mp twice = false) ∧
    (∃ (p : Fin 2) (m : Nat) (twice : Bool) (c : CanCfg) (s : State) (mp : CanMap), s.canCfg p = some c ∧ s.canMode p ≠ 0 ∧ c.maps[m]? = some mp ∧ s.mapSilent p mp twice = true) ∧
    (∃ (o : Origin) (s : State), s.powered = true ∧ serviceOk s o = true) :=
  ⟨⟨0, act, by decide +kernel⟩,
   ⟨1, act, by decide +kernel⟩,
   ⟨0, held0 true, [], can1 (held0 true) sby, by decide +kernel⟩,
   ⟨0, 7, held0 true, can1 (held0 true) act, by decide +kernel⟩,
   ⟨0, 7, held0 false, clock { TimeBase.reset with tick := 1250000 } (can1 (held0 false) act), by decide +kernel⟩,
   ⟨0, 7, held0 false, can1 (held0 false) act, by decide +kernel⟩,
   ⟨0, 128, 255, act, by decide +kernel⟩,
   ⟨0, 127, 127, act, by decide +kernel⟩,
   ⟨0, act, by decide +kernel⟩,
   ⟨0, { act with can0 := { act.can0 with errState := 2 } }, by decide +kernel⟩,
   ⟨0, 0, true, can0cfg, act, canMap0, by decide +kernel⟩,
   ⟨0, 0, true, can0cfg, clock { TimeBase.reset with tick := 2500000 } act, canMap0, by decide +kernel⟩,
   ⟨.mgmt 0, act, by decide +kernel⟩⟩

theorem witness_MisalignedAccessRefused :
    (∃ (a : Nat) (n : Nat) (s : State), s.powered = true ∧ (a % 4 ≠ 0 ∨ 0x200000 ≤ a ∨ n ≠ 4)) ∧
    (∃ (a : Nat) (s : State), s.powered = true ∧ (a % 4 ≠ 0 ∨ 0x200000 ≤ a)) ∧
    (∃ (a : Nat), (a % 4 ≠ 0 ∨ 0x200000 ≤ a)) ∧
    (∃ (a : Nat), a % 4 = 0 ∧ a < 0x200000) :=
  ⟨⟨0x1FFFFC, 2, act, by decide +kernel⟩,
   ⟨0x1FFFFF, act, by decide +kernel⟩,
   ⟨2, by decide +kernel⟩,
   ⟨0x1FFFFC, by decide +kernel⟩⟩

theorem witness_RegisterWrites :
    (∃ (o : Origin) (a : Nat) (v : Word) (s : State), s.powered = true ∧ ((s.mode = .terminus → blockNum a = 0 ∨ blockNum a = 0x17)) ∧ a % 4 = 0 ∧ a < 0x200000 ∧ s.writeAllowed o a v = true) ∧
    (∃ (o : Origin) (a : Nat) (v : Word) (s : State), s.powered = true ∧ ((s.mode = .terminus → blockNum a = 0 ∨ blockNum a = 0x17)) ∧ a % 4 = 0 ∧ a < 0x200000 ∧ s.writeAllowed o a v = false) ∧
    (∃ (s : State), s.powered = true ∧ s.mode ≠ .terminus) ∧
    (∃ (a : Nat) (s : State), s.powered = true ∧ s.mode = .terminus ∧ a % 4 = 0 ∧ a < 0x200000 ∧ blockNum a ≠ 0 ∧ blockNum a ≠ 0x17) ∧
    (∃ (k : Nat) (x : Session) (s : State), Tab.get? s.net.sessions k = some x ∧ x.role ≠ .service) ∧
    (∃ (o : Origin) (a : Nat), isLane o = false ∧ (regIndex a 0x7000C 0x80 512).isSome = true ∧ a ≠ 0x30014 ∧ blockNum a = 6) :=
  ⟨⟨.mgmt 0, 0x1FFFFC, 0#32, act, by decide +kernel⟩,
   ⟨.plant 1, 0x30014, 0#32, talk srv act, by decide +kernel⟩,
   ⟨act, by decide +kernel⟩,
   ⟨0x1A0000, base .terminus, by decide +kernel⟩,
   ⟨1, eng, talk eng act, by decide +kernel⟩,
   ⟨.mgmt 0, 0x7000C, by decide +kernel⟩⟩

theorem witness_EventBitsCleared :
    (∃ (o : Origin) (a : Nat) (v : Word) (s : State), s.powered = true ∧ ((s.mode = .terminus → blockNum a = 0 ∨ blockNum a = 0x17)) ∧ eventAddr a = true ∧ a % 4 = 0 ∧ a < 0x200000 ∧ s.writeAllowed o a v = true ∧ v.toNat / 2 ^ 16 = s.get ⟨a, 16, 16⟩) ∧
    (∃ (o : Origin) (a : Nat) (v : Word) (s : State), s.powered = true ∧ ((s.mode = .terminus → blockNum a = 0 ∨ blockNum a = 0x17)) ∧ eventAddr a = true ∧ a % 4 = 0 ∧ a < 0x200000 ∧ s.writeAllowed o a v = true ∧ v.toNat / 2 ^ 16 ≠ s.get ⟨a, 16, 16⟩) ∧
    (∃ (e : EvBit) (v : Word) (s : State), e.bit < 16 ∧ v.toNat / 2 ^ 16 = s.get ⟨e.addr, 16, 16⟩) ∧
    (∃ (e : EvBit) (d : EvBit) (v : Word) (s : State), e.bit < 16 ∧ d.bit < 16 ∧ d.addr = e.addr ∧ d.bit ≠ e.bit ∧ v.toNat / 2 ^ 16 = s.get ⟨e.addr, 16, 16⟩) :=
  ⟨⟨.mgmt 0, 0x1A0004, 0#32, act, by decide +kernel⟩,
   ⟨.mgmt 0, 0x1A0004, 0xFFFF0000#32, act, by decide +kernel⟩,
   ⟨⟨0x1A0004, 15⟩, 0xFFFF#32, act, by decide +kernel⟩,
   ⟨⟨0x1A0004, 15⟩, ⟨0x1A0004, 0⟩, 0#32, act, by decide +kernel⟩⟩

theorem witness_MultiwordReads :
    (∃ (s : State), s.powered = true ∧ s.mode ≠ .terminus) ∧
    (∃ (block : Fin 27) (a : Nat) (s : State), s.powered = true ∧ modeAddr block.val = some a) ∧
    (∃ (block : Fin 27), modeAddr block.val = none) ∧
    (∃ (a : Nat) (m : Nat) (s : State), s.powered = true ∧ a % 4 = 0 ∧ a < 0x200000 ∧ lowWord a = true ∧ modeAddr (blockNum a) = some m ∧ s.get ⟨m, 0, 1⟩ = 1) ∧
    (∃ (a : Nat) (m : Nat) (s : State), s.powered = true ∧ a % 4 = 0 ∧ a < 0x200000 ∧ lowWord a = true ∧ modeAddr (blockNum a) = some m ∧ s.get ⟨m, 0, 1⟩ = 0 ∧ s.shadows = []) :=
  ⟨⟨act, by decide +kernel⟩,
   ⟨26, 0x1A001C, act, by decide +kernel⟩,
   ⟨7, by decide +kernel⟩,
   ⟨0x10010, 0x10004, act.put ⟨0x10004, 0, 1⟩ 1, by decide +kernel⟩,
   ⟨0x10010, 0x10004, act.put ⟨0x10004, 0, 1⟩ 0, by decide +kernel⟩⟩

theorem witness_ProtectionSets :
    (∃ (x : Unit36) (set : Nat) (r : Nat) (a : MemAccess), refusing x set a = some r) ∧
    (∃ (x : Unit36) (set : Nat) (r : Nat) (a : MemAccess) (q : Nat) (i : Nat), refusing x set a = some r ∧ q < r ∧ i < min a.len 64 ∧ covers (regionOf x set q) (a.addr + i) = true) ∧
    (∃ (u : Fin 36) (set : Fin 2) (s : State), s.powered = true ∧ 32 ≤ u.val ∧ (s.unit u).active = set.val) ∧
    (∃ (u : Fin 36) (set : Fin 2) (s : State), s.powered = true ∧ 32 ≤ u.val ∧ (s.unit u).active ≠ set.val) ∧
    (∃ (u : Fin 36) (s : State), s.powered = true ∧ 32 ≤ u.val ∧ (s.unit u).swapPending = true) ∧
    (∃ (u : Fin 36) (s : State), s.powered = true ∧ 32 ≤ u.val ∧ (s.unit u).swapPending = false ∧ armCheck (s.unit u) (1 - (s.unit u).active) = (0, 0)) ∧
    (∃ (u : Fin 36) (s : State), s.powered = true ∧ 32 ≤ u.val ∧ (s.unit u).armed = true) ∧
    (∃ (u : Fin 36) (s : State), s.powered = true ∧ 32 ≤ u.val ∧ (s.unit u).armed = false) ∧
    (∃ (u : Fin 36) (s : State), s.powered = true ∧ 32 ≤ u.val) ∧
    (∃ (o : Origin) (s : State), s.powered = true ∧ isMgmt o = false) ∧
    (∃ (x : Unit36) (set : Nat) (r : Nat) (q : Nat), armCheck x set = (0, 0) ∧ r < 16 ∧ q < 16 ∧ r < q ∧ (regionOf x set r).en = true ∧ (regionOf x set q).en = true) :=
  ⟨⟨unit0, 0, 0, mem0, by decide +kernel⟩,
   ⟨{ unit0 with regions := [(0, { reg0 with write := true }), (1, reg0)] }, 0, 1, mem0, 0, 0, by decide +kernel⟩,
   ⟨32, 0, act, by decide +kernel⟩,
   ⟨35, 1, act, by decide +kernel⟩,
   ⟨35, mpu { unit0 with swapPending := true } act, by decide +kernel⟩,
   ⟨32, mpu unit0 act, by decide +kernel⟩,
   ⟨32, mpu { unit0 with armed := true } act, by decide +kernel⟩,
   ⟨35, act, by decide +kernel⟩,
   ⟨35, act, by decide +kernel⟩,
   ⟨.lane 0, act, by decide +kernel⟩,
   ⟨{ unit0 with regions := [(0, reg0), (15, { reg0 with base := 256 })] }, 0, 0, 15, by decide +kernel⟩⟩

theorem witness_ProtectionReportsAndManagement :
    (∃ (a : MemAccess) (r : Nat) (s : State), s.powered = true ∧ 32 ≤ a.unit ∧ a.unit < 36 ∧ refusing (s.unit a.unit) (s.unit a.unit).active a = some r) ∧
    (∃ (a : MemAccess) (set : Fin 2) (r : Nat) (s : State), s.powered = true ∧ 32 ≤ a.unit ∧ a.unit < 36 ∧ (set.val = (s.unit a.unit).active ∨ (s.unit a.unit).swapPending = true) ∧ refusing (s.unit a.unit) set { a with kind := 1 } = some r ∧ s.mpu.noticeHeld = false) ∧
    (∃ (a : MemAccess) (set : Fin 2) (r : Nat) (s : State), s.powered = true ∧ 32 ≤ a.unit ∧ a.unit < 36 ∧ (set.val = (s.unit a.unit).active ∨ (s.unit a.unit).swapPending = true) ∧ refusing (s.unit a.unit) set { a with kind := 1 } = some r ∧ s.mpu.noticeHeld = true) ∧
    (∃ (s : State), s.powered = true) ∧
    (∃ (s : State), s.powered = true ∧ (s.fwRegion 0).trial = false ∧ (s.fwRegion 1).trial = false) ∧
    (∃ (s : State), s.powered = true ∧ s.mpu.restarting = true) ∧
    (∃ (s : State), s.powered = true ∧ s.shed ≤ 6) :=
  ⟨⟨mem0, 0, mpu unit0 act, by decide +kernel⟩,
   ⟨mem0, 0, 0, mpu unit0 act, by decide +kernel⟩,
   ⟨mem0, 0, 0, mpu unit0 { act with mpu := { act.mpu with noticeHeld := true } }, by decide +kernel⟩,
   ⟨act, by decide +kernel⟩,
   ⟨act, by decide +kernel⟩,
   ⟨{ act with mpu := { act.mpu with restarting := true } }, by decide +kernel⟩,
   ⟨act.put Reg.MPU_STATUS_SHED_LEVEL 6, by decide +kernel⟩⟩

theorem witness_FirmwareUpdate :
    (∃ (n : Fin 2) (bad : Bool) (s : State), s.powered = true ∧ (s.updSession n).state = 2 ∧ s.checkSiding (s.updSession n) bad = 0 ∧ s.mode ≠ .terminus) ∧
    (∃ (n : Fin 2) (bad : Bool) (s : State), s.powered = true ∧ (s.updSession n).state = 2 ∧ s.checkSiding (s.updSession n) bad ≠ 0) ∧
    (∃ (n : Fin 2) (s : State), s.powered = true ∧ (s.updSession n).state ≠ 3) ∧
    (∃ (n : Fin 2) (bad : Bool) (s : State), s.powered = true ∧ (s.updSession n).state = 3 ∧ s.recent10 s.mram.fwWrittenAt = false ∧ (s.updSession n).region ≠ 5 ∧ s.checkSiding (s.updSession n) bad ≠ 0) ∧
    (∃ (n : Fin 2) (bad : Bool) (s : State), s.powered = true ∧ (s.updSession n).state = 3 ∧ s.recent10 s.mram.fwWrittenAt = false ∧ (s.updSession n).region ≠ 5 ∧ s.checkSiding (s.updSession n) bad = 0 ∧ s.effectNow (s.updSession n).region = false) ∧
    (∃ (n : Fin 2) (s : State), s.powered = true ∧ (s.updSession n).state = 3 ∧ s.recent10 s.mram.fwWrittenAt = true) ∧
    (∃ (n : Fin 2) (s : State), s.powered = true ∧ (s.fwRegion (s.updSession n).region).waiting = true ∧ s.effectNow (s.updSession n).region = true) ∧
    (∃ (n : Fin 2) (s : State), s.powered = true ∧ (s.fwRegion (s.updSession n).region).waiting = true ∧ s.effectNow (s.updSession n).region = false) ∧
    (∃ (s : State) (f : FwImage), (ecdsaVerify f.cert.key f.digest f.ecdsaSig = false ∨ lmsVerify s.fixed.vendorLms (hashBytes f.digest) f.lmsSig = false)) ∧
    (∃ (n : Fin 2) (f : FwImage) (s : State), s.powered = true ∧ (s.updSession n).state = 6 ∧ s.recent10 s.mram.fwWrittenAt = false ∧ (s.updSession n).region ≠ 5 ∧ activeFw (s.fwRegion (s.updSession n).region) = some f) ∧
    (∃ (n : Fin 2) (s : State), s.powered = true ∧ (s.updSession n).state ≠ 6) ∧
    (∃ (n : Fin 2) (s : State), s.powered = true ∧ (s.updSession n).state = 6) ∧
    (∃ (n : Fin 2) (s : State), s.powered = true ∧ ((s.updSession n).state = 1 ∨ (s.updSession n).state = 2 ∨ (s.updSession n).state = 3)) ∧
    (∃ (s : State), s.powered = true) ∧
    (∃ (r : Nat) (s : State), s.effectNow r = false ∧ s.sessionOfRegion r 6 = none) :=
  ⟨⟨1, false, good4 2 act, ⟨rfl, rfl, good4_passes 2 act rfl rfl, nofun⟩⟩,
   ⟨1, true, upd ⟨5, 2, none, false, true⟩ act, by decide +kernel⟩,
   ⟨1, act, by decide +kernel⟩,
   ⟨1, false, upd ⟨4, 3, none, false, true⟩ act, by decide +kernel⟩,
   ⟨1, false, good4 3 act, ⟨rfl, rfl, rfl, nofun, good4_passes 3 act rfl rfl, rfl⟩⟩,
   ⟨1, upd ⟨4, 3, none, false, true⟩ { act with mram := { act.mram with fwWrittenAt := some 0 } }, by decide +kernel⟩,
   ⟨1, upd ⟨0, 4, none, false, true⟩ { act with upd := { act.upd with regions := [(0, { RegionRec.reset with waiting := true })] } }, by decide +kernel⟩,
   ⟨1, upd ⟨5, 4, none, false, true⟩ { act with upd := { act.upd with regions := [(5, { RegionRec.reset with waiting := true })] } }, by decide +kernel⟩,
   ⟨act, fwi 5, .inl rfl⟩,
   ⟨1, fwi 4, upd ⟨4, 6, none, false, true⟩ act, ⟨rfl, rfl, rfl, nofun, rfl⟩⟩,
   ⟨1, act, by decide +kernel⟩,
   ⟨1, upd ⟨4, 6, none, false, true⟩ act, by decide +kernel⟩,
   ⟨1, upd ⟨4, 3, none, false, true⟩ act, by decide +kernel⟩,
   ⟨act, by decide +kernel⟩,
   ⟨5, act, by decide +kernel⟩⟩

theorem witness_AnchorAndAttestation :
    (∃ (k : Nat) (s : State), s.powered = true ∧ serviceOk s (.svc k) = true ∧ (s.carrier.leverOpen = false ∨ s.mode = .active)) ∧
    (∃ (k : Nat) (s : State), s.powered = true ∧ serviceOk s (.svc k) = true ∧ s.carrier.leverOpen = true ∧ s.mode ≠ .active ∧ s.tokenOk s.tokenBytes = false) ∧
    (∃ (k : Nat) (s : State), s.powered = true ∧ serviceOk s (.svc k) = true ∧ s.carrier.leverOpen = true ∧ s.mode ≠ .active ∧ s.tokenOk s.tokenBytes = true) ∧
    (∃ (b : List Byte) (s : State), s.tokenOk b = true) ∧
    (∃ (o : Origin) (s : State), s.powered = true ∧ isSvc o = false) ∧
    (∃ (s : State), s.powered = true ∧ s.upd.signing = false ∧ (s.upd.signedSecond ≠ s.second ∨ s.upd.signedCount < 10) ∧ s.start.startTick + ticksOfMs 120000 ≤ s.time.tick ∧ s.treeReady = true) ∧
    (∃ (s : State), s.powered = true ∧ s.upd.signing = false ∧ (s.upd.signedSecond ≠ s.second ∨ s.upd.signedCount < 10) ∧ s.start.startTick + ticksOfMs 120000 ≤ s.time.tick ∧ s.treeReady = false) ∧
    (∃ (s : State), s.powered = true ∧ s.upd.signing = true) ∧
    (∃ (n : Nat) (s : State), s.powered = true ∧ s.treeBuilding = some n) ∧
    (∃ (s : State), s.treeBuilding = none) :=
  ⟨⟨1, talk srv act, by decide +kernel⟩,
   ⟨1, talk srv { sby with carrier := { sby.carrier with leverOpen := true } }, by decide +kernel⟩,
   ⟨1, tokened (talk srv { sby with carrier := { sby.carrier with leverOpen := true } }), by decide +kernel⟩,
   ⟨(tokened sby).tokenBytes, tokened sby, by decide +kernel⟩,
   ⟨.plant 1, act, by decide +kernel⟩,
   ⟨clock { TimeBase.reset with tick := 15000000000 } { act with upd := { act.upd with signedCount := 9 } }, by decide +kernel⟩,
   ⟨clock { TimeBase.reset with tick := 15000000000 } { act with upd := { act.upd with trees := [], signedCount := 9 } }, by decide +kernel⟩,
   ⟨{ act with upd := { act.upd with signing := true } }, by decide +kernel⟩,
   ⟨0, { act with upd := { act.upd with trees := [] } }, by decide +kernel⟩,
   ⟨act, by decide +kernel⟩⟩

theorem witness_PanelLabelAndMileage :
    (∃ (s : State), s.powered = true ∧ s.panel.on = true ∧ s.panel.frozen = false ∧ s.heldWrites = []) ∧
    (∃ (s : State), s.powered = true ∧ s.panel.on = true ∧ s.get Reg.FP_PANEL_CFG_SHIFT_EN = 1) ∧
    (∃ (s : State), s.powered = true ∧ s.panel.on = true) ∧
    (∃ (s : State), s.powered = true ∧ s.panel.labelHeld = true ∧ s.labelMayStart = true) ∧
    (∃ (s : State), (s.carrier.holdup = true ∨ s.panel.labelBusy = true)) ∧
    (∃ (s : State), s.powered = true ∧ s.panel.labelBusy = true ∧ s.panel.redrawDirty = false) ∧
    (∃ (o : Origin) (s : State), s.powered = true ∧ serviceOk s o = true) ∧
    (∃ (s : State), s.powered = true ∧ s.shed < 3 ∧ (s.mram.opMinutes + 1) % 2 ^ 32 % 60 ≠ 0) ∧
    (∃ (s : State), s.powered = true ∧ s.shed < 3 ∧ (s.mram.opMinutes + 1) % 2 ^ 32 % 60 = 0) ∧
    (∃ (s : State), s.powered = true) ∧
    (∃ (lo : Int) (v : Int), v < lo) ∧
    (∃ (lo : Int) (step : Nat) (v : Int), 0 < step ∧ lo ≤ v ∧ v < lo + 31 * step) :=
  ⟨⟨pnl { Panel.reset with on := true } act, by decide +kernel⟩,
   ⟨pnl { Panel.reset with on := true } (act.put Reg.FP_PANEL_CFG_SHIFT_EN 1), by decide +kernel⟩,
   ⟨pnl { Panel.reset with on := true } act, by decide +kernel⟩,
   ⟨pnl { Panel.reset with labelHeld := true } act, by decide +kernel⟩,
   ⟨{ off with carrier := { off.carrier with holdup := true } }, by decide +kernel⟩,
   ⟨pnl { Panel.reset with labelBusy := true } act, by decide +kernel⟩,
   ⟨.mgmt 0, act, by decide +kernel⟩,
   ⟨act, by decide +kernel⟩,
   ⟨{ act with mram := { act.mram with opMinutes := 59 } }, by decide +kernel⟩,
   ⟨act, by decide +kernel⟩,
   ⟨0, -1, by decide +kernel⟩,
   ⟨0, 1, 30, by decide +kernel⟩⟩

end Sys2Proof.Tests
end

section
/-! SUPPORT. The refusal of a register access under R10: which accesses are refused, what the record ID_REFUSED_ADDR then reads, and
that nothing but the count, the record and the event changes. -/

set_option Elab.async false

namespace Sys2Proof.Machine

open Sys2Proof

/-! Which accesses are refused, and what refuses them. -/

theorem shapeOk_eq_true_iff (a : Nat) : shapeOk a = true ↔ a % 4 = 0 ∧ a < 0x200000 := by
  simp [shapeOk]

theorem shapeOk_eq_false_iff (a : Nat) : shapeOk a = false ↔ a % 4 ≠ 0 ∨ 0x200000 ≤ a := by
  rw [← Bool.not_eq_true, shapeOk_eq_true_iff]
  omega

theorem exec_misalignedAccess (o : Origin) (x : AccessSpan) (w : Bool) (s : State) :
    exec (.misalignedAccess o x w) s = execMisalignedAccess o x w s := rfl

theorem exec_registerWrite (o : Origin) (a : Nat) (v : Word) (s : State) :
    exec (.registerWrite o a v) s = execRegisterWrite o a v s := rfl

theorem exec_misalignedAccess_refused (o : Origin) {a n : Nat} (w : Bool) {s : State} (hp : s.powered = true)
    (hx : shapeOk a = false ∨ n ≠ 4) : exec (.misalignedAccess o ⟨a, n⟩ w) s = .next (refuseShape o a w s) := by
  rw [exec_misalignedAccess, execMisalignedAccess, if_pos]
  simpa [hp] using hx

theorem exec_misalignedAccess_whole_word (o : Origin) {a : Nat} (w : Bool) (s : State) (ha : shapeOk a = true) :
    exec (.misalignedAccess o ⟨a, 4⟩ w) s = .next s := by
  simp [exec_misalignedAccess, execMisalignedAccess, ha]

theorem writeBy_refused (o : Origin) {a : Nat} (v : Word) (s : State) (ha : shapeOk a = false) :
    writeBy o a v s = refuseShape o a true s := by
  simp [writeBy, ha]

theorem readBy_refused (o : Origin) {a : Nat} (s : State) (ha : shapeOk a = false) :
    readBy o a s = (0#32, refuseShape o a false s) := by
  simp [readBy, ha]

theorem exec_registerWrite_refused (o : Origin) {a : Nat} (v : Word) {s : State} (hp : s.powered = true) (ha : shapeOk a = false) :
    exec (.registerWrite o a v) s = .next (refuseShape o a true s) := by
  rw [exec_registerWrite, execRegisterWrite, if_pos hp, writeBy_refused o v s ha]

/-! Saturating counts and the codes of the record fit their fields. -/

theorem satInc_lt (w n : Nat) : satInc w n < 2 ^ w := by
  have : 0 < 2 ^ w := Nat.two_pow_pos w
  unfold satInc
  split <;> omega

theorem State.get_inc_self (s : State) (f : Fld) : (s.inc f).get f = satInc f.w (s.get f) :=
  (State.get_put_self _ _ _).trans (Nat.mod_eq_of_lt (satInc_lt _ _))

theorem originSrc_lt (o : Origin) : originSrc o < 2 ^ 2 := by
  cases o <;> simp [originSrc]

theorem b2n_lt (b : Bool) : b2n b < 2 ^ 1 := by
  cases b <;> decide

/-! The record of a refusal. -/

/-- The fields of ID_REFUSED_ADDR, which recordRefused writes. -/
def refusedAddrFlds : List Fld :=
  [Reg.ID_REFUSED_ADDR_ADDR, Reg.ID_REFUSED_ADDR_OUTSIDE, Reg.ID_REFUSED_ADDR_SRC, Reg.ID_REFUSED_ADDR_KIND, Reg.ID_REFUSED_ADDR_WRITE,
    Reg.ID_REFUSED_ADDR_VALID]

theorem recordRefused_regs (o : Origin) (a k : Nat) (w : Bool) (s : State) : RegsBut refusedAddrFlds s (recordRefused o a k w s) :=
  (RegsBut.put s Reg.ID_REFUSED_ADDR_ADDR _ (by decide)).trans <|
    (RegsBut.put _ Reg.ID_REFUSED_ADDR_OUTSIDE _ (by decide)).trans <|
    (RegsBut.put _ Reg.ID_REFUSED_ADDR_SRC _ (by decide)).trans <|
    (RegsBut.put _ Reg.ID_REFUSED_ADDR_KIND _ (by decide)).trans <|
    (RegsBut.put _ Reg.ID_REFUSED_ADDR_WRITE _ (by decide)).trans <|
    RegsBut.put _ Reg.ID_REFUSED_ADDR_VALID _ (by decide)

theorem recordRefused_get_valid (o : Origin) (a k : Nat) (w : Bool) (s : State) :
    (recordRefused o a k w s).get Reg.ID_REFUSED_ADDR_VALID = 1 := State.get_put_self _ _ _

theorem recordRefused_get_write (o : Origin) (a k : Nat) (w : Bool) (s : State) :
    (recordRefused o a k w s).get Reg.ID_REFUSED_ADDR_WRITE = b2n w := by
  unfold recordRefused
  rw [State.get_put_ne _ _ (by decide), State.get_put_self]
  exact Nat.mod_eq_of_lt (b2n_lt w)

theorem recordRefused_get_kind (o : Origin) (a : Nat) {k : Nat} (w : Bool) (s : State) (hk : k < 2) :
    (recordRefused o a k w s).get Reg.ID_REFUSED_ADDR_KIND = k := by
  unfold recordRefused
  rw [State.get_put_ne _ _ (by decide), State.get_put_ne _ _ (by decide), State.get_put_self]
  exact Nat.mod_eq_of_lt hk

theorem recordRefused_get_src (o : Origin) (a k : Nat) (w : Bool) (s : State) :
    (recordRefused o a k w s).get Reg.ID_REFUSED_ADDR_SRC = originSrc o := by
  unfold recordRefused
  rw [State.get_put_ne _ _ (by decide), State.get_put_ne _ _ (by decide), State.get_put_ne _ _ (by decide), State.get_put_self]
  exact Nat.mod_eq_of_lt (originSrc_lt o)

/-! The refusal as a whole. -/

/-- The event of R10 changes its own register alone, so every other field reads as the record left it. -/
theorem refuseShape_get (o : Origin) (a : Nat) (w : Bool) (s : State) {f : Fld} (hf : ∀ g ∈ Ev.ID_ACCESS_REFUSED.flds, g.key ≠ f.key) :
    (refuseShape o a w s).get f = (recordRefused o a 0 w (s.inc Reg.ID_REFUSED_SHAPE)).get f :=
  RegsBut.raise _ _ (fun _ h => h) f hf

theorem refuseShape_get_shape (o : Origin) (a : Nat) (w : Bool) (s : State) :
    (refuseShape o a w s).get Reg.ID_REFUSED_SHAPE = satInc Reg.ID_REFUSED_SHAPE.w (s.get Reg.ID_REFUSED_SHAPE) := by
  rw [refuseShape_get o a w s (by decide), recordRefused_regs o a 0 w _ _ (by decide), State.get_inc_self]

/-- A refused access changes the count SHAPE, the record ID_REFUSED_ADDR and the event register of ACCESS_REFUSED, and nothing else (R10). -/
theorem refuseShape_raisedBut (o : Origin) (a : Nat) (w : Bool) (s : State) :
    RaisedBut Ev.ID_ACCESS_REFUSED (Reg.ID_REFUSED_SHAPE :: refusedAddrFlds) [] s (refuseShape o a w s) := by
  have hr : RegsBut (Reg.ID_REFUSED_SHAPE :: refusedAddrFlds) s (recordRefused o a 0 w (s.inc Reg.ID_REFUSED_SHAPE)) :=
    (RegsBut.inc s _ List.mem_cons_self).trans ((recordRefused_regs o a 0 w _).mono fun _ h => List.mem_cons_of_mem _ h)
  exact RaisedBut.of (by decide) hr (hr _ (by decide)) (EventsOnly.of_eq rfl rfl)
    (recordRefused_moves o a 0 w (by decide) (State_inc_moves _ (by decide) (Moves.refl _ s))).keeps

end Sys2Proof.Machine

open Sys2Proof Sys2Proof.Machine

/-- Settles O51: an access outside R9 runs refuseShape and nothing else, whether it comes as a command, a write or a read; the effect
of refuseShape is the count, the record and the event. -/
theorem misalignedAccessRefused : Obligations.MisalignedAccessRefused := by
  unfold Obligations.MisalignedAccessRefused
  refine ⟨fun o a n w s hp hx => ?_, fun o a v s hp ha => ?_, fun o a s ha => ?_, fun o a w s ha hlt => ?_⟩
  · have hx' : shapeOk a = false ∨ n ≠ 4 := by rw [shapeOk_eq_false_iff]; omega
    refine ⟨_, exec_misalignedAccess_refused o w hp hx', refuseShape_get_shape o a w s, ?_, ?_, ?_, ?_, refuseShape_raisedBut o a w s⟩
    · exact (refuseShape_get o a w s (by decide)).trans (recordRefused_get_valid o a 0 w _)
    · exact (refuseShape_get o a w s (by decide)).trans (recordRefused_get_kind o a w _ Nat.two_pos)
    · exact (refuseShape_get o a w s (by decide)).trans (recordRefused_get_write o a 0 w _)
    · exact (refuseShape_get o a w s (by decide)).trans (recordRefused_get_src o a 0 w _)
  · exact ⟨_, exec_registerWrite_refused o v hp ((shapeOk_eq_false_iff a).2 ha), rfl⟩
  · exact readBy_refused o s ((shapeOk_eq_false_iff a).2 ha)
  · exact ⟨s, exec_misalignedAccess_whole_word o w s ((shapeOk_eq_true_iff a).2 ⟨ha, hlt⟩), rfl⟩

end

section
/-! SUPPORT. An event raised after a change of the carrier's part of the state, and the ejector lever (R46). -/

set_option Elab.async false

namespace Sys2Proof.Machine

open Sys2Proof

/-- The carrier's part holds no register, no event and no message, so an event raised after it changed is the only other effect. -/
theorem RaisedBut.carrier {e : EvBit} (hb : e.bit < 16) (s : State) (v : Carrier) :
    RaisedBut e [] [.carrier] s ({ s with carrier := v }.raise e) :=
  RaisedBut.of hb (RegsBut.of_bank rfl) (State.get_congr rfl _) (EventsOnly.of_eq rfl rfl)
    (Moves.set_carrier v (by decide) (Moves.refl _ s)).keeps

theorem exec_leverOpened (s : State) : exec .leverOpened s = execLeverOpened s := rfl

/-- A lever found closed on a powered module is opened, and the event raised (R46). -/
theorem exec_leverOpened_closed {s : State} (hp : s.powered = true) (hl : s.carrier.leverOpen = false) :
    exec .leverOpened s = .next ({ s with carrier := { s.carrier with leverOpen := true } }.raise Ev.PWR_LEVER_OPENED) := by
  rw [exec_leverOpened, execLeverOpened, State.raiseIf, if_pos]
  rw [hp, hl]
  rfl

end Sys2Proof.Machine

open Sys2Proof Sys2Proof.Machine

/-- Settles O11: the next state is the one with LEVER_OPEN set in the carrier's part, after the event LEVER_OPENED; the event leaves
that part alone. -/
theorem leverOpened : Obligations.LeverOpened := by
  unfold Obligations.LeverOpened
  intro s hp hl
  exact ⟨_, exec_leverOpened_closed hp hl, State.raise_carrier _ _, RaisedBut.carrier (by decide) s _⟩

end

section
/-! SUPPORT. An event raised with no other effect, and the commit of an increment (R348). -/

set_option Elab.async false

namespace Sys2Proof.Machine

open Sys2Proof

/-- An event raised with no change before it. -/
theorem RaisedBut.raise {e : EvBit} (hb : e.bit < 16) (s : State) : RaisedBut e [] [] s (s.raise e) :=
  RaisedBut.of hb (RegsBut.refl _ s) rfl (EventsOnly.refl s) (KeepsBut.refl _ s)

/-- The 8.32 value that a commit with the integer part intNs would put in force: INC_FRAC holds the fraction (R348). -/
def State.incOffered (s : State) (intNs : Nat) : Nat := intNs * 2 ^ 32 + s.get Reg.TIME_INC_LO_INC_FRAC

theorem incCommit_of_mem {n : Nat} {s : State} (hlo : incLo ≤ s.incOffered n) (hhi : s.incOffered n ≤ incHi) :
    incCommit n s = { s with time := { s.time with inc := s.incOffered n } } :=
  if_pos ⟨hlo, hhi⟩

theorem incCommit_of_not_mem {n : Nat} {s : State} (h : s.incOffered n < incLo ∨ incHi < s.incOffered n) :
    incCommit n s = s.raise Ev.TIME_INC_REFUSED :=
  if_neg fun ⟨hlo, hhi⟩ => h.elim hlo.not_gt hhi.not_gt

theorem exec_incCommit (o : Origin) (b : Byte) (s : State) : exec (.incCommit o b) s = execIncCommit o b s := rfl

/-- On a powered module an origin that may change the time commits the increment (R348, R351). -/
theorem exec_incCommit_accepted {o : Origin} (b : Byte) {s : State} (hp : s.powered = true) (ho : timeOrigin s o = true) :
    exec (.incCommit o b) s = .next (incCommit b.toNat s) := by
  rw [exec_incCommit, execIncCommit, if_pos hp, byOrigin, if_pos ho]

end Sys2Proof.Machine

open Sys2Proof Sys2Proof.Machine

/-- Settles O41: a commit inside the limits replaces the increment and nothing else; one outside them is the event alone, which
leaves the time base as it was. -/
theorem incrementLimits : Obligations.IncrementLimits := by
  unfold Obligations.IncrementLimits
  refine ⟨rfl, fun o b s hp ho => ⟨fun hlo hhi => ?_, fun hout => ?_⟩⟩
  · exact ⟨_, exec_incCommit_accepted b hp ho, incCommit_of_mem hlo hhi⟩
  · refine ⟨_, exec_incCommit_accepted b hp ho, ?_⟩
    rw [incCommit_of_not_mem hout]
    exact RaisedBut.raise (by decide) s

end

section
/-! SUPPORT. The clear of an event register (R418): which fields it empties, which it leaves, and the write that performs it. -/

set_option Elab.async false

namespace Sys2Proof.Machine

open Sys2Proof

/-! What the clear does to the fields of the bank. -/

theorem State.clearEvents_of_seq_ne {s : State} {a : Nat} {v : Word} (h : v.toNat / 2 ^ 16 ≠ s.get ⟨a, 16, 16⟩) :
    s.clearEvents a v = s := if_neg h

/-- A write of the standing sequence number empties the places of the 16 event bits. -/
theorem State.clearEvents_get_bit {s : State} {a b : Nat} {v : Word} (w : Nat) (h : v.toNat / 2 ^ 16 = s.get ⟨a, 16, 16⟩) (hb : b < 16) :
    (s.clearEvents a v).get ⟨a, b, w⟩ = 0 := by
  rw [State.clearEvents, if_pos h, State.get, Tab.getD, Tab.get?_filter_none]
  · rfl
  · intro x
    simp [Fld.key, hb]

/-- No written value reaches a field outside the 16 event bits. -/
theorem State.clearEvents_get_outside (s : State) {a : Nat} (v : Word) {f : Fld} (hf : f.key < 32 * a ∨ 32 * a + 16 ≤ f.key) :
    (s.clearEvents a v).get f = s.get f := by
  unfold State.clearEvents
  split
  · rw [State.get, Tab.getD, Tab.get?_filter]
    · rfl
    · intro x
      simp only [Bool.not_eq_true', Bool.and_eq_false_iff, decide_eq_false_iff_not]
      omega
  · rfl

theorem State.clearEvents_get_seq (s : State) (a : Nat) (v : Word) : (s.clearEvents a v).get ⟨a, 16, 16⟩ = s.get ⟨a, 16, 16⟩ :=
  s.clearEvents_get_outside v (.inr le_rfl)

theorem State.clearEvents_keepsBut (s : State) (a : Nat) (v : Word) : KeepsBut [.bank] s (s.clearEvents a v) :=
  (State_clearEvents_moves a v (fun _ h => h) (Moves.refl _ s)).keeps

/-! A clear beside an event. -/

theorem nextSeq_ne_self (q : Nat) : nextSeq q ≠ q := by
  unfold nextSeq
  split <;> omega

/-- The sequence number read before an event no longer clears the register after it. -/
theorem State.raise_clearEvents {s : State} {e : EvBit} {v : Word} (h : v.toNat / 2 ^ 16 = s.get ⟨e.addr, 16, 16⟩) :
    (s.raise e).clearEvents e.addr v = s.raise e := by
  apply State.clearEvents_of_seq_ne
  rw [State.raise_get_seq, h]
  exact (nextSeq_ne_self _).symm

/-- An event leaves the other event bits of its register as they were. -/
theorem State.raise_get_other_bit (s : State) {e d : EvBit} (hd : d.bit < 16) (ha : d.addr = e.addr) (hne : d.bit ≠ e.bit) :
    (s.raise e).get ⟨d.addr, d.bit, 1⟩ = s.get ⟨d.addr, d.bit, 1⟩ :=
  State.raise_get_ne s (by simp only [Fld.key]; omega) (by simp only [Fld.key]; omega)

/-! The write that performs the clear. -/

theorem writeBy_accepted {o : Origin} {a : Nat} {v : Word} {s : State} (hs : shapeOk a = true)
    (hm : s.mode = .terminus → blockNum a = 0 ∨ blockNum a = 0x17) (hw : s.writeAllowed o a v = true) :
    writeBy o a v s = regEffect o a v s := by
  have hresponds : ¬(s.mode = .terminus ∧ blockNum a ≠ 0 ∧ blockNum a ≠ 0x17) :=
    fun ⟨ht, h0, h17⟩ => (hm ht).elim h0 h17
  rw [writeBy, if_neg (by simp [hs]), if_neg hresponds, if_pos hw]

theorem regEffect_eventAddr (o : Origin) {a : Nat} (v : Word) (s : State) (he : eventAddr a = true) :
    regEffect o a v s = s.clearEvents a v := if_pos he

theorem exec_eventRegisterClear (o : Origin) (a : Nat) (v : Word) (s : State) :
    exec (.eventRegisterClear o a v) s = execEventRegisterClear o a v s := rfl

/-- An accepted write of an event register is its clear and nothing else (R413, R418). -/
theorem exec_eventRegisterClear_accepted {o : Origin} {a : Nat} {v : Word} {s : State} (hp : s.powered = true)
    (hm : s.mode = .terminus → blockNum a = 0 ∨ blockNum a = 0x17) (he : eventAddr a = true) (hs : shapeOk a = true)
    (hw : s.writeAllowed o a v = true) : exec (.eventRegisterClear o a v) s = .next (s.clearEvents a v) := by
  rw [exec_eventRegisterClear, execEventRegisterClear, if_pos (by simp [hp, he]), writeBy_accepted hs hm hw,
    regEffect_eventAddr o v s he]

end Sys2Proof.Machine

open Sys2Proof Sys2Proof.Machine

/-- Settles O53: an accepted write runs clearEvents, which removes the keys of the 16 event bits when the written number stands in
SEQ and is the identity otherwise; an event moves SEQ to another value, so the number read before it clears nothing. -/
theorem eventBitsCleared : Obligations.EventBitsCleared := by
  unfold Obligations.EventBitsCleared
  refine ⟨fun o a v s hp hm he ha hlt hw => ?_, fun e v s _ hseq => State.raise_clearEvents hseq,
    fun e d v s he hd had hne hseq => ⟨?_, ?_, ?_⟩⟩
  · have hx := exec_eventRegisterClear_accepted hp hm he ((shapeOk_eq_true_iff a).2 ⟨ha, hlt⟩) hw
    refine ⟨fun hseq => ?_, fun hseq => ?_⟩
    · exact ⟨_, hx, rfl, fun b hb => State.clearEvents_get_bit 1 hseq hb, s.clearEvents_get_seq a v, s.clearEvents_keepsBut a v⟩
    · exact ⟨_, hx, State.clearEvents_of_seq_ne hseq⟩
  · exact State.raise_get_bit _ he
  · rw [State.raise_get_other_bit _ hd had hne, had]
    exact State.clearEvents_get_bit 1 hseq hd
  · rw [State.raise_get_seq, State.clearEvents_get_seq]

end

section
/-! SUPPORT. Every command has a next state, touches the parts its row of the table names and no other, and keeps the invariants:
one lemma per command, from what its operations do. -/

set_option Elab.async false

namespace Sys2Proof.Machine

open Sys2Proof

theorem sub_touches {A : List Part} {c : Instr} (h : A.all (fun p => decide (p ∈ touches c)) = true) : ∀ p ∈ A, p ∈ touches c := by
  simpa using h

theorem mem_touches {p : Part} {c : Instr} (h : decide (p ∈ touches c) = true) : p ∈ touches c := of_decide_eq_true h

/-- An update of several parts at once, none of which an invariant speaks of. -/
theorem Moves.fields {L : List Part} {s x t : State} (h : Moves L s x) (hf : t.fixed = x.fixed := by rfl) (hb : t.bank = x.bank := by rfl)
    (ht : (t.time.counter, t.time.inc) = (x.time.counter, x.time.inc) := by rfl)
    (hs : (t.standby.sec, t.standby.frac) = (x.standby.sec, x.standby.frac) := by rfl)
    (hm : t.mode = x.mode ∨ mayDrive t.mode = true := by exact .inl rfl) (hc : t.claim.drive = x.claim.drive ∨ t.claim.drive = false := by exact .inl rfl)
    (hk : ∀ p : Part, p ∈ L ∨ p.same x t := by
      intro p
      cases p <;> first | exact .inr rfl | exact .inl (mem_touches rfl)) : Moves L s t :=
  .leaf hf h hb ht hs hm hc hk

theorem Moves.ite {L : List Part} {p : Prop} [Decidable p] {s t u : State} (ht : Moves L s t) (hu : Moves L s u) :
    Moves L s (if p then t else u) := by
  split
  · exact ht
  · exact hu

theorem Moves.set_claim_same {L : List Part} {s x : State} (v : Claim) (hL : .claim ∈ L) (hv : v.drive = x.claim.drive) (h : Moves L s x) :
    Moves L s { x with claim := v } :=
  .set_claim v hL (fun hd => .inl (hv ▸ hd)) h

theorem Moves.set_claim_off {L : List Part} {s x : State} (v : Claim) (hL : .claim ∈ L) (hv : v.drive = false) (h : Moves L s x) :
    Moves L s { x with claim := v } :=
  .set_claim v hL (fun hd => absurd (hv.symm.trans hd) Bool.false_ne_true) h

theorem Moves.set_time_same {L : List Part} {s x : State} (v : TimeBase) (hL : .time ∈ L) (hc : v.counter = x.time.counter)
    (hi : v.inc = x.time.inc) (h : Moves L s x) : Moves L s { x with time := v } :=
  .set_time v hL (fun ⟨h1, h2, h3, h4, _⟩ => by rw [hc, hi]; exact ⟨h1, h2, h3, h4⟩) h

/-! Where the command sets the driver of the claim, or a clock. -/

theorem Moves.set_standby_same {L : List Part} {s x : State} (v : Standby) (hL : .standby ∈ L) (hs : v.sec = x.standby.sec)
    (hf : v.frac = x.standby.frac) (h : Moves L s x) : Moves L s { x with standby := v } :=
  .set_standby v hL (fun ⟨_, _, _, _, h5, h6⟩ => by rw [hs, hf]; exact ⟨h5, h6⟩) h

theorem mayDrive_of_ready {s : State} (h : s.ready = true) : mayDrive s.mode = true := by
  have hm : s.mode = .standby := by
    unfold State.ready at h
    simp_all
  rw [hm]
  rfl

theorem freezeCopy_mode (s : State) : (freezeCopy s).mode = s.mode :=
  ((freezeCopy_moves (fun _ h => h) (.refl _ s)).keeps .mode (by decide)).symm

/-! The commands, in the order of the table. -/

theorem exec_seatedMade_moves (s : State) : Completes .seatedMade s (Moves (touches .seatedMade) s) :=
  ⟨_, rfl, .set_carrier _ (mem_touches rfl) (.refl _ s)⟩

theorem exec_insertionStart_moves (inp : StartInput) (s : State) : Completes (.insertionStart inp) s (Moves (touches (.insertionStart inp)) s) :=
  ⟨_, rfl, .ite (startModule_moves _ (sub_touches rfl) (.refl _ s)) (.refl _ s)⟩

theorem exec_seatedBreak_moves (s : State) : Completes .seatedBreak s (Moves (touches .seatedBreak) s) :=
  ⟨_, rfl, .ite (enterHoldup_moves (sub_touches rfl) (sbyFlag_moves _ _ (sub_touches rfl) (fun _ => ⟨rfl, rfl⟩)
    (.set_carrier _ (mem_touches rfl) (.refl _ s)))) (.refl _ s)⟩

theorem exec_cellLow_moves (s : State) : Completes .cellLow s (Moves (touches .cellLow) s) :=
  ⟨_, rfl, sbyFlag_moves _ _ (sub_touches rfl) (fun _ => ⟨rfl, rfl⟩) (.refl _ s)⟩

theorem exec_countLost_moves (s : State) : Completes .countLost s (Moves (touches .countLost) s) :=
  ⟨_, rfl, .set_standby _ (mem_touches rfl) (fun _ => ⟨Nat.two_pow_pos 48, Nat.zero_lt_succ _⟩) (.refl _ s)⟩

theorem exec_modSupplyLost_moves (input : Fin 2) (mv : Nat) (s : State) :
    Completes (.modSupplyLost input mv) s (Moves (touches (.modSupplyLost input mv)) s) :=
  ⟨_, rfl, State_raiseIf_moves _ _ (sub_touches rfl) (.set_carrier _ (mem_touches rfl) (.refl _ s))⟩

theorem exec_fieldSupplyLost_moves (input : Fin 2) (mv : Nat) (s : State) :
    Completes (.fieldSupplyLost input mv) s (Moves (touches (.fieldSupplyLost input mv)) s) :=
  have h := .set_carrier _ (mem_touches rfl) (.refl _ s)
  ⟨_, rfl, .ite (fieldBad_moves _ (sub_touches rfl) (State_raise_moves _ (sub_touches rfl) h)) h⟩

theorem exec_fieldFuseTrip_moves (input : Fin 2) (ma : Nat) (s : State) :
    Completes (.fieldFuseTrip input ma) s (Moves (touches (.fieldFuseTrip input ma)) s) :=
  ⟨_, rfl, .ite (fieldBad_moves _ (sub_touches rfl) (State_raise_moves _ (sub_touches rfl) (.set_carrier _ (mem_touches rfl) (.refl _ s))))
    (.refl _ s)⟩

theorem exec_fieldFuseReclose_moves (input : Fin 2) (s : State) :
    Completes (.fieldFuseReclose input) s (Moves (touches (.fieldFuseReclose input)) s) :=
  ⟨_, rfl, .ite (.refl _ s) (.ite (.ite (.set_carrier _ (mem_touches rfl) (.refl _ s)) (.refl _ s))
    (.ite (.set_carrier _ (mem_touches rfl) (.refl _ s)) (.refl _ s)))⟩

theorem exec_cageOverload_moves (port : Port) (s : State) : Completes (.cageOverload port) s (Moves (touches (.cageOverload port)) s) :=
  ⟨_, rfl, .ite (portDown_moves _ (sub_touches rfl) (.set_carrier _ (mem_touches rfl) (.refl _ s))) (.refl _ s)⟩

theorem exec_holdupEntered_moves (s : State) : Completes .holdupEntered s (Moves (touches .holdupEntered) s) :=
  ⟨_, rfl, enterHoldup_moves (sub_touches rfl) (.refl _ s)⟩

theorem exec_powerLossRecord_moves (s : State) : Completes .powerLossRecord s (Moves (touches .powerLossRecord) s) :=
  ⟨_, rfl, .ite (.set_carrier _ (mem_touches rfl) (writePlr_moves (sub_touches rfl) (.ite (writeStatuses_moves (sub_touches rfl) (.refl _ s))
    (.refl _ s)))) (.refl _ s)⟩

theorem exec_holdupRailsDown_moves (s : State) : Completes .holdupRailsDown s (Moves (touches .holdupRailsDown) s) :=
  ⟨_, rfl, .ite (powerOff_moves (sub_touches rfl) (.refl _ s)) (.refl _ s)⟩

theorem exec_supplyReturnRestart_moves (inp : StartInput) (s : State) :
    Completes (.supplyReturnRestart inp) s (Moves (touches (.supplyReturnRestart inp)) s) :=
  ⟨_, rfl, .ite (startModule_moves _ (sub_touches rfl) (.refl _ s)) (.refl _ s)⟩

theorem exec_leverOpened_moves (s : State) : Completes .leverOpened s (Moves (touches .leverOpened) s) :=
  ⟨_, rfl, State_raiseIf_moves _ _ (sub_touches rfl) (.set_carrier _ (mem_touches rfl) (.refl _ s))⟩

theorem exec_reservoirHealthTest_moves (healthPct : Nat) (holdupMs : Nat) (s : State) :
    Completes (.reservoirHealthTest healthPct holdupMs) s (Moves (touches (.reservoirHealthTest healthPct holdupMs)) s) :=
  ⟨_, rfl, .ite (State_raiseIf_moves _ _ (sub_touches rfl) (State_put_moves _ _ (sub_touches rfl) (State_put_moves _ _ (sub_touches rfl)
    (.refl _ s)))) (.refl _ s)⟩

theorem exec_claimKeeperRefresh_moves (s : State) : Completes .claimKeeperRefresh s (Moves (touches .claimKeeperRefresh) s) :=
  ⟨_, rfl, .ite (.set_claim_same _ (mem_touches rfl) rfl (.refl _ s)) (.refl _ s)⟩

theorem exec_claimKeeperRelease_moves (s : State) : Completes .claimKeeperRelease s (Moves (touches .claimKeeperRelease) s) :=
  ⟨_, rfl, .ite (refreshOutputs_moves (sub_touches rfl) (canUnclaim_moves (sub_touches rfl) (.fields (.refl _ s)))) (.refl _ s)⟩

theorem exec_claimStuckHigh_moves (s : State) : Completes .claimStuckHigh s (Moves (touches .claimStuckHigh) s) :=
  ⟨_, rfl, .ite (stayOut_moves (sub_touches rfl) (State_raise_moves _ (sub_touches rfl) (.set_claim_same _ (mem_touches rfl) rfl (.refl _ s))))
    (.refl _ s)⟩

theorem exec_claimStuckLow_moves (s : State) : Completes .claimStuckLow s (Moves (touches .claimStuckLow) s) :=
  ⟨_, rfl, .ite (stayOut_moves (sub_touches rfl) (State_raise_moves _ (sub_touches rfl) (.set_claim_same _ (mem_touches rfl) rfl (.refl _ s))))
    (.refl _ s)⟩

theorem exec_couplingHello_moves (h : Hello) (s : State) : Completes (.couplingHello h) s (Moves (touches (.couplingHello h)) s) := by
  refine ⟨_, rfl, ?_⟩
  split
  · exact .ite (.refl _ s) (decideAgain_moves _ _ (sub_touches rfl) (seedAt10_moves _ (sub_touches rfl) (takeHello_moves _ _ (sub_touches rfl)
      (.refl _ s))))
  · exact .refl _ s

theorem exec_partnerWindowExpiry_moves (s : State) : Completes .partnerWindowExpiry s (Moves (touches .partnerWindowExpiry) s) := by
  refine ⟨_, rfl, .ite ?_ (.refl _ s)⟩
  split
  · exact .ite (startHold_moves _ (sub_touches rfl) (enrol_moves _ (sub_touches rfl) (.refl _ s))) (.ite (.ite (enrol_moves _ (sub_touches rfl)
      (.refl _ s)) (chooseImage_moves _ (sub_touches rfl) (enrol_moves _ (sub_touches rfl) (.refl _ s)))) (.ite (startHold_moves _
      (sub_touches rfl) (.ite (enrol_moves _ (sub_touches rfl) (.refl _ s)) (chooseImage_moves _ (sub_touches rfl) (enrol_moves _
      (sub_touches rfl) (.refl _ s))))) (takePathB_moves _ (sub_touches rfl) (.ite (enrol_moves _ (sub_touches rfl) (.refl _ s))
      (chooseImage_moves _ (sub_touches rfl) (enrol_moves _ (sub_touches rfl) (.refl _ s)))))))
  · exact .refl _ s

theorem exec_startHoldRetry_moves (inp : StartInput) (s : State) : Completes (.startHoldRetry inp) s (Moves (touches (.startHoldRetry inp)) s) :=
  ⟨_, rfl, .ite (steps3to10_moves _ (sub_touches rfl) (State_inc_moves _ (sub_touches rfl) (.refl _ s))) (.refl _ s)⟩

theorem exec_startEnterActive_moves (s : State) : Completes .startEnterActive s (Moves (touches .startEnterActive) s) := by
  refine ⟨_, rfl, ?_⟩
  split
  · next h =>
    have hm : s.mode = .starting := by
      simp only [State.mayEnter, Bool.and_eq_true, decide_eq_true_eq] at h
      exact h.1.1.1.1.1
    exact .set_claim _ (mem_touches rfl) (fun _ => .inr (by rw [hm]; rfl)) (.refl _ s)
  · exact .ite (refreshOutputs_moves (sub_touches rfl) (serviceEntry_moves (sub_touches rfl) (setMode_moves _ (sub_touches rfl) (.inl rfl) (.refl _ s))))
      (.refl _ s)

theorem exec_taskFreeze_moves (task : Fin 8) (s : State) : Completes (.taskFreeze task) s (Moves (touches (.taskFreeze task)) s) :=
  ⟨_, rfl, .ite (.ite (closureStep2_moves _ (sub_touches rfl) (startLanes_moves _ (sub_touches rfl) (freezeCore_moves _ (sub_touches rfl)
    (.refl _ s)))) (startLanes_moves _ (sub_touches rfl) (freezeCore_moves _ (sub_touches rfl) (.refl _ s)))) (.ite (execApplyHeld_moves
    (sub_touches rfl) (.refl _ s)) (.refl _ s))⟩

theorem exec_gatedRead_moves (lane : Fin 16) (copy : Fin 2) (request : DWord) (sample : DWord) (s : State) :
    Completes (.gatedRead lane copy request sample) s (Moves (touches (.gatedRead lane copy request sample)) s) := by
  refine ⟨_, rfl, .ite (.refl _ s) ?_⟩
  split
  · refine .ite (State_setLane_moves _ _ (sub_touches rfl) (.refl _ s)) ?_
    split
    · exact State_raise_moves _ (sub_touches rfl) (mismatchAt_moves _ _ _ (sub_touches rfl) (.refl _ s))
    · exact retireLane_moves _ _ _ _ (sub_touches rfl) (State_raise_moves _ (sub_touches rfl) (.refl _ s))
  · exact .ite (State_setLane_moves _ _ (sub_touches rfl) (.refl _ s)) (.refl _ s)

theorem exec_barrierRelease_moves (lane : Fin 16) (s : State) : Completes (.barrierRelease lane) s (Moves (touches (.barrierRelease lane)) s) := by
  refine ⟨_, rfl, ?_⟩
  split
  · exact .ite (State_setLane_moves _ _ (sub_touches rfl) (.refl _ s)) (.refl _ s)
  · exact .refl _ s

theorem exec_checkpoint_moves (c : Checkpoint) (s : State) : Completes (.checkpoint c) s (Moves (touches (.checkpoint c)) s) := by
  refine ⟨_, rfl, ?_⟩
  split
  · exact .ite (.refl _ s) (.ite (retireLane_moves _ _ _ _ (sub_touches rfl) (noteLag_moves _ (sub_touches rfl) (.refl _ s)))
      (firstCompare_moves _ _ (sub_touches rfl) (noteLag_moves _ (sub_touches rfl) (.refl _ s))))
  · exact .refl _ s

theorem exec_reexecutionCompare_moves (c : Checkpoint) (s : State) :
    Completes (.reexecutionCompare c) s (Moves (touches (.reexecutionCompare c)) s) := by
  refine ⟨_, rfl, ?_⟩
  split
  · exact .ite (.refl _ s) (secondCompare_moves _ _ _ (sub_touches rfl) (noteLag_moves _ (sub_touches rfl) (.refl _ s)))
  · exact .refl _ s

theorem exec_spareTakeover_moves (lane : Fin 16) (s : State) : Completes (.spareTakeover lane) s (Moves (touches (.spareTakeover lane)) s) :=
  ⟨_, rfl, .ite (State_setLane_moves _ _ (sub_touches rfl) (.refl _ s)) (.refl _ s)⟩

theorem exec_eccError_moves (f : EccFinding) (s : State) : Completes (.eccError f) s (Moves (touches (.eccError f)) s) :=
  ⟨_, rfl, .ite (eccHandle_moves _ _ (sub_touches rfl) (.refl _ s)) (.refl _ s)⟩

theorem exec_scrubPass_moves (findings : List EccFinding) (s : State) :
    Completes (.scrubPass findings) s (Moves (touches (.scrubPass findings)) s) :=
  ⟨_, rfl, .ite (.forEach (fun _ _ h => eccHandle_moves _ _ (sub_touches rfl) h) (.refl _ s)) (.refl _ s)⟩

theorem exec_bistVisit_moves (lane : Fin 16) (first : VectorRun) (second : VectorRun) (s : State) :
    Completes (.bistVisit lane first second) s (Moves (touches (.bistVisit lane first second)) s) :=
  ⟨_, rfl, .ite (.ite (retireIdle_moves _ _ _ (sub_touches rfl) (.refl _ s)) (bistVerdict_moves _ _ _ (sub_touches rfl) (.refl _ s))) (.refl _ s)⟩

theorem exec_closureRelease_moves (task : Fin 8) (s : State) : Completes (.closureRelease task) s (Moves (touches (.closureRelease task)) s) := by
  refine ⟨_, rfl, ?_⟩
  split
  · exact .ite (releaseCycle_moves _ (sub_touches rfl) (.refl _ s)) (.refl _ s)
  · exact .refl _ s

theorem exec_alignedRelease_moves (task : Fin 8) (s : State) : Completes (.alignedRelease task) s (Moves (touches (.alignedRelease task)) s) := by
  refine ⟨_, rfl, ?_⟩
  split
  · exact .ite (releaseCycle_moves _ (sub_touches rfl) (.refl _ s)) (.refl _ s)
  · exact .refl _ s

theorem exec_overrunWatchdog_moves (task : Fin 8) (lane : Fin 16) (s : State) :
    Completes (.overrunWatchdog task lane) s (Moves (touches (.overrunWatchdog task lane)) s) := by
  refine ⟨_, rfl, ?_⟩
  split
  · exact .ite (enterHalt_moves _ (sub_touches rfl) (State_raise_moves _ (sub_touches rfl) (markOverran_moves _ (sub_touches rfl) (.set_mram _
      (mem_touches rfl) (.refl _ s))))) (.refl _ s)
  · exact .refl _ s

theorem exec_paceWindow_moves (paces : List (Nat × Nat × Nat)) (s : State) :
    Completes (.paceWindow paces) s (Moves (touches (.paceWindow paces)) s) := by
  refine ⟨_, rfl, ?_⟩
  split
  · exact .ite (State_raiseIf_moves _ _ (sub_touches rfl) (State_raiseIf_moves _ _ (sub_touches rfl) (.ite (State_put_moves _ _ (sub_touches rfl)
      (State_put_moves _ _ (sub_touches rfl) (State_put_moves _ _ (sub_touches rfl) (State_put_moves _ _ (sub_touches rfl) (State_put_moves _ _
      (sub_touches rfl) (.refl _ s)))))) (State_put_moves _ _ (sub_touches rfl) (State_put_moves _ _ (sub_touches rfl) (.refl _ s)))))) (.refl _ s)
  · exact .refl _ s

theorem exec_clearMax_moves (origin : Origin) (task : Fin 8) (s : State) :
    Completes (.clearMax origin task) s (Moves (touches (.clearMax origin task)) s) :=
  ⟨_, rfl, .ite (byOrigin_moves _ _ _ _ (sub_touches rfl) (fun _ h => clearMaxWrite_moves _ (sub_touches rfl) h) (.refl _ s)) (.refl _ s)⟩

theorem exec_cmpInject_moves (origin : Origin) (lane : Fin 16) (copy : Fin 2) (repeated : Bool) (arm : Bool) (s : State) :
    Completes (.cmpInject origin lane copy repeated arm) s (Moves (touches (.cmpInject origin lane copy repeated arm)) s) :=
  ⟨_, rfl, .ite (byOrigin_moves _ _ _ _ (sub_touches rfl) (fun _ h => injectWrite_moves _ _ _ _ (sub_touches rfl) h) (.refl _ s)) (.refl _ s)⟩

theorem exec_faultSelect_moves (origin : Origin) (index : Fin 64) (s : State) :
    Completes (.faultSelect origin index) s (Moves (touches (.faultSelect origin index)) s) :=
  ⟨_, rfl, .ite (byOrigin_moves _ _ _ _ (sub_touches rfl) (fun _ h => faultSelWrite_moves _ (sub_touches rfl) h) (.refl _ s)) (.refl _ s)⟩

theorem exec_exchangeLoaded_moves (s : State) : Completes .exchangeLoaded s (Moves (touches .exchangeLoaded) s) := by
  refine ⟨_, rfl, .ite (.refl _ s) ?_⟩
  split
  · exact .ite (.refl _ s) (.ite (State_sendFrames_moves _ _ (sub_touches rfl) (.set_exch _ (mem_touches rfl) (loadShadow_moves _
      (sub_touches rfl) (.refl _ s)))) (.ite (commitAlone_moves (sub_touches rfl) (announceExchange_moves (sub_touches rfl) (loadShadow_moves _
      (sub_touches rfl) (.refl _ s)))) (abandonExchange_moves (sub_touches rfl) (loadShadow_moves _ (sub_touches rfl) (.refl _ s)))))
  · exact .refl _ s

theorem exec_mapAck_moves (f : LinkHdr × Word) (s : State) : Completes (.mapAck f) s (Moves (touches (.mapAck f)) s) := by
  refine ⟨_, rfl, frame_moves _ _ _ (sub_touches rfl) (fun x h => .ite (.ite ?_ ?_) h) (.refl _ s)⟩
  · exact .set_pair _ (mem_touches rfl) (abandonExchange_moves (sub_touches rfl) h)
  · have ha := announceExchange_moves (sub_touches rfl) h
    simp only []
    split
    · exact State_sendFrame_moves _ (sub_touches rfl) ha
    · exact ha

theorem exec_announce_moves (f : LinkHdr × Announcement) (s : State) : Completes (.announce f) s (Moves (touches (.announce f)) s) :=
  ⟨_, rfl, frame_moves _ _ _ (sub_touches rfl) (fun _ h => .ite (State_sendFrame_moves _ (sub_touches rfl) (commitExchange_moves _
    (sub_touches rfl) h)) h) (.refl _ s)⟩

theorem exec_announceAck_moves (h : LinkHdr) (s : State) : Completes (.announceAck h) s (Moves (touches (.announceAck h)) s) := by
  refine ⟨_, rfl, frame_moves _ _ _ (sub_touches rfl) (fun x hx => ?_) (.refl _ s)⟩
  split
  · exact .ite (commitExchange_moves _ (sub_touches rfl) hx) hx
  · exact hx

theorem exec_exchangeComplete_moves (s : State) : Completes .exchangeComplete s (Moves (touches .exchangeComplete) s) :=
  ⟨_, rfl, .ite (.ite (answerResync_moves (sub_touches rfl) (finishExchange_moves (sub_touches rfl) (.refl _ s))) (finishExchange_moves
    (sub_touches rfl) (.refl _ s))) (.refl _ s)⟩

theorem exec_sbxExchangeRestart_moves (s : State) : Completes .sbxExchangeRestart s (Moves (touches .sbxExchangeRestart) s) := by
  refine ⟨_, rfl, .ite (restartBox_moves (sub_touches rfl) (.refl _ s)) (.ite ?_ (.refl _ s))⟩
  split
  · exact closeWaybill_moves _ _ _ (sub_touches rfl) (.refl _ s)
  · exact .refl _ s

theorem exec_submit_moves (r : Req) (clientSeq : Nat) (work : Work) (s : State) :
    Completes (.submit r clientSeq work) s (Moves (touches (.submit r clientSeq work)) s) :=
  ⟨_, rfl, serve_moves _ _ _ (sub_touches rfl) (fun _ _ h => submitBody_moves _ _ _ _ (sub_touches rfl) h) (.refl _ s)⟩

theorem exec_mirrorAck_moves (f : LinkHdr × Nat) (s : State) : Completes (.mirrorAck f) s (Moves (touches (.mirrorAck f)) s) := by
  refine ⟨_, rfl, frame_moves _ _ _ (sub_touches rfl) (fun _ h => ?_) (.refl _ s)⟩
  split
  · exact .ite (acceptWaybill_moves _ _ (sub_touches rfl) h) h
  · exact h

theorem exec_mirrorTimeout_moves (seq : Nat) (s : State) : Completes (.mirrorTimeout seq) s (Moves (touches (.mirrorTimeout seq)) s) := by
  refine ⟨_, rfl, ?_⟩
  split
  · exact .ite (State_raise_moves _ (sub_touches rfl) (withoutPartner_moves _ (sub_touches rfl) (.refl _ s))) (.refl _ s)
  · exact .refl _ s

theorem exec_unconfirmedExpiry_moves (seq : Nat) (s : State) : Completes (.unconfirmedExpiry seq) s (Moves (touches (.unconfirmedExpiry seq)) s) := by
  refine ⟨_, rfl, ?_⟩
  split
  · exact .ite (expire_moves _ (sub_touches rfl) (.refl _ s)) (.refl _ s)
  · exact .refl _ s

theorem exec_clientCheckpoint_moves (s : State) : Completes .clientCheckpoint s (Moves (touches .clientCheckpoint) s) :=
  ⟨_, rfl, .ite (writeCheckpoint_moves (sub_touches rfl) (.refl _ s)) (.refl _ s)⟩

theorem exec_clientEviction_moves (clientId : Nat) (s : State) :
    Completes (.clientEviction clientId) s (Moves (touches (.clientEviction clientId)) s) := by
  refine ⟨_, rfl, ?_⟩
  split
  · exact .ite (.set_jrn _ (mem_touches rfl) (.refl _ s)) (.refl _ s)
  · exact .refl _ s

theorem exec_snapshotCapture_moves (s : State) : Completes .snapshotCapture s (Moves (touches .snapshotCapture) s) :=
  ⟨_, rfl, .ite (writeSnapshot_moves (sub_touches rfl) (.refl _ s)) (.refl _ s)⟩

theorem exec_couplingDown_moves (cause : Fin 3) (s : State) : Completes (.couplingDown cause) s (Moves (touches (.couplingDown cause)) s) :=
  ⟨_, rfl, .ite (couplingDown_moves (sub_touches rfl) (.refl _ s)) (.refl _ s)⟩

theorem exec_deltaAckTimeout_moves (task : Fin 8) (staleSeen : Bool) (s : State) :
    Completes (.deltaAckTimeout task staleSeen) s (Moves (touches (.deltaAckTimeout task staleSeen)) s) :=
  ⟨_, rfl, .ite (.ite (countAbsent_moves (sub_touches rfl) (.refl _ s)) (couplingDown_moves (sub_touches rfl) (.refl _ s))) (.refl _ s)⟩

theorem exec_couplingRetrain_moves (session : Nat) (locked : Bool) (s : State) :
    Completes (.couplingRetrain session locked) s (Moves (touches (.couplingRetrain session locked)) s) :=
  ⟨_, rfl, .ite (State_sendFrame_moves _ (sub_touches rfl) (.set_pair _ (mem_touches rfl) (.refl _ s))) (.refl _ s)⟩

theorem exec_frameResend_moves (s : State) : Completes .frameResend s (Moves (touches .frameResend) s) :=
  ⟨_, rfl, .ite (State_send_moves _ (sub_touches rfl) (State_put_moves _ _ (sub_touches rfl) (.refl _ s))) (.refl _ s)⟩

theorem exec_idle_moves (received : Option LinkHdr) (s : State) : Completes (.idle received) s (Moves (touches (.idle received)) s) := by
  refine ⟨_, rfl, ?_⟩
  split
  · exact frame_moves _ _ _ (sub_touches rfl) (fun _ h => h) (.refl _ s)
  · exact .ite (State_sendFrame_moves _ (sub_touches rfl) (.refl _ s)) (.refl _ s)

theorem exec_status_moves (h : LinkHdr) (f : StatusFrame) (s : State) : Completes (.status h f) s (Moves (touches (.status h f)) s) :=
  ⟨_, rfl, frame_moves _ _ _ (sub_touches rfl) (fun _ h => sendStatus_moves (sub_touches rfl) (takeStatus_moves _ (sub_touches rfl) h)) (.refl _ s)⟩

theorem exec_delta_moves (h : LinkHdr) (d : DeltaMsg) (s : State) : Completes (.delta h d) s (Moves (touches (.delta h d)) s) :=
  ⟨_, rfl, frame_moves _ _ _ (sub_touches rfl) (fun _ h => .ite (resyncDelta_moves _ (sub_touches rfl) h) (.ite (takeDelta_moves _
    (sub_touches rfl) h) h)) (.refl _ s)⟩

theorem exec_deltaAck_moves (h : LinkHdr) (task : Fin 8) (cycle : Nat) (closeSeq : Nat) (crc : Word) (s : State) :
    Completes (.deltaAck h task cycle closeSeq crc) s (Moves (touches (.deltaAck h task cycle closeSeq crc)) s) :=
  ⟨_, rfl, frame_moves _ _ _ (sub_touches rfl) (fun _ h => .ite (deltaDone_moves _ (sub_touches rfl) (.fields h)) h) (.refl _ s)⟩

theorem exec_mirror_moves (h : LinkHdr) (entries : List Entry) (s : State) :
    Completes (.mirror h entries) s (Moves (touches (.mirror h entries)) s) :=
  ⟨_, rfl, frame_moves _ _ _ (sub_touches rfl) (fun _ h => .ite (.forEach (fun _ _ h => mirrorEntry_moves _ (sub_touches rfl) h) h) h) (.refl _ s)⟩

theorem exec_image_moves (h : LinkHdr) (i : Image) (forExchange : Bool) (s : State) :
    Completes (.image h i forExchange) s (Moves (touches (.image h i forExchange)) s) := by
  refine ⟨_, rfl, frame_moves _ _ _ (sub_touches rfl) (fun x hx => .ite (.ite ?_ hx) (.ite ?_ hx)) (.refl _ s)⟩
  · exact State_sendFrame_moves _ (sub_touches rfl) (loadShadow_moves _ (sub_touches rfl) hx)
  · split
    · exact chooseAgainst_moves _ _ _ _ (sub_touches rfl) hx
    · exact hx

theorem exec_doubtWindowEnd_moves (s : State) : Completes .doubtWindowEnd s (Moves (touches .doubtWindowEnd) s) := by
  refine ⟨_, rfl, .ite (.forEach (fun _ _ h => ?_) (.set_pair _ (mem_touches rfl) (.refl _ s))) (.refl _ s)⟩
  split
  · exact withoutPartner_moves _ (sub_touches rfl) h
  · exact h

theorem exec_standbyLinkWaitEnd_moves (s : State) : Completes .standbyLinkWaitEnd s (Moves (touches .standbyLinkWaitEnd) s) :=
  ⟨_, rfl, .ite (markStale_moves (sub_touches rfl) (.refl _ s)) (.refl _ s)⟩

theorem exec_resyncReq_moves (h : LinkHdr) (ask : ResyncAsk) (s : State) : Completes (.resyncReq h ask) s (Moves (touches (.resyncReq h ask)) s) := by
  refine ⟨_, rfl, frame_moves _ _ _ (sub_touches rfl) (fun _ h => ?_) (.refl _ s)⟩
  split
  · exact .ite (resyncAnswered_moves (sub_touches rfl) h) h
  · exact .ite (sendPage_moves _ (sub_touches rfl) h) h
  · exact .ite (answerResync_moves (sub_touches rfl) h) h

theorem exec_resyncPage_moves (h : LinkHdr) (p : Page) (s : State) : Completes (.resyncPage h p) s (Moves (touches (.resyncPage h p)) s) :=
  ⟨_, rfl, frame_moves _ _ _ (sub_touches rfl) (fun _ h => .ite (.ite (takePage_moves _ (sub_touches rfl) h) (State_sendFrame_moves _
    (sub_touches rfl) h)) h) (.refl _ s)⟩

theorem exec_resyncControl_moves (h : LinkHdr) (c : ControlSet) (s : State) :
    Completes (.resyncControl h c) s (Moves (touches (.resyncControl h c)) s) :=
  ⟨_, rfl, frame_moves _ _ _ (sub_touches rfl) (fun _ h => .ite (takeControl_moves _ (sub_touches rfl) h) h) (.refl _ s)⟩

theorem exec_resyncDone_moves (h : LinkHdr) (closeSeq : Nat) (s : State) :
    Completes (.resyncDone h closeSeq) s (Moves (touches (.resyncDone h closeSeq)) s) :=
  ⟨_, rfl, frame_moves _ _ _ (sub_touches rfl) (fun _ h => .ite (resyncComplete_moves _ (sub_touches rfl) h) h) (.refl _ s)⟩

theorem exec_heldRecordExpiry_moves (page : Nat) (s : State) : Completes (.heldRecordExpiry page) s (Moves (touches (.heldRecordExpiry page)) s) :=
  ⟨_, rfl, .set_pair _ (mem_touches rfl) (.refl _ s)⟩

theorem exec_partnerClaimDropped_moves (s : State) : Completes .partnerClaimDropped s (Moves (touches .partnerClaimDropped) s) := by
  have h1 : Moves (touches .partnerClaimDropped) s { s with claim := { s.claim with partner := false } } :=
    .set_claim_same _ (mem_touches rfl) rfl (.refl _ s)
  refine ⟨_, rfl, ?_⟩
  simp only []
  split
  · next hm =>
    exact .ite (.ite (takeClaim_moves _ (sub_touches rfl) (by simp only [hm]; rfl) (.set_claim_same _ (mem_touches rfl) rfl (.refl _ s)))
      (.set_claim_same _ (mem_touches rfl) rfl (.refl _ s))) (.ite (.set_claim_same _ (mem_touches rfl) rfl (.refl _ s))
      (.set_claim_same _ (mem_touches rfl) rfl (.refl _ s)))
  · exact h1

theorem exec_standbyReady_moves (s : State) : Completes .standbyReady s (Moves (touches .standbyReady) s) :=
  ⟨_, rfl, .ite (.set_claim_same _ (mem_touches rfl) rfl (.refl _ s)) (.refl _ s)⟩

theorem exec_takeoverClaim_moves (s : State) : Completes .takeoverClaim s (Moves (touches .takeoverClaim) s) := by
  refine ⟨_, rfl, ?_⟩
  split
  · next h =>
    have hd : mayDrive (freezeCopy s).mode = true := by
      simp only [Bool.and_eq_true] at h
      rw [freezeCopy_mode]
      exact mayDrive_of_ready h.1.1.1
    exact takeClaim_moves _ (sub_touches rfl) hd (freezeCopy_moves (sub_touches rfl) (.refl _ s))
  · exact .refl _ s

theorem exec_claimConfirmed_moves (s : State) : Completes .claimConfirmed s (Moves (touches .claimConfirmed) s) :=
  ⟨_, rfl, .ite (refreshOutputs_moves (sub_touches rfl) (pubOnConfirm_moves (sub_touches rfl) (State_raise_moves _ (sub_touches rfl)
    (sendPorts_moves _ _ (sub_touches rfl) (.set_pair _ (mem_touches rfl) (.ite (enterActive_moves (sub_touches rfl) (State_raise_moves _
    (sub_touches rfl) (.fields (.refl _ s)))) (State_raise_moves _ (sub_touches rfl) (.fields (.refl _ s))))))))) (.refl _ s)⟩

theorem exec_partnerClaimAsserted_moves (s : State) : Completes .partnerClaimAsserted s (Moves (touches .partnerClaimAsserted) s) := by
  have h1 : Moves (touches .partnerClaimAsserted) s { s with claim := { s.claim with partner := true } } :=
    .set_claim_same _ (mem_touches rfl) rfl (.refl _ s)
  exact ⟨_, rfl, .ite (refreshOutputs_moves (sub_touches rfl) (.ite (handedOver_moves (sub_touches rfl) (.fields h1)) (.fields h1))) h1⟩

theorem exec_claimContest_moves (s : State) : Completes .claimContest s (Moves (touches .claimContest) s) :=
  ⟨_, rfl, .ite (.ite (loseContest_moves (sub_touches rfl) (State_raise_moves _ (sub_touches rfl) (.set_claim_same _ (mem_touches rfl) rfl
    (.refl _ s)))) (State_raise_moves _ (sub_touches rfl) (.set_claim_same _ (mem_touches rfl) rfl (.refl _ s)))) (.refl _ s)⟩

theorem exec_partnerAbsentTimeout_moves (s : State) : Completes .partnerAbsentTimeout s (Moves (touches .partnerAbsentTimeout) s) :=
  ⟨_, rfl, .ite (refreshOutputs_moves (sub_touches rfl) (.set_claim_same _ (mem_touches rfl) rfl (.refl _ s))) (.refl _ s)⟩

theorem exec_handover_moves (h : LinkHdr) (qh : Nat) (s : State) : Completes (.handover h qh) s (Moves (touches (.handover h qh)) s) :=
  ⟨_, rfl, frame_moves _ _ _ (sub_touches rfl) (fun _ h => .ite (State_sendFrame_moves _ (sub_touches rfl) (.set_pair _ (mem_touches rfl) h)) h)
    (.refl _ s)⟩

theorem exec_handoverAck_moves (h : LinkHdr) (s : State) : Completes (.handoverAck h) s (Moves (touches (.handoverAck h)) s) :=
  ⟨_, rfl, frame_moves _ _ _ (sub_touches rfl) (fun _ h => .ite (.set_pair _ (mem_touches rfl) h) h) (.refl _ s)⟩

theorem exec_handoverQuantum_moves (s : State) : Completes .handoverQuantum s (Moves (touches .handoverQuantum) s) := by
  refine ⟨_, rfl, ?_⟩
  split
  · refine .ite (.refl _ s) (.ite (.ite (releaseAtQh_moves (sub_touches rfl) (.refl _ s)) (cancelHandover_moves (sub_touches rfl) (.refl _ s))) ?_)
    split
    · next hr =>
      have hf : Moves (touches .handoverQuantum) s (freezeCopy { s with pair := { s.pair with handoverWait := true } }) :=
        freezeCopy_moves (sub_touches rfl) (.set_pair _ (mem_touches rfl) (.refl _ s))
      exact .ite (takeClaim_moves _ (sub_touches rfl) (by rw [freezeCopy_mode]; exact mayDrive_of_ready hr) hf) hf
    · exact .refl _ s
  · exact .refl _ s

theorem exec_handoverCancel_moves (s : State) : Completes .handoverCancel s (Moves (touches .handoverCancel) s) :=
  ⟨_, rfl, .ite (cancelHandover_moves (sub_touches rfl) (.refl _ s)) (.refl _ s)⟩

theorem exec_handoverFailTimeout_moves (s : State) : Completes .handoverFailTimeout s (Moves (touches .handoverFailTimeout) s) := by
  refine ⟨_, rfl, ?_⟩
  split
  · next h =>
    have hc : Moves (touches .handoverFailTimeout) s
        { s with claim := { s.claim with drive := true, own := true, confirmed := false, taking := true, refreshed := s.time.tick } } :=
      .set_claim _ (mem_touches rfl) (fun _ => .inr (by rw [h.1]; rfl)) (.refl _ s)
    exact cancelHandover_moves (sub_touches rfl) (.set_pair _ (mem_touches rfl) hc)
  · exact .refl _ s

theorem exec_restartReq_moves (h : LinkHdr) (r : RestartRec) (s : State) : Completes (.restartReq h r) s (Moves (touches (.restartReq h r)) s) :=
  ⟨_, rfl, frame_moves _ _ _ (sub_touches rfl) (fun _ h => .ite (State_sendFrame_moves _ (sub_touches rfl) (.fields h)) h) (.refl _ s)⟩

theorem exec_restartAck_moves (h : LinkHdr) (s : State) : Completes (.restartAck h) s (Moves (touches (.restartAck h)) s) :=
  ⟨_, rfl, frame_moves _ _ _ (sub_touches rfl) (fun _ h => .ite (endRestartWait_moves (sub_touches rfl) (.set_pair _ (mem_touches rfl) h)) h)
    (.refl _ s)⟩

theorem exec_restartAckTimeout_moves (s : State) : Completes .restartAckTimeout s (Moves (touches .restartAckTimeout) s) :=
  ⟨_, rfl, .ite (endRestartWait_moves (sub_touches rfl) (restartFailed_moves (sub_touches rfl) (.refl _ s))) (.refl _ s)⟩

theorem exec_restartGo_moves (h : LinkHdr) (cancel : Bool) (s : State) :
    Completes (.restartGo h cancel) s (Moves (touches (.restartGo h cancel)) s) :=
  ⟨_, rfl, frame_moves _ _ _ (sub_touches rfl) (fun _ h => .ite (.ite (.fields h) (.set_pair _ (mem_touches rfl) h)) h) (.refl _ s)⟩

theorem exec_moduleRestart_moves (inp : StartInput) (s : State) : Completes (.moduleRestart inp) s (Moves (touches (.moduleRestart inp)) s) := by
  refine ⟨_, rfl, ?_⟩
  split
  · exact .ite (restartNow_moves _ (sub_touches rfl) (.refl _ s)) (.refl _ s)
  · exact .refl _ s

theorem exec_claimFibreSample_moves (dark1 : Bool) (dark2 : Bool) (s : State) :
    Completes (.claimFibreSample dark1 dark2) s (Moves (touches (.claimFibreSample dark1 dark2)) s) :=
  ⟨_, rfl, .ite (State_raiseIf_moves _ _ (sub_touches rfl) (State_put_moves _ _ (sub_touches rfl) (State_put_moves _ _ (sub_touches rfl)
    (State_put_moves _ _ (sub_touches rfl) (.refl _ s))))) (.refl _ s)⟩

theorem exec_sbxPass_moves (levels : List (Nat × Int)) (flips : List (Nat × Nat)) (timerFault : List Nat) (s : State) :
    Completes (.sbxPass levels flips timerFault) s (Moves (touches (.sbxPass levels flips timerFault)) s) :=
  ⟨_, rfl, .ite (sbxPassBody_moves _ _ _ (sub_touches rfl) (.refl _ s)) (.refl _ s)⟩

theorem exec_pickupExpiry_moves (equation : Fin 512) (s : State) :
    Completes (.pickupExpiry equation) s (Moves (touches (.pickupExpiry equation)) s) := by
  refine ⟨_, rfl, ?_⟩
  split
  · exact .ite (sbxSettle_moves _ (sub_touches rfl) (eqEverywhere_moves _ _ (sub_touches rfl) (.refl _ s))) (.refl _ s)
  · exact .refl _ s

theorem exec_dropoutExpiry_moves (equation : Fin 512) (s : State) :
    Completes (.dropoutExpiry equation) s (Moves (touches (.dropoutExpiry equation)) s) :=
  ⟨_, rfl, .ite (sbxSettle_moves _ (sub_touches rfl) (eqEverywhere_moves _ _ (sub_touches rfl) (.refl _ s))) (.refl _ s)⟩

theorem exec_latchReset_moves (origin : Origin) (equation : Fin 512) (s : State) :
    Completes (.latchReset origin equation) s (Moves (touches (.latchReset origin equation)) s) :=
  ⟨_, rfl, .ite (byOrigin_moves _ _ _ _ (sub_touches rfl) (fun _ h => holdLatchReset_moves _ (sub_touches rfl) h) (.refl _ s)) (.refl _ s)⟩

theorem exec_sbxEvalFault_moves (evaluator : Fin 3) (s : State) :
    Completes (.sbxEvalFault evaluator) s (Moves (touches (.sbxEvalFault evaluator)) s) :=
  ⟨_, rfl, .ite (State_raise_moves _ (sub_touches rfl) (.set_sbox _ (mem_touches rfl) (.refl _ s))) (.refl _ s)⟩

theorem exec_acmpDisagree_moves (comparator : Fin 192) (s : State) :
    Completes (.acmpDisagree comparator) s (Moves (touches (.acmpDisagree comparator)) s) :=
  ⟨_, rfl, .ite (State_raise_moves _ (sub_touches rfl) (.set_sbox _ (mem_touches rfl) (.refl _ s))) (.refl _ s)⟩

theorem exec_svcmpFail_moves (comparator : Fin 256) (s : State) :
    Completes (.svcmpFail comparator) s (Moves (touches (.svcmpFail comparator)) s) :=
  ⟨_, rfl, .ite (svcFail_moves _ (sub_touches rfl) (.refl _ s)) (.refl _ s)⟩

theorem exec_diInputEdge_moves (channel : Fin 96) (level : Bool) (s : State) :
    Completes (.diInputEdge channel level) s (Moves (touches (.diInputEdge channel level)) s) := by
  refine ⟨_, rfl, ?_⟩
  split
  · exact .ite (State_setChan_moves _ _ (sub_touches rfl) (.refl _ s)) (.refl _ s)
  · exact .refl _ s

theorem exec_diDebounceExpiry_moves (channel : Fin 96) (s : State) :
    Completes (.diDebounceExpiry channel) s (Moves (touches (.diDebounceExpiry channel)) s) :=
  ⟨_, rfl, .ite (State_setChan_moves _ _ (sub_touches rfl) (.refl _ s)) (.refl _ s)⟩

theorem exec_diSampleWindow_moves (channel : Fin 96) (steady : Bool) (level : Bool) (s : State) :
    Completes (.diSampleWindow channel steady level) s (Moves (touches (.diSampleWindow channel steady level)) s) := by
  refine ⟨_, rfl, ?_⟩
  split
  · exact .ite (State_setChan_moves _ _ (sub_touches rfl) (.refl _ s)) (.refl _ s)
  · exact .refl _ s

theorem exec_doLimitEnter_moves (channel : Fin 96) (s : State) : Completes (.doLimitEnter channel) s (Moves (touches (.doLimitEnter channel)) s) :=
  ⟨_, rfl, .ite (State_setChan_moves _ _ (sub_touches rfl) (.refl _ s)) (.refl _ s)⟩

theorem exec_doLimitClear_moves (channel : Fin 96) (s : State) : Completes (.doLimitClear channel) s (Moves (touches (.doLimitClear channel)) s) :=
  ⟨_, rfl, .ite (State_setChan_moves _ _ (sub_touches rfl) (.refl _ s)) (.refl _ s)⟩

theorem exec_doThermalEnter_moves (channel : Fin 96) (s : State) :
    Completes (.doThermalEnter channel) s (Moves (touches (.doThermalEnter channel)) s) :=
  ⟨_, rfl, .ite (.ite (markChan_moves _ _ (sub_touches rfl) (State_raise_moves _ (sub_touches rfl) (State_raise_moves _ (sub_touches rfl)
    (State_setChan_moves _ _ (sub_touches rfl) (.refl _ s))))) (State_raise_moves _ (sub_touches rfl) (State_setChan_moves _ _ (sub_touches rfl)
    (.refl _ s)))) (.refl _ s)⟩

theorem exec_doThermalRetry_moves (channel : Fin 96) (s : State) :
    Completes (.doThermalRetry channel) s (Moves (touches (.doThermalRetry channel)) s) :=
  ⟨_, rfl, .ite (State_setChan_moves _ _ (sub_touches rfl) (.refl _ s)) (.refl _ s)⟩

theorem exec_doLockedRelease_moves (channel : Fin 96) (s : State) :
    Completes (.doLockedRelease channel) s (Moves (touches (.doLockedRelease channel)) s) :=
  ⟨_, rfl, .ite (markChan_moves _ _ (sub_touches rfl) (State_setChan_moves _ _ (sub_touches rfl) (.refl _ s))) (.refl _ s)⟩

theorem exec_adaptiveSupplyStep_moves (channel : Fin 96) (loopMv : Nat) (s : State) :
    Completes (.adaptiveSupplyStep channel loopMv) s (Moves (touches (.adaptiveSupplyStep channel loopMv)) s) :=
  ⟨_, rfl, .ite (State_setChan_moves _ _ (sub_touches rfl) (State_setChan_moves _ _ (sub_touches rfl) (.refl _ s))) (.refl _ s)⟩

theorem exec_compliance_moves (channel : Fin 96) (achievedUa : Nat) (s : State) :
    Completes (.compliance channel achievedUa) s (Moves (touches (.compliance channel achievedUa)) s) :=
  ⟨_, rfl, .ite (.ite (State_raiseIf_moves _ _ (sub_touches rfl) (setShortfall_moves _ _ _ (sub_touches rfl) (State_setChan_moves _ _
    (sub_touches rfl) (.refl _ s)))) (State_setChan_moves _ _ (sub_touches rfl) (.refl _ s))) (.refl _ s)⟩

theorem exec_openLoop_moves (channel : Fin 96) (achievedUa : Nat) (s : State) :
    Completes (.openLoop channel achievedUa) s (Moves (touches (.openLoop channel achievedUa)) s) :=
  ⟨_, rfl, .ite (.ite (State_raiseIf_moves _ _ (sub_touches rfl) (setShortfall_moves _ _ _ (sub_touches rfl) (State_setChan_moves _ _
    (sub_touches rfl) (.refl _ s)))) (State_setChan_moves _ _ (sub_touches rfl) (.refl _ s))) (.refl _ s)⟩

theorem exec_liveZeroLost_moves (channel : Fin 96) (s : State) : Completes (.liveZeroLost channel) s (Moves (touches (.liveZeroLost channel)) s) := by
  refine ⟨_, rfl, ?_⟩
  split
  · exact .ite (State_raise_moves _ (sub_touches rfl) (State_setChan_moves _ _ (sub_touches rfl) (.refl _ s))) (.refl _ s)
  · exact .refl _ s

theorem exec_commonFaultSet_moves (platform : Fin 8) (readbacks : List Readback) (s : State) :
    Completes (.commonFaultSet platform readbacks) s (Moves (touches (.commonFaultSet platform readbacks)) s) :=
  ⟨_, rfl, .ite (commonFaultRise_moves _ (sub_touches rfl) (takeReadbacks_moves _ _ (sub_touches rfl) (.refl _ s))) (.refl _ s)⟩

theorem exec_commonFaultCleared_moves (platform : Fin 8) (readbacks : List Readback) (s : State) :
    Completes (.commonFaultCleared platform readbacks) s (Moves (touches (.commonFaultCleared platform readbacks)) s) :=
  ⟨_, rfl, .ite (locateRun_moves _ (sub_touches rfl) (State_raise_moves _ (sub_touches rfl) (State_put_moves _ _ (sub_touches rfl)
    (takeReadbacks_moves _ _ (sub_touches rfl) (.refl _ s))))) (.refl _ s)⟩

theorem exec_locate_moves (origin : Origin) (platform : Fin 8) (s : State) :
    Completes (.locate origin platform) s (Moves (touches (.locate origin platform)) s) :=
  ⟨_, rfl, .ite (byOrigin_moves _ _ _ _ (sub_touches rfl) (fun _ h => locateWrite_moves _ (sub_touches rfl) h) (.refl _ s)) (.refl _ s)⟩

theorem exec_localisationRepeat_moves (platform : Fin 8) (readbacks : List Readback) (s : State) :
    Completes (.localisationRepeat platform readbacks) s (Moves (touches (.localisationRepeat platform readbacks)) s) :=
  ⟨_, rfl, .ite (locateRun_moves _ (sub_touches rfl) (takeReadbacks_moves _ _ (sub_touches rfl) (.refl _ s))) (.refl _ s)⟩

theorem exec_converterPeriodBoundary_moves (results : List RawSample) (tt : List TtMeasure) (s : State) :
    Completes (.converterPeriodBoundary results tt) s (Moves (touches (.converterPeriodBoundary results tt)) s) :=
  ⟨_, rfl, .ite (refreshOutputs_moves (sub_touches rfl) (.set_conv _ (mem_touches rfl) (.forEach (fun _ _ h => chanPeriod_moves _ _
    (sub_touches rfl) (changeEnds_moves _ _ (sub_touches rfl) h)) (calBoundary_moves (sub_touches rfl) (.forEach (fun _ _ h => ttWindow_moves _ _
    (sub_touches rfl) h) (.forEach (fun _ _ h => integratedResult_moves _ (sub_touches rfl) h) (.refl _ s))))))) (.refl _ s)⟩

theorem exec_fastSample_moves (samples : List RawSample) (s : State) :
    Completes (.fastSample samples) s (Moves (touches (.fastSample samples)) s) :=
  have h : Moves (touches (.fastSample samples)) s (forEach (inOrder samples) fastResult s) :=
    .forEach (fun _ _ h => fastResult_moves _ (sub_touches rfl) h) (.refl _ s)
  ⟨_, rfl, .ite (.ite (.forEach (fun _ _ h => addFrame_moves _ _ _ (sub_touches rfl) h) h) h) (.refl _ s)⟩

theorem exec_periodMeasurement_moves (secondary : Bool) (periodNs : Nat) (amplitudePct : Nat) (qualityGood : Bool) (s : State) :
    Completes (.periodMeasurement secondary periodNs amplitudePct qualityGood) s (Moves (touches (.periodMeasurement secondary periodNs amplitudePct qualityGood)) s) :=
  ⟨_, rfl, .ite (State_raiseIf_moves _ _ (sub_touches rfl) (choosePeriod_moves (sub_touches rfl) (.ite (.set_conv _ (mem_touches rfl) (.refl _ s))
    (.set_conv _ (mem_touches rfl) (.refl _ s))))) (.refl _ s)⟩

theorem exec_periodNominal_moves (s : State) : Completes .periodNominal s (Moves (touches .periodNominal) s) :=
  ⟨_, rfl, .ite (State_raise_moves _ (sub_touches rfl) (.set_conv _ (mem_touches rfl) (.refl _ s))) (.refl _ s)⟩

theorem exec_qpop_moves (origin : Origin) (s : State) : Completes (.qpop origin) s (Moves (touches (.qpop origin)) s) :=
  ⟨_, rfl, .ite (byOrigin_moves _ _ _ _ (sub_touches rfl) (fun _ h => qpopWrite_moves (sub_touches rfl) h) (.refl _ s)) (.refl _ s)⟩

theorem exec_calStart_moves (origin : Origin) (channel : Fin 96) (s : State) :
    Completes (.calStart origin channel) s (Moves (touches (.calStart origin channel)) s) :=
  ⟨_, rfl, calCmdBy_moves _ _ _ (sub_touches rfl) (.refl _ s)⟩

theorem exec_takeZero_moves (origin : Origin) (channel : Fin 96) (s : State) :
    Completes (.takeZero origin channel) s (Moves (touches (.takeZero origin channel)) s) :=
  ⟨_, rfl, calCmdBy_moves _ _ _ (sub_touches rfl) (.refl _ s)⟩

theorem exec_takeSpan_moves (origin : Origin) (channel : Fin 96) (s : State) :
    Completes (.takeSpan origin channel) s (Moves (touches (.takeSpan origin channel)) s) :=
  ⟨_, rfl, calCmdBy_moves _ _ _ (sub_touches rfl) (.refl _ s)⟩

theorem exec_calTakeDone_moves (s : State) : Completes .calTakeDone s (Moves (touches .calTakeDone) s) :=
  ⟨_, rfl, .ite (.ite (enqueue_moves _ (sub_touches rfl) (calResult_moves _ (sub_touches rfl) (setCal_moves _ (sub_touches rfl) (.refl _ s))))
    (calResult_moves _ (sub_touches rfl) (setCal_moves _ (sub_touches rfl) (.refl _ s)))) (.refl _ s)⟩

theorem exec_commit_moves (origin : Origin) (channel : Fin 96) (s : State) :
    Completes (.commit origin channel) s (Moves (touches (.commit origin channel)) s) :=
  ⟨_, rfl, calCmdBy_moves _ _ _ (sub_touches rfl) (.refl _ s)⟩

theorem exec_calEnd_moves (origin : Origin) (channel : Fin 96) (s : State) :
    Completes (.calEnd origin channel) s (Moves (touches (.calEnd origin channel)) s) :=
  ⟨_, rfl, calCmdBy_moves _ _ _ (sub_touches rfl) (.refl _ s)⟩

theorem exec_abort_moves (origin : Origin) (channel : Fin 96) (s : State) :
    Completes (.abort origin channel) s (Moves (touches (.abort origin channel)) s) :=
  ⟨_, rfl, calCmdBy_moves _ _ _ (sub_touches rfl) (.refl _ s)⟩

theorem exec_calTimeout_moves (s : State) : Completes .calTimeout s (Moves (touches .calTimeout) s) :=
  ⟨_, rfl, .ite (abandonCal_moves (sub_touches rfl) (.refl _ s)) (.refl _ s)⟩

theorem exec_turntableVisitStart_moves (platform : Fin 8) (s : State) :
    Completes (.turntableVisitStart platform) s (Moves (touches (.turntableVisitStart platform)) s) := by
  refine ⟨_, rfl, .ite ?_ (.refl _ s)⟩
  split
  · exact State_setTt_moves _ _ (sub_touches rfl) (.ite (State_put_moves _ _ (sub_touches rfl) (.refl _ s)) (.refl _ s))
  · exact State_setTt_moves _ _ (sub_touches rfl) (.ite (State_put_moves _ _ (sub_touches rfl) (.refl _ s)) (.refl _ s))

theorem exec_testReq_moves (origin : Origin) (channel : Fin 96) (s : State) :
    Completes (.testReq origin channel) s (Moves (touches (.testReq origin channel)) s) :=
  ⟨_, rfl, .ite (byOrigin_moves _ _ _ _ (sub_touches rfl) (fun _ h => testReqWrite_moves _ (sub_touches rfl) h) (.refl _ s)) (.refl _ s)⟩

theorem exec_coefficientBatchWrite_moves (s : State) : Completes .coefficientBatchWrite s (Moves (touches .coefficientBatchWrite) s) :=
  ⟨_, rfl, .ite (.fields (.forEach (fun _ _ h => recordCoef_moves _ _ _ (sub_touches rfl) h) (.refl _ s))) (.refl _ s)⟩

theorem exec_acqTrigger_moves (e : TrigSeen) (s : State) : Completes (.acqTrigger e) s (Moves (touches (.acqTrigger e)) s) := by
  refine ⟨_, rfl, .ite ?_ (.refl _ s)⟩
  split
  · exact .ite (acmpEdge_moves _ _ _ _ (sub_touches rfl) (.refl _ s)) (dueTrigger_moves _ _ (sub_touches rfl) (.refl _ s))
  · exact .refl _ s

theorem exec_acqTrig_moves (origin : Origin) (defMask : BitVec 16) (s : State) :
    Completes (.acqTrig origin defMask) s (Moves (touches (.acqTrig origin defMask)) s) :=
  ⟨_, rfl, .ite (byOrigin_moves _ _ _ _ (sub_touches rfl) (fun _ h => acqTrigWrite_moves _ _ (sub_touches rfl) h) (.refl _ s)) (.refl _ s)⟩

theorem exec_segmentClose_moves (definition : Fin 16) (s : State) :
    Completes (.segmentClose definition) s (Moves (touches (.segmentClose definition)) s) := by
  refine ⟨_, rfl, .ite ?_ (.refl _ s)⟩
  split
  · refine .ite ?_ (.refl _ s)
    have h (x : DefState) (c : Bool) : Moves (touches (.segmentClose definition)) s ((s.setDef definition x).raiseIf c Ev.ACQ_SEGMENT_GAP) :=
      State_raiseIf_moves _ _ (sub_touches rfl) (State_setDef_moves _ _ (sub_touches rfl) (.refl _ s))
    simp only []
    split
    · exact closeRecord_moves _ _ (sub_touches rfl) (h _ _)
    · exact .ite (closeRecord_moves _ _ (sub_touches rfl) (h _ _)) (h _ _)
  · exact .refl _ s

theorem exec_rearm_moves (definition : Fin 16) (s : State) : Completes (.rearm definition) s (Moves (touches (.rearm definition)) s) :=
  ⟨_, rfl, .ite (.forEach (fun _ _ h => trigDef_moves _ _ (sub_touches rfl) h) (State_setDef_moves _ _ (sub_touches rfl) (.refl _ s))) (.refl _ s)⟩

theorem exec_recordGapClose_moves (definition : Fin 16) (s : State) :
    Completes (.recordGapClose definition) s (Moves (touches (.recordGapClose definition)) s) :=
  ⟨_, rfl, .ite (closeRecord_moves _ _ (sub_touches rfl) (.refl _ s)) (.refl _ s)⟩

theorem exec_close_moves (origin : Origin) (definition : Fin 16) (s : State) :
    Completes (.close origin definition) s (Moves (touches (.close origin definition)) s) :=
  ⟨_, rfl, .ite (byOrigin_moves _ _ _ _ (sub_touches rfl) (fun _ h => closeWrite_moves _ (sub_touches rfl) h) (.refl _ s)) (.refl _ s)⟩

theorem exec_recordCommit_moves (s : State) : Completes .recordCommit s (Moves (touches .recordCommit) s) := by
  refine ⟨_, rfl, .ite ?_ (.refl _ s)⟩
  split
  · exact .ite (.refl _ s) (State_raise_moves _ (sub_touches rfl) (takeNewDef_moves _ (sub_touches rfl) (.set_acq _ (mem_touches rfl)
      (writeBlocks_moves _ (sub_touches rfl) (.refl _ s)))))
  · exact .refl _ s

theorem exec_recordIndexRebuild_moves (s : State) : Completes .recordIndexRebuild s (Moves (touches .recordIndexRebuild) s) :=
  ⟨_, rfl, .ite (.forEach (fun _ _ h => State_raise_moves _ (sub_touches rfl) (State_inc_moves _ (sub_touches rfl) h))
    (.set_acq _ (mem_touches rfl) (.refl _ s))) (.refl _ s)⟩

theorem exec_incCommit_moves (origin : Origin) (intNs : Byte) (s : State) :
    Completes (.incCommit origin intNs) s (Moves (touches (.incCommit origin intNs)) s) :=
  ⟨_, rfl, .ite (byOrigin_moves _ _ _ _ (sub_touches rfl) (fun _ h => incCommit_moves _ (sub_touches rfl) h) (.refl _ s)) (.refl _ s)⟩

theorem exec_stepGo_moves (origin : Origin) (fraction : BitVec 16) (s : State) :
    Completes (.stepGo origin fraction) s (Moves (touches (.stepGo origin fraction)) s) :=
  ⟨_, rfl, .ite (byOrigin_moves _ _ _ _ (sub_touches rfl) (fun _ h => stepWrite_moves _ (sub_touches rfl) h) (.refl _ s)) (.refl _ s)⟩

theorem exec_timeLatch_moves (origin : Origin) (s : State) : Completes (.timeLatch origin) s (Moves (touches (.timeLatch origin)) s) :=
  ⟨_, rfl, .ite (byOrigin_moves _ _ _ _ (sub_touches rfl) (fun _ h => latchWrite_moves (sub_touches rfl) h) (.refl _ s)) (.refl _ s)⟩

theorem exec_timeServo_moves (origin : Origin) (quality : Fin 4) (source : Fin 4) (port : Fin 8) (errNs : BitVec 16) (s : State) :
    Completes (.timeServo origin quality source port errNs) s (Moves (touches (.timeServo origin quality source port errNs)) s) :=
  ⟨_, rfl, .ite (byOrigin_moves _ _ _ _ (sub_touches rfl) (fun _ h => servoDeclare_moves _ _ _ _ (sub_touches rfl) h) (.refl _ s)) (.refl _ s)⟩

theorem exec_holdoverExpired_moves (s : State) : Completes .holdoverExpired s (Moves (touches .holdoverExpired) s) :=
  ⟨_, rfl, .ite (State_raise_moves _ (sub_touches rfl) (setQuality_moves _ (sub_touches rfl) (.set_time_same _ (mem_touches rfl) rfl rfl
    (.refl _ s)))) (.refl _ s)⟩

theorem exec_holdoverSteer_moves (temp : Int) (s : State) : Completes (.holdoverSteer temp) s (Moves (touches (.holdoverSteer temp)) s) := by
  have hq (q : Nat) : Moves (touches (.holdoverSteer temp)) s (setQuality q (s.put Reg.TIME_OSC_TEMP (twos 16 temp))) :=
    setQuality_moves _ (sub_touches rfl) (State_put_moves _ _ (sub_touches rfl) (.refl _ s))
  refine ⟨_, rfl, .ite ?_ (.refl _ s)⟩
  simp only []
  split
  · exact setInc_moves _ (sub_touches rfl) (hq 1)
  · exact setInc_moves _ (sub_touches rfl) (hq 2)

theorem exec_ptpMessage_moves (m : PtpMsg) (s : State) : Completes (.ptpMessage m) s (Moves (touches (.ptpMessage m)) s) :=
  ⟨_, rfl, .ite (.ite (receiveStamp_moves _ _ _ (sub_touches rfl) (.refl _ s)) (ptpTake_moves _ _ _ (sub_touches rfl) (.ite (servoSelect_moves
    (sub_touches rfl) (State_setPtpPort_moves _ _ (sub_touches rfl) (receiveStamp_moves _ _ _ (sub_touches rfl) (.refl _ s))))
    (State_setPtpPort_moves _ _ (sub_touches rfl) (receiveStamp_moves _ _ _ (sub_touches rfl) (.refl _ s)))))) (.refl _ s)⟩

theorem exec_standbyCounterCopy_moves (s : State) : Completes .standbyCounterCopy s (Moves (touches .standbyCounterCopy) s) := by
  have hs : Moves (touches .standbyCounterCopy) s
      { s with standby := { s.standby with sec := s.time.counter.sec, frac := s.time.counter.ns * 32768 / 1000000000, acc := 0 } } :=
    .set_standby _ (mem_touches rfl) (fun ⟨h1, h2, _⟩ => ⟨h1, by simp only []; omega⟩) (.refl _ s)
  exact ⟨_, rfl, .ite (.fields hs) (.refl _ s)⟩

theorem exec_oscillatorSample_moves (temp : Int) (s : State) : Completes (.oscillatorSample temp) s (Moves (touches (.oscillatorSample temp)) s) :=
  ⟨_, rfl, .ite (.ite (.set_time_same _ (mem_touches rfl) rfl rfl (State_put_moves _ _ (sub_touches rfl) (.refl _ s))) (State_put_moves _ _
    (sub_touches rfl) (.refl _ s))) (.refl _ s)⟩

theorem exec_oscillatorModelWrite_moves (s : State) : Completes .oscillatorModelWrite s (Moves (touches .oscillatorModelWrite) s) :=
  ⟨_, rfl, .ite (.fields (State_raiseIf_moves _ _ (sub_touches rfl) (.refl _ s))) (.refl _ s)⟩

theorem exec_svFrame_moves (f : SvFrame) (s : State) : Completes (.svFrame f) s (Moves (touches (.svFrame f)) s) :=
  ⟨_, rfl, onBus_moves _ _ _ (sub_touches rfl) (fun _ h => .forEach (fun _ _ h => svTake_moves _ _ _ (sub_touches rfl) h) h) (.refl _ s)⟩

theorem exec_svHoldExpiry_moves (subscription : Fin 512) (s : State) :
    Completes (.svHoldExpiry subscription) s (Moves (touches (.svHoldExpiry subscription)) s) :=
  ⟨_, rfl, .ite (State_raise_moves _ (sub_touches rfl) (State_setSv_moves _ _ (sub_touches rfl) (.refl _ s))) (.refl _ s)⟩

theorem exec_gooseMessage_moves (m : GooseMsg) (s : State) : Completes (.gooseMessage m) s (Moves (touches (.gooseMessage m)) s) :=
  ⟨_, rfl, onBus_moves _ _ _ (sub_touches rfl) (fun _ h => .ite (.forEach (fun _ _ h => gbitsFail_moves _ (sub_touches rfl) h) h) (.ite
    (gooseMismatch_moves _ (sub_touches rfl) h) (.forEach (fun _ _ h => gooseTake_moves _ _ (sub_touches rfl) h) h))) (.refl _ s)⟩

theorem exec_gooseExpiry_moves (subscription : Fin 1024) (s : State) :
    Completes (.gooseExpiry subscription) s (Moves (touches (.gooseExpiry subscription)) s) := by
  refine ⟨_, rfl, ?_⟩
  split
  · exact .ite (gbitsFail_moves _ (sub_touches rfl) (State_raise_moves _ (sub_touches rfl) (State_setGoose_moves _ _ (sub_touches rfl)
      (.refl _ s)))) (.refl _ s)
  · exact .refl _ s

theorem exec_gooseHoldExpiry_moves (subscription : Fin 1024) (s : State) :
    Completes (.gooseHoldExpiry subscription) s (Moves (touches (.gooseHoldExpiry subscription)) s) :=
  ⟨_, rfl, .ite (State_setGoose_moves _ _ (sub_touches rfl) (.refl _ s)) (.refl _ s)⟩

theorem exec_gooseDeferredSend_moves (publication : Fin 256) (s : State) :
    Completes (.gooseDeferredSend publication) s (Moves (touches (.gooseDeferredSend publication)) s) := by
  refine ⟨_, rfl, ?_⟩
  split
  · exact .ite (.refl _ s) (.ite (pubSendNew_moves _ _ _ (sub_touches rfl) (.refl _ s)) (State_setPub_moves _ _ (sub_touches rfl) (.refl _ s)))
  · exact .refl _ s

theorem exec_gooseRetransmit_moves (publication : Fin 256) (s : State) :
    Completes (.gooseRetransmit publication) s (Moves (touches (.gooseRetransmit publication)) s) := by
  refine ⟨_, rfl, ?_⟩
  split
  · exact .ite (sendPorts_moves _ _ (sub_touches rfl) (State_setPub_moves _ _ (sub_touches rfl) (pbusBoundary_moves (sub_touches rfl)
      (.refl _ s)))) (.refl _ s)
  · exact .refl _ s

theorem exec_supervisionFrame_moves (s : State) : Completes .supervisionFrame s (Moves (touches .supervisionFrame) s) :=
  ⟨_, rfl, .ite (sendPorts_moves _ _ (sub_touches rfl) (pbusBoundary_moves (sub_touches rfl) (.refl _ s))) (.refl _ s)⟩

theorem exec_linkDown_moves (port : Port) (s : State) : Completes (.linkDown port) s (Moves (touches (.linkDown port)) s) :=
  ⟨_, rfl, .ite (portDown_moves _ (sub_touches rfl) (.refl _ s)) (.refl _ s)⟩

theorem exec_testMode_moves (origin : Origin) (on : Bool) (s : State) :
    Completes (.testMode origin on) s (Moves (touches (.testMode origin on)) s) :=
  ⟨_, rfl, .ite (writeBy_moves _ _ _ (sub_touches rfl) (.refl _ s)) (.refl _ s)⟩

theorem exec_pairAddressRepeat_moves (s : State) : Completes .pairAddressRepeat s (Moves (touches .pairAddressRepeat) s) :=
  ⟨_, rfl, .ite (sendPorts_moves _ _ (sub_touches rfl) (.set_pair _ (mem_touches rfl) (.refl _ s))) (.refl _ s)⟩

theorem exec_openSession_moves (r : Req) (connection : Nat) (pairAddress : Bool) (clientId : Nat) (events : Bool) (s : State) :
    Completes (.openSession r connection pairAddress clientId events) s (Moves (touches (.openSession r connection pairAddress clientId events)) s) := by
  have hr (m : Msg) {x : State} (h : Moves (touches (.openSession r connection pairAddress clientId events)) s x) :
      Moves (touches (.openSession r connection pairAddress clientId events)) s ((x.send m).raise Ev.PLNT_SESSION_REFUSED) :=
    State_raise_moves _ (sub_touches rfl) (State_send_moves _ (sub_touches rfl) h)
  refine ⟨_, rfl, ?_⟩
  split
  · exact .refl _ s
  · refine .ite (.refl _ s) ?_
    split
    · exact hr _ (.refl _ s)
    · have he : Moves (touches (.openSession r connection pairAddress clientId events)) s
          (match s.sessionOfClient clientId with | some k => endSession k (s.send (.closed k)) | none => s) := by
        split
        · exact endSession_moves _ (sub_touches rfl) (State_send_moves _ (sub_touches rfl) (.refl _ s))
        · exact .refl _ s
      exact .ite (hr _ (.refl _ s)) (.ite (hr _ he) (newSession_moves _ _ _ _ _ _ (sub_touches rfl) he))

theorem exec_closeSession_moves (r : Req) (s : State) : Completes (.closeSession r) s (Moves (touches (.closeSession r)) s) :=
  ⟨_, rfl, serve_moves _ _ _ (sub_touches rfl) (fun _ _ h => endSession_moves _ (sub_touches rfl) (answer_moves _ _ _ _ _ (sub_touches rfl) h))
    (.refl _ s)⟩

theorem exec_keepalive_moves (r : Req) (s : State) : Completes (.keepalive r) s (Moves (touches (.keepalive r)) s) := by
  refine ⟨_, rfl, ?_⟩
  split
  · exact .ite (heard_moves _ _ (sub_touches rfl) (.refl _ s)) (.refl _ s)
  · exact .refl _ s

theorem exec_sessionTimeout_moves (session : Nat) (s : State) :
    Completes (.sessionTimeout session) s (Moves (touches (.sessionTimeout session)) s) := by
  refine ⟨_, rfl, ?_⟩
  split
  · exact .ite (endSession_moves _ (sub_touches rfl) (State_send_moves _ (sub_touches rfl) (.refl _ s))) (.refl _ s)
  · exact .refl _ s

theorem exec_query_moves (r : Req) (clientSeq : Nat) (s : State) : Completes (.query r clientSeq) s (Moves (touches (.query r clientSeq)) s) :=
  ⟨_, rfl, serve_moves _ _ _ (sub_touches rfl) (fun _ _ h => .ite (answer_moves _ _ _ _ _ (sub_touches rfl) h) (.ite (answer_moves _ _ _ _ _
    (sub_touches rfl) h) (.ite (answer_moves _ _ _ _ _ (sub_touches rfl) h) (answer_moves _ _ _ _ _ (sub_touches rfl) h)))) (.refl _ s)⟩

theorem exec_tagRead_moves (r : Req) (tags : List Nat) (s : State) : Completes (.tagRead r tags) s (Moves (touches (.tagRead r tags)) s) :=
  ⟨_, rfl, serve_moves _ _ _ (sub_touches rfl) (fun _ _ h => .ite (answer_moves _ _ _ _ _ (sub_touches rfl) h) (.ite (shedReply_moves _ _
    (sub_touches rfl) h) (.ite (answer_moves _ _ _ _ _ (sub_touches rfl) h) (.ite (answer_moves _ _ _ _ _ (sub_touches rfl) h)
    (answer_moves _ _ _ _ _ (sub_touches rfl) h))))) (.refl _ s)⟩

theorem exec_subscribe_moves (r : Req) (minIntervalMs : Nat) (tags : List Nat) (s : State) :
    Completes (.subscribe r minIntervalMs tags) s (Moves (touches (.subscribe r minIntervalMs tags)) s) :=
  ⟨_, rfl, serve_moves _ _ _ (sub_touches rfl) (fun _ _ h => .ite (answer_moves _ _ _ _ _ (sub_touches rfl) h) (.ite (shedReply_moves _ _
    (sub_touches rfl) h) (.ite (answer_moves _ _ _ _ _ (sub_touches rfl) h) (.ite (answer_moves _ _ _ _ _ (sub_touches rfl) h) (.ite
    (answer_moves _ _ _ _ _ (sub_touches rfl) h) (answer_moves _ _ _ _ _ (sub_touches rfl) (State_setSub_moves _ _ (sub_touches rfl) (.set_net _
    (mem_touches rfl) h)))))))) (.refl _ s)⟩

theorem exec_unsubscribe_moves (r : Req) (subscription : Nat) (s : State) :
    Completes (.unsubscribe r subscription) s (Moves (touches (.unsubscribe r subscription)) s) :=
  ⟨_, rfl, serve_moves _ _ _ (sub_touches rfl) (fun _ _ h => .ite (answer_moves _ _ _ _ _ (sub_touches rfl) h) (.ite (answer_moves _ _ _ _ _
    (sub_touches rfl) (.set_net _ (mem_touches rfl) h)) (answer_moves _ _ _ _ _ (sub_touches rfl) h))) (.refl _ s)⟩

theorem exec_resend_moves (r : Req) (subscription : Nat) (s : State) :
    Completes (.resend r subscription) s (Moves (touches (.resend r subscription)) s) :=
  ⟨_, rfl, serve_moves _ _ _ (sub_touches rfl) (fun _ _ h => .ite (answer_moves _ _ _ _ _ (sub_touches rfl) h) (.ite (notifyBatch_moves _ _
    (sub_touches rfl) (answer_moves _ _ _ _ _ (sub_touches rfl) h)) (answer_moves _ _ _ _ _ (sub_touches rfl) h))) (.refl _ s)⟩

theorem exec_notify_moves (subscription : Nat) (s : State) : Completes (.notify subscription) s (Moves (touches (.notify subscription)) s) := by
  refine ⟨_, rfl, ?_⟩
  split
  · exact .ite (notifyBatch_moves _ _ (sub_touches rfl) (.refl _ s)) (.refl _ s)
  · exact .refl _ s

theorem exec_event_moves (base : Nat) (offset : Nat) (bit : Fin 16) (s : State) :
    Completes (.event base offset bit) s (Moves (touches (.event base offset bit)) s) :=
  ⟨_, rfl, .ite (State_raise_moves _ (sub_touches rfl) (.refl _ s)) (.refl _ s)⟩

theorem exec_regRead_moves (r : Req) (addr count : Nat) (s : State) :
    Completes (.regRead r addr count) s (Moves (touches (.regRead r addr count)) s) :=
  ⟨_, rfl, serve_moves _ _ _ (sub_touches rfl) (fun _ _ h => .ite (answer_moves _ _ _ _ _ (sub_touches rfl) h)
    (.ite (shedReply_moves _ _ (sub_touches rfl) h) (.ite (answer_moves _ _ _ _ _ (sub_touches rfl) h)
    (answer_moves _ _ _ _ _ (sub_touches rfl) (readWords_moves _ _ _ (sub_touches rfl) h))))) (.refl _ s)⟩

theorem exec_regWrite_moves (r : Req) (addr : Nat) (words : List Word) (s : State) :
    Completes (.regWrite r addr words) s (Moves (touches (.regWrite r addr words)) s) :=
  ⟨_, rfl, serve_moves _ _ _ (sub_touches rfl) (fun _ _ h => .ite (answer_moves _ _ _ _ _ (sub_touches rfl) h)
    (.ite (answer_moves _ _ _ _ _ (sub_touches rfl) h) (.ite (answer_moves _ _ _ _ _ (sub_touches rfl) h)
    (answer_moves _ _ _ _ _ (sub_touches rfl) (writeWords_moves _ _ _ (sub_touches rfl) h))))) (.refl _ s)⟩

theorem exec_fileOpen_moves (r : Req) (name : FileName) (write : Bool) (s : State) :
    Completes (.fileOpen r name write) s (Moves (touches (.fileOpen r name write)) s) :=
  ⟨_, rfl, serve_moves _ _ _ (sub_touches rfl) (fun _ _ h => .ite (answer_moves _ _ _ _ _ (sub_touches rfl) h) (.ite (answer_moves _ _ _ _ _
    (sub_touches rfl) h) (.ite (answer_moves _ _ _ _ _ (sub_touches rfl) (.ite (State_inc_moves _ (sub_touches rfl) h) h)) (answer_moves _ _ _ _ _
    (sub_touches rfl) (.set_net _ (mem_touches rfl) (State_setSession_moves _ _ (sub_touches rfl) (openBegins_moves _ (sub_touches rfl) h)))))))
    (.refl _ s)⟩

theorem exec_fileRead_moves (r : Req) (handle offset : Nat) (s : State) :
    Completes (.fileRead r handle offset) s (Moves (touches (.fileRead r handle offset)) s) := by
  refine ⟨_, rfl, serve_moves _ _ _ (sub_touches rfl) (fun x u h => .ite (answer_moves _ _ _ _ _ (sub_touches rfl) h)
    (.ite (shedReply_moves _ _ (sub_touches rfl) h) ?_)) (.refl _ s)⟩
  split
  · exact .ite (answer_moves _ _ _ _ _ (sub_touches rfl) h) (.ite (answer_moves _ _ _ _ _ (sub_touches rfl) (State_raise_moves _ (sub_touches rfl)
      (State_setSession_moves _ _ (sub_touches rfl) h))) (.ite (shedReply_moves _ _ (sub_touches rfl) h) (answer_moves _ _ _ _ _ (sub_touches rfl) h)))
  · exact answer_moves _ _ _ _ _ (sub_touches rfl) h

theorem exec_fileWrite_moves (r : Req) (handle : Nat) (offset : Nat) (data : List Byte) (s : State) :
    Completes (.fileWrite r handle offset data) s (Moves (touches (.fileWrite r handle offset data)) s) := by
  refine ⟨_, rfl, serve_moves _ _ _ (sub_touches rfl) (fun _ _ h => ?_) (.refl _ s)⟩
  split
  · exact .ite (answer_moves _ _ _ _ _ (sub_touches rfl) h) (answer_moves _ _ _ _ _ (sub_touches rfl) (noteProgress_moves _ _ (sub_touches rfl)
      (State_setSession_moves _ _ (sub_touches rfl) h)))
  · exact answer_moves _ _ _ _ _ (sub_touches rfl) h

theorem exec_fileClose_moves (r : Req) (handle : Nat) (crc : Word) (content : Option FileContent) (s : State) :
    Completes (.fileClose r handle crc content) s (Moves (touches (.fileClose r handle crc content)) s) := by
  refine ⟨_, rfl, serve_moves _ _ _ (sub_touches rfl) (fun _ _ h => ?_) (.refl _ s)⟩
  split
  · exact .ite (answer_moves _ _ _ _ _ (sub_touches rfl) (closeWritten_moves _ _ _ _ (sub_touches rfl) (State_setSession_moves _ _
      (sub_touches rfl) h))) (answer_moves _ _ _ _ _ (sub_touches rfl) (State_setSession_moves _ _ (sub_touches rfl) h))
  · exact answer_moves _ _ _ _ _ (sub_touches rfl) h

theorem exec_canFrameReceived_moves (port : Fin 2) (f : CanFrame) (sofTick : Nat) (s : State) :
    Completes (.canFrameReceived port f sofTick) s (Moves (touches (.canFrameReceived port f sofTick)) s) :=
  ⟨_, rfl, .ite (.refl _ s) (canReceive_moves _ _ _ _ (sub_touches rfl) (canHeard_moves _ (sub_touches rfl) (.refl _ s)))⟩

theorem exec_canTxEnd_moves (port : Fin 2) (outcome : CanEnd) (handle : Nat) (sofTick : Nat) (s : State) :
    Completes (.canTxEnd port outcome handle sofTick) s (Moves (touches (.canTxEnd port outcome handle sofTick)) s) := by
  refine ⟨_, rfl, ?_⟩
  split
  · exact .refl _ s
  · have ho (t n c : Nat) (late : Bool) (x : CanPort) :
        Moves (touches (.canTxEnd port outcome handle sofTick)) s (canOutcome port t n c sofTick late (s.setCanPort port x)) :=
      canOutcome_moves _ _ _ _ _ _ (sub_touches rfl) (State_setCanPort_moves _ _ (sub_touches rfl) (.refl _ s))
    exact .ite (.ite (canReceive_moves _ _ _ _ (sub_touches rfl) (canSaid_moves _ (sub_touches rfl) (ho _ _ _ _ _))) (ho _ _ _ _ _)) (.refl _ s)

theorem exec_canTxTimeout_moves (port : Fin 2) (handle : Nat) (s : State) :
    Completes (.canTxTimeout port handle) s (Moves (touches (.canTxTimeout port handle)) s) := by
  refine ⟨_, rfl, ?_⟩
  split
  · exact .ite (.refl _ s) (canOutcome_moves _ _ _ _ _ _ (sub_touches rfl) (State_setCanPort_moves _ _ (sub_touches rfl) (.refl _ s)))
  · exact .refl _ s

theorem exec_canCancel_moves (port : Fin 2) (handle : Nat) (s : State) :
    Completes (.canCancel port handle) s (Moves (touches (.canCancel port handle)) s) :=
  ⟨_, rfl, canCancelAt_moves _ _ (sub_touches rfl) (canMaybeStart_moves _ (sub_touches rfl) (.refl _ s))⟩

theorem exec_canBusOff_moves (port : Fin 2) (s : State) : Completes (.canBusOff port) s (Moves (touches (.canBusOff port)) s) :=
  ⟨_, rfl, .ite (.refl _ s) (State_raise_moves _ (sub_touches rfl) (State_inc_moves _ (sub_touches rfl) (State_setCanExt_moves _ _
    (sub_touches rfl) (canEndWaiting_moves _ _ _ (sub_touches rfl) (canErr_moves _ _ _ _ (sub_touches rfl) (.refl _ s))))))⟩

theorem exec_busOffRecovered_moves (port : Fin 2) (s : State) : Completes (.busOffRecovered port) s (Moves (touches (.busOffRecovered port)) s) :=
  ⟨_, rfl, .ite (State_raise_moves _ (sub_touches rfl) (canErr_moves _ _ _ _ (sub_touches rfl) (.refl _ s))) (.refl _ s)⟩

theorem exec_canMappingHoldExpiry_moves (port : Fin 2) (mapping : Nat) (twice : Bool) (s : State) :
    Completes (.canMappingHoldExpiry port mapping twice) s (Moves (touches (.canMappingHoldExpiry port mapping twice)) s) := by
  refine ⟨_, rfl, ?_⟩
  split
  · exact .ite (State_setCanPort_moves _ _ (sub_touches rfl) (.refl _ s)) (.refl _ s)
  · exact .refl _ s

theorem exec_rxpop_moves (origin : Origin) (port : Fin 2) (s : State) :
    Completes (.rxpop origin port) s (Moves (touches (.rxpop origin port)) s) :=
  ⟨_, rfl, .ite (byOrigin_moves _ _ _ _ (sub_touches rfl) (fun _ h => rxpopWrite_moves _ (sub_touches rfl) h) (.refl _ s)) (.refl _ s)⟩

theorem exec_registerWrite_moves (origin : Origin) (addr : Nat) (value : Word) (s : State) :
    Completes (.registerWrite origin addr value) s (Moves (touches (.registerWrite origin addr value)) s) :=
  ⟨_, rfl, .ite (writeBy_moves _ _ _ (sub_touches rfl) (.refl _ s)) (.refl _ s)⟩

theorem exec_misalignedAccess_moves (origin : Origin) (span : AccessSpan) (write : Bool) (s : State) :
    Completes (.misalignedAccess origin span write) s (Moves (touches (.misalignedAccess origin span write)) s) :=
  ⟨_, rfl, .ite (refuseShape_moves _ _ _ (sub_touches rfl) (.refl _ s)) (.refl _ s)⟩

theorem exec_eventRegisterClear_moves (origin : Origin) (addr : Nat) (value : Word) (s : State) :
    Completes (.eventRegisterClear origin addr value) s (Moves (touches (.eventRegisterClear origin addr value)) s) :=
  ⟨_, rfl, .ite (writeBy_moves _ _ _ (sub_touches rfl) (.refl _ s)) (.refl _ s)⟩

theorem exec_multiwordMode_moves (origin : Origin) (block : Fin 27) (on : Bool) (s : State) :
    Completes (.multiwordMode origin block on) s (Moves (touches (.multiwordMode origin block on)) s) := by
  refine ⟨_, rfl, .ite ?_ (.refl _ s)⟩
  split
  · exact byOrigin_moves _ _ _ _ (sub_touches rfl) (fun _ h => setMultiword_moves _ _ (sub_touches rfl) h) (.refl _ s)
  · exact .refl _ s

theorem exec_multiwordLowRead_moves (origin : Origin) (addr : Nat) (s : State) :
    Completes (.multiwordLowRead origin addr) s (Moves (touches (.multiwordLowRead origin addr)) s) :=
  ⟨_, rfl, .ite (readBy_moves _ _ (sub_touches rfl) (.refl _ s)) (.refl _ s)⟩

theorem exec_mpuRegionWrite_moves (origin : Origin) (unit : Fin 36) (set : Fin 2) (region : Fin 16) (word : Fin 3) (value : Word) (s : State) :
    Completes (.mpuRegionWrite origin unit set region word value) s (Moves (touches (.mpuRegionWrite origin unit set region word value)) s) :=
  ⟨_, rfl, .ite (byOrigin_moves _ _ _ _ (sub_touches rfl) (fun _ h => regionWrite_moves _ _ _ _ _ (sub_touches rfl) h) (.refl _ s)) (.refl _ s)⟩

theorem exec_arm_moves (origin : Origin) (unit : Fin 36) (s : State) : Completes (.arm origin unit) s (Moves (touches (.arm origin unit)) s) :=
  ⟨_, rfl, .ite (byOrigin_moves _ _ _ _ (sub_touches rfl) (fun _ h => armWrite_moves _ (sub_touches rfl) h) (.refl _ s)) (.refl _ s)⟩

theorem exec_swap_moves (origin : Origin) (unit : Fin 36) (s : State) : Completes (.swap origin unit) s (Moves (touches (.swap origin unit)) s) :=
  ⟨_, rfl, .ite (byOrigin_moves _ _ _ _ (sub_touches rfl) (fun _ h => swapWrite_moves _ (sub_touches rfl) h) (.refl _ s)) (.refl _ s)⟩

theorem exec_swapAck_moves (unit : Fin 36) (s : State) : Completes (.swapAck unit) s (Moves (touches (.swapAck unit)) s) :=
  ⟨_, rfl, .ite (State_setUnit_moves _ _ (sub_touches rfl) (.refl _ s)) (.refl _ s)⟩

theorem exec_protectionException_moves (a : MemAccess) (s : State) :
    Completes (.protectionException a) s (Moves (touches (.protectionException a)) s) :=
  ⟨_, rfl, .ite (State_raise_moves _ (sub_touches rfl) (countRefused_moves _ (sub_touches rfl) (.refl _ s))) (.refl _ s)⟩

theorem exec_impreciseNotice_moves (a : MemAccess) (set : Fin 2) (s : State) :
    Completes (.impreciseNotice a set) s (Moves (touches (.impreciseNotice a set)) s) := by
  refine ⟨_, rfl, .ite ?_ (.refl _ s)⟩
  split
  · exact State_raise_moves _ (sub_touches rfl) (.ite (State_inc_moves _ (sub_touches rfl) (countRefused_moves _ (sub_touches rfl) (.refl _ s)))
      (State_put_moves _ _ (sub_touches rfl) (State_put_moves _ _ (sub_touches rfl) (State_put_moves _ _ (sub_touches rfl) (State_put_moves _ _
      (sub_touches rfl) (State_put_moves _ _ (sub_touches rfl) (State_put_moves _ _ (sub_touches rfl) (.set_mpu _ (mem_touches rfl)
      (countRefused_moves _ (sub_touches rfl) (.refl _ s))))))))))
  · exact .refl _ s

theorem exec_release_moves (origin : Origin) (s : State) : Completes (.release origin) s (Moves (touches (.release origin)) s) :=
  ⟨_, rfl, .ite (byOrigin_moves _ _ _ _ (sub_touches rfl) (fun _ h => releaseWrite_moves (sub_touches rfl) h) (.refl _ s)) (.refl _ s)⟩

theorem exec_mgmtWatchdogRestart_moves (s : State) : Completes .mgmtWatchdogRestart s (Moves (touches .mgmtWatchdogRestart) s) := by
  have h1 := mgmtRestart_moves (sub_touches rfl) (.refl (touches .mgmtWatchdogRestart) s)
  have h2 (r : Nat) {x : State} (h : Moves (touches .mgmtWatchdogRestart) s x) : Moves (touches .mgmtWatchdogRestart) s ((fallBack r x).raise Ev.UPD_FALLBACK_AUTO) :=
    State_raise_moves _ (sub_touches rfl) (fallBack_moves _ (sub_touches rfl) h)
  exact ⟨_, rfl, .ite (.ite (h2 1 (.ite (h2 0 h1) h1)) (.ite (h2 0 h1) h1)) (.refl _ s)⟩

theorem exec_loadWindow_moves (busyPct : Fin 101) (s : State) : Completes (.loadWindow busyPct) s (Moves (touches (.loadWindow busyPct)) s) :=
  ⟨_, rfl, .ite (State_raiseIf_moves _ _ (sub_touches rfl) (State_atLeast_moves _ _ (sub_touches rfl) (State_put_moves _ _ (sub_touches rfl)
    (State_atLeast_moves _ _ (sub_touches rfl) (State_put_moves _ _ (sub_touches rfl) (.set_mpu _ (mem_touches rfl) (.refl _ s))))))) (.refl _ s)⟩

theorem exec_verifyComplete_moves (session : Fin 2) (unreadable : Bool) (s : State) :
    Completes (.verifyComplete session unreadable) s (Moves (touches (.verifyComplete session unreadable)) s) :=
  ⟨_, rfl, .ite (.ite (.ite (State_setUpdSession_moves _ _ (sub_touches rfl) (terminusWrite_moves _ _ (sub_touches rfl) (State_raise_moves _
    (sub_touches rfl) (State_setUpdSession_moves _ _ (sub_touches rfl) (.refl _ s))))) (State_raise_moves _ (sub_touches rfl)
    (State_setUpdSession_moves _ _ (sub_touches rfl) (.refl _ s)))) (State_raise_moves _ (sub_touches rfl) (State_setUpdSession_moves _ _
    (sub_touches rfl) (.refl _ s)))) (.refl _ s)⟩

theorem exec_activate_moves (origin : Origin) (session : Fin 2) (unreadable : Bool) (s : State) :
    Completes (.activate origin session unreadable) s (Moves (touches (.activate origin session unreadable)) s) :=
  ⟨_, rfl, updBy_moves _ _ _ (sub_touches rfl) (fun _ h => activateCmd_moves _ _ (sub_touches rfl) h) (.refl _ s)⟩

theorem exec_imageTakesEffect_moves (session : Fin 2) (s : State) :
    Completes (.imageTakesEffect session) s (Moves (touches (.imageTakesEffect session)) s) :=
  ⟨_, rfl, .ite (waitingEffect_moves _ (sub_touches rfl) (.refl _ s)) (.refl _ s)⟩

theorem exec_confirm_moves (origin : Origin) (session : Fin 2) (s : State) :
    Completes (.confirm origin session) s (Moves (touches (.confirm origin session)) s) :=
  ⟨_, rfl, updBy_moves _ _ _ (sub_touches rfl) (fun _ h => confirmCmd_moves _ (sub_touches rfl) h) (.refl _ s)⟩

theorem exec_fallback_moves (origin : Origin) (session : Fin 2) (s : State) :
    Completes (.fallback origin session) s (Moves (touches (.fallback origin session)) s) :=
  ⟨_, rfl, updBy_moves _ _ _ (sub_touches rfl) (fun _ h => fallbackCmd_moves _ (sub_touches rfl) h) (.refl _ s)⟩

theorem exec_updateAbort_moves (origin : Origin) (session : Fin 2) (s : State) :
    Completes (.updateAbort origin session) s (Moves (touches (.updateAbort origin session)) s) :=
  ⟨_, rfl, updBy_moves _ _ _ (sub_touches rfl) (fun _ h => abortCmd_moves _ (sub_touches rfl) h) (.refl _ s)⟩

theorem exec_anchorClear_moves (origin : Origin) (session : Fin 2) (s : State) :
    Completes (.anchorClear origin session) s (Moves (touches (.anchorClear origin session)) s) :=
  ⟨_, rfl, updBy_moves _ _ _ (sub_touches rfl) (fun _ h => anchorClearCmd_moves (sub_touches rfl) h) (.refl _ s)⟩

theorem exec_leaveTerminus_moves (origin : Origin) (inp : StartInput) (s : State) :
    Completes (.leaveTerminus origin inp) s (Moves (touches (.leaveTerminus origin inp)) s) :=
  ⟨_, rfl, updBy_moves _ _ _ (sub_touches rfl) (fun _ h => leaveTerminusCmd_moves _ (sub_touches rfl) h) (.refl _ s)⟩

theorem exec_attestGo_moves (origin : Origin) (s : State) : Completes (.attestGo origin) s (Moves (touches (.attestGo origin)) s) :=
  ⟨_, rfl, .ite (byOrigin_moves _ _ _ _ (sub_touches rfl) (fun _ h => attestWrite_moves (sub_touches rfl) h) (.refl _ s)) (.refl _ s)⟩

theorem exec_reportSigned_moves (randomiser : Nat) (s : State) :
    Completes (.reportSigned randomiser) s (Moves (touches (.reportSigned randomiser)) s) :=
  ⟨_, rfl, .ite (State_raise_moves _ (sub_touches rfl) (State_put_moves _ _ (sub_touches rfl) (State_put_moves _ _ (sub_touches rfl) (.set_upd _
    (mem_touches rfl) (.set_upd _ (mem_touches rfl) (.refl _ s)))))) (.refl _ s)⟩

theorem exec_nextTreeBuilt_moves (s : State) : Completes .nextTreeBuilt s (Moves (touches .nextTreeBuilt) s) := by
  refine ⟨_, rfl, ?_⟩
  split
  · exact .ite (.set_upd _ (mem_touches rfl) (.refl _ s)) (.refl _ s)
  · exact .refl _ s

theorem exec_panelRefresh_moves (s : State) : Completes .panelRefresh s (Moves (touches .panelRefresh) s) :=
  ⟨_, rfl, .ite (State_send_moves _ (sub_touches rfl) (.set_panel _ (mem_touches rfl) (fpApplyHeld_moves (sub_touches rfl) (.refl _ s))))
    (.refl _ s)⟩

theorem exec_pixelShift_moves (s : State) : Completes .pixelShift s (Moves (touches .pixelShift) s) :=
  ⟨_, rfl, .ite (.set_panel _ (mem_touches rfl) (.refl _ s)) (.refl _ s)⟩

theorem exec_contrastUpdate_moves (temp : Int) (s : State) : Completes (.contrastUpdate temp) s (Moves (touches (.contrastUpdate temp)) s) :=
  ⟨_, rfl, .ite (.set_panel _ (mem_touches rfl) (.refl _ s)) (.refl _ s)⟩

theorem exec_labelUpdateStart_moves (s : State) : Completes .labelUpdateStart s (Moves (touches .labelUpdateStart) s) :=
  ⟨_, rfl, .ite (.fields (.refl _ s)) (.refl _ s)⟩

theorem exec_labelUpdateEnd_moves (s : State) : Completes .labelUpdateEnd s (Moves (touches .labelUpdateEnd) s) :=
  ⟨_, rfl, .ite (State_raiseIf_moves _ _ (sub_touches rfl) (State_raise_moves _ (sub_touches rfl) (State_inc_moves _ (sub_touches rfl) (.fields
    (.refl _ s))))) (.refl _ s)⟩

theorem exec_redraw_moves (origin : Origin) (s : State) : Completes (.redraw origin) s (Moves (touches (.redraw origin)) s) :=
  ⟨_, rfl, .ite (byOrigin_moves _ _ _ _ (sub_touches rfl) (fun _ h => labelRequest_moves (sub_touches rfl) h) (.refl _ s)) (.refl _ s)⟩

theorem exec_operatingMinute_moves (s : State) : Completes .operatingMinute s (Moves (touches .operatingMinute) s) :=
  ⟨_, rfl, .ite (.ite (hourlyWrite_moves (sub_touches rfl) (.ite (foldAll_moves (sub_touches rfl) (.set_mram _ (mem_touches rfl) (.refl _ s)))
    (dropOld_moves (sub_touches rfl) (.set_mram _ (mem_touches rfl) (.refl _ s))))) (.ite (foldAll_moves (sub_touches rfl) (.set_mram _
    (mem_touches rfl) (.refl _ s))) (dropOld_moves (sub_touches rfl) (.set_mram _ (mem_touches rfl) (.refl _ s))))) (.refl _ s)⟩

theorem exec_mileageSample_moves (values : List (Nat × Int)) (s : State) :
    Completes (.mileageSample values) s (Moves (touches (.mileageSample values)) s) :=
  ⟨_, rfl, .ite (.set_mil _ (mem_touches rfl) (.refl _ s)) (.refl _ s)⟩

theorem exec_milSel_moves (origin : Origin) (series : Byte) (live : Bool) (s : State) :
    Completes (.milSel origin series live) s (Moves (touches (.milSel origin series live)) s) :=
  ⟨_, rfl, .ite (byOrigin_moves _ _ _ _ (sub_touches rfl) (fun _ h => milSelWrite_moves _ _ (sub_touches rfl) h) (.refl _ s)) (.refl _ s)⟩

theorem exec_syncInterval_moves (s : State) : Completes .syncInterval s (Moves (touches .syncInterval) s) := by
  refine ⟨_, rfl, .ite ?_ (.refl _ s)⟩
  have h : ∀ (l : List Port) (p : Bool), Moves (touches .syncInterval) s
      (forEach l (delayRequest p) { s with net := { s.net with ptpSeq := (s.net.ptpSeq + 1) % 2 ^ 16 } }) :=
    fun l p => .forEach (fun _ _ h => delayRequest_moves _ _ (sub_touches rfl) h) (.set_net _ (mem_touches rfl) (.refl _ s))
  simp only []
  split
  · exact .forEach (fun _ _ h => masterSends_moves _ _ (sub_touches rfl) h) (h _ _)
  · exact h _ _

theorem exec_dtlsHandshake_moves (arrival : PlantArrival) (client : Option ClientChain) (s : State) :
    Completes (.dtlsHandshake arrival client) s (Moves (touches (.dtlsHandshake arrival client)) s) := by
  refine ⟨_, rfl, .ite ?_ (.refl _ s)⟩
  have h := plantFrame_moves arrival.port arrival.wrongLan (sub_touches rfl) (.refl (touches (.dtlsHandshake arrival client)) s)
  simp only []
  split
  · exact .ite (State_send_moves _ (sub_touches rfl) (.set_net _ (mem_touches rfl) h)) (State_raise_moves _ (sub_touches rfl) h)
  · exact State_raise_moves _ (sub_touches rfl) h

theorem exec_canFrameError_moves (port : Fin 2) (tec : Nat) (recv : Nat) (s : State) :
    Completes (.canFrameError port tec recv) s (Moves (touches (.canFrameError port tec recv)) s) :=
  ⟨_, rfl, .ite (.refl _ s) (State_raiseIf_moves _ _ (sub_touches rfl) (canErr_moves _ _ _ _ (sub_touches rfl) (.ite (State_setCanExt_moves _ _
    (sub_touches rfl) (.refl _ s)) (.refl _ s))))⟩

theorem exec_handoverClaimWaitEnd_moves (s : State) : Completes .handoverClaimWaitEnd s (Moves (touches .handoverClaimWaitEnd) s) :=
  ⟨_, rfl, .ite (.fields (stopLanes_moves (sub_touches rfl) (.refl _ s))) (.refl _ s)⟩

theorem exec_canErrRead_moves (s : State) : Completes .canErrRead s (Moves (touches .canErrRead) s) :=
  have one (p : Nat) (y : CanExt) {c : Prop} [Decidable c] {x : State} (h : Moves (touches .canErrRead) s x) :
      Moves (touches .canErrRead) s (if c then x else x.setCanExt p y) := .ite h (State_setCanExt_moves _ _ (sub_touches rfl) h)
  ⟨_, rfl, one 1 _ (one 0 _ (.refl _ s))⟩

theorem exec_mgmtRestartEnd_moves (s : State) : Completes .mgmtRestartEnd s (Moves (touches .mgmtRestartEnd) s) :=
  ⟨_, rfl, .ite (.fields (.refl _ s)) (.refl _ s)⟩

/-- Every command has a next state, which differs in the parts of its row at most and keeps the invariants. -/
theorem exec_moves (c : Instr) (s : State) : Completes c s (Moves (touches c) s) :=
  match c with
  | .seatedMade => exec_seatedMade_moves s
  | .insertionStart inp => exec_insertionStart_moves inp s
  | .seatedBreak => exec_seatedBreak_moves s
  | .cellLow => exec_cellLow_moves s
  | .countLost => exec_countLost_moves s
  | .modSupplyLost input mv => exec_modSupplyLost_moves input mv s
  | .fieldSupplyLost input mv => exec_fieldSupplyLost_moves input mv s
  | .fieldFuseTrip input ma => exec_fieldFuseTrip_moves input ma s
  | .fieldFuseReclose input => exec_fieldFuseReclose_moves input s
  | .cageOverload port => exec_cageOverload_moves port s
  | .holdupEntered => exec_holdupEntered_moves s
  | .powerLossRecord => exec_powerLossRecord_moves s
  | .holdupRailsDown => exec_holdupRailsDown_moves s
  | .supplyReturnRestart inp => exec_supplyReturnRestart_moves inp s
  | .leverOpened => exec_leverOpened_moves s
  | .reservoirHealthTest healthPct holdupMs => exec_reservoirHealthTest_moves healthPct holdupMs s
  | .claimKeeperRefresh => exec_claimKeeperRefresh_moves s
  | .claimKeeperRelease => exec_claimKeeperRelease_moves s
  | .claimStuckHigh => exec_claimStuckHigh_moves s
  | .claimStuckLow => exec_claimStuckLow_moves s
  | .couplingHello h => exec_couplingHello_moves h s
  | .partnerWindowExpiry => exec_partnerWindowExpiry_moves s
  | .startHoldRetry inp => exec_startHoldRetry_moves inp s
  | .startEnterActive => exec_startEnterActive_moves s
  | .taskFreeze task => exec_taskFreeze_moves task s
  | .gatedRead lane copy request sample => exec_gatedRead_moves lane copy request sample s
  | .barrierRelease lane => exec_barrierRelease_moves lane s
  | .checkpoint c => exec_checkpoint_moves c s
  | .reexecutionCompare c => exec_reexecutionCompare_moves c s
  | .spareTakeover lane => exec_spareTakeover_moves lane s
  | .eccError f => exec_eccError_moves f s
  | .scrubPass findings => exec_scrubPass_moves findings s
  | .bistVisit lane first second => exec_bistVisit_moves lane first second s
  | .closureRelease task => exec_closureRelease_moves task s
  | .alignedRelease task => exec_alignedRelease_moves task s
  | .overrunWatchdog task lane => exec_overrunWatchdog_moves task lane s
  | .paceWindow paces => exec_paceWindow_moves paces s
  | .clearMax origin task => exec_clearMax_moves origin task s
  | .cmpInject origin lane copy repeated arm => exec_cmpInject_moves origin lane copy repeated arm s
  | .faultSelect origin index => exec_faultSelect_moves origin index s
  | .exchangeLoaded => exec_exchangeLoaded_moves s
  | .mapAck f => exec_mapAck_moves f s
  | .announce f => exec_announce_moves f s
  | .announceAck h => exec_announceAck_moves h s
  | .exchangeComplete => exec_exchangeComplete_moves s
  | .sbxExchangeRestart => exec_sbxExchangeRestart_moves s
  | .submit r clientSeq work => exec_submit_moves r clientSeq work s
  | .mirrorAck f => exec_mirrorAck_moves f s
  | .mirrorTimeout seq => exec_mirrorTimeout_moves seq s
  | .unconfirmedExpiry seq => exec_unconfirmedExpiry_moves seq s
  | .clientCheckpoint => exec_clientCheckpoint_moves s
  | .clientEviction clientId => exec_clientEviction_moves clientId s
  | .snapshotCapture => exec_snapshotCapture_moves s
  | .couplingDown cause => exec_couplingDown_moves cause s
  | .deltaAckTimeout task staleSeen => exec_deltaAckTimeout_moves task staleSeen s
  | .couplingRetrain session locked => exec_couplingRetrain_moves session locked s
  | .frameResend => exec_frameResend_moves s
  | .idle received => exec_idle_moves received s
  | .status h f => exec_status_moves h f s
  | .delta h d => exec_delta_moves h d s
  | .deltaAck h task cycle closeSeq crc => exec_deltaAck_moves h task cycle closeSeq crc s
  | .mirror h entries => exec_mirror_moves h entries s
  | .image h inp forExchange => exec_image_moves h inp forExchange s
  | .doubtWindowEnd => exec_doubtWindowEnd_moves s
  | .standbyLinkWaitEnd => exec_standbyLinkWaitEnd_moves s
  | .resyncReq h ask => exec_resyncReq_moves h ask s
  | .resyncPage h p => exec_resyncPage_moves h p s
  | .resyncControl h c => exec_resyncControl_moves h c s
  | .resyncDone h closeSeq => exec_resyncDone_moves h closeSeq s
  | .heldRecordExpiry page => exec_heldRecordExpiry_moves page s
  | .partnerClaimDropped => exec_partnerClaimDropped_moves s
  | .standbyReady => exec_standbyReady_moves s
  | .takeoverClaim => exec_takeoverClaim_moves s
  | .claimConfirmed => exec_claimConfirmed_moves s
  | .partnerClaimAsserted => exec_partnerClaimAsserted_moves s
  | .claimContest => exec_claimContest_moves s
  | .partnerAbsentTimeout => exec_partnerAbsentTimeout_moves s
  | .handover h qh => exec_handover_moves h qh s
  | .handoverAck h => exec_handoverAck_moves h s
  | .handoverQuantum => exec_handoverQuantum_moves s
  | .handoverCancel => exec_handoverCancel_moves s
  | .handoverFailTimeout => exec_handoverFailTimeout_moves s
  | .restartReq h r => exec_restartReq_moves h r s
  | .restartAck h => exec_restartAck_moves h s
  | .restartAckTimeout => exec_restartAckTimeout_moves s
  | .restartGo h cancel => exec_restartGo_moves h cancel s
  | .moduleRestart inp => exec_moduleRestart_moves inp s
  | .claimFibreSample dark1 dark2 => exec_claimFibreSample_moves dark1 dark2 s
  | .sbxPass levels flips timerFault => exec_sbxPass_moves levels flips timerFault s
  | .pickupExpiry equation => exec_pickupExpiry_moves equation s
  | .dropoutExpiry equation => exec_dropoutExpiry_moves equation s
  | .latchReset origin equation => exec_latchReset_moves origin equation s
  | .sbxEvalFault evaluator => exec_sbxEvalFault_moves evaluator s
  | .acmpDisagree comparator => exec_acmpDisagree_moves comparator s
  | .svcmpFail comparator => exec_svcmpFail_moves comparator s
  | .diInputEdge channel level => exec_diInputEdge_moves channel level s
  | .diDebounceExpiry channel => exec_diDebounceExpiry_moves channel s
  | .diSampleWindow channel steady level => exec_diSampleWindow_moves channel steady level s
  | .doLimitEnter channel => exec_doLimitEnter_moves channel s
  | .doLimitClear channel => exec_doLimitClear_moves channel s
  | .doThermalEnter channel => exec_doThermalEnter_moves channel s
  | .doThermalRetry channel => exec_doThermalRetry_moves channel s
  | .doLockedRelease channel => exec_doLockedRelease_moves channel s
  | .adaptiveSupplyStep channel loopMv => exec_adaptiveSupplyStep_moves channel loopMv s
  | .compliance channel achievedUa => exec_compliance_moves channel achievedUa s
  | .openLoop channel achievedUa => exec_openLoop_moves channel achievedUa s
  | .liveZeroLost channel => exec_liveZeroLost_moves channel s
  | .commonFaultSet platform readbacks => exec_commonFaultSet_moves platform readbacks s
  | .commonFaultCleared platform readbacks => exec_commonFaultCleared_moves platform readbacks s
  | .locate origin platform => exec_locate_moves origin platform s
  | .localisationRepeat platform readbacks => exec_localisationRepeat_moves platform readbacks s
  | .converterPeriodBoundary results tt => exec_converterPeriodBoundary_moves results tt s
  | .fastSample samples => exec_fastSample_moves samples s
  | .periodMeasurement secondary periodNs amplitudePct qualityGood => exec_periodMeasurement_moves secondary periodNs amplitudePct qualityGood s
  | .periodNominal => exec_periodNominal_moves s
  | .qpop origin => exec_qpop_moves origin s
  | .calStart origin channel => exec_calStart_moves origin channel s
  | .takeZero origin channel => exec_takeZero_moves origin channel s
  | .takeSpan origin channel => exec_takeSpan_moves origin channel s
  | .calTakeDone => exec_calTakeDone_moves s
  | .commit origin channel => exec_commit_moves origin channel s
  | .calEnd origin channel => exec_calEnd_moves origin channel s
  | .abort origin channel => exec_abort_moves origin channel s
  | .calTimeout => exec_calTimeout_moves s
  | .turntableVisitStart platform => exec_turntableVisitStart_moves platform s
  | .testReq origin channel => exec_testReq_moves origin channel s
  | .coefficientBatchWrite => exec_coefficientBatchWrite_moves s
  | .acqTrigger e => exec_acqTrigger_moves e s
  | .acqTrig origin defMask => exec_acqTrig_moves origin defMask s
  | .segmentClose definition => exec_segmentClose_moves definition s
  | .rearm definition => exec_rearm_moves definition s
  | .recordGapClose definition => exec_recordGapClose_moves definition s
  | .close origin definition => exec_close_moves origin definition s
  | .recordCommit => exec_recordCommit_moves s
  | .recordIndexRebuild => exec_recordIndexRebuild_moves s
  | .incCommit origin intNs => exec_incCommit_moves origin intNs s
  | .stepGo origin fraction => exec_stepGo_moves origin fraction s
  | .timeLatch origin => exec_timeLatch_moves origin s
  | .timeServo origin quality source port errNs => exec_timeServo_moves origin quality source port errNs s
  | .holdoverExpired => exec_holdoverExpired_moves s
  | .holdoverSteer temp => exec_holdoverSteer_moves temp s
  | .ptpMessage m => exec_ptpMessage_moves m s
  | .standbyCounterCopy => exec_standbyCounterCopy_moves s
  | .oscillatorSample temp => exec_oscillatorSample_moves temp s
  | .oscillatorModelWrite => exec_oscillatorModelWrite_moves s
  | .svFrame f => exec_svFrame_moves f s
  | .svHoldExpiry subscription => exec_svHoldExpiry_moves subscription s
  | .gooseMessage m => exec_gooseMessage_moves m s
  | .gooseExpiry subscription => exec_gooseExpiry_moves subscription s
  | .gooseHoldExpiry subscription => exec_gooseHoldExpiry_moves subscription s
  | .gooseDeferredSend publication => exec_gooseDeferredSend_moves publication s
  | .gooseRetransmit publication => exec_gooseRetransmit_moves publication s
  | .supervisionFrame => exec_supervisionFrame_moves s
  | .linkDown port => exec_linkDown_moves port s
  | .testMode origin on => exec_testMode_moves origin on s
  | .pairAddressRepeat => exec_pairAddressRepeat_moves s
  | .openSession r connection pairAddress clientId events => exec_openSession_moves r connection pairAddress clientId events s
  | .closeSession r => exec_closeSession_moves r s
  | .keepalive r => exec_keepalive_moves r s
  | .sessionTimeout session => exec_sessionTimeout_moves session s
  | .query r clientSeq => exec_query_moves r clientSeq s
  | .tagRead r tags => exec_tagRead_moves r tags s
  | .subscribe r minIntervalMs tags => exec_subscribe_moves r minIntervalMs tags s
  | .unsubscribe r subscription => exec_unsubscribe_moves r subscription s
  | .resend r subscription => exec_resend_moves r subscription s
  | .notify subscription => exec_notify_moves subscription s
  | .event base offset bit => exec_event_moves base offset bit s
  | .regRead r addr count => exec_regRead_moves r addr count s
  | .regWrite r addr words => exec_regWrite_moves r addr words s
  | .fileOpen r name write => exec_fileOpen_moves r name write s
  | .fileRead r handle offset => exec_fileRead_moves r handle offset s
  | .fileWrite r handle offset data => exec_fileWrite_moves r handle offset data s
  | .fileClose r handle crc content => exec_fileClose_moves r handle crc content s
  | .canFrameReceived port f sofTick => exec_canFrameReceived_moves port f sofTick s
  | .canTxEnd port outcome handle sofTick => exec_canTxEnd_moves port outcome handle sofTick s
  | .canTxTimeout port handle => exec_canTxTimeout_moves port handle s
  | .canCancel port handle => exec_canCancel_moves port handle s
  | .canBusOff port => exec_canBusOff_moves port s
  | .busOffRecovered port => exec_busOffRecovered_moves port s
  | .canMappingHoldExpiry port mapping twice => exec_canMappingHoldExpiry_moves port mapping twice s
  | .rxpop origin port => exec_rxpop_moves origin port s
  | .registerWrite origin addr value => exec_registerWrite_moves origin addr value s
  | .misalignedAccess origin span write => exec_misalignedAccess_moves origin span write s
  | .eventRegisterClear origin addr value => exec_eventRegisterClear_moves origin addr value s
  | .multiwordMode origin block on => exec_multiwordMode_moves origin block on s
  | .multiwordLowRead origin addr => exec_multiwordLowRead_moves origin addr s
  | .mpuRegionWrite origin unit set region word value => exec_mpuRegionWrite_moves origin unit set region word value s
  | .arm origin unit => exec_arm_moves origin unit s
  | .swap origin unit => exec_swap_moves origin unit s
  | .swapAck unit => exec_swapAck_moves unit s
  | .protectionException a => exec_protectionException_moves a s
  | .impreciseNotice a set => exec_impreciseNotice_moves a set s
  | .release origin => exec_release_moves origin s
  | .mgmtWatchdogRestart => exec_mgmtWatchdogRestart_moves s
  | .loadWindow busyPct => exec_loadWindow_moves busyPct s
  | .verifyComplete session unreadable => exec_verifyComplete_moves session unreadable s
  | .activate origin session unreadable => exec_activate_moves origin session unreadable s
  | .imageTakesEffect session => exec_imageTakesEffect_moves session s
  | .confirm origin session => exec_confirm_moves origin session s
  | .fallback origin session => exec_fallback_moves origin session s
  | .updateAbort origin session => exec_updateAbort_moves origin session s
  | .anchorClear origin session => exec_anchorClear_moves origin session s
  | .leaveTerminus origin inp => exec_leaveTerminus_moves origin inp s
  | .attestGo origin => exec_attestGo_moves origin s
  | .reportSigned randomiser => exec_reportSigned_moves randomiser s
  | .nextTreeBuilt => exec_nextTreeBuilt_moves s
  | .panelRefresh => exec_panelRefresh_moves s
  | .pixelShift => exec_pixelShift_moves s
  | .contrastUpdate temp => exec_contrastUpdate_moves temp s
  | .labelUpdateStart => exec_labelUpdateStart_moves s
  | .labelUpdateEnd => exec_labelUpdateEnd_moves s
  | .redraw origin => exec_redraw_moves origin s
  | .operatingMinute => exec_operatingMinute_moves s
  | .mileageSample values => exec_mileageSample_moves values s
  | .milSel origin series live => exec_milSel_moves origin series live s
  | .syncInterval => exec_syncInterval_moves s
  | .dtlsHandshake arrival client => exec_dtlsHandshake_moves arrival client s
  | .canFrameError port tec recv => exec_canFrameError_moves port tec recv s
  | .handoverClaimWaitEnd => exec_handoverClaimWaitEnd_moves s
  | .canErrRead => exec_canErrRead_moves s
  | .mgmtRestartEnd => exec_mgmtRestartEnd_moves s

theorem Moves.of_exec {c : Instr} {s t : State} (h : exec c s = .next t) : Moves (touches c) s t := by
  obtain ⟨u, hu, hm⟩ := exec_moves c s
  rw [hu] at h
  cases h
  exact hm

theorem pending_not_mem_touches (c : Instr) : .pending ∉ touches c := by
  cases c <;> exact of_decide_eq_true rfl

theorem fixed_not_mem_touches (c : Instr) : .fixed ∉ touches c := by
  cases c <;> exact of_decide_eq_true rfl

/-- The parts that some command or the idle step may touch. -/
def anyParts : List Part :=
  [.pending, .mode, .bank, .heldWrites, .shadows, .carrier, .standby, .start, .claim, .pair, .tasks, .lanes, .ctl, .jrn, .exch, .mram, .sbox,
    .chans, .conv, .acq, .time, .net, .can0, .can1, .mpu, .upd, .panel, .mil, .outbox, .freeCount]

theorem step_nil {s : State} (h : s.pending = []) : step s = .next (idleTick s) := by
  unfold step
  rw [h]

theorem step_cons {c : Instr} {rest : List Instr} {s : State} (h : s.pending = c :: rest) : step s = exec c { s with pending := rest } := by
  unfold step
  rw [h]

/-- One step, whatever it runs, keeps the invariants. -/
theorem step_moves (s : State) : ∃ t, step s = .next t ∧ Moves anyParts s t := by
  cases h : s.pending with
  | nil => exact ⟨_, step_nil h, idleTick_moves (by decide) (.refl _ s)⟩
  | cons c rest =>
    obtain ⟨t, ht, hm⟩ := exec_moves c { s with pending := rest }
    refine ⟨t, (step_cons h).trans ht, ?_, hm.bank, hm.clock, hm.claim⟩
    intro p hp
    have : p = .fixed := by cases p <;> first | rfl | exact absurd (by decide) hp
    subst this
    exact hm.keeps .fixed (fixed_not_mem_touches c)

theorem Moves.of_step {s t : State} (h : step s = .next t) : Moves anyParts s t := by
  obtain ⟨u, hu, hm⟩ := step_moves s
  rw [hu] at h
  cases h
  exact hm

end Sys2Proof.Machine

open Sys2Proof Sys2Proof.Machine

/-- Settles O1: the step reads the front of the queue and leaves the rest. -/
theorem stepRunsFront : Obligations.StepRunsFront := by
  unfold Obligations.StepRunsFront
  exact fun c s => step_cons rfl

/-- Settles O2: each command's lemma gives its next state, and an empty queue gives the idle step's. -/
theorem noCommandStops : Obligations.NoCommandStops := by
  unfold Obligations.NoCommandStops
  refine ⟨fun c s => ?_, fun s => ?_⟩
  · obtain ⟨t, ht, _⟩ := exec_moves c s
    exact ⟨t, ht⟩
  · obtain ⟨t, ht, _⟩ := step_moves s
    exact ⟨t, ht⟩

/-- Settles O3: the values are those of the reset record. -/
theorem resetState : Obligations.ResetState := by
  unfold Obligations.ResetState
  exact ⟨rfl, rfl, rfl, rfl, rfl, by decide, by decide, by decide⟩

/-- Settles O4: the reset bank is sorted and lists no zero, the counters stand at 0 and the driver is off. -/
theorem resetInvariants : Obligations.ResetInvariants := by
  unfold Obligations.ResetInvariants
  refine ⟨?_, ?_, ?_⟩
  · unfold BankOk
    decide
  · unfold ClockOk
    decide
  · exact fun h => Bool.noConfusion h

/-- Settles O5: every update of the bank in a command is a write of a field or the clear of an event register, and both keep the canonical form. -/
theorem stepKeepsBankOk : Obligations.StepKeepsBankOk := by
  unfold Obligations.StepKeepsBankOk
  exact fun s t hs h => (Moves.of_step h).bank hs

/-- Settles O6: the tick carries within its limits, and a step, a copy or an increment puts in force what is legal. -/
theorem stepKeepsClockOk : Obligations.StepKeepsClockOk := by
  unfold Obligations.StepKeepsClockOk
  exact fun s t hs h => (Moves.of_step h).clock hs

/-- Settles O7: the driver goes on only in a state that may drive it, and a module leaves service with the driver off. -/
theorem stepKeepsClaimOk : Obligations.StepKeepsClaimOk := by
  unfold Obligations.StepKeepsClaimOk
  exact fun s t hs h => (Moves.of_step h).claim hs

/-- Settles O8: a command differs from its next state in the parts of its row at most, and no row names the queue or what is fixed. -/
theorem commandsTouchOnly : Obligations.CommandsTouchOnly := by
  unfold Obligations.CommandsTouchOnly
  exact ⟨fun _ _ _ h => (Moves.of_exec h).keeps, fun c => ⟨pending_not_mem_touches c, fixed_not_mem_touches c⟩⟩

end

section
/-! SUPPORT. What a command answers under a guard, which frames of the coupling are taken (R225), and which requests are served (R380). -/

set_option Elab.async false

namespace Sys2Proof.Machine

open Sys2Proof

/-! Guards. -/

theorem Completes.of_eq {c : Instr} {s t : State} {P : State → Prop} (he : exec c s = .next t) (h : P t) : Completes c s P := ⟨t, he, h⟩

/-- A command whose guard holds. -/
theorem Completes.pos {c : Instr} {s a b : State} {P : State → Prop} {g : Prop} [Decidable g] (he : exec c s = .next (if g then a else b)) (hg : g)
    (h : P a) : Completes c s P :=
  ⟨a, by rw [he, if_pos hg], h⟩

/-- A command whose guard fails. -/
theorem Completes.neg {c : Instr} {s a b : State} {P : State → Prop} {g : Prop} [Decidable g] (he : exec c s = .next (if g then a else b)) (hg : ¬g)
    (h : P b) : Completes c s P :=
  ⟨b, by rw [he, if_neg hg], h⟩

theorem Completes.imp {c : Instr} {s : State} {P Q : State → Prop} (h : Completes c s P) (k : ∀ t, P t → Q t) : Completes c s Q := by
  obtain ⟨t, he, hp⟩ := h
  exact ⟨t, he, k t hp⟩

/-- What a command completes to keeps every part outside its row of the table. -/
theorem Completes.keeps {c : Instr} {s : State} {P : State → Prop} (h : Completes c s P) : Completes c s fun t => P t ∧ KeepsBut (touches c) s t := by
  obtain ⟨t, he, hp⟩ := h
  exact ⟨t, he, hp, (Moves.of_exec he).keeps⟩

theorem powered_of_mode_ne {s : State} (h : s.mode ≠ .off) : s.powered = true := decide_eq_true h

theorem powered_eq_false {s : State} (h : s.mode = .off) : s.powered = false := by
  simp [State.powered, h]

/-! Frames of the coupling (R225). -/

theorem frame_of_down {k : Nat} {h : LinkHdr} {f : State → State} {s : State} (hd : s.powered = false ∨ s.pair.linkUp = false) : frame k h f s = s := by
  unfold frame
  rw [if_pos]
  rcases hd with hd | hd <;> simp [hd]

theorem frame_of_up {k : Nat} {h : LinkHdr} {s : State} (f : State → State) (hp : s.powered = true) (hm : s.mode ≠ .terminus) (hl : s.pair.linkUp = true) :
    frame k h f s = match s.takes k h, modeOfCode h.hdr.state with
      | true, some m => f (afterHeader h m s)
      | _, _ => s.inc Reg.CPL_LINK_ERR_CRC_ERR := by
  unfold frame
  exact if_neg (by simp [hp, hm, hl])

/-- An accepted message has its effect on the state after its header. -/
theorem frame_of_taken {k : Nat} {h : LinkHdr} {m : Mode} {s : State} (ht : FrameTaken k h m s) (f : State → State) :
    frame k h f s = f (afterHeader h m s) := by
  obtain ⟨hp, hmode, hl, hcrc, hk, hlen, hlast, hchunk, hfirst, hseq, hses, htag, hm⟩ := ht
  have htakes : s.takes k h = true := by simp [State.takes, hcrc, hk, hlen, hlast, hchunk, hfirst, hseq, hses, htag]
  rw [frame_of_up f hp hmode hl, htakes, hm]

/-- One that is not accepted changes the count of errors alone. -/
theorem frame_of_discarded {k : Nat} {h : LinkHdr} {s : State} (f : State → State) (hp : s.powered = true) (hm : s.mode ≠ .terminus)
    (hl : s.pair.linkUp = true) (hd : s.takes k h = false ∨ modeOfCode h.hdr.state = none) : frame k h f s = s.inc Reg.CPL_LINK_ERR_CRC_ERR := by
  rw [frame_of_up f hp hm hl]
  rcases hd with hd | hd
  · rw [hd]
  · rw [hd]
    cases s.takes k h <;> rfl

/-- Every command that carries a header is a message with that header. -/
theorem exec_of_frameHeader {c : Instr} {k : Nat} {h : LinkHdr} (hc : frameHeader c = some (k, h)) (s : State) :
    ∃ f, exec c s = .next (frame k h f s) := by
  cases c with
  | idle received =>
    cases received with
    | none => cases hc
    | some x =>
      cases hc
      exact ⟨_, rfl⟩
  | status | delta | deltaAck | mirror | mirrorAck | image | mapAck | announce | announceAck | resyncReq | resyncPage | resyncControl
  | resyncDone | handover | handoverAck | restartReq | restartAck | restartGo =>
    cases hc
    exact ⟨_, rfl⟩
  | _ => cases hc

/-! Requests (R380). -/

theorem answersSession_powered {s : State} {x : Session} (h : s.answersSession x = true) : s.powered = true := by
  simp only [State.answersSession, State.answers, Bool.and_eq_true] at h
  exact h.1.1.1.1

theorem serve_of_off {kind : Nat} {r : Req} {f : Session → State → State} {s : State} (hp : s.powered = false) : serve kind r f s = s := by
  unfold serve
  split
  · next x _ =>
    have : s.answersSession x = false := by simp [State.answersSession, State.answers, hp]
    rw [if_pos (by simp [this])]
  · rfl

/-- A request not answered before has its effect on the state in which its client was heard. -/
theorem serve_of_asks {kind : Nat} {r : Req} {x : Session} {s : State} (ha : Asks kind r x s) (f : Session → State → State) :
    serve kind r f s = f { x with lastHeard := s.time.tick } (heard r.session x s) := by
  obtain ⟨hx, hans, hok, hfresh⟩ := ha
  unfold serve
  rw [hx]
  simp only [hans, hok, Bool.not_true, Bool.or_self, Bool.false_eq_true, if_false, hfresh] <;> rfl

end Sys2Proof.Machine

open Sys2Proof Sys2Proof.Machine

/-- Settles O9: the laws of the event's two fields, and nextSeq by its two cases. -/
theorem eventRaised : Obligations.EventRaised := by
  unfold Obligations.EventRaised
  refine ⟨fun e s hb => RaisedBut.raise hb s, rfl, fun n hn => if_neg (Nat.not_le.2 hn), fun n hn => ?_,
    fun e d s ha hne hb => State.raise_get_other_bit s hb ha hne⟩
  unfold nextSeq
  split <;> omega

/-- Settles O10: without power a register access is ignored, a request is not answered, and a frame is not taken. -/
theorem unpoweredServesNothing : Obligations.UnpoweredServesNothing := by
  unfold Obligations.UnpoweredServesNothing
  intro s hm
  have hp := powered_eq_false hm
  refine ⟨fun o a v => .neg (exec_registerWrite o a v s) (by simp [hp]) rfl, fun o a n w => .neg (exec_misalignedAccess o ⟨a, n⟩ w s) (by simp [hp]) rfl,
    fun r a n => ⟨_, rfl, serve_of_off hp⟩, fun r q w => ⟨_, rfl, serve_of_off hp⟩, fun c k h hc => ?_⟩
  obtain ⟨f, hf⟩ := exec_of_frameHeader hc s
  exact ⟨_, hf, frame_of_down (.inl hp)⟩

/-- Settles O23: a frame that misses one condition of State.takes, or whose STATE is no code, is counted and nothing else. -/
theorem framesDiscarded : Obligations.FramesDiscarded := by
  unfold Obligations.FramesDiscarded
  refine ⟨fun c k h s hc hp hm hl hbad => ?_, fun c k h s hc hl => ?_, fun h m s ht => ⟨_, rfl, frame_of_taken ht _⟩⟩
  · obtain ⟨f, hf⟩ := exec_of_frameHeader hc s
    have hd : s.takes k h = false ∨ modeOfCode h.hdr.state = none := by
      rcases hbad with hb | hb | hb | hb | hb | hb | hb | hb | hb <;> simp [State.takes, hb]
      omega
    refine .of_eq (hf.trans (congrArg _ (frame_of_discarded f hp hm hl hd))) ⟨State.get_inc_self s _, RegsBut.inc s _ List.mem_cons_self, ?_⟩
    exact (State_inc_moves _ (by decide) (.refl [.bank] s)).keeps
  · obtain ⟨f, hf⟩ := exec_of_frameHeader hc s
    exact ⟨_, hf, frame_of_down (.inr hl)⟩

end

section
/-! SUPPORT. A part that an operation leaves alone, read back; a property that a repetition keeps; tables mapped entry by entry. -/

set_option Elab.async false

namespace Sys2Proof.Machine

open Sys2Proof

/-! A part outside the list of those that differ. -/

theorem KeepsBut.pending {l : List Part} {s t : State} (h : KeepsBut l s t) (hp : .pending ∉ l := by decide) : t.pending = s.pending := (h .pending hp).symm
theorem KeepsBut.mode {l : List Part} {s t : State} (h : KeepsBut l s t) (hp : .mode ∉ l := by decide) : t.mode = s.mode := (h .mode hp).symm
theorem KeepsBut.bank {l : List Part} {s t : State} (h : KeepsBut l s t) (hp : .bank ∉ l := by decide) : t.bank = s.bank := (h .bank hp).symm
theorem KeepsBut.heldWrites {l : List Part} {s t : State} (h : KeepsBut l s t) (hp : .heldWrites ∉ l := by decide) : t.heldWrites = s.heldWrites := (h .heldWrites hp).symm
theorem KeepsBut.shadows {l : List Part} {s t : State} (h : KeepsBut l s t) (hp : .shadows ∉ l := by decide) : t.shadows = s.shadows := (h .shadows hp).symm
theorem KeepsBut.carrier {l : List Part} {s t : State} (h : KeepsBut l s t) (hp : .carrier ∉ l := by decide) : t.carrier = s.carrier := (h .carrier hp).symm
theorem KeepsBut.standby {l : List Part} {s t : State} (h : KeepsBut l s t) (hp : .standby ∉ l := by decide) : t.standby = s.standby := (h .standby hp).symm
theorem KeepsBut.fixed {l : List Part} {s t : State} (h : KeepsBut l s t) (hp : .fixed ∉ l := by decide) : t.fixed = s.fixed := (h .fixed hp).symm
theorem KeepsBut.start {l : List Part} {s t : State} (h : KeepsBut l s t) (hp : .start ∉ l := by decide) : t.start = s.start := (h .start hp).symm
theorem KeepsBut.claim {l : List Part} {s t : State} (h : KeepsBut l s t) (hp : .claim ∉ l := by decide) : t.claim = s.claim := (h .claim hp).symm
theorem KeepsBut.pair {l : List Part} {s t : State} (h : KeepsBut l s t) (hp : .pair ∉ l := by decide) : t.pair = s.pair := (h .pair hp).symm
theorem KeepsBut.tasks {l : List Part} {s t : State} (h : KeepsBut l s t) (hp : .tasks ∉ l := by decide) : t.tasks = s.tasks := (h .tasks hp).symm
theorem KeepsBut.lanes {l : List Part} {s t : State} (h : KeepsBut l s t) (hp : .lanes ∉ l := by decide) : t.lanes = s.lanes := (h .lanes hp).symm
theorem KeepsBut.ctl {l : List Part} {s t : State} (h : KeepsBut l s t) (hp : .ctl ∉ l := by decide) : t.ctl = s.ctl := (h .ctl hp).symm
theorem KeepsBut.jrn {l : List Part} {s t : State} (h : KeepsBut l s t) (hp : .jrn ∉ l := by decide) : t.jrn = s.jrn := (h .jrn hp).symm
theorem KeepsBut.exch {l : List Part} {s t : State} (h : KeepsBut l s t) (hp : .exch ∉ l := by decide) : t.exch = s.exch := (h .exch hp).symm
theorem KeepsBut.mram {l : List Part} {s t : State} (h : KeepsBut l s t) (hp : .mram ∉ l := by decide) : t.mram = s.mram := (h .mram hp).symm
theorem KeepsBut.sbox {l : List Part} {s t : State} (h : KeepsBut l s t) (hp : .sbox ∉ l := by decide) : t.sbox = s.sbox := (h .sbox hp).symm
theorem KeepsBut.chans {l : List Part} {s t : State} (h : KeepsBut l s t) (hp : .chans ∉ l := by decide) : t.chans = s.chans := (h .chans hp).symm
theorem KeepsBut.conv {l : List Part} {s t : State} (h : KeepsBut l s t) (hp : .conv ∉ l := by decide) : t.conv = s.conv := (h .conv hp).symm
theorem KeepsBut.acq {l : List Part} {s t : State} (h : KeepsBut l s t) (hp : .acq ∉ l := by decide) : t.acq = s.acq := (h .acq hp).symm
theorem KeepsBut.time {l : List Part} {s t : State} (h : KeepsBut l s t) (hp : .time ∉ l := by decide) : t.time = s.time := (h .time hp).symm
theorem KeepsBut.net {l : List Part} {s t : State} (h : KeepsBut l s t) (hp : .net ∉ l := by decide) : t.net = s.net := (h .net hp).symm
theorem KeepsBut.can0 {l : List Part} {s t : State} (h : KeepsBut l s t) (hp : .can0 ∉ l := by decide) : t.can0 = s.can0 := (h .can0 hp).symm
theorem KeepsBut.can1 {l : List Part} {s t : State} (h : KeepsBut l s t) (hp : .can1 ∉ l := by decide) : t.can1 = s.can1 := (h .can1 hp).symm
theorem KeepsBut.mpu {l : List Part} {s t : State} (h : KeepsBut l s t) (hp : .mpu ∉ l := by decide) : t.mpu = s.mpu := (h .mpu hp).symm
theorem KeepsBut.upd {l : List Part} {s t : State} (h : KeepsBut l s t) (hp : .upd ∉ l := by decide) : t.upd = s.upd := (h .upd hp).symm
theorem KeepsBut.panel {l : List Part} {s t : State} (h : KeepsBut l s t) (hp : .panel ∉ l := by decide) : t.panel = s.panel := (h .panel hp).symm
theorem KeepsBut.mil {l : List Part} {s t : State} (h : KeepsBut l s t) (hp : .mil ∉ l := by decide) : t.mil = s.mil := (h .mil hp).symm
theorem KeepsBut.outbox {l : List Part} {s t : State} (h : KeepsBut l s t) (hp : .outbox ∉ l := by decide) : t.outbox = s.outbox := (h .outbox hp).symm
theorem KeepsBut.freeCount {l : List Part} {s t : State} (h : KeepsBut l s t) (hp : .freeCount ∉ l := by decide) : t.freeCount = s.freeCount := (h .freeCount hp).symm

/-- An update of several parts at once. -/
theorem KeepsBut.fields {l : List Part} {s t : State} (h : ∀ p : Part, p ∈ l ∨ p.same s t := by
    intro p
    cases p <;> first | exact .inl (List.elem_iff.mp rfl) | exact .inr rfl) : KeepsBut l s t :=
  fun p hp => (h p).resolve_left hp

/-! Repetition. -/

theorem forEach_nil {α σ : Type} (f : α → σ → σ) (s : σ) : forEach [] f s = s := rfl

theorem forEach_cons {α σ : Type} (a : α) (l : List α) (f : α → σ → σ) (s : σ) : forEach (a :: l) f s = forEach l f (f a s) := rfl

theorem forEach_keeps {α σ : Type} {P : σ → Prop} {f : α → σ → σ} (hf : ∀ a x, P x → P (f a x)) (l : List α) {s : σ} (h : P s) :
    P (forEach l f s) := by
  induction l generalizing s with
  | nil => exact h
  | cons a l ih => exact ih (hf a s h)

/-- A reading that no turn changes. -/
theorem forEach_read {α β σ : Type} (g : σ → β) {f : α → σ → σ} (hf : ∀ a x, g (f a x) = g x) (l : List α) (s : σ) : g (forEach l f s) = g s :=
  forEach_keeps (P := fun x => g x = g s) (fun a x h => (hf a x).trans h) l rfl

/-! Tables mapped entry by entry. -/

theorem Tab.get?_map {α β : Type} (f : α → β) (t : Tab α) (i : Nat) : Tab.get? (t.map fun e => (e.1, f e.2)) i = (Tab.get? t i).map f := by
  induction t with
  | nil => rfl
  | cons e t ih =>
    simp only [List.map_cons, Tab.get?]
    split
    · rfl
    · exact ih

theorem Tab.getD_map {α β : Type} (f : α → β) (t : Tab α) (i : Nat) (d : α) : Tab.getD (t.map fun e => (e.1, f e.2)) i (f d) = f (Tab.getD t i d) := by
  unfold Tab.getD
  rw [Tab.get?_map]
  cases Tab.get? t i <;> rfl

end Sys2Proof.Machine

end

section
/-! SUPPORT. Supplies, hold-up, the claim keeper and the entry to HALT: the parts that outputs, CAN ports and the halt sequence leave
alone, and the register fields they do not reach. -/

set_option Elab.async false

namespace Sys2Proof.Machine

open Sys2Proof

/-! Which parts the operations on outputs and claim leave alone. -/

theorem refreshOutputs_keeps (s : State) : KeepsBut [.bank, .chans, .mil] s (refreshOutputs s) :=
  (refreshOutputs_moves (fun _ h => h) (.refl _ s)).keeps

theorem canUnclaim_keeps (s : State) : KeepsBut [.bank, .tasks, .net, .can0, .can1, .outbox, .freeCount] s (canUnclaim s) :=
  (canUnclaim_moves (fun _ h => h) (.refl _ s)).keeps

theorem stopLanes_keeps (s : State) : KeepsBut [.tasks, .lanes] s (stopLanes s) := (stopLanes_moves (fun _ h => h) (.refl _ s)).keeps

theorem dropClaim_keeps (s : State) :
    KeepsBut [.bank, .claim, .pair, .tasks, .chans, .net, .can0, .can1, .mil, .outbox, .freeCount] s (dropClaim s) :=
  (dropClaim_moves (fun _ h => h) (.refl _ s)).keeps

theorem recordHalt_keeps (r : Nat) (s : State) : KeepsBut [.mram, .panel, .mil] s (recordHalt r s) :=
  (recordHalt_moves r (fun _ h => h) (.refl _ s)).keeps

theorem cancelHandover_keeps (s : State) : KeepsBut [.bank, .pair, .net, .outbox] s (cancelHandover s) :=
  (cancelHandover_moves (fun _ h => h) (.refl _ s)).keeps

theorem abandonCal_keeps (s : State) : KeepsBut [.bank, .conv, .net, .outbox] s (abandonCal s) :=
  (abandonCal_moves (fun _ h => h) (.refl _ s)).keeps

theorem labelRequest_keeps (s : State) : KeepsBut [.panel] s (labelRequest s) := (labelRequest_moves (fun _ h => h) (.refl _ s)).keeps

theorem holdupVisits_keeps (s : State) : KeepsBut [.bank, .conv] s (holdupVisits s) := (holdupVisits_moves (fun _ h => h) (.refl _ s)).keeps

theorem setMode_mode (m : Mode) (s : State) : (setMode m s).mode = m := by
  unfold setMode
  simp only []
  split <;> rfl

theorem setMode_keeps (m : Mode) (s : State) : KeepsBut [.mode, .bank, .panel] s (setMode m s) := by
  intro p hp
  unfold setMode
  simp only []
  split <;> split <;> cases p <;> first | rfl | exact absurd (by decide) hp

/-! A dropped claim (R241). -/

theorem dropClaim_driven {s : State} (h : s.claim.drive = true) :
    (dropClaim s).claim =
      { s.claim with
        drive := false, own := false, confirmed := false, taking := false, releasing := s.hasHeir && decide (s.mode ≠ .starting),
        partnerAbsent := if s.mode = .starting then s.claim.partnerAbsent else !(s.hasHeir && decide (s.mode ≠ .starting)),
        droppedAt := some s.time.tick } := by
  have hk : KeepsBut [.bank, .chans, .mil] s (forEach s.channels (fun e s => holdChan e.1 e.2 s) s) :=
    (Moves.forEach (fun _ _ h => holdChan_moves _ _ (fun _ h => h) h) (.refl _ s)).keeps
  unfold dropClaim
  rw [if_pos h]
  simp only [State.raise_claim]
  rw [(canUnclaim_keeps _).claim]
  simp only [hk.claim, hk.mode, hk.time]

theorem dropClaim_not_driven {s : State} (h : s.claim.drive = false) : dropClaim s = { s with claim := { s.claim with taking := false } } :=
  if_neg (by simp [h])

/-! Tasks that stop (R4): no operation of the halt sequence starts a cycle again. -/

/-- A lane out of its block. -/
def stoppedLane (l : Lane) : Lane :=
  { l with
    block := none, waiting := false, mismatch := none, gateLog := [], gotA := [], gotB := [], restartOn := [], starting := false,
    shadowA := [], shadowB := [] }

/-- A task out of its cycle. -/
def stoppedTask (t : Task) : Task :=
  if t.phase = .idle then t
  else
    { t with
      phase := .idle, deliveries := [], tagOps := [], roleOps := [], msgOps := [], regOps := [], commits := [], postOps := [], wbOps := [],
      canOps := [], objOps := [], ovlOps := [], retOps := [], refusedOps := [], handed := [], roleReturns := [], goneOps := [],
      inbox := t.taken ++ t.goneOps.map (·.2) ++ t.inbox, taken := [], cycle := t.lastClosed, blocksDone := [] }

theorem stopLanes_eq (s : State) :
    stopLanes s = { s with tasks := s.tasks.map fun e => (e.1, stoppedTask e.2), lanes := s.lanes.map fun e => (e.1, stoppedLane e.2) } := rfl

theorem stopLanes_lane (s : State) (n : Nat) : (stopLanes s).lane n = stoppedLane (s.lane n) := Tab.getD_map stoppedLane s.lanes n Lane.reset

theorem stopLanes_task (s : State) (i : Nat) : (stopLanes s).task i = stoppedTask (s.task i) := Tab.getD_map stoppedTask s.tasks i Task.reset

theorem stoppedTask_phase (t : Task) : (stoppedTask t).phase = .idle := by
  unfold stoppedTask
  split
  · next h => exact h
  · rfl

theorem canOutcome_phase (p task handle outcome sof : Nat) (late : Bool) (s : State) (i : Nat) :
    ((canOutcome p task handle outcome sof late s).task i).phase = (s.task i).phase := by
  have ht : ∀ x, ((s.setTask task { s.task task with canOutcomes := x }).task i).phase = (s.task i).phase := by
    intro x
    by_cases hi : i = task
    · rw [hi, State.task_setTask]
    · rw [State.task_setTask_ne _ _ hi]
  unfold canOutcome
  simp only []
  split
  · exact ht _
  · split
    · exact ht _
    · rw [State.task_congr (State.raise_tasks _ _)]
      exact ht _

theorem canMaybeStart_keeps (p : Nat) (s : State) : KeepsBut [.can0, .can1, .freeCount] s (canMaybeStart p s) :=
  (canMaybeStart_moves p (fun _ h => h) (.refl _ s)).keeps

theorem State.setCanPort_keeps (s : State) (p : Nat) (x : CanPort) : KeepsBut [.can0, .can1] s (s.setCanPort p x) :=
  (State_setCanPort_moves p x (fun _ h => h) (.refl _ s)).keeps

theorem canEndWaiting_phase (p outcome : Nat) (keep : Bool) (s : State) (i : Nat) :
    ((canEndWaiting p outcome keep s).task i).phase = (s.task i).phase := by
  unfold canEndWaiting
  refine (forEach_read (fun s : State => (s.task i).phase) (fun h x => (canOutcome_phase _ _ _ _ _ _ _ i).trans ?_) _ _).trans ?_
  · split <;> rfl
  · rw [State.task_congr (State.setCanPort_keeps _ _ _).tasks]

theorem canUnclaim_phase (s : State) (i : Nat) : ((canUnclaim s).task i).phase = (s.task i).phase :=
  forEach_read (fun s : State => (s.task i).phase)
    (fun p x => (canEndWaiting_phase _ _ _ _ i).trans (by rw [State.task_congr (canMaybeStart_keeps p x).tasks])) _ s

theorem dropClaim_phase (s : State) (i : Nat) : ((dropClaim s).task i).phase = (s.task i).phase := by
  unfold dropClaim
  split
  · have hk : KeepsBut [.bank, .chans, .mil] s (forEach s.channels (fun e s => holdChan e.1 e.2 s) s) :=
      (Moves.forEach (fun _ _ h => holdChan_moves _ _ (fun _ h => h) h) (.refl _ s)).keeps
    rw [State.task_congr (State.raise_tasks _ _), canUnclaim_phase]
    exact congrArg Task.phase (State.task_congr hk.tasks i)
  · rfl

/-! Entry to HALT (R4, R241). -/

theorem enterHalt_out {s : State} (reason : Nat) (h : s.mode = .off ∨ s.mode = .halt ∨ s.mode = .terminus) : enterHalt reason s = s := by
  unfold enterHalt
  rw [if_neg]
  rcases h with h | h | h <;> simp [h]

/-- The state before the lanes stop. -/
def haltRecorded (reason : Nat) (s : State) : State := abandonCal (cancelHandover (recordHalt reason s))

theorem haltRecorded_keeps (reason : Nat) (s : State) :
    KeepsBut [.bank, .pair, .mram, .conv, .net, .panel, .mil, .outbox] s (haltRecorded reason s) :=
  (((recordHalt_keeps reason s).mono (by decide)).trans ((cancelHandover_keeps _).mono (by decide))).trans ((abandonCal_keeps _).mono (by decide))

theorem haltRecorded_mram (reason : Nat) (s : State) : (haltRecorded reason s).mram =
    { s.mram with haltReason := reason, haltValid := true, haltCount := satInc 16 s.mram.haltCount, haltMinute := s.mram.opMinutes } :=
  (abandonCal_keeps _).mram.trans (cancelHandover_keeps _).mram

theorem enterHalt_in {s : State} (reason : Nat) (h : s.mode = .starting ∨ s.mode = .standby ∨ s.mode = .active) :
    enterHalt reason s = refreshOutputs { setMode .halt (dropClaim (stopLanes (haltRecorded reason s))) with
      pair := { (setMode .halt (dropClaim (stopLanes (haltRecorded reason s)))).pair with resyncSending := false } } :=
  if_pos h

theorem enterHalt_in_mode {s : State} (reason : Nat) (h : s.mode = .starting ∨ s.mode = .standby ∨ s.mode = .active) :
    (enterHalt reason s).mode = .halt := by
  rw [enterHalt_in reason h, (refreshOutputs_keeps _).mode]
  exact setMode_mode _ _

theorem enterHalt_in_drive {s : State} (reason : Nat) (h : s.mode = .starting ∨ s.mode = .standby ∨ s.mode = .active) :
    (enterHalt reason s).claim.drive = false := by
  rw [enterHalt_in reason h, (refreshOutputs_keeps _).claim]
  simp only []
  rw [(setMode_keeps _ _).claim]
  exact dropClaim_drive _

theorem enterHalt_in_mram {s : State} (reason : Nat) (h : s.mode = .starting ∨ s.mode = .standby ∨ s.mode = .active) :
    (enterHalt reason s).mram =
      { s.mram with haltReason := reason, haltValid := true, haltCount := satInc 16 s.mram.haltCount, haltMinute := s.mram.opMinutes } := by
  rw [enterHalt_in reason h, (refreshOutputs_keeps _).mram]
  simp only []
  rw [(setMode_keeps _ _).mram, (dropClaim_keeps _).mram, (stopLanes_keeps _).mram, haltRecorded_mram]

theorem enterHalt_in_lane {s : State} (reason : Nat) (h : s.mode = .starting ∨ s.mode = .standby ∨ s.mode = .active) (n : Nat) :
    ((enterHalt reason s).lane n).block = none := by
  rw [enterHalt_in reason h, State.lane_congr (refreshOutputs_keeps _).lanes]
  refine (congrArg Lane.block (State.lane_congr ?_ n)).trans (congrArg Lane.block (stopLanes_lane (haltRecorded reason s) n))
  exact (setMode_keeps _ _).lanes.trans (dropClaim_keeps _).lanes

theorem enterHalt_in_phase {s : State} (reason : Nat) (h : s.mode = .starting ∨ s.mode = .standby ∨ s.mode = .active) (i : Nat) :
    ((enterHalt reason s).task i).phase = .idle := by
  rw [enterHalt_in reason h, State.task_congr (refreshOutputs_keeps _).tasks]
  refine (congrArg Task.phase (State.task_congr (setMode_keeps _ _).tasks i)).trans ?_
  rw [dropClaim_phase, stopLanes_task, stoppedTask_phase]

theorem enterHalt_keeps (reason : Nat) (s : State) :
    KeepsBut [.mode, .bank, .claim, .pair, .tasks, .lanes, .mram, .chans, .conv, .net, .can0, .can1, .panel, .mil, .outbox, .freeCount] s
      (enterHalt reason s) :=
  (enterHalt_moves reason (fun _ h => h) (.refl _ s)).keeps

end Sys2Proof.Machine

open Sys2Proof Sys2Proof.Machine

/-- Settles O14: the halt sequence in its order, each step leaving alone what the others set; elsewhere it is the identity. -/
theorem haltEntry : Obligations.HaltEntry := by
  unfold Obligations.HaltEntry
  refine ⟨fun reason s h => ⟨enterHalt_in_mode reason h, enterHalt_in_drive reason h, ?_, ?_, ?_, (enterHalt_keeps reason s).ctl,
    enterHalt_in_lane reason h, enterHalt_in_phase reason h⟩, fun reason s h => enterHalt_out reason h⟩
  all_goals rw [enterHalt_in_mram reason h]

end

section
/-! SUPPORT. The carrier's commands: supplies and fuses, hold-up, the claim keeper and the own claim line. -/

set_option Elab.async false

namespace Sys2Proof.Machine

open Sys2Proof

/-! What a command completes to, with the parts outside its row as facts. -/

theorem Completes.of_keeps {c : Instr} {s t : State} {P : State → Prop} (he : exec c s = .next t) (h : KeepsBut (touches c) s t → P t) :
    Completes c s P :=
  ⟨t, he, h (Moves.of_exec he).keeps⟩

theorem Completes.pos_keeps {c : Instr} {s a b : State} {P : State → Prop} {g : Prop} [Decidable g] (he : exec c s = .next (if g then a else b)) (hg : g)
    (h : KeepsBut (touches c) s a → P a) : Completes c s P :=
  .of_keeps (by rw [he, if_pos hg]) h

theorem Completes.neg_keeps {c : Instr} {s a b : State} {P : State → Prop} {g : Prop} [Decidable g] (he : exec c s = .next (if g then a else b)) (hg : ¬g)
    (h : KeepsBut (touches c) s b → P b) : Completes c s P :=
  .of_keeps (by rw [he, if_neg hg]) h

/-! Register fields below the blocks of the channels and the CAN ports. -/

theorem State.inc_get_ne (s : State) {f g : Fld} (h : f.key ≠ g.key) : (s.inc f).get g = s.get g := State.get_put_ne s _ h

theorem chanCommand_get (n : Nat) (on : Bool) (s : State) {f : Fld} (hf : f.key < 32 * 0x80000) : (chanCommand n on s).get f = s.get f := by
  unfold chanCommand
  simp only []
  split
  · split
    · refine Eq.trans ?_ (State.inc_get_ne s (f := Reg.CH_SWITCHES_COUNT (n / 12) (n % 12)) ?_)
      · rfl
      · simp only [Fld.key, Reg.CH_SWITCHES_COUNT] at hf ⊢
        omega
    · rfl
  · split <;> rfl

theorem refreshChan_get (n : Nat) (c : ChanCfg) (s : State) {f : Fld} (hf : f.key < 32 * 0x80000) : (refreshChan n c s).get f = s.get f := by
  unfold refreshChan
  split
  · split
    · exact chanCommand_get n _ s hf
    · exact chanCommand_get n _ s hf
  · split <;> rfl
  · rfl

theorem refreshOutputs_get (s : State) {f : Fld} (hf : f.key < 32 * 0x80000) : (refreshOutputs s).get f = s.get f :=
  forEach_read (fun s : State => s.get f) (fun (e : Nat × ChanCfg) x => refreshChan_get e.1 e.2 x hf) _ s

theorem holdChan_get (n : Nat) (c : ChanCfg) (s : State) {f : Fld} (hf : f.key < 32 * 0x80000) : (holdChan n c s).get f = s.get f := by
  unfold holdChan
  simp only []
  split
  · exact chanCommand_get n _ s hf
  · rfl

theorem canOutcome_get (p task handle outcome sof : Nat) (late : Bool) (s : State) {f : Fld} (hf : f.key < 32 * 0x140000) :
    (canOutcome p task handle outcome sof late s).get f = s.get f := by
  unfold canOutcome
  simp only []
  split
  · refine (State.inc_get_ne _ ?_).trans rfl
    simp only [Fld.key, Reg.CAN_TX_COUNTS_SENT] at hf ⊢
    omega
  · split
    · rfl
    · rw [State.raise_get_ne, State.inc_get_ne]
      · rfl
      · simp only [Fld.key, Reg.CAN_TX_COUNTS_FAILED] at hf ⊢
        omega
      · simp only [Fld.key, Ev.CAN_TX_FAILED] at hf ⊢
        omega
      · simp only [Fld.key, Ev.CAN_TX_FAILED] at hf ⊢
        omega

theorem canUnclaim_get (s : State) {f : Fld} (hf : f.key < 32 * 0x140000) : (canUnclaim s).get f = s.get f := by
  refine forEach_read (fun s : State => s.get f) (fun p x => ?_) _ s
  refine Eq.trans ?_ (State.get_congr (canMaybeStart_keeps p x).bank f)
  unfold canEndWaiting
  refine (forEach_read (fun s : State => s.get f) (fun h y => (canOutcome_get _ _ _ _ _ _ _ hf).trans ?_) _ _).trans ?_
  · split <;> rfl
  · exact State.get_congr (State.setCanPort_keeps _ _ _).bank f

theorem dropClaim_get (s : State) {f : Fld} (hf : f.key < 32 * 0x80000) (h1 : 32 * Ev.CPL_GAVE_CONTROL.addr + Ev.CPL_GAVE_CONTROL.bit ≠ f.key)
    (h2 : 32 * Ev.CPL_GAVE_CONTROL.addr + 16 ≠ f.key) : (dropClaim s).get f = s.get f := by
  unfold dropClaim
  split
  · rw [State.raise_get_ne _ h1 h2, canUnclaim_get _ (by omega)]
    exact forEach_read (fun s : State => s.get f) (fun (e : Nat × ChanCfg) x => holdChan_get e.1 e.2 x hf) _ s
  · rfl

/-! Events leave the ports' links alone. -/

theorem EventsOnly.up {s t : State} (h : EventsOnly s t) : t.net.up = s.net.up := by
  have hn := congrArg Net.up h.2
  exact hn

@[simp] theorem State.raise_up (s : State) (e : EvBit) : (s.raise e).net.up = s.net.up := (State.raise_only s e).up

@[simp] theorem State.raiseIf_up (s : State) (c : Bool) (e : EvBit) : (s.raiseIf c e).net.up = s.net.up := by
  unfold State.raiseIf
  split
  · exact State.raise_up s e
  · rfl

theorem portDown_up (p : Port) (s : State) : p ∉ (portDown p s).net.up := by
  have hf : p ∉ s.net.up.filter (fun q => decide (q ≠ p)) := by simp
  unfold portDown
  split
  · simp only []
    split
    · rw [State.raiseIf_up, State.raise_up]
      exact hf
    · rw [State.raise_up]
      exact hf
  · next h => exact h

/-! The flags of the standby domain (R42). -/

theorem sbyFlag_running (bit : Nat) (f : Standby → Standby) {s : State} (h : s.standby.stopped = false) :
    (sbyFlag bit f s).standby = { f s.standby with seq := nextSeq s.standby.seq } ∧ EventsOnly s (sbyFlag bit f s) ∧
      KeepsBut [.standby, .net, .outbox] s (sbyFlag bit f s) := by
  have hx : EventsOnly s { s with standby := { f s.standby with seq := nextSeq s.standby.seq } } := .of_eq rfl rfl
  have hk : KeepsBut [.standby, .net, .outbox] s { s with standby := { f s.standby with seq := nextSeq s.standby.seq } } := .fields
  unfold sbyFlag
  rw [if_neg (by simp [h])]
  simp only []
  split
  · have he : KeepsBut [.net, .outbox] { s with standby := { f s.standby with seq := nextSeq s.standby.seq } }
        (forEach s.net.sessions (fun y x => eventTo 0x1A0000 0x28 bit (nextSeq s.standby.seq) y.1 y.2 x)
          { s with standby := { f s.standby with seq := nextSeq s.standby.seq } }) :=
      (Moves.forEach (fun _ _ h => eventTo_moves _ _ _ _ _ _ (fun _ h => h) h) (.refl _ _)).keeps
    exact ⟨he.standby, hx.trans (forEach_only _ _ (fun _ _ => eventTo_only _ _ _ _ _ _ _) _), hk.trans (he.mono (by decide))⟩
  · exact ⟨rfl, hx, hk⟩

theorem sbyFlag_unpowered (bit : Nat) (f : Standby → Standby) {s : State} (h : s.standby.stopped = false) (hp : s.powered = false) :
    sbyFlag bit f s = { s with standby := { f s.standby with seq := nextSeq s.standby.seq } } := by
  unfold sbyFlag
  rw [if_neg (by simp [h])]
  exact if_neg (by simpa [State.powered] using hp)

theorem sbyFlag_keeps (bit : Nat) (f : Standby → Standby) (hf : ∀ b, (f b).sec = b.sec ∧ (f b).frac = b.frac) (s : State) :
    KeepsBut [.standby, .net, .outbox] s (sbyFlag bit f s) :=
  (sbyFlag_moves bit f (fun _ h => h) hf (.refl _ s)).keeps

/-! Hold-up (R37). -/

theorem enterHoldup_unpowered {s : State} (h : s.powered = false) : enterHoldup s = s := if_pos (.inl (by simp [h]))

/-- Hold-up marked, the load shed and the network cages off, before the module leaves service. -/
def holdupBegun (s : State) : State :=
  let u := { s with
    carrier := { s.carrier with holdup := true, resFull := false },
    mil := { s.mil with now := { s.mil.now with holdupEntries := satInc 32 s.mil.now.holdupEntries } } }.raise Ev.PWR_HOLDUP_ENTERED
  panelOff { u with carrier := { u.carrier with shed := true }, net := { u.net with up := u.net.up.filter (fun p => decide (p = .svc)) } }

theorem enterHoldup_eq {s : State} (hp : s.powered = true) (hh : s.carrier.holdup = false) :
    enterHoldup s = refreshOutputs (acqStop (enterHalt 5 (holdupVisits (holdupBegun s)))) :=
  if_neg (by simp [hp, hh])

theorem acqStop_keeps (s : State) : KeepsBut [.acq] s (acqStop s) := (acqStop_moves (fun _ h => h) (.refl _ s)).keeps

theorem holdupBegun_carrier (s : State) : (holdupBegun s).carrier = { s.carrier with holdup := true, resFull := false, shed := true } := by
  simp only [holdupBegun, panelOff, State.raise_carrier]

theorem holdupBegun_keeps (s : State) : KeepsBut [.bank, .carrier, .mil, .net, .panel, .outbox] s (holdupBegun s) := by
  intro p hp
  cases p <;> first | exact absurd (by decide) hp | simp [Part.same, holdupBegun, panelOff]

theorem setMode_panel_on (m : Mode) (s : State) : (setMode m s).panel.on = s.panel.on := by
  unfold setMode
  simp only []
  split <;> split <;> rfl

theorem enterHalt_panel_on (r : Nat) (s : State) : (enterHalt r s).panel.on = s.panel.on := by
  by_cases h : s.mode = .starting ∨ s.mode = .standby ∨ s.mode = .active
  · rw [enterHalt_in r h, (refreshOutputs_keeps _).panel]
    simp only []
    rw [setMode_panel_on, (dropClaim_keeps _).panel, (stopLanes_keeps _).panel, haltRecorded, (abandonCal_keeps _).panel, (cancelHandover_keeps _).panel]
    rfl
  · unfold enterHalt
    rw [if_neg h]

/-- What the hold-up sequence leaves, whatever state it begins in. -/
theorem enterHoldup_parts {s : State} (hp : s.powered = true) (hh : s.carrier.holdup = false) :
    (enterHoldup s).carrier = { s.carrier with holdup := true, resFull := false, shed := true } ∧ (enterHoldup s).panel.on = false ∧
      (enterHoldup s).acq.running = false ∧ (enterHoldup s).standby = s.standby := by
  rw [enterHoldup_eq hp hh]
  refine ⟨?_, ?_, ?_, ?_⟩
  · rw [(refreshOutputs_keeps _).carrier, (acqStop_keeps _).carrier, (enterHalt_keeps _ _).carrier, (holdupVisits_keeps _).carrier,
      holdupBegun_carrier]
  · rw [(refreshOutputs_keeps _).panel, (acqStop_keeps _).panel, enterHalt_panel_on, (holdupVisits_keeps _).panel]
    rfl
  · rw [(refreshOutputs_keeps _).acq]
    rfl
  · rw [(refreshOutputs_keeps _).standby, (acqStop_keeps _).standby, (enterHalt_keeps _ _).standby, (holdupVisits_keeps _).standby,
      (holdupBegun_keeps s).standby]

/-- A module in service leaves it with the reason recorded. -/
theorem enterHoldup_halts {s : State} (hm : s.mode = .starting ∨ s.mode = .standby ∨ s.mode = .active) (hh : s.carrier.holdup = false) :
    (enterHoldup s).mode = .halt ∧ (enterHoldup s).claim.drive = false ∧ (enterHoldup s).mram.haltReason = 5 ∧
      (enterHoldup s).mram.haltValid = true := by
  have hp : s.powered = true := powered_of_mode_ne (by rcases hm with hm | hm | hm <;> simp [hm])
  have hv : (holdupVisits (holdupBegun s)).mode = s.mode := (holdupVisits_keeps _).mode.trans (holdupBegun_keeps s).mode
  rw [← hv] at hm
  rw [enterHoldup_eq hp hh]
  refine ⟨?_, ?_, ?_, ?_⟩
  · rw [(refreshOutputs_keeps _).mode, (acqStop_keeps _).mode, enterHalt_in_mode 5 hm]
  · rw [(refreshOutputs_keeps _).claim, (acqStop_keeps _).claim, enterHalt_in_drive 5 hm]
  · rw [(refreshOutputs_keeps _).mram, (acqStop_keeps _).mram, enterHalt_in_mram 5 hm]
  · rw [(refreshOutputs_keeps _).mram, (acqStop_keeps _).mram, enterHalt_in_mram 5 hm]

/-! The own claim line (R28). -/

theorem stayOut_active {s : State} (hm : s.mode = .active) : stayOut s = { s with claim := { s.claim with taking := false } } :=
  if_neg (by simp [hm])

theorem stayOut_idle {s : State} (hd : s.claim.drive = false) : stayOut s = { s with claim := { s.claim with taking := false } } :=
  if_neg (by simp [hd])

theorem stayOut_driven {s : State} (hd : s.claim.drive = true) (hm : s.mode ≠ .active) : stayOut s = refreshOutputs (dropClaim (stopLanes s)) :=
  if_pos (by simp [hd, hm])

theorem stayOut_keeps (s : State) :
    KeepsBut [.bank, .claim, .pair, .tasks, .lanes, .chans, .net, .can0, .can1, .mil, .outbox, .freeCount] s (stayOut s) :=
  (stayOut_moves (fun _ h => h) (.refl _ s)).keeps

theorem stayOut_claim (s : State) :
    (stayOut s).claim.stuck = s.claim.stuck ∧ (stayOut s).claim.taking = false ∧ (s.claim.own = false → (stayOut s).claim.own = false) := by
  by_cases h : s.claim.drive = true ∧ s.mode ≠ .active
  · have hd : (stopLanes s).claim.drive = true := ((stopLanes_keeps s).claim ▸ h.1 :)
    rw [stayOut_driven h.1 h.2, (refreshOutputs_keeps _).claim, dropClaim_driven hd, (stopLanes_keeps s).claim]
    exact ⟨rfl, rfl, fun _ => rfl⟩
  · rw [show stayOut s = { s with claim := { s.claim with taking := false } } from if_neg (by simpa using h)]
    exact ⟨rfl, rfl, id⟩

theorem stayOut_drive (s : State) : (s.mode ≠ .active → (stayOut s).claim.drive = false) ∧ (s.mode = .active → (stayOut s).claim.drive = s.claim.drive) := by
  refine ⟨fun hm => ?_, fun hm => by rw [stayOut_active hm]⟩
  cases hd : s.claim.drive with
  | true => rw [stayOut_driven hd hm, (refreshOutputs_keeps _).claim, dropClaim_drive]
  | false =>
    rw [stayOut_idle hd]
    exact hd

theorem stayOut_get (s : State) {f : Fld} (hf : f.key < 32 * 0x80000) (h1 : 32 * Ev.CPL_GAVE_CONTROL.addr + Ev.CPL_GAVE_CONTROL.bit ≠ f.key)
    (h2 : 32 * Ev.CPL_GAVE_CONTROL.addr + 16 ≠ f.key) : (stayOut s).get f = s.get f := by
  unfold stayOut
  split
  · rw [refreshOutputs_get _ hf, dropClaim_get _ hf h1 h2]
    rfl
  · rfl

/-! The standby domain and the cell. -/

theorem KeepsBut.set_standby (s : State) (b : Standby) : KeepsBut [.standby] s { s with standby := b } := .fields

theorem KeepsBut.set_claim {l : List Part} (s : State) (c : Claim) (h : Part.claim ∈ l := by decide) : KeepsBut l s { s with claim := c } := by
  intro p hp
  cases p <;> first | rfl | exact absurd h hp

theorem RaisedBut.set_claim {e : EvBit} {l : List Fld} {ps : List Part} {s t : State} (h : RaisedBut e l ps s t) (c : Claim)
    (hp : Part.claim ∈ ps := by decide) : RaisedBut e l ps s { t with claim := c } := by
  obtain ⟨⟨h1, h2⟩, h3, h4, h5⟩ := h
  exact ⟨⟨h1, h2⟩, h3, h4, h5.trans (.set_claim t c (List.mem_append_right _ hp))⟩

theorem KeepsBut.set_carrier (s : State) (c : Carrier) : KeepsBut [.carrier] s { s with carrier := c } :=
  (Moves.set_carrier c (by decide) (.refl _ s)).keeps

end Sys2Proof.Machine

open Sys2Proof Sys2Proof.Machine

/-- Settles O15: the hold-up sequence step by step; the record follows the statuses still to write, and OFF keeps what is stored. -/
theorem holdUpSequence : Obligations.HoldUpSequence := by
  unfold Obligations.HoldUpSequence
  refine ⟨fun s hm hh => ?_, fun s hp hh hr => ?_, fun s hp => ?_⟩
  · have hp : s.powered = true := powered_of_mode_ne (by rcases hm with hm | hm | hm <;> simp [hm])
    obtain ⟨h1, h2, h3, _⟩ := enterHoldup_parts hp hh
    obtain ⟨k1, k2, k3, k4⟩ := enterHoldup_halts hm hh
    exact .of_keeps rfl fun hk => ⟨h1, k1, k2, k3, k4, h2, h3, hk⟩
  · have hc : (writePlr (if s.mram.lastHolder then writeStatuses s else s)).carrier = s.carrier := by
      rw [(writePlr_moves (L := [.mram]) (by decide) (.refl _ _)).keeps.carrier]
      split
      · exact (writeStatuses_moves (fun _ h => h) (.refl _ s)).keeps.carrier
      · rfl
    refine .pos_keeps rfl (by simp [hp, hh, hr]) fun hk => ⟨?_, rfl, hk⟩
    simp only [hc]
  · exact .pos_keeps rfl hp fun hk => ⟨rfl, rfl, rfl, rfl, rfl, rfl, rfl, rfl, rfl, hk⟩

/-- Settles O12: the seating and the cell set their flag of the standby domain, which events leave alone; the claim line read against
the driver leaves the claim to `stayOut`. -/
theorem standbyAndClaimKeeper : Obligations.StandbyAndClaimKeeper := by
  unfold Obligations.StandbyAndClaimKeeper
  refine ⟨⟨fun s => .of_eq rfl rfl, fun s h => .of_eq rfl (sbyFlag_running _ _ h), fun s => .of_eq rfl ⟨rfl, .set_standby s _⟩,
    fun s hs hp hh => ?_, fun s hs hp hr => ?_⟩, fun s hp hd => ?_, fun s hp ho hd => ?_, fun s hp hd => ?_, fun s hp hd => ?_⟩
  · let v : State := { s with carrier := { s.carrier with seated := false } }
    have hk : KeepsBut [.standby, .net, .outbox] v (sbyFlag 0 (fun b => { b with unplugged := true }) v) :=
      sbyFlag_keeps _ (fun b => { b with unplugged := true }) (fun _ => ⟨rfl, rfl⟩) v
    have hpu : (sbyFlag 0 (fun b => { b with unplugged := true }) v).powered = true := by
      rw [State.powered, hk.mode]
      exact hp
    obtain ⟨h1, _, _, h4⟩ := enterHoldup_parts hpu (by rw [hk.carrier]; exact hh)
    refine .pos rfl hs ⟨?_, fun hr => ?_⟩
    · rw [h1, hk.carrier]
    · rw [h4]
      exact (sbyFlag_running _ _ (s := v) hr).1
  · refine .pos rfl hs ?_
    rw [sbyFlag_unpowered _ _ (by exact hr) (by exact hp), enterHoldup_unpowered (by exact hp)]
    exact ⟨rfl, rfl, ((KeepsBut.set_carrier s _).mono (by decide)).trans ((KeepsBut.set_standby _ _).mono (by decide))⟩
  · exact .pos rfl (by simp [hp, hd]) rfl
  · refine .pos_keeps rfl (by simp [hp, ho, hd]) fun hk => ⟨?_, ?_, hk⟩
    · rw [(refreshOutputs_keeps _).claim, (canUnclaim_keeps _).claim]
    · rw [(refreshOutputs_keeps _).pair, (canUnclaim_keeps _).pair]
  · let x : State := { s with claim := { s.claim with own := false, stuck := true } }.raise Ev.CPL_CLAIM_STUCK_HIGH
    have hc : x.claim = { s.claim with own := false, stuck := true } := State.raise_claim _ _
    have hm : x.mode = s.mode := State.raise_mode _ _
    obtain ⟨h1, h2, h3⟩ := stayOut_claim x
    obtain ⟨h4, h5⟩ := stayOut_drive x
    refine .pos_keeps rfl (by simp [hp, hd]) fun hk => ⟨?_, h3 (by rw [hc]), h2, ?_, ?_, fun h => h4 (by rwa [hm]), fun h => ?_, hk⟩
    · rw [h1, hc]
    · rw [stayOut_get _ (by decide) (by decide) (by decide)]
      exact State.raise_get_bit _ (by decide)
    · rw [(stayOut_keeps _).mode, hm]
    · rw [h5 (by rwa [hm]), hc]
      exact hd
  · have hx : ({ s with claim := { s.claim with own := true, stuck := true } }.raise Ev.CPL_CLAIM_STUCK_LOW).claim.drive = false := by
      rw [State.raise_claim]
      exact hd
    have hr : RaisedBut Ev.CPL_CLAIM_STUCK_LOW [] [.claim] s
        ({ s with claim := { s.claim with own := true, stuck := true } }.raise Ev.CPL_CLAIM_STUCK_LOW) :=
      RaisedBut.of (by decide) (.of_bank rfl) (State.get_congr rfl _) (.of_eq rfl rfl) (.set_claim s _)
    refine .pos rfl (by simp [hp, hd]) ?_
    rw [stayOut_idle hx]
    refine ⟨?_, ?_⟩
    · simp only [State.raise_claim]
    · exact hr.set_claim _

end

section
/-! SUPPORT. Supplies, fuses, cages and the reservoir. -/

set_option Elab.async false

namespace Sys2Proof.Machine

open Sys2Proof

theorem State.raiseIf_true (s : State) {c : Bool} (e : EvBit) (h : c = true) : s.raiseIf c e = s.raise e := if_pos h

theorem State.raiseIf_false (s : State) {c : Bool} (e : EvBit) (h : c = false) : s.raiseIf c e = s := if_neg (by simp [h])

theorem fieldBad_idle {k : Nat} {s : State} (h : s.chansRun = false) : fieldBad k s = s := if_neg (by simp [h])

/-- A field input going bad is an event of its own where the channels do not run, and never a change of the carrier. -/
theorem fieldBad_raise {e : EvBit} (k : Nat) {s : State} (c : Carrier) (hb : e.bit < 16) :
    (fieldBad k ({ s with carrier := c }.raise e)).carrier = c ∧
      (s.chansRun = false → RaisedBut e [] [.carrier] s (fieldBad k ({ s with carrier := c }.raise e))) := by
  have hk := (fieldBad_moves k (fun _ h => h) (.refl _ ({ s with carrier := c }.raise e))).keeps
  refine ⟨?_, fun h => ?_⟩
  · rw [hk.carrier, State.raise_carrier]
  · have hc : ({ s with carrier := c }.raise e).chansRun = false := by
      simpa only [State.chansRun, State.powered, State.raise_mode, State.raise_start] using h
    rw [fieldBad_idle hc]
    exact RaisedBut.carrier hb s c

/-- The tries of the last 60 s (R32). -/
def recentTries (now : Nat) (l : List Nat) : List Nat := l.filter fun t => decide (now ≤ t + ticksOfMs 60000)

theorem fuseTry_spent {now : Nat} {l : List Nat} (h : 4 ≤ l.length) : fuseTry now l = (false, l) := if_pos h

theorem fuseTry_next {now : Nat} {l : List Nat} (h : l.length < 4) :
    fuseTry now l = (decide ((recentTries now l).length < 3), recentTries now l ++ [now]) := if_neg (by omega)

/-- A try to reclose ends the fuse's part as the tries of the last 60 s decide (R32). -/
theorem fuseReclosed (k : Fin 2) {s : State} (hp : s.powered = true)
    (hf : (if k.val = 0 then s.carrier.fuse1Open else s.carrier.fuse2Open) = true) :
    Completes (.fieldFuseReclose k) s fun t =>
      let tries := if k.val = 0 then s.carrier.fuse1Tries else s.carrier.fuse2Tries
      let fresh := recentTries s.time.tick tries
      KeepsBut [.carrier] s t ∧
      (4 ≤ tries.length → t.carrier = s.carrier) ∧
      (tries.length < 4 → 3 ≤ fresh.length → (if k.val = 0 then t.carrier.fuse1Open else t.carrier.fuse2Open) = true ∧
        4 ≤ (if k.val = 0 then t.carrier.fuse1Tries else t.carrier.fuse2Tries).length) ∧
      (tries.length < 4 → fresh.length < 3 → (if k.val = 0 then t.carrier.fuse1Open else t.carrier.fuse2Open) = false ∧
        (if k.val = 0 then t.carrier.fuse1Tries else t.carrier.fuse2Tries) = fresh ++ [s.time.tick]) := by
  by_cases hk : k.val = 0
  all_goals
    simp only [hk, if_true, if_false] at hf ⊢
    refine .of_keeps (by simp [exec, execFieldFuseReclose, hp, hk, hf]; rfl) fun hks => ⟨hks, fun h => ?_, fun h h3 => ?_, fun h h3 => ?_⟩
    · simp only [fuseTry_spent h, Bool.not_false, ← hf]
    · simp [fuseTry_next h, h3]
    · simp [fuseTry_next h, h3]

theorem State.raiseIf_get_ne (s : State) (c : Bool) {e : EvBit} {f : Fld} (h1 : 32 * e.addr + e.bit ≠ f.key) (h2 : 32 * e.addr + 16 ≠ f.key) :
    (s.raiseIf c e).get f = s.get f := by
  unfold State.raiseIf
  split
  · exact State.raise_get_ne s h1 h2
  · rfl

theorem KeepsBut.put {l : List Part} {s t : State} (h : KeepsBut l s t) (f : Fld) (v : Nat) (hb : Part.bank ∈ l := by decide) :
    KeepsBut l s (t.put f v) := by
  intro p hp
  refine Part.same_trans p (h p hp) ?_
  cases p <;> first | rfl | exact absurd hb hp

theorem satTo_lt (w n : Nat) : satTo w n < 2 ^ w := by
  unfold satTo
  have := Nat.two_pow_pos w
  split <;> omega

end Sys2Proof.Machine

open Sys2Proof Sys2Proof.Machine

/-- Settles O13: the carrier's part holds the readings, and an event leaves it alone; the fuse's tries decide by how many are recent. -/
theorem suppliesAndReservoir : Obligations.SuppliesAndReservoir := by
  unfold Obligations.SuppliesAndReservoir
  refine ⟨⟨fun k mv s hp hw hv => ?_, fun k mv s hp hw hv => ?_, fun k ma s hp hf hm => ?_, fun k s hp hf => ?_⟩,
    fun p s hp hv => ?_, fun pct ms s hp hh => ?_⟩
  · refine .pos rfl (show (s.powered && decide _ && decide _) = true by rw [hp, decide_eq_true hw, decide_eq_true hv]; rfl) ⟨State.raise_carrier _ _, ?_⟩
    exact RaisedBut.carrier (by split <;> decide) s _
  · exact .pos rfl (show (s.powered && decide _ && decide _) = true by rw [hp, decide_eq_true hw, decide_eq_true hv]; rfl)
      (fieldBad_raise _ _ (by split <;> decide))
  · exact .pos rfl (by split at hf <;> simp [*]) (fieldBad_raise _ _ (by split <;> decide))
  · exact fuseReclosed k hp hf
  · refine .pos_keeps rfl (by simp [hp, hv]) fun hk => ⟨?_, portDown_up p _, hk⟩
    exact (portDown_moves p (fun _ h => h) (.refl _ _)).keeps.carrier
  · have hr : RegsBut [Reg.PWR_RESERVOIR_RES_HEALTH, Reg.PWR_RESERVOIR_HOLDUP_MS] s
        ((s.put Reg.PWR_RESERVOIR_RES_HEALTH (satTo 8 pct)).put Reg.PWR_RESERVOIR_HOLDUP_MS (satTo 8 ms)) :=
      (RegsBut.put s _ _ (by simp)).trans (RegsBut.put _ _ _ (by simp))
    refine .pos rfl (by simp [hp, hh]) ⟨?_, ?_, fun h => ?_, fun h => ?_⟩
    · rw [State.raiseIf_get_ne _ _ (by decide) (by decide), State.get_put_ne _ _ (by decide), State.get_put_self]
      exact Nat.mod_eq_of_lt (satTo_lt 8 pct)
    · rw [State.raiseIf_get_ne _ _ (by decide) (by decide), State.get_put_self]
      exact Nat.mod_eq_of_lt (satTo_lt 8 ms)
    · rw [State.raiseIf_true _ _ (decide_eq_true h)]
      exact RaisedBut.of (by decide) hr ((State.get_put_ne _ _ (by decide)).trans (State.get_put_ne _ _ (by decide))) (.of_eq rfl rfl) (.put (.put (.refl _ s) _ _) _ _)
    · rw [State.raiseIf_false _ _ (decide_eq_false (by omega))]
      exact ⟨hr, .put (.put (.refl _ s) _ _) _ _⟩
end

section
/-! SUPPORT. A start never ends in OFF, and what it leaves of the standby domain (R42, R61). -/

set_option Elab.async false

namespace Sys2Proof.Machine

open Sys2Proof

theorem KeepsBut.on {l : List Part} {s t : State} (h : KeepsBut l s t) (hm : s.mode ≠ .off) (hp : Part.mode ∉ l := by decide) : t.mode ≠ .off :=
  (h.mode hp).symm ▸ hm

theorem ite_on {a b : State} {c : Prop} [Decidable c] (ha : a.mode ≠ .off) (hb : b.mode ≠ .off) : (if c then a else b).mode ≠ .off := by
  split
  · exact ha
  · exact hb

theorem forEach_on {α : Type} {f : α → State → State} (hf : ∀ a x, State.mode x ≠ .off → (f a x).mode ≠ .off) (l : List α) {s : State}
    (h : s.mode ≠ .off) : (forEach l f s).mode ≠ .off :=
  forEach_keeps (P := fun x : State => x.mode ≠ .off) hf l h

theorem enterHalt_on (r : Nat) {s : State} (h : s.mode ≠ .off) : (enterHalt r s).mode ≠ .off := by
  by_cases hm : s.mode = .starting ∨ s.mode = .standby ∨ s.mode = .active
  · rw [enterHalt_in_mode r hm]
    decide
  · rwa [show enterHalt r s = s from if_neg hm]

theorem locateEnd_on (p : Nat) (kinds : List Nat) (b : Bool) {s : State} (h : s.mode ≠ .off) : (locateEnd p kinds b s).mode ≠ .off := by
  unfold locateEnd
  simp only []
  refine ite_on (enterHalt_on 6 ?_) (ite_on ((dropClaim_keeps _).on ?_) ?_)
  all_goals split <;> simpa only [State.raiseIf_mode, State.put_mode] using h

theorem locateRun_on (p : Nat) {s : State} (h : s.mode ≠ .off) : (locateRun p s).mode ≠ .off :=
  locateEnd_on _ _ _ (forEach_on (fun (e : Nat × Nat) x hx => (markChan_moves e.1 e.2 (fun _ h => h) (.refl _ x)).keeps.on hx) _ h)

theorem commonFaultRise_on (p : Nat) {s : State} (h : s.mode ≠ .off) : (commonFaultRise p s).mode ≠ .off :=
  locateRun_on p (by simpa only [State.raiseIf_mode, State.put_mode] using h)

theorem fieldBad_on (k : Nat) {s : State} (h : s.mode ≠ .off) : (fieldBad k s).mode ≠ .off :=
  ite_on (forEach_on (fun _ _ => commonFaultRise_on _) _ ((supplyGone_moves k (fun _ h => h) (.refl _ s)).keeps.on h)) h

theorem startFault_on (r : Nat) {s : State} (h : s.mode ≠ .off) : (startFault r s).mode ≠ .off := enterHalt_on r h

theorem startHold_on (n : Nat) {s : State} (h : s.mode ≠ .off) : (startHold n s).mode ≠ .off :=
  (startHold_moves n (fun _ h => h) (.refl _ s)).keeps.on h

theorem startNotice_on (n : Nat) {s : State} (h : s.mode ≠ .off) : (startNotice n s).mode ≠ .off :=
  (startNotice_moves n (fun _ h => h) (.refl _ s)).keeps.on h

theorem step9_on (i : Image) {s : State} (h : s.mode ≠ .off) : (step9 i s).mode ≠ .off := by
  unfold step9
  simp only []
  refine ite_on ?_ (fieldBad_on 1 ?_)
  all_goals
    refine ite_on ?_ (fieldBad_on 0 ?_)
    all_goals
      refine (loadImage_moves i (fun _ h => h) (.refl _ _)).keeps.on ?_
      split <;> exact h

theorem steps9to10_on (i : StartInput) (m : Image) {s : State} (h : s.mode ≠ .off) : (steps9to10 i m s).mode ≠ .off :=
  ite_on (startFault_on _ h) (ite_on (startFault_on _ h) ((beginStep10_moves (fun _ h => h) (.refl _ _)).keeps.on (step9_on m h)))

/-- What follows the check of the firmware images, whatever its result. -/
theorem afterRegions_on (i : StartInput) (m : Image) {x : Bool × State} (h : x.2.mode ≠ .off) :
    (if !x.1 then startFault 0x0A { x.2 with start := { x.2.start with step := 8 } } else steps9to10 i m (step8 i m x.2)).mode ≠ .off :=
  ite_on (startFault_on _ h) (steps9to10_on i m ((step8_moves i m (fun _ h => h) (.refl _ _)).keeps.on h))

theorem steps6to10_on (i : StartInput) (k : SlotKey) (m : Image) {s : State} (h : s.mode ≠ .off) : (steps6to10 i k m s).mode ≠ .off := by
  unfold steps6to10
  refine afterRegions_on i m ((checkRegions_moves (fun _ h => h) (.refl _ _)).keeps.on ((step7_moves (fun _ h => h) (.refl _ _)).keeps.on
    ((step6_moves k m (fun _ h => h) (.refl _ _)).keeps.on ?_)))
  exact h

theorem step5_on (i : StartInput) (k : SlotKey) {s : State} (h : s.mode ≠ .off) : (step5 i k s).mode ≠ .off := by
  have h1 (m : Image) : (steps6to10 i k m s).mode ≠ .off := steps6to10_on i k m h
  have h2 (m : Image) : (steps6to10 i k m (startNotice 0 s)).mode ≠ .off := steps6to10_on i k m (startNotice_on 0 h)
  unfold step5
  simp only []
  split
  · exact ite_on (h1 _) (ite_on (h2 _) (startHold_on _ h))
  · exact ite_on (h1 _) (startHold_on _ h)
  · exact ite_on (h2 _) (startHold_on _ h)
  · exact startHold_on _ h

theorem step4_on (i : StartInput) {s : State} (h : s.mode ≠ .off) : (step4 i s).mode ≠ .off := by
  unfold step4
  split
  · exact startHold_on _ h
  · refine ite_on (startHold_on _ h) (ite_on (startHold_on _ h) (ite_on (startHold_on _ h) (ite_on (startHold_on _ h) ?_)))
    exact step5_on i _ h

theorem steps3to10_on (i : StartInput) {s : State} (h : s.mode ≠ .off) : (steps3to10 i s).mode ≠ .off := by
  unfold steps3to10
  simp only []
  exact ite_on (startHold_on _ h) (step4_on i h)

/-- What step 1 leaves, whatever the module was before. -/
def started (i : StartInput) (s : State) : Bool × State := checkLoader (tearAll i.unreadable (beginStart s))

theorem startModule_eq (i : StartInput) (s : State) :
    startModule i s =
      if (started i s).1 then steps3to10 i { (started i s).2 with net := { (started i s).2.net with up := [.pla, .plb, .svc] } }
      else enterTerminus (started i s).2 := rfl

theorem KeepsBut.set_mram_start (s : State) (m : Mram) (x : Start) : KeepsBut [.mram, .start] s { s with mram := m, start := x } := .fields

theorem beginStart_keeps (s : State) :
    KeepsBut [.mram, .start, .panel, .bank, .net, .outbox] (panelOn (clearWorking (standbyRestart s))) (beginStart s) :=
  ((KeepsBut.set_mram_start _ _ _).mono (by decide)).trans (labelAtStart_moves (by decide) (anchorAtStart_moves (by decide) (.refl _ _))).keeps

theorem started_keeps (i : StartInput) (s : State) :
    KeepsBut [.mram, .start, .panel, .bank, .net, .outbox, .conv, .upd, .mil] (clearWorking (standbyRestart s)) (started i s).2 :=
  .trans (panelOn_moves (by decide) (.refl _ _)).keeps (.trans ((beginStart_keeps s).mono (by decide))
    (checkLoader_moves (by decide) (tearAll_moves _ (by decide) (.refl _ _))).keeps)

theorem startModule_mode (i : StartInput) (s : State) : (startModule i s).mode ≠ .off := by
  have hm : (started i s).2.mode ≠ .off := by
    rw [(started_keeps i s).mode]
    exact (by decide : Mode.starting ≠ .off)
  rw [startModule_eq]
  split
  · exact steps3to10_on i hm
  · rw [enterTerminus, setMode_mode]
    decide

theorem startModule_standby (i : StartInput) (s : State) : (startModule i s).standby = (standbyRestart s).standby := by
  have hs : (started i s).2.standby = (standbyRestart s).standby := (started_keeps i s).standby
  rw [startModule_eq]
  split
  · exact (steps3to10_moves i (fun _ h => h) (.refl _ _)).keeps.standby.trans hs
  · exact (setMode_keeps _ _).standby.trans hs

/-! What HELLO and its decision leave alone. -/

theorem takeHello_keeps (h : Hello) (m : Mode) (s : State) : KeepsBut [.bank, .pair, .net, .outbox] s (takeHello h m s) :=
  (takeHello_moves h m (fun _ h => h) (.refl _ s)).keeps

theorem takeHello_pair (h : Hello) (m : Mode) (s : State) : (takeHello h m s).pair =
    { s.pair with
      linkUp := true, trained := [0, 1, 2, 3], session := h.session, rxNext := 1, txNext := 1, peerAck := 0, partnerMode := some m,
      partnerHello := some h } := by
  simp only [takeHello, State.raiseIf_pair]

theorem seedAt10_keeps (h : Hello) (s : State) : KeepsBut [.bank, .acq, .time, .net, .outbox] s (seedAt10 h s) :=
  (seedAt10_moves h (fun _ h => h) (.refl _ s)).keeps

theorem requestResync_pair (s : State) :
    (requestResync s).pair.linkUp = s.pair.linkUp ∧ (requestResync s).pair.partnerMode = s.pair.partnerMode ∧
      (requestResync s).pair.session = s.pair.session ∧ (requestResync s).pair.rxNext = s.pair.rxNext := by
  unfold requestResync
  split <;> exact ⟨rfl, rfl, rfl, rfl⟩

end Sys2Proof.Machine

open Sys2Proof Sys2Proof.Machine

/-- Settles O16: every start ends in a mode other than OFF; a HELLO is taken before the decision, which the guards of step 10 select. -/
theorem startsProceed : Obligations.StartsProceed := by
  unfold Obligations.StartsProceed
  refine ⟨⟨fun i s hm hs hv => ?_, fun k x i s hm hx hr => ?_, fun w i s hp hh hw ho => ?_⟩, fun i s hm hh => ?_, fun h m k s hc hm h10 hb hr hk ht ha => ?_,
    fun h m s hc hm ht => ?_, fun h s hc => ?_, fun k img s hm h10 ha hb hl hk hi hch hrun han how => ?_, fun s hm hb hcr hpa hst hd => ?_,
    fun s hm hb hcr hpa hst hd hcf hdue => ?_⟩
  · refine ⟨.pos rfl (by simpa [hm, hs] using hv) ⟨rfl, startModule_mode i s, fun h => ?_⟩,
      .pos rfl (by simpa [hm, hs] using hv) ⟨rfl, startModule_mode i s, fun h => ?_⟩⟩
    · rw [startModule_standby, standbyRestart, if_neg (by simp [h])]
    · rw [startModule_standby, standbyRestart, if_pos h]
  · have ho : updOrigin s (.svc k) = true := by simp [updOrigin, isLane, serviceOk, sessionOf, hx, hr]
    refine .of_eq (t := startModule i s) ?_ ⟨rfl, startModule_mode i s⟩
    simp [exec, execLeaveTerminus, updBy, byOrigin, leaveTerminusCmd, State.powered, hm, ho]
  · refine .of_eq (t := restartNow i s) ?_ ⟨rfl, startModule_mode i _⟩
    have hg : (s.powered && !s.carrier.holdup && (!w || s.claim.partner || s.claim.partnerAbsent)) = true := by
      rcases ho with ho | ho | ho <;> simp [hp, hh, ho]
    simp only [exec, execModuleRestart, hw, hg, if_true]
  · exact .pos rfl (by simp [hm, hh]) rfl
  · have hk1 := takeHello_keeps h m s
    have hk2 := seedAt10_keeps h (takeHello h m s)
    have hu : (seedAt10 h (takeHello h m s)).pair = (takeHello h m s).pair := hk2.pair
    rw [takeHello_pair] at hu
    have hmode : (seedAt10 h (takeHello h m s)).mode = .starting := by rw [hk2.mode, hk1.mode, hm]
    have hstart : (seedAt10 h (takeHello h m s)).start = s.start := by rw [hk2.start, hk1.start]
    refine .of_eq (t := decideAgain h m (seedAt10 h (takeHello h m s))) ?_ ⟨?_, ?_, ?_, ?_⟩
    · simp [exec, execCouplingHello, hc, State.powered, hm, ht]
    · have hg : m ≠ .starting ∨ h.atStep10 := ha
      simp only [decideAgain, hmode, hstart, h10, hb, hu, hr, hk, hg, if_true, true_and, Bool.not_false, ne_eq, and_self]
    all_goals rw [hu]
  · have hns : s.mode ≠ .starting := by rcases hm with hm | hm | hm <;> simp [hm]
    have hp : s.powered = true := powered_of_mode_ne (by rcases hm with hm | hm | hm <;> simp [hm])
    have hnt : s.mode ≠ .terminus := by rcases hm with hm | hm | hm <;> simp [hm]
    have hk : (takeHello h m s).mode = s.mode := (takeHello_keeps h m s).mode
    obtain ⟨h1, h2, h3, h4⟩ := requestResync_pair (takeHello h m s)
    rw [takeHello_pair] at h1 h2 h3 h4
    refine .of_eq (t := requestResync (takeHello h m s)) ?_ ⟨rfl, h1, h2, h3, h4, ?_⟩
    · simp [exec, execCouplingHello, hc, hp, hnt, ht, seedAt10, decideAgain, hk, hns]
    · rw [(requestResync_moves (fun _ h => h) (.refl _ _)).keeps.mode, hk]
  · exact .of_eq (by simp [exec, execCouplingHello, hc]) rfl
  · obtain ⟨a, ha'⟩ := Option.ne_none_iff_exists'.1 han
    refine .pos rfl (by simp [hm, h10, ha, hb, hl]) ?_
    simp only [hk, hi, enrol, ha', how, hch, hrun, hm, if_true, and_self, Bool.not_true, Bool.false_eq_true, if_false, ne_eq, not_true_eq_false]
  · exact .pos rfl (by simp [State.mayEnter, *]) rfl
  · have hg : s.mayEnter = true := by simp [State.mayEnter, *]
    refine .of_keeps (t := refreshOutputs (serviceEntry (setMode .active s))) (by simp [exec, execStartEnterActive, hg, hd, hcf, hdue]) fun hk => ⟨?_, ?_, hk⟩
    · rw [(refreshOutputs_keeps _).mode]
      exact setMode_mode _ s
    · rw [(refreshOutputs_keeps _).claim]
      exact (setMode_keeps _ s).claim

end

section
/-! SUPPORT. Claim and control: what taking control, giving it up and confirming it leave (R238 to R249). -/

set_option Elab.async false

namespace Sys2Proof.Machine

open Sys2Proof

/-! The journal engine writes MRAM in its ring alone. -/

/-- MRAM without its ring. -/
def State.offRing (s : State) : Mram := { s.mram with ring := [] }

theorem State.offRing_congr {s t : State} (h : t.mram = s.mram) : t.offRing = s.offRing := by
  unfold State.offRing
  rw [h]

theorem ringPut_offRing (q : Nat) (e : Entry) (s : State) : (ringPut q e s).offRing = s.offRing := rfl

theorem rateAdd_offRing (n : Nat) (s : State) : (rateAdd n s).offRing = s.offRing :=
  State.offRing_congr (rateAdd_moves n (fun _ h => h) (.refl _ s)).keeps.mram

theorem mirrorOut_offRing (l : List Entry) (s : State) : (mirrorOut l s).offRing = s.offRing :=
  State.offRing_congr (mirrorOut_moves l (fun _ h => h) (.refl _ s)).keeps.mram

theorem pushWaybill_offRing (w : Waybill) (s : State) : (pushWaybill w s).offRing = s.offRing :=
  (forEach_read State.offRing (fun _ _ => ringPut_offRing _ _ _) _ _).trans ((ringPut_offRing _ _ _).trans (rateAdd_offRing _ s))

theorem pushCompletion_offRing (w : Waybill) (status : Nat) (task : Option Nat) (cycle result : Nat) (s : State) :
    (pushCompletion w status task cycle result s).offRing = s.offRing :=
  (State.offRing_congr (reportCompletion_moves _ (fun _ h => h) (.refl _ _)).keeps.mram).trans ((ringPut_offRing _ _ _).trans (rateAdd_offRing _ s))

theorem carry_offRing (s : State) : (carry s).offRing = s.offRing := by
  refine forEach_read State.offRing (fun w x => ?_) _ s
  split
  · exact (mirrorOut_offRing _ _).trans (pushWaybill_offRing _ x)
  · rfl

theorem closeWaybill_offRing (w : Waybill) (status result : Nat) (s : State) : (closeWaybill w status result s).offRing = s.offRing :=
  (carry_offRing _).trans ((mirrorOut_offRing _ _).trans (pushCompletion_offRing _ _ _ _ _ s))

theorem clearExchange_lastHolder (s : State) : (clearExchange s).mram.lastHolder = s.mram.lastHolder := rfl

theorem abandonExchange_lastHolder (s : State) : (abandonExchange s).mram.lastHolder = s.mram.lastHolder := by
  unfold abandonExchange
  simp only []
  split
  · exact (congrArg Mram.lastHolder (closeWaybill_offRing _ _ _ (clearExchange s)) :)
  · rfl

/-! Taking control. -/

theorem takeClaim_claim (b : Bool) (s : State) : (takeClaim b s).claim =
    { s.claim with
      drive := true, own := true, confirmed := false, taking := true, releasing := false, forHandover := b, refreshed := s.time.tick } := rfl

/-- The time since the partner module's claim dropped, in microseconds. -/
def State.takeUs (s : State) : Nat :=
  match s.claim.droppedAt with
  | some t => (s.time.tick - t) / 125
  | none => 0

/-- The registers of a hand-off: the time, the kind and VALID. -/
def State.putHandoff (s : State) (b : Bool) : State :=
  ((s.put Reg.CPL_HANDOFF_TAKE_US (satTo 24 s.takeUs)).put Reg.CPL_HANDOFF_KIND (b2n b)).put Reg.CPL_HANDOFF_VALID 1

theorem takeClaim_get (b : Bool) (s : State) (f : Fld) : (takeClaim b s).get f = (s.putHandoff b).get f := State.get_congr rfl f

theorem takeClaim_regs (b : Bool) (s : State) :
    (takeClaim b s).get Reg.CPL_HANDOFF_TAKE_US = satTo 24 s.takeUs ∧ (takeClaim b s).get Reg.CPL_HANDOFF_KIND = b2n b ∧
      (takeClaim b s).get Reg.CPL_HANDOFF_VALID = 1 ∧
      RegsBut [Reg.CPL_HANDOFF_TAKE_US, Reg.CPL_HANDOFF_KIND, Reg.CPL_HANDOFF_VALID] s (takeClaim b s) := by
  refine ⟨?_, ?_, ?_, fun f hf => ?_⟩
  · rw [takeClaim_get, State.putHandoff, State.get_put_ne _ _ (by decide), State.get_put_ne _ _ (by decide), State.get_put_self]
    exact Nat.mod_eq_of_lt (satTo_lt 24 _)
  · rw [takeClaim_get, State.putHandoff, State.get_put_ne _ _ (by decide), State.get_put_self]
    exact Nat.mod_eq_of_lt (b2n_lt b)
  · rw [takeClaim_get, State.putHandoff, State.get_put_self]
    rfl
  · rw [takeClaim_get, State.putHandoff, State.get_put_ne _ _ (hf _ (by simp)), State.get_put_ne _ _ (hf _ (by simp)), State.get_put_ne _ _ (hf _ (by simp))]

theorem takeClaim_keeps (b : Bool) (s : State) : KeepsBut [.claim, .bank] s (takeClaim b s) :=
  .trans (.put (.put (.put (.refl _ s) _ _) _ _) _ _) (.set_claim _ _)

theorem mayClaim_of {s : State} (hp : s.claim.partner = false) (hd : s.claim.drive = false) (hs : s.claim.stuck = false) : s.mayClaim = true := by
  simp [State.mayClaim, hp, hd, hs]

theorem ready_standby {s : State} (h : s.ready = true) : s.mode = .standby := by
  simp only [State.ready, Bool.and_eq_true, decide_eq_true_eq] at h
  exact h.1.1.1.1.1.1.1

theorem ready_set_claim (s : State) (c : Claim) : State.ready { s with claim := c } = s.ready := rfl

theorem freezeCopy_keeps (s : State) :
    KeepsBut [.bank, .heldWrites, .start, .pair, .tasks, .lanes, .ctl, .jrn, .exch, .mram, .sbox, .chans, .acq, .net, .can0, .can1, .outbox] s
      (freezeCopy s) :=
  (freezeCopy_moves (fun _ h => h) (.refl _ s)).keeps

/-! Control confirmed. -/

theorem adoptImage_keeps (s : State) : KeepsBut [.chans] s (adoptImage s) := (adoptImage_moves (fun _ h => h) (.refl _ s)).keeps

/-- A module that has just entered ACTIVE, its hand-over and restart over, before an exchange in preparation ends. -/
def inControl (s : State) : State :=
  let s := serviceEntry (setMode .active (adoptImage s))
  let current := s.claim.forHandover && s.pair.linkUp
  let s := if s.pair.restartAcked || s.pair.restartGoDue.isSome then { s with mram := { s.mram with restart := none } } else s
  { s with
    pair := { s.pair with
      partnerCurrent := current, copyCurrent := false, stale := false, handoverQ := none, handoverAcked := false, handoverWait := false,
      restartAcked := false, restartGoDue := none, unpartneredRun := false, awaitingDelta := [] } }

theorem enterActive_eq (s : State) :
    enterActive s =
      if !(inControl s).exchangeCommitted && (inControl s).exchangeDue.isSome then abandonExchange (inControl s)
      else if !(inControl s).exchangeCommitted && (inControl s).exch.image.isSome then clearExchange (inControl s)
      else inControl s := rfl

theorem inControl_mode (s : State) : (inControl s).mode = .active := by
  unfold inControl
  simp only []
  split <;> exact setMode_mode _ _

theorem inControl_lastHolder (s : State) : (inControl s).mram.lastHolder = s.mram.lastHolder := by
  have h : (setMode .active (adoptImage s)).mram = s.mram := (setMode_keeps _ _).mram.trans (adoptImage_keeps s).mram
  unfold inControl
  simp only []
  split <;> exact (congrArg Mram.lastHolder h :)

theorem enterActive_mode (s : State) : (enterActive s).mode = .active := by
  rw [enterActive_eq]
  split
  · exact (abandonExchange_moves (fun _ h => h) (.refl _ _)).keeps.mode.trans (inControl_mode s)
  · split
    · exact (clearExchange_moves (fun _ h => h) (.refl _ _)).keeps.mode.trans (inControl_mode s)
    · exact inControl_mode s

theorem enterActive_lastHolder (s : State) : (enterActive s).mram.lastHolder = s.mram.lastHolder := by
  rw [enterActive_eq]
  split
  · exact (abandonExchange_lastHolder _).trans (inControl_lastHolder s)
  · split
    · exact (clearExchange_lastHolder _).trans (inControl_lastHolder s)
    · exact inControl_lastHolder s

theorem enterActive_keeps (s : State) : KeepsBut [.mode, .bank, .pair, .jrn, .exch, .mram, .chans, .upd, .panel, .outbox] s (enterActive s) :=
  (enterActive_moves (fun _ h => h) (.refl _ s)).keeps

/-- The holder's part of a confirmed claim: the record that it held control, and the count. -/
def holding (s : State) : State :=
  { s with
    claim := { s.claim with confirmed := true, taking := false, releasing := false, partnerAbsent := false }
    mram := { s.mram with lastHolder := true }
    mil := { s.mil with now := { s.mil.now with tookControl := satInc 32 s.mil.now.tookControl } } }.raise Ev.CPL_TOOK_CONTROL

/-- The pair address taken, and the outputs refreshed. -/
def takeAddress (s : State) : State :=
  let s := sendPorts [.pla, .plb] .pairAddress { s with pair := { s.pair with pairAddr := true, pairSince := s.time.tick, pairRepeats := 0 } }
  refreshOutputs (pubOnConfirm (s.raise Ev.PLNT_PAIR_ADDR_TAKEN))

theorem exec_claimConfirmed (s : State) :
    exec .claimConfirmed s = .next (if s.claim.drive && s.claim.own && !s.claim.partner && !s.claim.confirmed &&
        (decide (s.mode = .standby) || decide (s.mode = .active) || (decide (s.mode = .starting) && s.start.path11b)) then
      takeAddress (if (holding s).mode = .standby then enterActive (holding s) else holding s)
    else s) := rfl

theorem holding_claim (s : State) :
    (holding s).claim = { s.claim with confirmed := true, taking := false, releasing := false, partnerAbsent := false } := State.raise_claim _ _

theorem holding_mode (s : State) : (holding s).mode = s.mode := State.raise_mode _ _

theorem holding_lastHolder (s : State) : (holding s).mram.lastHolder = true := by
  unfold holding
  rw [State.raise_mram]

theorem takeAddress_keeps (s : State) : KeepsBut [.bank, .heldWrites, .pair, .chans, .net, .mil, .outbox] s (takeAddress s) :=
  .trans (s := s) (t := { s with pair := { s.pair with pairAddr := true, pairSince := s.time.tick, pairRepeats := 0 } })
    (Moves.set_pair _ (by decide) (.refl _ s)).keeps
    (refreshOutputs_moves (by decide) (pubOnConfirm_moves (by decide) (State_raise_moves _ (by decide) (sendPorts_moves _ _ (by decide) (.refl _ _))))).keeps

theorem takeAddress_pair (s : State) : (takeAddress s).pair = { s.pair with pairAddr := true, pairSince := s.time.tick, pairRepeats := 0 } :=
  (refreshOutputs_moves (L := [.bank, .chans, .mil, .heldWrites, .net, .outbox]) (by decide) (pubOnConfirm_moves (by decide)
    (State_raise_moves _ (by decide) (sendPorts_moves _ _ (by decide) (.refl _ _))))).keeps.pair

/-- The claim confirmed in a module that stands in STANDBY, in ACTIVE or on path 11b. -/
theorem claimConfirmed_completes {s : State} (m : Mode) (hd : s.claim.drive = true) (ho : s.claim.own = true) (hp : s.claim.partner = false)
    (hc : s.claim.confirmed = false) (hm : s.mode = .standby ∧ m = .active ∨ s.mode = .active ∧ m = .active ∨ s.mode = .starting ∧ s.start.path11b = true ∧ m = .starting) :
    Completes .claimConfirmed s fun t =>
      t.mode = m ∧ t.claim = { s.claim with confirmed := true, taking := false, releasing := false, partnerAbsent := false } ∧ t.mram.lastHolder = true ∧
      t.pair.pairAddr = true ∧ KeepsBut (touches .claimConfirmed) s t := by
  refine .pos_keeps (exec_claimConfirmed s) ?_ fun hk => ⟨?_, ?_, ?_, ?_, hk⟩
  · rcases hm with ⟨hm, _⟩ | ⟨hm, _⟩ | ⟨hm, hb, _⟩ <;> simp [*]
  · rw [(takeAddress_keeps _).mode]
    rcases hm with ⟨hm, rfl⟩ | ⟨hm, rfl⟩ | ⟨hm, _, rfl⟩
    · rw [if_pos (by rw [holding_mode, hm]), enterActive_mode]
    · rw [if_neg (by rw [holding_mode, hm]; decide), holding_mode, hm]
    · rw [if_neg (by rw [holding_mode, hm]; decide), holding_mode, hm]
  · rw [(takeAddress_keeps _).claim]
    split
    · rw [(enterActive_keeps _).claim, holding_claim]
    · exact holding_claim s
  · rw [(takeAddress_keeps _).mram]
    split
    · rw [enterActive_lastHolder, holding_lastHolder]
    · exact holding_lastHolder s
  · rw [takeAddress_pair]

/-! Giving up control. -/

theorem handedOver_mode (s : State) : (handedOver s).mode = .standby := by
  unfold handedOver
  simp only []
  split
  · exact (requestResync_moves (fun _ h => h) (.refl _ _)).keeps.mode.trans (setMode_mode _ _)
  · exact setMode_mode _ _

theorem requestResync_copy (s : State) :
    (requestResync s).pair.copyCurrent = s.pair.copyCurrent ∧ (requestResync s).pair.stale = s.pair.stale ∧
      (requestResync s).pair.handoverQ = s.pair.handoverQ ∧ (requestResync s).pair.pairAddr = s.pair.pairAddr := by
  unfold requestResync
  split <;> exact ⟨rfl, rfl, rfl, rfl⟩

theorem handedOver_pair (s : State) : (handedOver s).pair.copyCurrent = !s.pair.inFlight ∧ (handedOver s).pair.handoverQ = none := by
  unfold handedOver
  simp only []
  split
  · obtain ⟨h1, _, h3, _⟩ := requestResync_copy (setMode .standby { s with
      pair := { s.pair with
        handoverQ := none, handoverAcked := false, handoverWait := false, inFlight := false, partnerCurrent := false, awaitingDelta := [],
        copyCurrent := !s.pair.inFlight, stale := s.pair.inFlight, partnerReady := false, closeSeq := max s.pair.closeSeq s.pair.ackedSeq } })
    rw [h1, h3, (setMode_keeps _ _).pair]
    exact ⟨rfl, rfl⟩
  · rw [(setMode_keeps _ _).pair]
    exact ⟨rfl, rfl⟩

theorem handedOver_keeps (s : State) : KeepsBut [.mode, .bank, .pair, .panel, .outbox] s (handedOver s) :=
  (handedOver_moves (fun _ h => h) (.refl _ s)).keeps

theorem partnerLost_pair (s : State) : (partnerLost s).pair = { s.pair with partnerCurrent := false, awaitingDelta := [] } := State.raiseIf_pair _ _ _

theorem cancelHandover_pair (s : State) : (cancelHandover s).pair.handoverQ = none ∧ (cancelHandover s).pair.pairAddr = s.pair.pairAddr := by
  unfold cancelHandover
  split
  · simp only [State.raiseIf_pair, and_self]
  · next h => exact ⟨Option.not_isSome_iff_eq_none.1 h, rfl⟩

theorem markStale_pair (s : State) : (markStale s).pair = { s.pair with copyCurrent := false, stale := true } := by
  unfold markStale
  split
  · simp only [State.raise_pair]
  · next h =>
    have h : s.pair.copyCurrent = false := by simpa using h
    simp only [← h]

theorem markStale_keeps (s : State) : KeepsBut [.bank, .pair, .net, .outbox] s (markStale s) := (markStale_moves (fun _ h => h) (.refl _ s)).keeps

theorem requestResync_keeps (s : State) : KeepsBut [.pair, .outbox] s (requestResync s) := (requestResync_moves (fun _ h => h) (.refl _ s)).keeps

/-- A module that has lost a contest, its lanes stopped. -/
def contestLost (s : State) : State :=
  stopLanes ((canUnclaim { s with
    claim := { s.claim with drive := false, own := false, confirmed := false, taking := false, releasing := false }
    pair := { s.pair with pairAddr := false } }).raise Ev.CPL_GAVE_CONTROL)

/-- The copy of a module that was in control ends as it becomes the standby module. -/
def contestStandby (s : State) : State :=
  let s := partnerLost (resyncEnds (cancelHandover s))
  requestResync (markStale (setMode .standby { s with pair := { s.pair with copyCurrent := true } }))

theorem loseContest_eq (s : State) :
    loseContest s = refreshOutputs (if s.mode = .active then contestStandby (contestLost s)
      else { contestLost s with pair := { (contestLost s).pair with handoverQ := none, handoverAcked := false, handoverWait := false } }) := rfl

theorem contestLost_parts (s : State) :
    (contestLost s).mode = s.mode ∧ (contestLost s).claim = { s.claim with drive := false, own := false, confirmed := false, taking := false, releasing := false } ∧
      (contestLost s).pair.pairAddr = false := by
  have h := (stopLanes_moves (L := [.tasks, .lanes, .bank, .net, .outbox]) (by decide) (State_raise_moves Ev.CPL_GAVE_CONTROL (by decide) (.refl _ (canUnclaim { s with
    claim := { s.claim with drive := false, own := false, confirmed := false, taking := false, releasing := false }
    pair := { s.pair with pairAddr := false } })))).keeps
  refine ⟨?_, ?_, ?_⟩
  · rw [contestLost, h.mode, (canUnclaim_keeps _).mode]
  · rw [contestLost, h.claim, (canUnclaim_keeps _).claim]
  · rw [contestLost, h.pair, (canUnclaim_keeps _).pair]

theorem contestStandby_keeps (s : State) : KeepsBut [.mode, .bank, .pair, .net, .panel, .outbox] s (contestStandby s) := by
  refine .trans (t := { partnerLost (resyncEnds (cancelHandover s)) with
      pair := { (partnerLost (resyncEnds (cancelHandover s))).pair with copyCurrent := true } }) ?_ ?_
  · exact (Moves.set_pair _ (by decide) (partnerLost_moves (L := [.mode, .bank, .pair, .net, .panel, .outbox]) (by decide) (resyncEnds_moves (by decide)
      (cancelHandover_moves (by decide) (.refl _ s))))).keeps
  · exact ((setMode_keeps _ _).mono (by decide)).trans (((markStale_keeps _).mono (by decide)).trans ((requestResync_keeps _).mono (by decide)))

theorem contestStandby_parts (s : State) :
    (contestStandby s).mode = .standby ∧ (contestStandby s).pair.copyCurrent = false ∧ (contestStandby s).pair.stale = true ∧
      (contestStandby s).pair.handoverQ = none ∧ (contestStandby s).pair.pairAddr = s.pair.pairAddr := by
  unfold contestStandby
  simp only []
  obtain ⟨h1, h2, h3, h4⟩ := requestResync_copy (markStale (setMode .standby { partnerLost (resyncEnds (cancelHandover s)) with
      pair := { (partnerLost (resyncEnds (cancelHandover s))).pair with copyCurrent := true } }))
  obtain ⟨k1, k2⟩ := cancelHandover_pair s
  rw [h1, h2, h3, h4, markStale_pair, (setMode_keeps _ _).pair, partnerLost_pair, (requestResync_keeps _).mode, (markStale_keeps _).mode, setMode_mode]
  exact ⟨rfl, rfl, rfl, k1, k2⟩

end Sys2Proof.Machine

open Sys2Proof Sys2Proof.Machine

/-- Settles O17: each command's effect on the claim, with what entering ACTIVE or leaving control changes besides. -/
theorem takingControl : Obligations.TakingControl := by
  unfold Obligations.TakingControl
  refine ⟨⟨fun s hr hd hs hw => ?_, fun s hm hd hs hw => ?_, fun s hr hmc ht hw hp => ?_, fun s hr ht hmc hdue => ?_⟩,
    fun s hd ho hp hc hm => ?_, fun s hd ho hp hc hm hb => ?_, fun s hp hd => ?_, fun s h => ?_, fun s hp hd hb => ?_, fun s hp hd hb => ?_,
    fun s hr hp hd => ?_, fun d1 d2 s hp hs hm => ?_⟩
  · have hm := ready_standby hr
    refine .of_eq (t := { s with claim := { s.claim with partner := false, droppedAt := some s.time.tick, taking := true } }) ?_ ⟨rfl, .set_claim s _⟩
    refine congrArg _ ((if_pos hm).trans ((if_neg ?_).trans (if_pos ?_)))
    · simp [hw]
    · exact (Bool.and_eq_true _ _).mpr ⟨hr, mayClaim_of rfl hd hs⟩
  · let v : State := { s with claim := { s.claim with partner := false, droppedAt := some s.time.tick } }
    obtain ⟨h1, h2, h3, h4⟩ := takeClaim_regs true v
    refine .of_eq (t := takeClaim true v) ?_ ⟨rfl, rfl, rfl, rfl, rfl, rfl, ?_, h2, h3, ?_, ?_⟩
    · simp [exec, execPartnerClaimDropped, hm, hw, mayClaim_of, hd, hs, v]
    · rw [h1]
      simp [State.takeUs, v, satTo]
    · exact (RegsBut.of_bank rfl).trans h4
    · exact (KeepsBut.set_claim s _).trans (takeClaim_keeps true v)
  · exact .pos rfl (by simp [hr, hmc, ht, hw, hp]) ⟨rfl, .set_claim s _⟩
  · obtain ⟨_, h2, h3, _⟩ := takeClaim_regs false (freezeCopy s)
    refine .pos_keeps rfl (by simp [hr, ht, hmc, hdue]) fun hk => ⟨rfl, rfl, rfl, rfl, rfl, h2, h3, ?_, hk⟩
    exact (freezeCopy_mode s).trans (ready_standby hr)
  · exact claimConfirmed_completes .active hd ho hp hc (by simpa using hm)
  · exact claimConfirmed_completes .starting hd ho hp hc (by simp [hm, hb])
  · let v : State := { s with
      claim := { s.claim with partner := true, taking := false, releasing := false, partnerAbsent := false }
      mram := { s.mram with lastHolder := false } }
    refine .of_keeps (t := refreshOutputs (if v.mode = .active ∧ v.pair.handoverWait then handedOver v else v)) ?_ fun hk => ⟨?_, ?_, fun hm hw => ?_, fun h => ?_, hk⟩
    · exact congrArg _ (if_pos (show (s.powered && !s.claim.drive) = true by simp [hp, hd]))
    · rw [(refreshOutputs_keeps _).claim]
      split
      · rw [(handedOver_keeps _).claim]
      · rfl
    · rw [(refreshOutputs_keeps _).mram]
      split
      · rw [(handedOver_keeps _).mram]
      · rfl
    · obtain ⟨h1, h2⟩ := handedOver_pair v
      rw [if_pos ⟨hm, hw⟩, (refreshOutputs_keeps _).mode, (refreshOutputs_keeps _).pair, h1, h2, handedOver_mode]
      exact ⟨rfl, rfl, rfl⟩
    · rw [if_neg (show ¬(s.mode = .active ∧ s.pair.handoverWait = true) by rcases h with h | h <;> simp [h]), (refreshOutputs_keeps _).mode]
  · refine .of_eq (t := { s with claim := { s.claim with partner := true } }) (congrArg _ (if_neg ?_)) rfl
    rcases h with h | h <;> simp_all [State.powered]
  · let v : State := { s with claim := { s.claim with partner := true } }.raise Ev.CPL_CLAIM_CONTEST
    refine .of_eq (t := v) ?_ ⟨State.raise_claim _ _, .of (by decide) (.of_bank rfl) (State.get_congr rfl _) (.of_eq rfl rfl) (.set_claim s _)⟩
    exact congrArg _ ((if_pos (by simp [hp, hd])).trans (if_neg (by simp [hb])))
  · let v : State := { s with claim := { s.claim with partner := true } }.raise Ev.CPL_CLAIM_CONTEST
    have hm : v.mode = s.mode := State.raise_mode _ _
    have hc : v.claim = { s.claim with partner := true } := State.raise_claim _ _
    have hs : v.carrier.slotB = true := by
      rw [State.raise_carrier]
      exact hb
    obtain ⟨h1, h2, h3⟩ := contestLost_parts v
    obtain ⟨k1, k2, k3, k4, k5⟩ := contestStandby_parts (contestLost v)
    rw [hm] at h1
    rw [hc] at h2
    refine .of_keeps (t := loseContest v) (congrArg _ ((if_pos (by simp [hp, hd])).trans (if_pos hs))) fun hk => ?_
    rw [loseContest_eq, hm] at hk ⊢
    rw [(refreshOutputs_keeps _).claim, (refreshOutputs_keeps _).pair, (refreshOutputs_keeps _).mode]
    by_cases ha : s.mode = .active
    · rw [if_pos ha] at hk ⊢
      rw [(contestStandby_keeps _).claim, h2, k1, k2, k3, k4, k5]
      exact ⟨rfl, rfl, rfl, h3, rfl, fun _ => ⟨rfl, rfl, rfl⟩, fun h => absurd ha h, hk⟩
    · rw [if_neg ha] at hk ⊢
      exact ⟨congrArg Claim.drive h2, congrArg Claim.own h2, congrArg Claim.partner h2, h3, rfl, fun h => absurd h ha, fun _ => h1, hk⟩
  · refine .pos_keeps rfl (by simp [hr, hp, hd]) fun hk => ⟨?_, hk⟩
    rw [(refreshOutputs_keeps _).claim]
  · let v : State := ((s.put Reg.CPL_CLAIM_LINK_FIBRE1_DARK (b2n d1)).put Reg.CPL_CLAIM_LINK_FIBRE2_DARK (b2n d2)).put Reg.CPL_CLAIM_LINK_VALID 1
    refine .pos rfl (by simp [hp, hs, hm]) ⟨?_, ?_, ?_, fun h0 h1 => ?_⟩
    · rw [State.raiseIf_get_ne _ _ (by decide) (by decide), State.get_put_ne _ _ (by decide), State.get_put_ne _ _ (by decide), State.get_put_self]
      exact Nat.mod_eq_of_lt (b2n_lt d1)
    · rw [State.raiseIf_get_ne _ _ (by decide) (by decide), State.get_put_ne _ _ (by decide), State.get_put_self]
      exact Nat.mod_eq_of_lt (b2n_lt d2)
    · rw [State.raiseIf_get_ne _ _ (by decide) (by decide), State.get_put_self]
      rfl
    · rw [State.raiseIf_true _ _ (by simp [h0, h1])]
      refine RaisedBut.of (by decide) ?_ ?_ (.of_eq rfl rfl) (.put (.put (.put (.refl _ s) _ _) _ _) _ _)
      · exact ((RegsBut.put s _ _ (by simp)).trans (RegsBut.put _ _ _ (by simp))).trans (RegsBut.put _ _ _ (by simp))
      · rw [State.get_put_ne _ _ (by decide), State.get_put_ne _ _ (by decide), State.get_put_ne _ _ (by decide)]

end

section
/-! SUPPORT. The role exchange and restarts across the coupling (R71, R250 to R253). -/

set_option Elab.async false

namespace Sys2Proof.Machine

open Sys2Proof

/-- An accepted message has its effect on the state after its header, and whatever follows from that holds at the end. -/
theorem Completes.of_taken {c : Instr} {k : Nat} {h : LinkHdr} {m : Mode} {f : State → State} {s : State} {P : State → Prop}
    (he : exec c s = .next (frame k h f s)) (ht : FrameTaken k h m s) (hp : P (f (afterHeader h m s))) : Completes c s P :=
  .of_eq (he.trans (congrArg _ (frame_of_taken ht f))) hp

/-- What a dropped claim changes in the pair's part: the pair address alone. -/
theorem dropClaim_pair (s : State) : ∃ a, (dropClaim s).pair = { s.pair with pairAddr := a } := by
  unfold dropClaim
  split
  · have hk : KeepsBut [.bank, .chans, .mil] s (forEach s.channels (fun e s => holdChan e.1 e.2 s) s) :=
      (Moves.forEach (fun _ _ h => holdChan_moves _ _ (fun _ h => h) h) (.refl _ s)).keeps
    refine ⟨false, ?_⟩
    simp only [State.raise_pair]
    rw [(canUnclaim_keeps _).pair]
    simp only [hk.pair]
  · exact ⟨s.pair.pairAddr, rfl⟩

theorem releaseAtQh_parts (s : State) :
    (releaseAtQh s).claim.drive = false ∧ (releaseAtQh s).pair.handoverWait = true ∧ (releaseAtQh s).pair.inFlight = s.cycleOpen ∧
      (releaseAtQh s).pair.awaitingDelta = [] := by
  obtain ⟨a, ha⟩ := dropClaim_pair (stopLanes { s with pair := { s.pair with inFlight := s.cycleOpen, awaitingDelta := [] } })
  rw [(stopLanes_keeps _).pair] at ha
  unfold releaseAtQh
  simp only []
  rw [(refreshOutputs_keeps _).claim, (refreshOutputs_keeps _).pair, ha]
  exact ⟨dropClaim_drive _, rfl, rfl, rfl⟩

theorem cancelHandover_scheduled {s : State} (h : s.pair.handoverQ ≠ none) :
    cancelHandover s = { s with pair := { s.pair with handoverQ := none, handoverAcked := false, handoverWait := false } }.raiseIf
      (decide (s.mode = Mode.active)) Ev.CPL_ROLE_EXCHANGE_FAILED := if_pos (Option.isSome_iff_ne_none.2 h)

/-- A hand-over that an active module gives up is reported (R253). -/
theorem cancelHandover_active {s : State} (hm : s.mode = .active) (h : s.pair.handoverQ ≠ none) :
    cancelHandover s = { s with pair := { s.pair with handoverQ := none, handoverAcked := false, handoverWait := false } }.raise Ev.CPL_ROLE_EXCHANGE_FAILED := by
  rw [cancelHandover_scheduled h]
  exact State.raiseIf_true _ _ (decide_eq_true hm)

theorem KeepsBut.set_pair {l : List Part} (s : State) (x : Pair) (h : Part.pair ∈ l := by decide) : KeepsBut l s { s with pair := x } :=
  (Moves.set_pair x h (.refl l s)).keeps

/-! The delivery that waits for a restart (R71 step 2). -/

theorem endRestartWait_keeps (s : State) : KeepsBut [.tasks, .mram] s (endRestartWait s) := (endRestartWait_moves (fun _ h => h) (.refl _ s)).keeps

theorem endRestartWait_restart (s : State) : (endRestartWait s).mram.restart = s.mram.restart := by
  unfold endRestartWait
  split <;> rfl

theorem restartFailed_parts {w : Waybill × Bool × Bool} {s : State} (h : s.pair.restartWait = some w) :
    (w.2.1 = true → (restartFailed s).mram.restart = none) ∧ (restartFailed s).pair.restartWait = none := by
  unfold restartFailed
  simp only [h]
  refine ⟨fun hw => ?_, rfl⟩
  rw [if_pos hw]
  rfl

end Sys2Proof.Machine

open Sys2Proof Sys2Proof.Machine

/-- Settles O18: the messages on the state after their header; the hand-over quantum releases or takes, and its ends give the hand-over up. -/
theorem handOver : Obligations.HandOver := by
  unfold Obligations.HandOver
  refine ⟨fun h m q s ht => ?_, fun h m s ht => ?_, fun q s hm hq hg hw hr ha hpr hpm => ?_, fun q s hq hg hw hr hy hmc => ?_, fun s hm hq hw he => ?_,
    fun s hm hw hq hd hp hs => ?_, fun s hm hw hd => ?_⟩
  · exact .of_taken rfl ht ⟨fun h => if_pos h, fun h => if_neg h⟩
  · refine .of_taken rfl ht ⟨fun h1 h2 => if_pos ⟨h1, Option.isSome_iff_ne_none.2 h2⟩, fun h => if_neg fun k => ?_⟩
    exact h.elim (absurd k.1) (fun h => absurd h (Option.isSome_iff_ne_none.1 k.2))
  · obtain ⟨h1, h2, h3, h4⟩ := releaseAtQh_parts s
    refine .of_keeps (t := releaseAtQh s) ?_ fun hk => ⟨h1, h2, h3, h4, ?_, hk⟩
    · simp only [exec, execHandoverQuantum, hq, hw, hr, ha, hpr, hpm]
      exact congrArg _ (if_neg (by simp [hg]))
    · exact (releaseAtQh_moves (fun _ h => h) (.refl _ s)).keeps.mode.trans hm
  · let v : State := freezeCopy { s with pair := { s.pair with handoverWait := true } }
    have hc : v.claim = s.claim := (freezeCopy_keeps _).claim
    have hv : v.mayClaim = true := by
      rw [State.mayClaim, hc]
      exact hmc
    refine .of_eq (t := takeClaim true v) ?_ ⟨rfl, rfl, rfl, (takeClaim_regs true v).2.1, (freezeCopy_mode _).trans (ready_standby hy)⟩
    simp only [exec, execHandoverQuantum]
    split
    · next p hp =>
      obtain rfl : q = p := Option.some.inj (hq.symm.trans hp)
      exact congrArg _ ((if_neg (by simp [hw, hg])).trans ((if_neg (by simp [hr])).trans ((if_pos hy).trans (if_pos hv))))
    · next hn => exact absurd hn (by simp [hq])
  · have hc := cancelHandover_active hm hq
    refine .pos rfl (by simp [hm, hw, he, Option.isSome_iff_ne_none, hq]) ?_
    rw [hc]
    exact ⟨State.raise_pair _ _, .of (by decide) (.of_bank rfl) (State.get_congr rfl _) (.of_eq rfl rfl) (.set_pair s _)⟩
  · let v : State := { s with
      claim := { s.claim with drive := true, own := true, confirmed := false, taking := true, refreshed := s.time.tick }
      pair := { s.pair with inFlight := false } }
    refine .pos rfl (by simp [hm, hw, hd, hp, hs]) ?_
    rw [cancelHandover_active (s := v) hm hq]
    exact ⟨State.raise_claim _ _, State.raise_pair _ _, .of (by decide) (.of_bank rfl) (State.get_congr rfl _) (.of_eq rfl rfl)
      ((KeepsBut.set_claim s _).trans (.set_pair _ _))⟩
  · refine .pos rfl (by simp [hm, hw, hd]) ?_
    refine ⟨rfl, rfl, ?_⟩
    exact .trans ((stopLanes_keeps s).mono (by decide)) (.trans (.set_pair (stopLanes s) _) (.set_claim { stopLanes s with
      pair := { s.pair with handoverQ := none, handoverAcked := false, handoverWait := false } } _))

/-- Settles O19: the messages on the state after their header; a wait that ends without an answer fails the delivery. -/
theorem pairRestart : Obligations.PairRestart := by
  unfold Obligations.PairRestart
  refine ⟨fun h m r s ht => ?_, fun h m s ht => ?_, fun w s hm ha hw => ?_, fun h m c s ht => ?_⟩
  · refine .of_taken rfl ht ⟨fun h => if_pos h, fun h1 h2 => if_neg ?_⟩
    simp [h1, h2]
  · refine .of_taken rfl ht ⟨fun h1 h2 => ?_, fun h => if_neg fun k => ?_⟩
    · refine (congrArg (fun x : State => x.pair.restartAcked) (if_pos ⟨h1, Option.isSome_iff_ne_none.2 h2⟩)).trans ?_
      exact congrArg Pair.restartAcked (endRestartWait_keeps _).pair
    · exact h.elim (absurd k.1) (fun h => absurd h (Option.isSome_iff_ne_none.1 k.2))
  · have hf := restartFailed_parts hw
    have hk := endRestartWait_keeps (restartFailed s)
    refine .pos rfl ⟨hm, ha⟩ ⟨rfl, fun h => ?_, ?_, ?_⟩
    · rw [endRestartWait_restart]
      exact hf.1 h
    · rw [hk.pair]
      exact hf.2
    · exact ((restartFailed_moves (fun _ h => h) (.refl _ s)).keeps).trans (hk.mono (by decide))
  · refine .of_taken rfl ht ⟨fun h1 h2 h3 => ?_, fun h1 h2 h3 => ?_, fun h => if_neg fun k => ?_⟩
    · exact (if_pos ⟨h1, h2⟩).trans (if_pos h3)
    · exact (if_pos ⟨h1, h2⟩).trans (if_neg (by simp [h3]))
    · exact h.elim (fun h => absurd k.1 (by simp [h])) (absurd · k.2)

end

section
/-! SUPPORT. The exchange of programs: loading, announcement, commitment and end (R148 to R162). -/

set_option Elab.async false

namespace Sys2Proof.Machine

open Sys2Proof

/-! Messages of the coupling. -/

/-- One message, in however many frames, after changes that sent nothing. -/
theorem Sends.one {s u : State} (n : Nat) (m : Msg) (h : u.outbox = s.outbox) : Sends [m] s (u.sendFrames n m) :=
  ⟨[u.headerFor n m], rfl, by simp [State.headerFor], by rw [← h]; rfl⟩

/-! What closing a waybill leaves of the pair's part: everything but the number of the next frame. -/

/-- The pair's part without the number of its next frame. -/
def State.offTx (s : State) : Pair := { s.pair with txNext := 0 }

theorem State.offTx_congr {s t : State} (h : t.pair = s.pair) : t.offTx = s.offTx := by
  unfold State.offTx
  rw [h]

theorem mirrorOut_offTx (l : List Entry) (s : State) : (mirrorOut l s).offTx = s.offTx := by
  unfold mirrorOut
  split <;> rfl

theorem pushWaybill_pair (w : Waybill) (s : State) : (pushWaybill w s).pair = s.pair := (pushWaybill_moves w (fun _ h => h) (.refl _ s)).keeps.pair

theorem carry_offTx (s : State) : (carry s).offTx = s.offTx := by
  refine forEach_read State.offTx (fun w x => ?_) _ s
  split
  · exact (mirrorOut_offTx _ _).trans (State.offTx_congr (pushWaybill_pair _ x))
  · rfl

theorem closeWaybill_offTx (w : Waybill) (status result : Nat) (s : State) : (closeWaybill w status result s).offTx = s.offTx :=
  (carry_offTx _).trans ((mirrorOut_offTx _ _).trans (State.offTx_congr (pushCompletion_moves w status none 0 result (fun _ h => h) (.refl _ s)).keeps.pair))

theorem closeWaybill_keeps (w : Waybill) (status result : Nat) (s : State) : KeepsBut [.bank, .pair, .jrn, .mram, .outbox] s (closeWaybill w status result s) :=
  (closeWaybill_moves w status result (fun _ h => h) (.refl _ s)).keeps

theorem abandonExchange_exch (s : State) : (abandonExchange s).exch = Exchange.reset := by
  unfold abandonExchange
  simp only []
  split
  · exact (closeWaybill_keeps _ _ _ (clearExchange s)).exch
  · rfl

theorem abandonExchange_offTx (s : State) : (abandonExchange s).offTx = s.offTx := by
  unfold abandonExchange
  simp only []
  split
  · exact closeWaybill_offTx _ _ _ (clearExchange s)
  · rfl

/-! The announcement (R150). -/

/-- The announcement that the module makes now. -/
def State.nextAnnouncement (s : State) (old n : Image) : Announcement :=
  s.free.2.announcementFor old n (s.free.2.gridQuantum + 401 + s.free.1.toNat)

theorem announceExchange_eq {n old : Image} {s : State} (hn : s.exch.image = some n) (ho : s.img = some old) :
    announceExchange s = { s.free.2 with exch := { s.free.2.exch with announcement := some (s.nextAnnouncement old n) } } := by
  unfold announceExchange
  rw [hn, ho]
  rfl

theorem nextAnnouncement_qs (s : State) (old n : Image) : s.gridQuantum + 400 < (s.nextAnnouncement old n).qs := by
  change s.gridQuantum + 400 < s.gridQuantum + 401 + s.free.1.toNat
  omega

/-! The end of an exchange (R148 step 7). -/

/-- The new image taken as the running one, before the waybill closes. -/
def exchanged (new : Image) (s : State) : State :=
  { s with
    start := { s.start with running := some new }
    tasks := (s.tasks.filter (fun e => (findKey new.tasks e.1).isSome)).map (fun (e : Nat × Task) => (e.1, { e.2 with switched := false }))
    mram := { s.mram with
      running := some new, pending := none, announcement := none, progress := .complete
      reports := lastN 16 (s.mram.reports ++ (s.exch.report.map (fun r => { r with workClosed := s.exch.closed })).toList) }
    exch := Exchange.reset }

/-- The result of the completion that reports the exchange. -/
def State.exchangeResult (s : State) : Nat :=
  match s.exch.report.map (fun r => { r with workClosed := s.exch.closed }) with
  | some r => reportCounts r
  | none => 0

theorem finishExchange_eq {new : Image} {s : State} (h : s.exch.image = some new) :
    finishExchange s = match s.exchangeDue with
      | some w => if s.mode = .active ∧ !s.dueFlags.2 then closeWaybill w 0 s.exchangeResult (exchanged new s) else exchanged new s
      | none => exchanged new s := by
  unfold finishExchange
  rw [h]
  rfl

/-- Either the exchange ends with the waybill left open, or its completion closes it. -/
theorem finishExchange_cases {new : Image} {s : State} (h : s.exch.image = some new) :
    finishExchange s = exchanged new s ∨ s.mode = .active ∧ ∃ w, finishExchange s = closeWaybill w 0 s.exchangeResult (exchanged new s) := by
  rw [finishExchange_eq h]
  split
  · next w hw =>
    split
    · next hm => exact .inr ⟨hm.1, w, rfl⟩
    · exact .inl rfl
  · exact .inl rfl

theorem finishExchange_parts {new : Image} {s : State} (h : s.exch.image = some new) :
    (finishExchange s).start.running = some new ∧ (finishExchange s).exch = Exchange.reset ∧ (finishExchange s).offTx = s.offTx ∧
      (finishExchange s).mode = s.mode ∧ (finishExchange s).offRing = (exchanged new s).offRing := by
  rcases finishExchange_cases h with he | ⟨_, w, he⟩
  · rw [he]
    exact ⟨rfl, rfl, rfl, rfl, rfl⟩
  · have hk := closeWaybill_keeps w 0 s.exchangeResult (exchanged new s)
    rw [he, hk.start, hk.exch, hk.mode]
    exact ⟨rfl, rfl, closeWaybill_offTx _ _ _ _, rfl, closeWaybill_offRing _ _ _ _⟩

theorem restartBox_keeps (s : State) : KeepsBut [.bank, .pair, .sbox, .chans, .mil] s (restartBox s) :=
  (restartBox_moves (fun _ h => h) (.refl _ s)).keeps

end Sys2Proof.Machine

open Sys2Proof Sys2Proof.Machine

/-- Settles O20: the commands on the state after their header; the end of an exchange is the image taken, whether or not a waybill closes with it. -/
theorem exchangeOfPrograms : Obligations.ExchangeOfPrograms := by
  unfold Obligations.ExchangeOfPrograms
  refine ⟨⟨fun n s hm hi hp hl hs => ?_, fun h m n old s ht hm hs hp ha hi ho => ?_, fun h m crc s ht hm hs hp ha hc => ?_, fun h m a s ht hm hp => ?_,
    fun h m a s ht hm hs hp ha => ?_⟩, fun new s hm he hi hr => ?_, fun new s hm he hi => ?_, fun new s hm hd hi => ?_⟩
  · let v : State := { loadShadow n s with exch := { (loadShadow n s).exch with sent := true } }
    refine .of_eq (t := v.sendFrames (framesFor n.imageLen) (.image n.digest true)) ?_ ⟨?_, rfl, .one _ _ rfl, ?_⟩
    · refine congrArg _ ((if_neg (not_not.2 hm)).trans ?_)
      rw [hi]
      exact (if_neg (not_not.2 hp)).trans (if_pos ⟨hl, hs⟩)
    · simp only [v, State.sendFrames, State.send, loadShadow, hi]
    · intro p hp
      cases p <;> first | rfl | exact absurd (by decide) hp
  · refine .of_taken rfl ht ?_
    generalize afterHeader h m s = u at *
    refine ⟨u.nextAnnouncement old n, nextAnnouncement_qs u old n, ?_⟩
    rw [if_pos ⟨hm, hs, hp, ha⟩, if_neg (fun hn => hn rfl)]
    simp only [announceExchange_eq hi ho]
    refine ⟨rfl, .one _ _ rfl, ?_⟩
    intro p hp
    cases p <;> first | rfl | exact absurd (by decide) hp
  · refine .of_taken rfl ht ?_
    generalize afterHeader h m s = u at *
    rw [if_pos ⟨hm, hs, hp, ha⟩, if_pos hc]
    exact ⟨abandonExchange_exch u, (congrArg (fun x : Pair => x.mapMismatches + 1) (abandonExchange_offTx u) :)⟩
  · refine .of_taken rfl ht ?_
    generalize afterHeader h m s = u at *
    rw [if_pos ⟨hm, hp⟩]
    refine ⟨rfl, rfl, rfl, .one _ _ rfl, ?_⟩
    intro p hp
    cases p <;> first | rfl | exact absurd (by decide) hp
  · refine .of_taken rfl ht ?_
    generalize afterHeader h m s = u at *
    rw [ha]
    simp only []
    rw [if_pos ⟨hm, hs, hp⟩]
    refine ⟨congrArg (fun x => { u.exch with progress := .committed, announcement := x }) ha.symm, rfl, rfl, ?_⟩
    intro p hp
    cases p <;> first | rfl | exact absurd (by decide) hp
  · obtain ⟨h1, h2, h3, h4, h5⟩ := finishExchange_parts hi
    refine .of_eq (t := finishExchange s) (congrArg _ ((if_pos (by simp [hm, he])).trans (if_neg ?_)))
      ⟨rfl, h1, congrArg Mram.running h5, h2, congrArg Mram.progress h5, h4.trans hm⟩
    rw [show (finishExchange s).pair.resyncAsked = s.pair.resyncAsked from (congrArg Pair.resyncAsked h3 :)]
    simp [hr]
  · obtain ⟨h1, h2, h3, h4, h5⟩ := finishExchange_parts hi
    refine .of_eq (t := finishExchange s) (congrArg _ ((if_pos (by simp [hm, he])).trans (if_neg ?_)))
      ⟨h1, congrArg Mram.running h5, congrArg Mram.pending h5, congrArg Mram.announcement h5, congrArg Mram.progress h5, ?_, h2, h4.trans hm⟩
    · simp [h4, hm]
    · rcases finishExchange_cases hi with hc | ⟨ha, _⟩
      · rw [hc]
        rfl
      · exact absurd (hm.symm.trans ha) (by decide)
  · refine .pos_keeps rfl ⟨hm, hd⟩ fun hk => ⟨?_, ?_, hk⟩
    · unfold restartBox
      simp only []
      rw [(refreshOutputs_keeps _).sbox, (refreshOutputs_keeps _).sbox, hi]
    · unfold restartBox
      simp only []
      rw [(refreshOutputs_keeps _).pair, (refreshOutputs_keeps _).pair]

end

section
/-! SUPPORT. Submissions and the work of the journal engine (R198 to R216, R385). -/

set_option Elab.async false

namespace Sys2Proof.Machine

open Sys2Proof

/-- A request that is asked has its effect on the state in which its client was heard, and keeps the parts outside its row. -/
theorem Completes.of_asks {c : Instr} {kind : Nat} {r : Req} {x : Session} {f : Session → State → State} {s : State} {P : State → Prop}
    (he : exec c s = .next (serve kind r f s)) (ha : Asks kind r x s)
    (hp : KeepsBut (touches c) s (f { x with lastHeard := s.time.tick } (heard r.session x s)) → P (f { x with lastHeard := s.time.tick } (heard r.session x s))) :
    Completes c s P :=
  .of_keeps (he.trans (congrArg _ (serve_of_asks ha f))) hp

theorem submitBody_limited {r : Req} {q : Nat} {w : Work} {x : Session} {s : State} (h : s.limited = true) :
    submitBody r q w x s = answer r 0x10 0xB 0 [] s := if_pos h

theorem submitBody_halted {r : Req} {q : Nat} {w : Work} {x : Session} {s : State} (hl : s.limited = false) (hs : s.shed < 6) (hm : s.mode = .halt)
    (hw : ∀ a b, w ≠ .restart a b) : submitBody r q w x s = (answer r 0x10 0xA 0 [] s).inc Reg.PLNT_REFUSED_NOT_ACTIVE := by
  refine (if_neg (by simp [hl])).trans ((if_neg (Nat.not_le.2 hs)).trans ((if_neg (by simp [hm])).trans ?_))
  cases w <;> first | exact if_pos hm | exact absurd rfl (hw _ _)

theorem submitBody_active {r : Req} {q : Nat} {w : Work} {x : Session} {s : State} (hl : s.limited = false) (hs : s.shed < 6) (hm : s.mode = .active)
    (hr : x.role ≠ .operator) (hc : s.chapterCheck w = (0, 0)) :
    submitBody r q w x s = journalSubmit r.session r.reqId (if x.port = .svc then .service else .plant) x.clientId q w (s.targetOf w) s :=
  (if_neg (by simp [hl])).trans ((if_neg (Nat.not_le.2 hs)).trans ((if_pos hm).trans ((if_neg (by simp [hr])).trans (if_neg (by simp [hc])))))

/-! States of a waybill (R198). -/

/-- An entry of the ring once the state word of a waybill has changed. -/
def entryWith (wseq : Nat) (st : WbState) : Entry → Entry
  | .waybill w =>
    if w.waybillSeq = wseq then .waybill { w with state := st, wordBad := false, unpartnered := w.unpartnered || decide (st = .unpartnered) } else .waybill w
  | .cont q x i b => .cont q x i b
  | .completion c => .completion c

theorem setWbState_ring (wseq : Nat) (st : WbState) (s : State) :
    (setWbState wseq st s).mram.ring = s.mram.ring.map fun e => (e.1, entryWith wseq st e.2) := by
  refine List.map_congr_left fun e _ => ?_
  obtain ⟨q, e⟩ := e
  cases e <;> rfl

theorem entryWith_state {wseq : Nat} {st : WbState} {e : Entry} {w : Waybill} (h : entryWith wseq st e = .waybill w) (hw : w.waybillSeq = wseq) : w.state = st := by
  cases e with
  | waybill v =>
    simp only [entryWith] at h
    split at h
    · cases h
      rfl
    · next hn =>
      cases h
      exact absurd hw hn
  | cont q x i b => cases h
  | completion c => cases h

theorem setWbState_state {wseq : Nat} {st : WbState} {s : State} {seq : Nat} {w : Waybill} (hw : w.waybillSeq = wseq)
    (h : (seq, Entry.waybill w) ∈ (setWbState wseq st s).mram.ring) : w.state = st := by
  rw [setWbState_ring] at h
  obtain ⟨e, _, he⟩ := List.mem_map.1 h
  exact entryWith_state (congrArg Prod.snd he) hw

/-! Snapshots. -/

theorem snapSlot_none {s : State} (h : s.mram.snap0 = none) : s.snapSlot = 0 := by
  unfold State.snapSlot
  rw [h]

theorem snapSlot_one {s : State} (h : s.mram.snap0 ≠ none) (h1 : s.mram.snap1 = none) : s.snapSlot = 1 := by
  obtain ⟨a, ha⟩ := Option.ne_none_iff_exists'.1 h
  unfold State.snapSlot
  rw [ha, h1]

theorem journalUp_of {s : State} (h : s.mode = .standby ∨ s.mode = .active) : s.journalUp = true := by
  rcases h with h | h <;> simp [State.journalUp, h]

end Sys2Proof.Machine

open Sys2Proof Sys2Proof.Machine

/-- Settles O21: the submission's body by the mode and the limits that its branches ask for. -/
theorem submissionsServed : Obligations.SubmissionsServed := by
  unfold Obligations.SubmissionsServed
  intro r x q w s ha
  exact .of_asks rfl ha fun hk => ⟨rfl, hk.mode (of_decide_eq_true rfl), fun h => submitBody_limited h, fun h1 h2 h3 h4 => submitBody_halted h1 h2 h3 h4,
    fun h1 h2 h3 h4 h5 => submitBody_active h1 h2 h3 h4 h5⟩

/-- Settles O22: the waybill's place is found, and the engine's step is taken; a snapshot takes the slot that its age or its absence gives. -/
theorem journalWork : Obligations.JournalWork := by
  unfold Obligations.JournalWork
  refine ⟨⟨fun h m seq w s ht hw hm ha => ?_, fun seq w s hw hm ha hd => ?_, fun seq w s hw hm ha hc => ?_, fun wseq st s seq w hw h => setWbState_state hw h⟩,
    fun s hm => ?_, fun id x s hm hx => ⟨fun h => ?_, fun h => ?_⟩, fun s hm hl => ?_⟩
  · refine .of_taken rfl ht ?_
    generalize afterHeader h m s = u at *
    rw [hw]
    simp only []
    rw [if_pos ⟨hm, ha⟩]
    exact ⟨rfl, (acceptWaybill_moves _ _ (fun _ h => h) (.refl _ u)).keeps⟩
  · refine .of_eq (t := (withoutPartner w.waybillSeq s).raise Ev.JRN_MIRROR_TIMEOUT) ?_ ⟨rfl, fun h => if_pos h, State.raise_get_bit _ (by decide)⟩
    simp [exec, execMirrorTimeout, hw, hm, ha, hd]
  · refine .of_eq (t := expire w s) ?_ ⟨rfl, State.raise_get_bit _ (by decide)⟩
    simp [exec, execUnconfirmedExpiry, hw, hm, ha, hc]
  · exact .pos rfl (journalUp_of hm) ⟨rfl, (writeCheckpoint_moves (fun _ h => h) (.refl _ s)).keeps⟩
  · refine .of_eq ?_ rfl
    simp only [exec, execClientEviction, hx, journalUp_of hm, decide_eq_true h, Bool.and_self, if_true]
  · refine .of_eq ?_ rfl
    simp only [exec, execClientEviction, hx, decide_eq_false (Nat.not_lt.2 h), Bool.and_false, Bool.false_eq_true, if_false]
  · refine .pos rfl (by simp [journalUp_of, hm, hl]) ⟨(writeSnapshot_moves (fun _ h => h) (.refl _ s)).keeps, fun h => ?_, fun h => ?_, snapSlot_none, snapSlot_one⟩
    · simp only [writeSnapshot, h, if_true]
    · simp only [writeSnapshot, if_neg h]

end

section
/-! SUPPORT. The coupling down and up: the state of the link, which what follows a loss leaves alone (R225, R230 to R233). -/

set_option Elab.async false

namespace Sys2Proof.Machine

open Sys2Proof

/-- A value that fits its field reads back as it was written. -/
theorem State.get_put_of_lt (s : State) {f : Fld} {v : Nat} (h : v < 2 ^ f.w) : (s.put f v).get f = v := by
  rw [State.get_put_self, Nat.mod_eq_of_lt h]

theorem State.send_get (s : State) (m : Msg) (f : Fld) : (s.send m).get f = s.get f := rfl

theorem State.send_keeps {l : List Part} (s : State) (m : Msg) (h : Part.outbox ∈ l := by decide) : KeepsBut l s (s.send m) :=
  (Moves.set_outbox _ h (.refl l s)).keeps

theorem exec_frameResend (s : State) :
    exec .frameResend s = .next (if s.powered && s.pair.linkUp && decide (s.uncovered ≠ 0) then
      (s.put Reg.CPL_LINK_ERR_RESENT (satTo 16 (s.get Reg.CPL_LINK_ERR_RESENT + s.uncovered))).send (.resent ((s.pair.peerAck + 1) % 2 ^ 32) s.uncovered)
    else s) := rfl

/-- A count of frames resent, and the message that says so. -/
theorem resent_parts (s : State) (n : Nat) (m : Msg) :
    ((s.put Reg.CPL_LINK_ERR_RESENT (satTo 16 n)).send m).get Reg.CPL_LINK_ERR_RESENT = satTo 16 n ∧
      ((s.put Reg.CPL_LINK_ERR_RESENT (satTo 16 n)).send m).outbox = s.outbox ++ [m] ∧
      RegsBut [Reg.CPL_LINK_ERR_RESENT] s ((s.put Reg.CPL_LINK_ERR_RESENT (satTo 16 n)).send m) ∧
      KeepsBut [.bank, .outbox] s ((s.put Reg.CPL_LINK_ERR_RESENT (satTo 16 n)).send m) := by
  refine ⟨?_, ?_, ?_, ?_⟩
  · rw [State.send_get, State.get_put_of_lt s (satTo_lt 16 _)]
  · simp only [State.send, State.put_outbox]
  · exact (RegsBut.put s _ _ List.mem_cons_self).trans (.of_bank rfl)
  · exact .trans (.put (.refl _ s) _ _) (State.send_keeps _ _)

/-- Up or down, the lanes trained, the partner module's mode and the doubt window. -/
def Pair.link (p : Pair) : Bool × List Nat × Option Mode × Bool := (p.linkUp, p.trained, p.partnerMode, p.doubt)

theorem abandonExchange_link (s : State) : (abandonExchange s).pair.link = s.pair.link := (congrArg Pair.link (abandonExchange_offTx s) :)

theorem commitAlone_link (s : State) : (commitAlone s).pair.link = s.pair.link := by
  unfold commitAlone
  split <;> rfl

theorem leaveExchange_link (s : State) : (leaveExchange s).pair.link = s.pair.link := by
  unfold leaveExchange
  split
  · split
    · exact abandonExchange_link s
    · split
      · rw [commitAlone_link]
        split
        · rfl
        · rw [(announceExchange_moves (fun _ h => h) (.refl _ s)).keeps.pair]
      · rfl
  · rfl

theorem cancelHandover_link (s : State) : (cancelHandover s).pair.link = s.pair.link := by
  unfold cancelHandover
  split
  · rw [State.raiseIf_pair]
    rfl
  · rfl

theorem releaseWaits_pair {s : State} (l : List Nat) (h : s.pair.awaitingDelta = []) : (releaseWaits l s).pair = s.pair := by
  refine forEach_keeps (P := fun x : State => x.pair = s.pair) (fun i x hx => ?_) l rfl
  have hc : (closesAlone i x).pair = s.pair := (closesAlone_moves i (fun _ h => h) (.refl _ x)).keeps.pair.trans hx
  have hd : (closesAlone i x).pair.awaitingDelta = [] := by rw [hc, h]
  have he : { (closesAlone i x).pair with
      awaitingDelta := (closesAlone i x).pair.awaitingDelta.filter (fun k => decide (k ≠ i)) } = (closesAlone i x).pair := by
    rw [hd]
    exact congrArg (fun l => { (closesAlone i x).pair with awaitingDelta := l }) hd.symm
  unfold deltaDone
  simp only []
  split
  · exact he.trans hc
  · exact he.trans hc

theorem countAbsent_pair (s : State) : (countAbsent s).pair = { s.pair with partnerCurrent := false, awaitingDelta := [] } := by
  have h := partnerLost_pair s
  rw [countAbsent, releaseWaits_pair _ (by rw [h]), h]

/-- What the coupling's loss leaves at once: no link, and a doubt window if a current copy may be missing an entry. -/
def unlinked (s : State) : State :=
  { s with
    pair := { s.pair with
      linkUp := false, trained := [], partnerMode := none, partnerReady := false, partnerHello := none
      doubt := s.pair.doubt || (decide (s.mode = Mode.active) && decide (s.pair.partnerMode = some Mode.standby) && s.pair.partnerCurrent) }
    start := { s.start with path11a := s.start.path11a && decide (s.mode ≠ Mode.starting) } }.raise Ev.CPL_COUPLING_DOWN

/-- An active module goes on without its partner module. -/
def goesAlone (s : State) : State :=
  if s.mode = .active then countAbsent (if (leaveExchange s).pair.handoverWait then leaveExchange s else cancelHandover (leaveExchange s)) else s

theorem goesAlone_link (s : State) : (goesAlone s).pair.link = s.pair.link := by
  unfold goesAlone
  split
  · rw [countAbsent_pair]
    refine Eq.trans ?_ (leaveExchange_link s)
    split
    · rfl
    · exact cancelHandover_link _
  · rfl

theorem couplingDown_eq {s : State} (h : s.pair.linkUp = true) :
    couplingDown s =
      if s.pair.restartAcked && decide (s.mode ≠ .active) then
        { resyncEnds (goesAlone (if (unlinked s).time.source = 2 then servoSelect (unlinked s) else unlinked s)) with
          pair := { (resyncEnds (goesAlone (if (unlinked s).time.source = 2 then servoSelect (unlinked s) else unlinked s))).pair with
            restartGoDue := some false, restartAcked := false } }
      else resyncEnds (goesAlone (if (unlinked s).time.source = 2 then servoSelect (unlinked s) else unlinked s)) :=
  if_neg (by simp [h])

theorem couplingDown_link {s : State} (h : s.pair.linkUp = true) : (couplingDown s).pair.link = (unlinked s).pair.link ∧ (couplingDown s).pair.resync = false := by
  have hs : (if (unlinked s).time.source = 2 then servoSelect (unlinked s) else unlinked s).pair = (unlinked s).pair := by
    split
    · exact (servoSelect_moves (fun _ h => h) (.refl _ (unlinked s))).keeps.pair
    · rfl
  have hg := goesAlone_link (if (unlinked s).time.source = 2 then servoSelect (unlinked s) else unlinked s)
  rw [hs] at hg
  rw [couplingDown_eq h]
  split <;> exact ⟨hg, rfl⟩

theorem unlinked_link (s : State) : (unlinked s).pair.link = (false, [], none,
    s.pair.doubt || (decide (s.mode = Mode.active) && decide (s.pair.partnerMode = some Mode.standby) && s.pair.partnerCurrent)) := by
  unfold unlinked
  rw [State.raise_pair]
  rfl

theorem markStale_current {s : State} (h : s.pair.copyCurrent = true) :
    markStale s = { s with pair := { s.pair with copyCurrent := false, stale := true } }.raise Ev.CPL_COPY_STALE := if_pos h

end Sys2Proof.Machine

open Sys2Proof Sys2Proof.Machine

/-- Settles O24: what the loss sets at once is what the steps after it leave; the other commands by their guards. -/
theorem couplingDownAndUp : Obligations.CouplingDownAndUp := by
  unfold Obligations.CouplingDownAndUp
  refine ⟨fun cause s hp hl hc => ?_, fun task s hm ht => ⟨?_, ?_⟩, fun session s hp hm hst hl => ?_, fun s hp hl hu => ?_, fun s hp hl => ?_, fun s hd => ?_,
    fun s hm hl hc hpa => ?_⟩
  · obtain ⟨h1, h2⟩ := couplingDown_link hl
    rw [unlinked_link] at h1
    have hk := (couplingDown_moves (fun _ h => h) (.refl _ s)).keeps
    refine .pos rfl ?_ ⟨rfl, congrArg Prod.fst h1, congrArg (·.2.1) h1, congrArg (·.2.2.1) h1, h2, hk.mode, hk.claim, congrArg (·.2.2.2) h1⟩
    simpa [hp] using hc
  · refine .of_eq (t := countAbsent s) (congrArg _ ((if_pos ⟨hm, ht⟩).trans (if_pos rfl))) ⟨rfl, ?_, ?_, ?_⟩
    all_goals rw [countAbsent_pair]
  · exact .of_eq (t := couplingDown s) (congrArg _ ((if_pos ⟨hm, ht⟩).trans (if_neg (by decide)))) rfl
  · refine .pos rfl (by simp [hp, hm, hst, hl]) ⟨rfl, .one _ _ rfl, ?_⟩
    exact .fields
  · exact .pos (exec_frameResend s) (by simp [hp, hl, hu]) (resent_parts s _ _)
  · refine .pos rfl (by simp [hp, hl]) ⟨rfl, .one _ _ rfl, ?_⟩
    exact .fields
  · refine .pos_keeps rfl hd fun hk => ⟨?_, hk⟩
    refine forEach_read State.pair (fun w x => ?_) _ { s with pair := { s.pair with doubt := false } }
    split
    · exact (withoutPartner_moves w (fun _ h => h) (.refl _ x)).keeps.pair
    · rfl
  · refine .pos rfl (by simp [hm, hl, hc, hpa]) ⟨markStale_pair s, ?_⟩
    rw [markStale_current hc]
    exact .of (by decide) (.of_bank rfl) (State.get_congr rfl _) (.of_eq rfl rfl) (.set_pair s _)

end

section
/-! SUPPORT. Messages of the coupling: status, deltas, mirrored entries, images and resynchronisation (R202, R224 to R237). -/

set_option Elab.async false

namespace Sys2Proof.Machine

open Sys2Proof

/-! The networks without their sessions, which events alone change. -/

/-- The networks' part without its sessions. -/
def State.netBase (s : State) : Net := { s.net with sessions := [] }

theorem State.netBase_congr {s t : State} (h : t.net = s.net) : t.netBase = s.netBase := by
  unfold State.netBase
  rw [h]

@[simp] theorem State.raise_netBase (s : State) (e : EvBit) : (s.raise e).netBase = s.netBase := (State.raise_only s e).2

@[simp] theorem State.raiseIf_netBase (s : State) (c : Bool) (e : EvBit) : (s.raiseIf c e).netBase = s.netBase := by
  unfold State.raiseIf
  split
  · exact State.raise_netBase s e
  · rfl

theorem setQuality_netBase (q : Nat) (s : State) : (setQuality q s).netBase = s.netBase := by
  unfold setQuality
  exact (State.raiseIf_netBase _ _ _).trans (State.raiseIf_netBase _ _ _)

theorem acqStepped_netBase (s : State) : (acqStepped s).netBase = s.netBase := rfl

theorem servoDeclare_netBase (q src port errNs : Nat) (s : State) : (servoDeclare q src port errNs s).netBase = s.netBase := by
  unfold servoDeclare
  simp only []
  exact (setQuality_netBase _ _).trans (State.raiseIf_netBase _ _ _)

theorem servoSelect_netBase (s : State) : (servoSelect s).netBase = s.netBase := by
  unfold servoSelect
  simp only []
  split
  · rfl
  · split
    · exact servoDeclare_netBase _ _ _ _ s
    · split
      · exact servoDeclare_netBase _ _ _ _ s
      · split
        · exact servoDeclare_netBase _ _ _ _ s
        · split
          · exact servoDeclare_netBase _ _ _ _ s
          · rfl

theorem slewStarted_netBase (b : Bool) (c : Bool) (x : State) : (if b then x.raiseIf c Ev.EXEC_SLEW_STARTED else x).netBase = x.netBase := by
  split
  · exact State.raiseIf_netBase _ _ _
  · rfl

theorem stepCounter_netBase (ns : Int) (frac : Nat) (s : State) : (stepCounter ns frac s).netBase = s.netBase := by
  unfold stepCounter
  exact (slewStarted_netBase _ _ _).trans ((acqStepped_netBase _).trans (State.raise_netBase _ _))

theorem servoFollow_netBase (d : Int) (s : State) : (servoFollow d s).netBase = s.netBase := by
  unfold servoFollow
  simp only []
  split
  · exact stepCounter_netBase _ _ s
  · exact State.netBase_congr (servoSteer_moves (fun _ h => h) (.refl _ s)).keeps.net

theorem cancelHandover_netBase (s : State) : (cancelHandover s).netBase = s.netBase := by
  unfold cancelHandover
  split
  · exact State.raiseIf_netBase _ _ _
  · rfl

/-! Status. -/

/-- What a STATUS frame sets in the pair's part. -/
def Pair.readiness (p : Pair) : Bool × Bool := (p.partnerReady, p.partnerTest)

theorem cancelHandover_readiness (s : State) : (cancelHandover s).pair.readiness = s.pair.readiness := by
  unfold cancelHandover
  split
  · rw [State.raiseIf_pair]
    rfl
  · rfl

theorem servoFollow_parts (c : Prop) [Decidable c] (d : Int) (s : State) :
    (if c then servoFollow d s else s).netBase = s.netBase ∧ (if c then servoFollow d s else s).pair = s.pair := by
  split
  · exact ⟨servoFollow_netBase d s, (servoFollow_moves d (fun _ h => h) (.refl _ s)).keeps.pair⟩
  · exact ⟨rfl, rfl⟩

theorem takePairTime_parts (f : StatusFrame) (s : State) :
    (takePairTime f s).netBase = s.netBase ∧ (takePairTime f s).pair.readiness = s.pair.readiness := by
  unfold takePairTime
  split
  · simp only []
    rw [(servoFollow_parts _ _ _).1, (servoFollow_parts _ _ _).2, servoSelect_netBase, (servoSelect_moves (fun _ h => h) (.refl _ _)).keeps.pair,
      State.raiseIf_netBase, State.raiseIf_pair]
    exact ⟨rfl, rfl⟩
  · exact ⟨rfl, rfl⟩

/-- What a STATUS frame says of the partner module, noted before its time is measured. -/
def statusNoted (f : StatusFrame) (s : State) : State :=
  { s with
    pair := { s.pair with
      partnerReady := f.ready, partnerTest := f.testMode, partnerOnPtp := f.lockedOnPtp, statusArrived := some s.now.nsTotal } }.raiseIf
    (decide (f.testMode ≠ s.net.testMode) && !(decide (s.pair.partnerTest ≠ s.net.testMode))) Ev.PBUS_MODE_MISMATCH

theorem takeStatus_eq (f : StatusFrame) (s : State) :
    takeStatus f s =
      if !f.ready ∧ !(takePairTime f (statusNoted f s)).pair.handoverWait ∧ (takePairTime f (statusNoted f s)).mode = .active then
        cancelHandover (takePairTime f (statusNoted f s))
      else takePairTime f (statusNoted f s) := rfl

theorem takeStatus_parts (f : StatusFrame) (s : State) :
    (takeStatus f s).netBase = s.netBase ∧ (takeStatus f s).pair.readiness = (f.ready, f.testMode) := by
  obtain ⟨h1, h2⟩ := takePairTime_parts f (statusNoted f s)
  rw [statusNoted, State.raiseIf_netBase, ← statusNoted] at h1
  rw [show (statusNoted f s).pair.readiness = (f.ready, f.testMode) by rw [statusNoted, State.raiseIf_pair]; rfl] at h2
  rw [takeStatus_eq]
  split
  · rw [cancelHandover_netBase, cancelHandover_readiness]
    exact ⟨h1, h2⟩
  · exact ⟨h1, h2⟩

/-! Deltas. -/

theorem loseCopy_pair (s : State) : (loseCopy s).pair.copyCurrent = false ∧ (loseCopy s).pair.stale = true := by
  obtain ⟨h1, h2, _, _⟩ := requestResync_copy (markStale s)
  rw [loseCopy, h1, h2, markStale_pair]
  exact ⟨rfl, rfl⟩

theorem loseCopy_keeps (s : State) : KeepsBut [.bank, .pair, .net, .outbox] s (loseCopy s) := (loseCopy_moves (fun _ h => h) (.refl _ s)).keeps

theorem takeDelta_bad {d : DeltaMsg} {s : State}
    (h : d.count ≠ d.records.length ∨ d.crc ≠ deltaCrc d.records ∨ d.closeSeq ≠ s.pair.closeSeq + 1 ∨ d.cycle ≠ (s.task d.task).cycle + 1) :
    takeDelta d s = (loseCopy s).raise Ev.CPL_DELTA_BAD := if_pos h

/-- Outside an exchange no task switches, and a delta without a carried state is taken as it is. -/
theorem switchFor_plain {d : DeltaMsg} {s : State} (hp : s.exch.progress = .none) (hc : d.carryCrc = none) : switchFor d s = (true, s) := by
  simp [switchFor, State.exchangeCommitted, hp, hc]

theorem deltaDone_pair (i : Nat) (s : State) :
    (deltaDone i s).pair = { s.pair with awaitingDelta := s.pair.awaitingDelta.filter (fun k => decide (k ≠ i)) } := by
  unfold deltaDone
  simp only []
  split <;> rfl

/-- A message of a partner module that stays in STANDBY changes the pair's part alone. -/
theorem afterHeader_standby {h : LinkHdr} {s : State} (hs : h.hdr.stale = false) (hm : s.pair.partnerMode = some .standby) :
    afterHeader h .standby s =
      { s with
        pair := { s.pair with rxNext := (h.hdr.linkSeq + 1) % 2 ^ 32, peerAck := h.hdr.ack, partnerMode := some .standby } } := by
  unfold afterHeader partnerIs
  simp only [hs, hm, Bool.false_and, Bool.false_eq_true, if_false, if_true]

/-! Pages (R235). -/

theorem Sends.refl (s : State) : Sends [] s s := ⟨[], rfl, by simp, by simp⟩

theorem Sends.trans {l m : List Msg} {s t u : State} (h : Sends l s t) (k : Sends m t u) : Sends (l ++ m) s u := by
  obtain ⟨hs, h1, h2, h3⟩ := h
  obtain ⟨ks, k1, k2, k3⟩ := k
  have hz : (hs ++ ks).zip (l ++ m) = hs.zip l ++ ks.zip m := List.zip_append h1
  refine ⟨hs ++ ks, by simp [h1, k1], ?_, by rw [k3, h3, hz, List.map_append, List.append_assoc]⟩
  intro e he
  rw [hz] at he
  exact (List.mem_append.1 he).elim (h2 e) (k2 e)

theorem sendPage_sends (n : Nat) (s : State) : Sends [.resyncPage n] s (sendPage n s) := .one _ _ rfl

theorem sendPages_sends (l : List Nat) (s : State) : Sends (l.map Msg.resyncPage) s (forEach l sendPage s) := by
  induction l generalizing s with
  | nil => exact .refl s
  | cons n l ih => exact (sendPage_sends n s).trans (ih (sendPage n s))

theorem sendPages_offTx (l : List Nat) (s : State) : (forEach l sendPage s).offTx = s.offTx := forEach_read State.offTx (f := sendPage) (fun _ _ => rfl) l s

theorem sendPages_keeps (l : List Nat) (s : State) : KeepsBut [.pair, .outbox] s (forEach l sendPage s) :=
  (Moves.forEach (fun n _ h => sendPage_moves n (fun _ h => h) h) (.refl _ s)).keeps

/-- The pair's part is its part without the number of the next frame, with that number. -/
theorem pair_eq_of_offTx {s : State} {p : Pair} (h : s.offTx = { p with txNext := 0 }) : s.pair = { p with txNext := s.pair.txNext } := by
  have hx : { s.offTx with txNext := s.pair.txNext } = { p with txNext := s.pair.txNext } := by rw [h]
  exact hx

/-- The answer and the pages, however many, after the note of what is sent. -/
def answered (l : List Nat) (p : Pair) (s : State) : State := forEach l sendPage ({ s with pair := p }.sendFrame .resyncAnswer)

theorem answered_sends (l : List Nat) (p : Pair) (s : State) : Sends (.resyncAnswer :: l.map Msg.resyncPage) s (answered l p s) :=
  Sends.trans (l := [.resyncAnswer]) (.one (u := { s with pair := p }) 1 _ rfl) (sendPages_sends l _)

theorem answered_pair (l : List Nat) (p : Pair) (s : State) : (answered l p s).pair = { p with txNext := (answered l p s).pair.txNext } :=
  pair_eq_of_offTx (sendPages_offTx l _)

theorem answerResync_eq {s : State} (h : s.exchangeCommitted = false) :
    answerResync s = answered (List.range 768) { s.pair with resyncAsked := false, resyncSending := true, pages := 768, controlSet := false } s :=
  if_neg (by simp [h])

/-- An active module's answer outside a committed exchange: what it sends, and what it notes of it. -/
theorem answerResync_parts {s : State} (h : s.exchangeCommitted = false) :
    (answerResync s).pair = { s.pair with
      resyncAsked := false, resyncSending := true, pages := 768, controlSet := false, txNext := (answerResync s).pair.txNext } ∧
      Sends (.resyncAnswer :: (List.range 768).map Msg.resyncPage) s (answerResync s) ∧ KeepsBut [.pair, .outbox] s (answerResync s) := by
  refine ⟨?_, ?_, (answerResync_moves (fun _ h => h) (.refl _ s)).keeps⟩
  · rw [answerResync_eq h]
    exact answered_pair _ _ s
  · rw [answerResync_eq h]
    exact answered_sends _ _ s

theorem sendFrame_mem (s : State) (m : Msg) : ∃ h, Msg.frame h m ∈ (s.sendFrame m).outbox :=
  ⟨s.headerFor 1 m, List.mem_append_right s.outbox List.mem_cons_self⟩

/-- A waybill as the partner module writes it: accepted as MIRRORED, unless it is a carried copy. -/
def mirroredCopy (w : Waybill) : Waybill := if w.carried then w else { w with state := .mirrored }

theorem mirroredCopy_seq (w : Waybill) : (mirroredCopy w).seq = w.seq := by
  unfold mirroredCopy
  split <;> rfl

theorem mirrorEntry_waybill (w : Waybill) (s : State) :
    mirrorEntry (.waybill w) s =
      (replayEntry (.waybill (mirroredCopy w)) (ringWaybill (mirroredCopy w) (rateAdd (1 + (mirroredCopy w).cont) s))).sendFrame
        (.mirrorAck (mirroredCopy w).seq) := rfl

/-- The held records applied and the copy current, before a joining module enters STANDBY. -/
def resyncApplied (q : Nat) (s : State) : State :=
  let held := s.pair.heldRecs.filter (fun r => decide (r.page.isNone) && decide (q < r.closeSeq))
  let s := forEach held (fun r s => applyHeldRec r.rcd s) s
  let s := { s with
    pair := { s.pair with
      heldRecs := [], pagesHeld := [], resync := false, copyCurrent := true, stale := false, closeSeq := max q s.pair.closeSeq } }
  (s.inc Reg.CPL_RESYNC_COUNT).raise Ev.CPL_RESYNC_DONE

theorem resyncApplied_mode (q : Nat) (s : State) : (resyncApplied q s).mode = s.mode := by
  refine (State.raise_mode _ _).trans ?_
  exact forEach_read State.mode (fun (r : HeldRec) x => (applyHeldRec_moves r.rcd (fun _ h => h) (.refl _ x)).keeps.mode) _ s

theorem resyncComplete_eq (q : Nat) (s : State) :
    resyncComplete q s = if (resyncApplied q s).mode = .starting then refreshOutputs (serviceEntry (setMode .standby (resyncApplied q s))) else resyncApplied q s := rfl

theorem resyncComplete_mode (q : Nat) (s : State) :
    (s.mode = .standby → (resyncComplete q s).mode = .standby) ∧ (s.mode = .starting → (resyncComplete q s).mode = .standby) := by
  rw [resyncComplete_eq, resyncApplied_mode]
  refine ⟨fun h => ?_, fun h => ?_⟩
  · rw [if_neg (by simp [h]), resyncApplied_mode, h]
  · rw [if_pos h, (refreshOutputs_keeps _).mode]
    exact setMode_mode _ _

end Sys2Proof.Machine

open Sys2Proof Sys2Proof.Machine

/-- Settles O25: the messages on the state after their header; a delta out of sequence loses the copy, one in sequence is acknowledged and applied. -/
theorem deltasAndImages : Obligations.DeltasAndImages := by
  unfold Obligations.DeltasAndImages
  refine ⟨⟨fun h m f s ht => ?_, fun h m d s ht => ?_, fun d s hb => ?_, fun d s h1 h2 h3 h4 h5 h6 => ?_, fun h i s ht hs hp hm ha hph => ?_⟩,
    fun h m l s ht => ?_, fun w s => ?_, fun h m i s ht => ?_⟩
  · obtain ⟨h1, h2⟩ := takeStatus_parts f (afterHeader h m s)
    exact .of_taken rfl ht ⟨rfl, (congrArg Net.testMode h1 :), (congrArg Prod.fst h2 :), (congrArg Prod.snd h2 :)⟩
  · refine .of_taken rfl ht ?_
    generalize afterHeader h m s = u
    refine ⟨fun h1 h2 => ?_, fun h1 => if_pos h1, fun h1 h2 => ?_⟩
    · exact (if_neg (by simp [State.resyncing, h2])).trans (if_pos ⟨h1, h2⟩)
    · exact (if_neg (by simp [h1])).trans (if_neg (by simp [h2]))
  · obtain ⟨h1, h2⟩ := loseCopy_pair s
    rw [takeDelta_bad hb, State.raise_pair, State.raise_tasks, State.raise_ctl, (loseCopy_keeps s).tasks, (loseCopy_keeps s).ctl]
    exact ⟨h1, h2, rfl, rfl, State.raise_get_bit _ (by decide)⟩
  · unfold takeDelta
    rw [if_neg (by simp [h1, h2, h3, h4]), switchFor_plain h5 h6]
    rfl
  · refine .of_taken rfl ht ?_
    have hu := afterHeader_standby hs hp
    have ht' : (afterHeader h .standby s).task i = s.task i := by
      rw [hu]
      rfl
    rw [if_pos ⟨by rw [hu]; exact hm, by rw [hu]; exact ha, by rw [ht']; exact hph, by rw [ht'], by rw [ht'], by rw [ht']⟩, deltaDone_pair]
    refine ⟨by simp, rfl, ?_⟩
    refine .trans ?_ ((deltaDone_moves i.val (fun _ h => h) (.refl _ _)).keeps.mono (by decide))
    intro p hp
    rw [hu]
    cases p <;> first | rfl | exact absurd (by decide) hp
  · refine .of_taken rfl ht ?_
    generalize afterHeader h m s = u
    exact ⟨fun h1 h2 => if_pos ⟨h1, h2⟩, fun h => if_neg (by rcases h with h | h <;> simp [h])⟩
  · rw [mirrorEntry_waybill, mirroredCopy_seq]
    exact sendFrame_mem _ _
  · refine .of_taken rfl ht ?_
    generalize afterHeader h m s = u
    refine ⟨fun h1 h2 h3 => ?_, fun h1 => ?_⟩
    · rw [if_pos rfl, if_pos ⟨h1, h2, h3⟩]
      exact ⟨rfl, rfl, .one _ _ rfl⟩
    · exact (if_pos rfl).trans (if_neg (by simp [h1]))

/-- Settles O26: the messages on the state after their header, by what the module is in the middle of. -/
theorem resynchronisation : Obligations.Resynchronisation := by
  unfold Obligations.Resynchronisation
  refine ⟨fun h m s ht => ?_, fun h m n s ht => ?_, fun h m s ht => ?_, fun h m p s ht => ?_, fun h m c s ht => ?_, fun h m q s ht => ?_, fun p s => .of_eq rfl rfl⟩
  all_goals
    refine .of_taken rfl ht ?_
    generalize afterHeader h m s = u
  · refine ⟨fun h => if_neg h, fun h hc => ?_, fun h hc => ?_⟩
    · exact (if_pos h).trans (if_pos hc)
    · simp only []
      rw [if_pos h]
      exact answerResync_parts hc
  · simp only []
    exact ⟨fun h1 h2 => by rw [if_pos ⟨h1, h2⟩]; exact ⟨sendPage_sends n u, (sendPage_moves n (fun _ h => h) (.refl _ u)).keeps⟩,
      fun h => if_neg (by rcases h with h | h <;> simp [h])⟩
  · exact ⟨fun h => if_pos h, fun h => if_neg (by simp [h])⟩
  · refine ⟨fun h1 h2 h3 => ?_, fun h1 h2 h3 => ?_, fun h => ?_⟩
    · exact (if_pos (by simp [h1, h2])).trans (if_pos h3)
    · exact (if_pos (by simp [h1, h2])).trans (if_neg h3)
    · exact if_neg (by rcases h with h | h <;> simp [h])
  · refine ⟨fun h => if_neg (by simp [h]), fun h => ?_⟩
    rw [if_pos h]
    exact ⟨rfl, rfl, rfl, rfl, rfl, rfl, (takeControl_moves c (fun _ h => h) (.refl _ u)).keeps⟩
  · refine ⟨fun h1 h2 h3 => ?_, fun h => if_neg (by rcases h with h | h | h <;> simp [h])⟩
    rw [if_pos (by simp [h1, h2, h3])]
    exact ⟨rfl, resyncComplete_mode q u⟩

end

section
/-! SUPPORT. A task's cycle, its closure, the overrun watchdog and the pace monitor (R116 to R137). -/

set_option Elab.async false

namespace Sys2Proof.Machine

open Sys2Proof

/-! Closure step 2 (R123, R126, R228). -/

theorem postWaybill_offTx (i unit clientSeq : Nat) (work : Work) (s : State) : (postWaybill i unit clientSeq work s).offTx = s.offTx := by
  unfold postWaybill
  simp only []
  split
  · exact State.offTx_congr (State.raiseIf_pair _ _ _)
  · refine (carry_offTx _).trans (State.offTx_congr ?_)
    exact ((nearFull_moves _ (fun _ h => h) (.refl _ _)).keeps.pair).trans (pushWaybill_pair _ s)

theorem postAll_offTx (i : Nat) (s : State) : (postAll i s).offTx = s.offTx := by
  unfold postAll
  split
  · rfl
  · exact forEach_read State.offTx (fun (p : Nat × Nat × Work) x => postWaybill_offTx _ _ _ _ x) _ (s.setTask i { s.task i with deferredPosts := [] })

/-- The operations of the cycle settled, the closure counted and the cycle's waybills posted. -/
def settled (i : Nat) (s : State) : State :=
  let s := settleRoles i (settleDoubt i (settleMessages i (applyCommits i s)))
  let s := { s with pair := { s.pair with closeSeq := s.pair.closeSeq + 1 } }
  postAll i (s.setTask i { s.task i with closeSeq := s.pair.closeSeq })

theorem settled_offTx (i : Nat) (s : State) : (settled i s).offTx = { s.offTx with closeSeq := s.pair.closeSeq + 1 } := by
  have h : (settleRoles i (settleDoubt i (settleMessages i (applyCommits i s)))).pair = s.pair :=
    (settleRoles_moves (L := [.start, .tasks]) i (by decide) (settleDoubt_moves i (by decide) (settleMessages_moves i (by decide)
      (applyCommits_moves i (by decide) (.refl _ s))))).keeps.pair
  refine (postAll_offTx i _).trans ?_
  unfold State.offTx State.setTask
  simp only [h]

/-- The delta of a settled cycle, whose check the task keeps. -/
def deltaOf (i : Nat) (s : State) : DeltaMsg :=
  ⟨i, (s.task i).cycle, s.pair.closeSeq, deltaCrc (s.deltaRecords i), (s.deltaRecords i).length, (s.task i).carryCrc, s.deltaRecords i⟩

/-- The task with the check of its delta. -/
def withDelta (i : Nat) (s : State) : State := s.setTask i { s.task i with deltaCrc := (deltaOf i s).crc }

/-- A cycle whose delta goes to the partner module waits for its acknowledgement. -/
def awaitsAck (i : Nat) (d : DeltaMsg) (s : State) : State :=
  ({ s with pair := { s.pair with awaitingDelta := addOnce i s.pair.awaitingDelta, unpartneredRun := false } }.setTask i
    { s.task i with phase := .awaitDelta }).sendDelta d

/-- A cycle without a partner module goes on at once. -/
def goesOnAlone (i : Nat) (d : DeltaMsg) (s : State) : State :=
  let s := if s.pair.resyncSending then s.sendDelta d else s
  let s := s.raiseIf (!s.pair.unpartneredRun) Ev.EXEC_UNPARTNERED_CLOSE
  deltaDone i { s with pair := { s.pair with unpartneredRun := true } }

theorem closureStep2_eq (i : Nat) (s : State) :
    closureStep2 i s =
      if (withDelta i (settled i s)).partnered then awaitsAck i (deltaOf i (settled i s)) (withDelta i (settled i s))
      else goesOnAlone i (deltaOf i (settled i s)) (withDelta i (settled i s)) := rfl

theorem withDelta_pair (i : Nat) (s : State) : (withDelta i s).pair = s.pair := rfl

theorem withDelta_offTx (i : Nat) (s : State) : (withDelta i (settled i s)).offTx = { s.offTx with closeSeq := s.pair.closeSeq + 1 } :=
  (State.offTx_congr (withDelta_pair i _)).trans (settled_offTx i s)

/-- Two states whose pair's parts agree but for a frame number and the closure's count have the same partner module. -/
theorem partnered_of_offTx {s t : State} {n : Nat} (h : t.offTx = { s.offTx with closeSeq := n }) : t.partnered = s.partnered ∧ t.pair.closeSeq = n := by
  have h1 : t.pair.linkUp = s.pair.linkUp := (congrArg Pair.linkUp h :)
  have h2 : t.pair.partnerMode = s.pair.partnerMode := (congrArg Pair.partnerMode h :)
  have h3 : t.pair.partnerCurrent = s.pair.partnerCurrent := (congrArg Pair.partnerCurrent h :)
  refine ⟨?_, (congrArg Pair.closeSeq h :)⟩
  simp only [State.partnered, State.partnerThere, h1, h2, h3]

theorem mem_addOnce {α : Type} [DecidableEq α] (a : α) (l : List α) : a ∈ addOnce a l := by
  unfold addOnce
  split
  · next h => exact h
  · simp

theorem State.sendFrames_offTx (s : State) (n : Nat) (m : Msg) : (s.sendFrames n m).offTx = s.offTx := rfl

theorem State.sendDelta_offTx (s : State) (d : DeltaMsg) : (s.sendDelta d).offTx = s.offTx := by
  unfold State.sendDelta
  exact State.sendFrames_offTx _ _ _

theorem State.sendDelta_tasks (s : State) (d : DeltaMsg) : (s.sendDelta d).tasks = s.tasks := by
  unfold State.sendDelta
  exact (State_sendFrames_moves _ _ (fun _ h => h) (.refl _ s)).keeps.tasks

/-- A field of the pair's part other than the number of the next frame. -/
theorem pair_of_offTx {α : Type} (g : Pair → α) (hg : ∀ p n, g { p with txNext := n } = g p) {s t : State} (h : t.offTx = s.offTx) : g t.pair = g s.pair :=
  ((hg t.pair 0).symm.trans (congrArg g h)).trans (hg s.pair 0)

/-- What waits for the acknowledgement, before the delta goes out. -/
def awaiting (i : Nat) (s : State) : State :=
  { s with pair := { s.pair with awaitingDelta := addOnce i s.pair.awaitingDelta, unpartneredRun := false } }.setTask i
    { s.task i with phase := .awaitDelta }

theorem awaitsAck_eq (i : Nat) (d : DeltaMsg) (s : State) : awaitsAck i d s = (awaiting i s).sendDelta d := by
  unfold awaitsAck awaiting
  rfl

theorem awaitsAck_parts (i : Nat) (d : DeltaMsg) (s : State) :
    (awaitsAck i d s).pair.closeSeq = s.pair.closeSeq ∧ i ∈ (awaitsAck i d s).pair.awaitingDelta ∧ ((awaitsAck i d s).task i).phase = .awaitDelta ∧
      (awaitsAck i d s).pair.unpartneredRun = false := by
  have h := State.sendDelta_offTx (awaiting i s) d
  rw [awaitsAck_eq, pair_of_offTx Pair.closeSeq (fun _ _ => rfl) h, pair_of_offTx Pair.awaitingDelta (fun _ _ => rfl) h,
    pair_of_offTx Pair.unpartneredRun (fun _ _ => rfl) h, State.task_congr (State.sendDelta_tasks _ d), awaiting, State.task_setTask]
  exact ⟨rfl, mem_addOnce _ _, rfl, rfl⟩

theorem goesOnAlone_pair (i : Nat) (d : DeltaMsg) (s : State) :
    (goesOnAlone i d s).pair.closeSeq = s.pair.closeSeq ∧ (goesOnAlone i d s).pair.unpartneredRun = true := by
  have h (b : Bool) (x : State) : (x.raiseIf b Ev.EXEC_UNPARTNERED_CLOSE).pair.closeSeq = x.pair.closeSeq := by rw [State.raiseIf_pair]
  have hs : (s.sendDelta d).pair.closeSeq = s.pair.closeSeq :=
    pair_of_offTx Pair.closeSeq (fun _ _ => rfl) (State.sendDelta_offTx s d)
  unfold goesOnAlone
  simp only [deltaDone_pair, h, and_true]
  split
  · exact hs
  · rfl

/-! The end of a cycle. -/

theorem releaseCycle_task {i : Nat} (h : i ≠ 0) (s : State) :
    ((releaseCycle i s).task i).phase = .idle ∧ ((releaseCycle i s).task i).deliveries = [] := by
  unfold releaseCycle
  simp only [if_neg h, State.task_setTask, and_self]

theorem running_of {s : State} (hm : s.mode = .active) (hc : s.claim.confirmed = true) : s.running = true := by
  simp [State.running, hm, hc]

/-! The pace monitor (R135). -/

/-- The pace and its margin. -/
def paceShown (m : Nat) (s : State) : State := (s.put Reg.EXEC_PACE_PACE_NOW (satTo 16 m)).put Reg.EXEC_PACE_MARGIN_PCT (satTo 16 (m * 100 / 700))

/-- The lowest pace with its lane and copy, where this one is lower. -/
def paceKept (l c m : Nat) (s : State) : State :=
  if satTo 16 m < s.get Reg.EXEC_PACE_MIN_PACE_MIN then
    ((s.put Reg.EXEC_PACE_MIN_PACE_MIN (satTo 16 m)).put Reg.EXEC_PACE_MIN_LANE l).put Reg.EXEC_PACE_MIN_COPY c
  else s

/-- A pace window of one lane: the registers, then the two events. -/
def paced (l c m : Nat) (s : State) : State :=
  ((paceKept l c m (paceShown m s)).raiseIf (decide (satTo 16 (m * 100 / 700) < 107) &&
    (decide (s.get Reg.EXEC_PACE_MIN_PACE_MIN = 0xFFFF) || decide (107 ≤ s.get Reg.EXEC_PACE_MARGIN_PCT))) Ev.EXEC_PACE_LOW).raiseIf
    (decide (satTo 16 (m * 100 / 700) < 100) &&
      (decide (s.get Reg.EXEC_PACE_MIN_PACE_MIN = 0xFFFF) || decide (100 ≤ s.get Reg.EXEC_PACE_MARGIN_PCT))) Ev.EXEC_PACE_BELOW_GUARANTEE

theorem paced_of {l c m : Nat} {s : State} (h : s.mode = .active ∨ s.mode = .standby) : exec (.paceWindow [(l, c, m)]) s = .next (paced l c m s) :=
  congrArg _ (if_pos h)

theorem satTo_of_lt {w n : Nat} (h : n < 2 ^ w) : satTo w n = n := if_pos h

theorem paced_get (l c m : Nat) (s : State) {f : Fld} (h1 : 32 * Ev.EXEC_PACE_LOW.addr + Ev.EXEC_PACE_LOW.bit ≠ f.key) (h2 : 32 * Ev.EXEC_PACE_LOW.addr + 16 ≠ f.key)
    (h3 : 32 * Ev.EXEC_PACE_BELOW_GUARANTEE.addr + Ev.EXEC_PACE_BELOW_GUARANTEE.bit ≠ f.key) (h4 : 32 * Ev.EXEC_PACE_BELOW_GUARANTEE.addr + 16 ≠ f.key) :
    (paced l c m s).get f = (paceKept l c m (paceShown m s)).get f := by
  rw [paced, State.raiseIf_get_ne _ _ h3 h4, State.raiseIf_get_ne _ _ h1 h2]

theorem paceKept_low {l c m : Nat} {s : State} (h : satTo 16 m < s.get Reg.EXEC_PACE_MIN_PACE_MIN) (hl : l < 16) (hc : c < 2) :
    (paceKept l c m s).get Reg.EXEC_PACE_MIN_PACE_MIN = satTo 16 m ∧ (paceKept l c m s).get Reg.EXEC_PACE_MIN_LANE = l ∧
      (paceKept l c m s).get Reg.EXEC_PACE_MIN_COPY = c := by
  rw [paceKept, if_pos h]
  refine ⟨?_, ?_, ?_⟩
  · rw [State.get_put_ne _ _ (by decide), State.get_put_ne _ _ (by decide), State.get_put_of_lt s (satTo_lt 16 m)]
  · rw [State.get_put_ne _ _ (by decide), State.get_put_of_lt _ (show l < 2 ^ 4 from hl)]
  · rw [State.get_put_of_lt _ (show c < 2 ^ 1 from hc)]

theorem paceKept_get (l c m : Nat) (s : State) {f : Fld} (h1 : Reg.EXEC_PACE_MIN_PACE_MIN.key ≠ f.key) (h2 : Reg.EXEC_PACE_MIN_LANE.key ≠ f.key)
    (h3 : Reg.EXEC_PACE_MIN_COPY.key ≠ f.key) : (paceKept l c m s).get f = s.get f := by
  unfold paceKept
  split
  · rw [State.get_put_ne _ _ h3, State.get_put_ne _ _ h2, State.get_put_ne _ _ h1]
  · rfl

theorem paceShown_min (m : Nat) (s : State) : (paceShown m s).get Reg.EXEC_PACE_MIN_PACE_MIN = s.get Reg.EXEC_PACE_MIN_PACE_MIN := by
  rw [paceShown, State.get_put_ne _ _ (by decide), State.get_put_ne _ _ (by decide)]

theorem paceKept_only (l c m : Nat) (s : State) : EventsOnly s (paceKept l c m s) ∧ KeepsBut [.bank] s (paceKept l c m s) := by
  unfold paceKept
  split
  · exact ⟨.of_eq rfl rfl, .put (.put (.put (.refl _ s) _ _) _ _) _ _⟩
  · exact ⟨.refl s, .refl _ s⟩

theorem State.raiseIf_only (s : State) (c : Bool) (e : EvBit) : EventsOnly s (s.raiseIf c e) := by
  unfold State.raiseIf
  split
  · exact State.raise_only s e
  · exact .refl s

theorem paced_parts {l c m : Nat} (hl : l < 16) (hc : c < 2) (hm : m < 65536) (s : State) :
    (paced l c m s).get Reg.EXEC_PACE_PACE_NOW = m ∧ (paced l c m s).get Reg.EXEC_PACE_MARGIN_PCT = satTo 16 (m * 100 / 700) ∧
    (m < s.get Reg.EXEC_PACE_MIN_PACE_MIN → (paced l c m s).get Reg.EXEC_PACE_MIN_PACE_MIN = m ∧ (paced l c m s).get Reg.EXEC_PACE_MIN_LANE = l ∧
      (paced l c m s).get Reg.EXEC_PACE_MIN_COPY = c) ∧
    (s.get Reg.EXEC_PACE_MIN_PACE_MIN ≤ m → (paced l c m s).get Reg.EXEC_PACE_MIN_PACE_MIN = s.get Reg.EXEC_PACE_MIN_PACE_MIN) ∧
    EventsOnly s (paced l c m s) ∧ KeepsBut [.bank, .net, .outbox] s (paced l c m s) := by
  have hs : satTo 16 m = m := satTo_of_lt hm
  obtain ⟨ho, hk⟩ := paceKept_only l c m (paceShown m s)
  refine ⟨?_, ?_, fun h => ?_, fun h => ?_, ?_, ?_⟩
  · rw [paced_get _ _ _ _ (by decide) (by decide) (by decide) (by decide), paceKept_get _ _ _ _ (by decide) (by decide) (by decide), paceShown,
      State.get_put_ne _ _ (by decide), State.get_put_of_lt s (satTo_lt 16 m), hs]
  · rw [paced_get _ _ _ _ (by decide) (by decide) (by decide) (by decide), paceKept_get _ _ _ _ (by decide) (by decide) (by decide), paceShown,
      State.get_put_of_lt _ (satTo_lt 16 _)]
  · obtain ⟨h1, h2, h3⟩ := paceKept_low (s := paceShown m s) (by rw [hs, paceShown_min]; exact h) hl hc
    rw [paced_get _ _ _ _ (by decide) (by decide) (by decide) (by decide), paced_get _ _ _ _ (by decide) (by decide) (by decide) (by decide),
      paced_get _ _ _ _ (by decide) (by decide) (by decide) (by decide)]
    exact ⟨h1.trans hs, h2, h3⟩
  · rw [paced_get _ _ _ _ (by decide) (by decide) (by decide) (by decide), paceKept, if_neg (by rw [hs, paceShown_min]; omega), paceShown_min]
  · exact (EventsOnly.trans (.of_eq rfl rfl) ho).trans ((State.raiseIf_only _ _ _).trans (State.raiseIf_only _ _ _))
  · exact .trans (.put (.put (.refl _ s) _ _) _ _) ((hk.mono (by decide)).trans ((State.raiseIf_keeps _ _ _).trans (State.raiseIf_keeps _ _ _)))

end Sys2Proof.Machine

open Sys2Proof Sys2Proof.Machine

/-- Settles O27: the freeze and the two release modes by their guards; closure step 2 on the pair's part, which posting leaves but for a frame number. -/
theorem cycleOfATask : Obligations.CycleOfATask := by
  unfold Obligations.CycleOfATask
  refine ⟨⟨fun i s hm hc hf hl hh => ?_, fun s hm hd => ?_, fun i c s hm hc ht hp ha => ⟨?_, ?_⟩, fun i c s hm hc ht hp ha => ⟨fun hb => ?_, fun hb => ?_, ?_⟩⟩,
    fun i s _ => ?_⟩
  · have hall : (List.range i.val).all (fun j => !s.mayFreeze j) = true := by
      simp only [List.all_eq_true, List.mem_range]
      intro j hj
      simp [hl j hj]
    refine .pos_keeps rfl (by simp [running_of hm hc, hf, hall, hh]) fun hk => ⟨fun h => if_neg (by simp [h]), fun h => if_pos h, ?_, ?_⟩
    · exact (hk.mode (of_decide_eq_true rfl)).trans hm
    · exact hk.claim (of_decide_eq_true rfl)
  · exact .of_eq (t := execApplyHeld s) (congrArg _ ((if_neg (by simp [State.running, hm])).trans (if_pos ⟨hm, rfl, hd⟩))) rfl
  · refine .of_eq (t := releaseCycle i s) ?_ ⟨rfl, fun h => ?_⟩
    · simp [exec, execClosureRelease, ht, running_of hm hc, hp, ha]
    · exact releaseCycle_task h s
  · exact .of_eq (by simp [exec, execAlignedRelease, ht, ha]) rfl
  · exact .of_eq (by simp [exec, execAlignedRelease, ht, running_of hm hc, hp, ha, hb]) rfl
  · exact .of_eq (by simp [exec, execAlignedRelease, ht, hb]) rfl
  · exact .of_eq (by simp [exec, execClosureRelease, ht, ha]) rfl
  · obtain ⟨hp, hq⟩ := partnered_of_offTx (withDelta_offTx i s)
    rw [closureStep2_eq, hp]
    cases s.partnered with
    | true =>
      obtain ⟨h1, h2, h3, h4⟩ := awaitsAck_parts i (deltaOf i (settled i s)) (withDelta i (settled i s))
      rw [if_pos rfl]
      exact ⟨h1.trans hq, fun _ => ⟨h2, h3, h4⟩, fun h => absurd h (by decide)⟩
    | false =>
      obtain ⟨h1, h2⟩ := goesOnAlone_pair i (deltaOf i (settled i s)) (withDelta i (settled i s))
      rw [if_neg (by decide)]
      exact ⟨h1.trans hq, fun h => absurd h (by decide), fun _ => h2⟩

/-- Settles O28: the overrun is recorded before HALT, which keeps the record; the pace monitor writes three registers and the lowest pace. -/
theorem overrunAndPace : Obligations.OverrunAndPace := by
  unfold Obligations.OverrunAndPace
  refine ⟨fun i l c s hm hc ht hp ha => ⟨fun hb => ?_, fun hb => ?_⟩, fun l c m s hm hl hc hlt => ?_⟩
  · let v : State := { s with mram := { s.mram with overrun := some (i.val, s.overrunPhase i, l.val, (s.task i).cycle % 65536) } }
    let u : State := (markOverran i v).raise Ev.EXEC_OVERRUN
    have hk := (markOverran_moves i (fun _ h => h) (.refl _ v)).keeps
    have hum : u.mode = .starting ∨ u.mode = .standby ∨ u.mode = .active := .inr (.inr ((State.raise_mode _ _).trans (hk.mode.trans hm)))
    have hmr : u.mram = (markOverran i v).mram := State.raise_mram _ _
    refine .of_eq (t := enterHalt 1 u) ?_ ⟨enterHalt_in_mode 1 hum, enterHalt_in_drive 1 hum, ?_⟩
    · have hg : (s.running && decide ((s.task i).phase ≠ .idle) && !(c.aligned && decide ((s.task i).phase = .ready)) && s.budgetOver i c) = true := by
        rcases ha with ha | ha <;> simp [running_of hm hc, hp, ha, hb]
      simp only [exec, execOverrunWatchdog, ht]
      exact congrArg _ (if_pos hg)
    · rw [enterHalt_in_mram 1 hum, hmr]
      exact ⟨rfl, rfl, rfl, rfl⟩
  · exact .of_eq (by simp [exec, execOverrunWatchdog, ht, hb]) rfl
  · refine .of_eq (t := paced l c m s) (paced_of hm) ?_
    exact paced_parts hl hc hlt s

end

section
/-! SUPPORT. Gates, barriers and checkpoints of a lane (R121, R164 to R184). -/

set_option Elab.async false

namespace Sys2Proof.Machine

open Sys2Proof

theorem KeepsBut.setLane {l : List Part} (s : State) (n : Nat) (x : Lane) (h : Part.lanes ∈ l := by decide) : KeepsBut l s (s.setLane n x) :=
  (Moves.set_lanes _ h (.refl l s)).keeps

/-! A lane retired stays out of the healthy ones (R180). -/

theorem enterHalt_retired (r : Nat) (s : State) (n : Nat) : ((enterHalt r s).lane n).retired = (s.lane n).retired := by
  by_cases h : s.mode = .starting ∨ s.mode = .standby ∨ s.mode = .active
  · rw [enterHalt_in r h, State.lane_congr (refreshOutputs_keeps _).lanes]
    refine (congrArg Lane.retired (State.lane_congr ((setMode_keeps _ _).lanes.trans (dropClaim_keeps _).lanes) n)).trans ?_
    refine (congrArg Lane.retired (stopLanes_lane (haltRecorded r s) n)).trans (Eq.trans (b := ((haltRecorded r s).lane n).retired) rfl ?_)
    exact congrArg Lane.retired (State.lane_congr (haltRecorded_keeps r s).lanes n :)
  · rw [show enterHalt r s = s from if_neg h]

/-- A lane marked as retired. -/
def retiredLane (l : Lane) : Lane :=
  { l with
    retired := true, task := none, block := none, waiting := false, mismatch := none, gateLog := [], gotA := [], gotB := [], asLane := none, restartOn := []
    starting := false, dueRetire := false }

theorem retireMark_lane (n : Nat) (s : State) : (retireMark n s).lane n = retiredLane (s.lane n) := State.lane_setLane s n (retiredLane (s.lane n))

theorem retireMark_retired (n : Nat) (s : State) : ((retireMark n s).lane n).retired = true := by
  rw [retireMark_lane]
  rfl

theorem retired_of_halt {c : Prop} [Decidable c] {r n : Nat} {s : State} (h : (s.lane n).retired = true) :
    ((if c then enterHalt r s else s).lane n).retired = true := by
  split
  · rw [enterHalt_retired, h]
  · exact h

theorem retired_of_halt' {c : Prop} [Decidable c] {r n : Nat} {s : State} (h : (s.lane n).retired = true) :
    ((if c then s else enterHalt r s).lane n).retired = true := by
  split
  · exact h
  · rw [enterHalt_retired, h]

theorem raised_retired {n : Nat} {s : State} (h : (s.lane n).retired = true) (e : EvBit) : ((s.raise e).lane n).retired = true := by
  rwa [State.lane_congr (State.raise_lanes s e)]

theorem raisedIf_retired {n : Nat} {s : State} (h : (s.lane n).retired = true) (c : Bool) (e : EvBit) : ((s.raiseIf c e).lane n).retired = true := by
  rwa [State.lane_congr (State.raiseIf_lanes s c e)]

theorem retireIdle_retired (n : Nat) (kinds : List Nat) (diff : Nat) (s : State) : ((retireIdle n kinds diff s).lane n).retired = true :=
  retired_of_halt (raisedIf_retired (raisedIf_retired (raised_retired (retireMark_retired n _) _) _ _) _ _)

theorem retireServing_retired (n i : Nat) (kinds : List Nat) (diff : Nat) (p : FaultAt) (s : State) : ((retireServing n i kinds diff p s).lane n).retired = true :=
  retired_of_halt' (raisedIf_retired (raised_retired (retireMark_retired n _) _) _ _)

theorem retireLane_retired (n : Nat) (kinds : List Nat) (diff : Nat) (p : FaultAt) (s : State) : ((retireLane n kinds diff p s).lane n).retired = true := by
  unfold retireLane
  split
  · split
    · exact retireServing_retired _ _ _ _ _ _
    · exact retireIdle_retired _ _ _ _
  · exact retireIdle_retired _ _ _ _

theorem not_mem_healthy {n : Nat} {s : State} (h : (s.lane n).retired = true) : n ∉ s.healthy := by
  simp [State.healthy, State.laneOk, h]

theorem retireLane_not_healthy (n : Nat) (kinds : List Nat) (diff : Nat) (p : FaultAt) (s : State) : n ∉ (retireLane n kinds diff p s).healthy :=
  not_mem_healthy (retireLane_retired n kinds diff p s)

/-! The input gate (R173, R174, R178). -/

theorem mismatchAt_lane (n diff kind : Nat) (s : State) :
    (mismatchAt n diff kind s).lane n =
      { s.lane n with mismatch := some ⟨diff, kind, s.ts, (s.lane n).ckpt⟩, shadowB := (s.lane n).shadowA, gotA := [], gotB := [] } :=
  State.lane_setLane _ _ _

theorem gatedRead_runs {lane : Fin 16} {copy : Fin 2} {request sample : DWord} {s t : State} (h : s.laneRuns lane ≠ none)
    (ht : (match (s.lane lane).gateLog[(gotOf copy (s.lane lane)).length]? with
      | some e =>
        if e.request = request then s.setLane lane (giveValue copy request e.value (s.lane lane))
        else (match (s.lane lane).mismatch with
          | none => (mismatchAt lane 8 6 s).raise Ev.CMP_GATE_DIVERGE
          | some m => retireLane lane (mismatchKinds { m with kind := 6 } 2) (8 + m.diff / 128 * 128) ⟨(s.lane lane).block.getD 0, m.ckpt, m.time⟩
              (s.raise Ev.CMP_GATE_DIVERGE))
      | none =>
        if (s.lane lane).gateLog.length < 256 then
          s.setLane lane (giveValue copy request sample { s.lane lane with gateLog := (s.lane lane).gateLog ++ [⟨request, sample⟩] })
        else s) = t) : exec (.gatedRead lane copy request sample) s = .next t := by
  rw [← ht]
  exact congrArg _ (if_neg (by simpa using h))

/-! Checkpoints (R169, R170, R177). -/

theorem laneRuns_active {n i : Nat} {s : State} (h : s.laneRuns n = some i) : s.mode = .active := by
  unfold State.laneRuns at h
  simp only [] at h
  split at h
  · next hr =>
    simp only [State.running, Bool.and_eq_true, decide_eq_true_eq] at hr
    exact hr.1.1.1.1.1
  · cases h

theorem noteLag_keeps (c : Checkpoint) (s : State) : KeepsBut [.bank] s (noteLag c s) := (noteLag_moves c (fun _ h => h) (.refl _ s)).keeps

theorem noteLag_ts (c : Checkpoint) (s : State) : (noteLag c s).ts = s.ts := by rw [State.ts, (noteLag_keeps c s).time, State.ts]

theorem noteLag_lane (c : Checkpoint) (s : State) (n : Nat) : (noteLag c s).lane n = s.lane n := State.lane_congr (noteLag_keeps c s).lanes n

theorem exec_checkpoint {c : Checkpoint} {i : Nat} {s : State} (hr : s.laneRuns c.lane = some i) :
    exec (.checkpoint c) s = .next (if (s.lane c.lane).mismatch.isSome ∨ (s.lane c.lane).block ≠ some c.block ∨ !s.ckptFalls c then s
      else if s.flaky c.lane then retireLane c.lane [3] 0 (s.faultNow c.lane) (noteLag c s) else firstCompare i c (noteLag c s)) := by
  simp only [exec, execCheckpoint, hr]

theorem firstCompare_refused {i : Nat} {c : Checkpoint} {s : State} (h : s.bothRefused c = true) :
    firstCompare i c s = enterHalt 7 (noteRefusals c s) := if_pos h

theorem firstCompare_clean {i : Nat} {c : Checkpoint} {s : State} (h1 : s.bothRefused c = false) (h2 : s.oneRefused c = false)
    (h3 : s.injected c.lane = (false, false)) (h4 : s.compareAt c (false, false) = 0) : firstCompare i c s = commitCheckpoint i c s := by
  simp [firstCompare, h1, h2, h3, h4]

theorem firstCompare_differs {i : Nat} {c : Checkpoint} {s : State} (h1 : s.bothRefused c = false) (h2 : s.oneRefused c = false)
    (h3 : s.injected c.lane = (false, false)) (h4 : s.compareAt c (false, false) ≠ 0) :
    firstCompare i c s = mismatchAt c.lane (s.compareAt c (false, false)) 1 s := by
  simp [firstCompare, h1, h2, h3, h4, b2n]

theorem exec_reexecutionCompare {c : Checkpoint} {i : Nat} {m : Mismatch} {s : State} (hr : s.laneRuns c.lane = some i)
    (hm : (s.lane c.lane).mismatch = some m) :
    exec (.reexecutionCompare c) s = .next (if (s.lane c.lane).block ≠ some c.block ∨ !s.ckptFalls c then s else secondCompare i c m (noteLag c s)) := by
  simp only [exec, execReexecutionCompare, hr, hm]

theorem secondCompare_unarmed {i : Nat} {c : Checkpoint} {m : Mismatch} {s : State} (hd : m.diff < 128) (h1 : s.bothRefused c = false)
    (h2 : s.oneRefused c = false) (h3 : s.injected c.lane = (false, false)) :
    secondCompare i c m s =
      if s.compareAt c (false, false) = 0 then commitCheckpoint i c (recordRecovered i c.lane m.diff m s)
      else retireLane c.lane (mismatchKinds m 2) (s.compareAt c (false, false)) ⟨c.block, m.ckpt, m.time⟩ s := by
  simp [secondCompare, h1, h2, h3, Nat.not_le.2 hd, Nat.mod_eq_of_lt hd]

theorem b2n_eq_zero {b : Bool} (h : b2n b = 0) : b = false := by
  cases b <;> first | rfl | exact absurd h (by decide)

end Sys2Proof.Machine

open Sys2Proof Sys2Proof.Machine

/-- Settles O29: what a lane reads, the checkpoint's branches by their causes, and what an equal comparison says of the two copies. -/
theorem lanesCompared : Obligations.LanesCompared := by
  unfold Obligations.LanesCompared
  refine ⟨⟨fun l k q v s hr hg => ⟨fun h => ?_, fun h => ?_⟩, fun l k q v e s hr hg => ⟨fun h => ?_, fun h hm => ?_, fun m h hm => ?_⟩,
    fun l i b s ht hb hw => ⟨fun h => ?_, fun h => ?_⟩, fun l s h => ?_⟩,
    fun c i s hr hm hb => ⟨fun h => ?_, fun h hf => ?_, fun h hf h1 h2 h3 => ⟨fun h4 => ?_, fun h4 => ?_⟩, fun h hf h1 => ?_⟩,
    fun c i m s hr hm hb hf hd h3 h1 h2 => ⟨fun h4 => ?_, fun h4 => ?_⟩, fun a b h => ?_⟩
  · refine .of_eq (gatedRead_runs hr ?_) ⟨State.lane_setLane s l.val _, .setLane s l.val _⟩
    rw [hg]
    exact if_pos h
  · refine .of_eq (gatedRead_runs hr ?_) rfl
    rw [hg]
    exact if_neg (Nat.not_lt.2 h)
  · refine .of_eq (gatedRead_runs hr ?_) ⟨State.lane_setLane s l.val _, .setLane s l.val _⟩
    rw [hg]
    exact if_pos h
  · refine .of_eq (t := (mismatchAt l 8 6 s).raise Ev.CMP_GATE_DIVERGE) (gatedRead_runs hr ?_) ⟨?_, ?_⟩
    · rw [hg, hm]
      exact if_neg h
    · rw [State.lane_congr (State.raise_lanes _ _), mismatchAt_lane]
    · exact .of (by decide) (.of_bank rfl) (State.get_congr rfl _) (.of_eq rfl rfl) (.setLane s l.val _)
  · refine .of_eq (gatedRead_runs hr ?_) (retireLane_not_healthy l.val (mismatchKinds { m with kind := 6 } 2) (8 + m.diff / 128 * 128)
      ⟨(s.lane l).block.getD 0, m.ckpt, m.time⟩ (s.raise Ev.CMP_GATE_DIVERGE))
    rw [hg, hm]
    exact if_neg h
  · refine .of_eq (t := s.setLane l.val { s.lane l with waiting := false, since := s.time.ran }) ?_ ⟨State.lane_setLane s l.val _, .setLane s l.val _⟩
    simp only [exec, execBarrierRelease, ht, hb, hw, h, Bool.and_self, if_true]
  · refine .of_eq ?_ rfl
    simp only [exec, execBarrierRelease, ht, hb, h, Bool.and_false, Bool.false_eq_true, if_false]
  · exact .pos rfl h ⟨State.lane_setLane s l.val _, .setLane s l.val _⟩
  · exact .pos (exec_checkpoint hr) (.inr (.inr (by simp [h]))) rfl
  · exact .of_eq ((exec_checkpoint hr).trans (congrArg _ ((if_neg (by simp [hm, hb, h])).trans (if_pos hf)))) rfl
  · exact .of_eq ((exec_checkpoint hr).trans (congrArg _ ((if_neg (by simp [hm, hb, h])).trans ((if_neg (by simp [hf])).trans (firstCompare_clean h1 h2 h3 h4))))) rfl
  · refine .of_eq ((exec_checkpoint hr).trans (congrArg _ ((if_neg (by simp [hm, hb, h])).trans ((if_neg (by simp [hf])).trans (firstCompare_differs h1 h2 h3 h4))))) ⟨?_, ?_⟩
    · rw [mismatchAt_lane, noteLag_lane, noteLag_ts]
    · exact ((noteLag_keeps c s).mono (by decide)).trans (.setLane (noteLag c s) c.lane _)
  · have hm' : (noteRefusals c (noteLag c s)).mode = .starting ∨ (noteRefusals c (noteLag c s)).mode = .standby ∨ (noteRefusals c (noteLag c s)).mode = .active := by
      rw [(noteRefusals_moves c (fun _ h => h) (.refl _ _)).keeps.mode, (noteLag_keeps c s).mode]
      exact .inr (.inr (laneRuns_active hr))
    exact .of_eq ((exec_checkpoint hr).trans (congrArg _ ((if_neg (by simp [hm, hb, h])).trans ((if_neg (by simp [hf])).trans (firstCompare_refused h1)))))
      ⟨enterHalt_in_mode 7 hm', enterHalt_in_drive 7 hm'⟩
  · exact .of_eq ((exec_reexecutionCompare hr hm).trans (congrArg _ ((if_neg (by simp [hb, hf])).trans ((secondCompare_unarmed hd h1 h2 h3).trans (if_pos h4))))) rfl
  · exact .of_eq ((exec_reexecutionCompare hr hm).trans (congrArg _ ((if_neg (by simp [hb, hf])).trans ((secondCompare_unarmed hd h1 h2 h3).trans (if_neg h4)))))
      ⟨rfl, retireLane_not_healthy _ _ _ _ _⟩
  · simp only [compareCopies, Bool.false_eq_true, if_false, Nat.add_eq_zero_iff, Nat.mul_eq_zero, OfNat.ofNat_ne_zero, false_or] at h
    obtain ⟨⟨⟨h1, h2⟩, h3⟩, h4⟩ := h
    refine ⟨?_, ?_, ?_, ?_⟩
    · simpa using b2n_eq_zero h1
    · simpa using b2n_eq_zero h2
    · simpa using b2n_eq_zero h3
    · simpa using b2n_eq_zero h4

end

section
/-! SUPPORT. The peak load of a task (04 EXEC registers, R409): a write keeps the bits of the field only. -/

set_option Elab.async false

namespace Sys2Proof.Machine

open Sys2Proof

/-- What CLEAR_MAX leaves in MAX_PM: the ten bits that the field holds of what stood in LAST_PM. -/
theorem clearMaxWrite_get (i : Nat) (s : State) :
    (clearMaxWrite i s).get (Reg.EXEC_TASK_LOAD_MAX_PM i) = s.get (Reg.EXEC_TASK_LOAD_LAST_PM i) % 2 ^ 10 :=
  State.get_put_self _ _ _

/-- A module in STANDBY whose bank holds 2000 where LAST_PM of task 0, a field of ten bits, stands. -/
def overfullLastPm : State := { State.reset with mode := .standby, bank := [(32 * 0x20114, 2000)] }

theorem exec_clearMax_overfull : exec (.clearMax (.mgmt 0) 0) overfullLastPm = .next (clearMaxWrite 0 overfullLastPm) := rfl

end Sys2Proof.Machine

open Sys2Proof Sys2Proof.Machine

/-- Refutes O30: its clearMax clause takes LAST_PM over whole in every state, but a state of the model's type may hold more than the ten bits of the
field there, which no `State.put` leaves. Where it holds 2000, CLEAR_MAX writes 976 (`clearMaxWrite_get`). -/
theorem not_memoryErrorsAndComparison : ¬ Obligations.MemoryErrorsAndComparison := by
  intro h
  obtain ⟨-, hclear, -⟩ := h
  obtain ⟨t, he, hpm, -⟩ := (hclear (.mgmt 0) 0 overfullLastPm (by decide)).1 rfl
  obtain rfl : clearMaxWrite 0 overfullLastPm = t := Host.Outcome.next.inj (exec_clearMax_overfull.symm.trans he)
  rw [show ((0 : Fin 8) : Nat) = 0 from rfl, clearMaxWrite_get] at hpm
  exact absurd hpm (by decide)

end

section
/-! SUPPORT. A pass of the signal box and its vote (R259, R265 to R267). -/

set_option Elab.async false

namespace Sys2Proof.Machine

open Sys2Proof

/-- The end of a vote: the evaluators' events, the results carried on to the outputs and the publications, and the recorder's triggers. -/
def voteEnd (old : Tab EqState) (transient failed : List Nat) (lost : Bool) (s : State) : State :=
  eqTriggers old (sbxSettle old
    ((forEach failed (fun _ s => s.raise Ev.SBX_SBX_EVAL_FAULT) (forEach transient (fun _ s => s.raise Ev.SBX_SBX_TRANSIENT) s)).raiseIf lost Ev.SBX_SBX_VOTE_LOST))

theorem voteEnd_keeps (old : Tab EqState) (transient failed : List Nat) (lost : Bool) (s : State) :
    KeepsBut [.bank, .heldWrites, .chans, .acq, .net, .mil, .outbox] s (voteEnd old transient failed lost s) := by
  have hraise (e : EvBit) (l : List Nat) (u : State) : KeepsBut [.bank, .net, .outbox] u (forEach l (fun _ s => s.raise e) u) :=
    forEach_keeps (P := KeepsBut [.bank, .net, .outbox] u) (fun _ x h => h.trans (State.raise_keeps x e)) l (.refl _ u)
  have hev := ((hraise Ev.SBX_SBX_TRANSIENT transient s).trans (hraise Ev.SBX_SBX_EVAL_FAULT failed _)).trans (State.raiseIf_keeps _ lost Ev.SBX_SBX_VOTE_LOST)
  have hset (u : State) := (sbxSettle_moves old (fun _ h => h) (.refl _ u)).keeps
  exact ((hev.mono (by decide)).trans ((hset _).mono (by decide))).trans ((eqTriggers_moves old (fun _ h => h) (.refl _ _)).keeps.mono (by decide))

/-- A timer fault that leaves fewer than two evaluators loses the vote, and the module goes to HALT with reason 3. -/
theorem sbxVote_lost (flips : List (Nat × Nat)) {tf : List Nat} {s : State} (hbad : s.sbox.evalOk.filter (fun i => decide (i ∈ tf)) ≠ [])
    (htwo : s.sbox.evalOk.length - (s.sbox.evalOk.filter (fun i => decide (i ∈ tf))).length < 2) :
    ∃ u, sbxVote flips tf s = enterHalt 3 u ∧ u.mode = s.mode :=
  ⟨_, if_pos (by simp [hbad, htwo]), (voteEnd_keeps _ _ _ _ _).mode⟩

/-- Without equations, timer faults and evaluators outvoted before, the vote finds nothing. -/
theorem sbxVote_calm (flips : List (Nat × Nat)) {s : State} (he : s.sbox.table.equations = []) (ho : s.sbox.outvoted = []) :
    ∃ x : Sbox, x.evalOk = s.sbox.evalOk ∧ x.resets = [] ∧ sbxVote flips [] s = voteEnd s.sbox.voted [] [] false { s with sbox := x } := by
  refine ⟨{ s.sbox with voted := [], dispute := [], outvoted := [], voteLost := s.sbox.voteLost || false, resets := [] }, rfl, rfl, ?_⟩
  simp [sbxVote, voteEnd, he, ho]

/-- The snapshot of a pass: the held writes, and the levels of the comparators. -/
def sbxSnapshot (levels : List (Nat × Int)) (s : State) : State := forEach levels (fun e s => acmpLevel e.1 e.2 s) (sbxTakeHeld s)

/-- The three evaluators run over the table. -/
def sbxEvaluate (s : State) : State :=
  { s with sbox := { s.sbox with eval0 := if 0 ∈ s.sbox.evalOk then evalTable s s.sbox.eval0 else s.sbox.eval0,
                                 eval1 := if 1 ∈ s.sbox.evalOk then evalTable s s.sbox.eval1 else s.sbox.eval1,
                                 eval2 := if 2 ∈ s.sbox.evalOk then evalTable s s.sbox.eval2 else s.sbox.eval2 } }

theorem sbxPassBody_eq (levels : List (Nat × Int)) (flips : List (Nat × Nat)) (tf : List Nat) (s : State) :
    sbxPassBody levels flips tf s = sbxVote flips tf (sbxEvaluate (sbxSnapshot levels s)) := rfl

/-- A level moves a comparator's state only: table, evaluators and results stay. -/
theorem acmpLevel_sbox (ch : Nat) (level : Int) (s : State) :
    (acmpLevel ch level s).sbox.table = s.sbox.table ∧ (acmpLevel ch level s).sbox.outvoted = s.sbox.outvoted ∧
      (acmpLevel ch level s).sbox.evalOk = s.sbox.evalOk := by
  unfold acmpLevel
  simp only []
  split <;> exact ⟨rfl, rfl, rfl⟩

theorem sbxSnapshot_sbox (levels : List (Nat × Int)) (s : State) :
    (sbxSnapshot levels s).sbox.table = s.sbox.table ∧ (sbxSnapshot levels s).sbox.outvoted = s.sbox.outvoted ∧
      (sbxSnapshot levels s).sbox.evalOk = s.sbox.evalOk :=
  forEach_keeps (P := fun u : State => u.sbox.table = s.sbox.table ∧ u.sbox.outvoted = s.sbox.outvoted ∧ u.sbox.evalOk = s.sbox.evalOk)
    (fun e x h => ⟨(acmpLevel_sbox e.1 e.2 x).1.trans h.1, (acmpLevel_sbox e.1 e.2 x).2.1.trans h.2.1, (acmpLevel_sbox e.1 e.2 x).2.2.trans h.2.2⟩)
    levels ⟨rfl, rfl, rfl⟩

theorem sbxSnapshot_mode (levels : List (Nat × Int)) (s : State) : (sbxSnapshot levels s).mode = s.mode :=
  forEach_keeps (P := fun u : State => u.mode = s.mode) (fun e x h => (acmpLevel_moves e.1 e.2 (fun _ h => h) (.refl _ x)).keeps.mode.trans h) levels
    (sbxTakeHeld_moves (fun _ h => h) (.refl _ s)).keeps.mode

/-- A pass in ACTIVE with two of three timers faulty takes the module to HALT. -/
theorem sbxPassBody_two_faults (levels : List (Nat × Int)) (flips : List (Nat × Nat)) {s : State} (hm : s.mode = .active) (ho : s.sbox.evalOk = [0, 1, 2]) :
    (sbxPassBody levels flips [0, 1] s).mode = .halt ∧ (sbxPassBody levels flips [0, 1] s).claim.drive = false ∧
      (sbxPassBody levels flips [0, 1] s).mram.haltReason = 3 := by
  have hok : (sbxEvaluate (sbxSnapshot levels s)).sbox.evalOk = [0, 1, 2] := (sbxSnapshot_sbox levels s).2.2.trans ho
  obtain ⟨u, hu, hum⟩ := sbxVote_lost flips (tf := [0, 1]) (s := sbxEvaluate (sbxSnapshot levels s)) (by rw [hok]; decide) (by rw [hok]; decide)
  have hin : u.mode = .starting ∨ u.mode = .standby ∨ u.mode = .active := .inr (.inr ((hum.trans (sbxSnapshot_mode levels s)).trans hm))
  rw [sbxPassBody_eq, hu, enterHalt_in_mram 3 hin]
  exact ⟨enterHalt_in_mode 3 hin, enterHalt_in_drive 3 hin, rfl⟩

/-- A pass over an empty table changes neither the mode nor the evaluators, and takes the resets. -/
theorem sbxPassBody_empty (levels : List (Nat × Int)) (flips : List (Nat × Nat)) {s : State} (he : s.sbox.table.equations = []) (ho : s.sbox.outvoted = []) :
    (sbxPassBody levels flips [] s).mode = s.mode ∧ (sbxPassBody levels flips [] s).sbox.evalOk = s.sbox.evalOk ∧
      (sbxPassBody levels flips [] s).sbox.resets = [] := by
  obtain ⟨htab, hout, hok⟩ := sbxSnapshot_sbox levels s
  obtain ⟨x, hx, hr, hv⟩ := sbxVote_calm flips (s := sbxEvaluate (sbxSnapshot levels s)) ((congrArg BoxCfg.equations htab).trans he) (hout.trans ho)
  rw [sbxPassBody_eq, hv, (voteEnd_keeps _ _ _ _ _).mode, (voteEnd_keeps _ _ _ _ _).sbox]
  exact ⟨sbxSnapshot_mode levels s, hx.trans hok, hr⟩

/-! The timers and the latch of an equation (R259). -/

theorem eqNext_unarmed (cond latch reset : Bool) (pk dr now : Nat) (x : EqState) :
    (eqNext false cond latch reset pk dr now x).result = false ∧ (eqNext false cond latch reset pk dr now x).latched = false := ⟨rfl, rfl⟩

theorem eqNext_picked (latch reset : Bool) {pk dr now since : Nat} {x : EqState} (ht : x.trueSince = some since) (hp : pk ≤ now - since) :
    (eqNext true true latch reset pk dr now x).result = true ∧ (eqNext true true latch reset pk dr now x).latched = latch := by
  simp [eqNext, ht, hp]

theorem eqNext_latched (latch : Bool) (pk dr now : Nat) {x : EqState} (hl : x.latched = true) :
    (eqNext true false latch false pk dr now x).result = true ∧ (eqNext true false latch true pk dr now x).latched = false := by
  simp [eqNext, hl]

theorem eqNext_dropout (latch reset : Bool) (pk : Nat) {dr now since : Nat} {x : EqState} (hl : x.latched = false) (hf : x.falseSince = some since) :
    (eqNext true false latch reset pk dr now x).result = (x.result && decide (now - since < dr * 1000)) := by
  simp [eqNext, hl, hf, ← decide_not]

end Sys2Proof.Machine

open Sys2Proof Sys2Proof.Machine

/-- Settles O31: the vote is decided by the evaluators that are left once the timer faults are counted; the timers of an equation by its definition. -/
theorem signalBoxPass : Obligations.SignalBoxPass := by
  unfold Obligations.SignalBoxPass
  refine ⟨⟨fun levels flips tf s hr => .pos rfl hr ⟨rfl, fun hm ht ho => ?_, fun he ho ht => ?_⟩, fun levels flips tf s hr => .neg rfl (by simp [hr]) rfl,
    by decide, by decide⟩, eqNext_unarmed, fun latch reset pk dr now since x ht hp => eqNext_picked latch reset ht hp,
    fun latch pk dr now x hl => eqNext_latched latch pk dr now hl, fun latch reset pk dr now since x hl hf => eqNext_dropout latch reset pk hl hf⟩
  · rw [ht]
    exact sbxPassBody_two_faults levels flips hm ho
  · rw [ht]
    exact sbxPassBody_empty levels flips he ho

end

section
/-! SUPPORT. The commands of the signal box (R259, R262, R263, R266, R273). -/

set_option Elab.async false

namespace Sys2Proof.Machine

open Sys2Proof

/-- An event raised after a change of parts that hold neither registers nor sessions nor messages. -/
theorem RaisedBut.after {e : EvBit} {ps : List Part} {s x : State} (hb : e.bit < 16) (hk : KeepsBut ps s x) (h1 : Part.bank ∉ ps := by decide)
    (h2 : Part.outbox ∉ ps := by decide) (h3 : Part.net ∉ ps := by decide) : RaisedBut e [] ps s (x.raise e) :=
  .of hb (.of_bank (hk.bank h1)) (State.get_congr (hk.bank h1) _) (.of_eq (hk.outbox h2) (hk.net h3)) (hk.mono fun _ h => List.mem_append_right _ h)

theorem KeepsBut.set_sbox {l : List Part} (s : State) (x : Sbox) (h : Part.sbox ∈ l := by decide) : KeepsBut l s { s with sbox := x } :=
  (Moves.set_sbox x h (.refl l s)).keeps

theorem Tab.getD_update_self {α : Type} [DecidableEq α] (d : α) (t : Tab α) (i : Nat) (f : α → α) : Tab.getD (Tab.update d t i f) i d = f (Tab.getD t i d) :=
  Tab.getD_put_self _ _ _ _

theorem sbxSettle_keeps (old : Tab EqState) (s : State) : KeepsBut [.bank, .heldWrites, .chans, .net, .mil, .outbox] s (sbxSettle old s) :=
  (sbxSettle_moves old (fun _ h => h) (.refl _ s)).keeps

theorem eqEverywhere_keeps (e : Nat) (f : EqState → EqState) (s : State) : KeepsBut [.sbox] s (eqEverywhere e f s) := .set_sbox s _

theorem eqEverywhere_voted (e : Nat) (f : EqState → EqState) (s : State) :
    Tab.getD (eqEverywhere e f s).sbox.voted e EqState.reset = f (Tab.getD s.sbox.voted e EqState.reset) := Tab.getD_update_self _ _ _ _

/-- A timer of an equation that ends: its state is moved in the vote and in the evaluators, and nothing of the mode or the control set. -/
theorem sbxSettle_eqEverywhere (old : Tab EqState) (e : Nat) (f : EqState → EqState) (s : State) :
    Tab.getD (sbxSettle old (eqEverywhere e f s)).sbox.voted e EqState.reset = f (Tab.getD s.sbox.voted e EqState.reset) ∧
      (sbxSettle old (eqEverywhere e f s)).mode = s.mode ∧ (sbxSettle old (eqEverywhere e f s)).ctl = s.ctl := by
  rw [(sbxSettle_keeps old _).sbox, (sbxSettle_keeps old _).mode, (sbxSettle_keeps old _).ctl]
  exact ⟨eqEverywhere_voted e f s, rfl, rfl⟩

theorem exec_pickupExpiry {e : Fin 512} {c : EqCfg} {s : State} (hc : s.eqCfg e = some c) :
    exec (.pickupExpiry e) s = .next (if s.sbxRuns && s.eqArmed e && s.lasted (s.eqPickupUs e) (Tab.getD s.sbox.voted e EqState.reset).trueSince then
      sbxSettle s.sbox.voted (eqEverywhere e (fun x => { x with result := true, latched := c.latch }) s) else s) := by
  show execPickupExpiry e s = _
  unfold execPickupExpiry
  simp only [hc]

theorem svcFail_first {c : Nat} {s : State} (h : (Tab.getD s.sbox.svc c SvcState.reset).failed = false) :
    (Tab.getD (svcFail c s).sbox.svc c SvcState.reset).failed = true ∧ (Tab.getD (svcFail c s).sbox.svc c SvcState.reset).goodRun = 0 ∧
      RaisedBut Ev.SBX_SVCMP_FAIL [] [.sbox] s (svcFail c s) := by
  simp only [svcFail, h, Bool.false_eq_true, if_false, State.raise_sbox, Tab.getD_put_self]
  exact ⟨trivial, trivial, .after (by decide) (.set_sbox s _)⟩

end Sys2Proof.Machine

open Sys2Proof Sys2Proof.Machine

/-- Settles O32: each command runs its one effect under its guard; a timer's expiry moves the voted state through `sbxSettle_eqEverywhere`. -/
theorem signalBoxCommands : Obligations.SignalBoxCommands := by
  unfold Obligations.SignalBoxCommands
  refine ⟨fun e c s hr hc ha => ⟨fun hl => ?_, fun hl => ?_⟩, fun e s hr hl => ⟨fun hu => ?_, fun hu => ?_⟩, fun n e s hp => .pos rfl hp rfl,
    fun o e s hp ho => .pos rfl hp (if_neg (by simp [ho])), fun v s hr hv => ?_, fun c s hr ht hc hf => ?_, fun c s hr hg hf => ?_⟩
  · obtain ⟨hv, hm, hctl⟩ := sbxSettle_eqEverywhere s.sbox.voted e (fun x => { x with result := true, latched := c.latch }) s
    exact .pos (exec_pickupExpiry hc) (by simp [hr, ha, hl]) ⟨by rw [hv], by rw [hv], hm, hctl⟩
  · exact .neg (exec_pickupExpiry hc) (by simp [hl]) rfl
  · obtain ⟨hv, hm, hctl⟩ := sbxSettle_eqEverywhere s.sbox.voted e (fun x => { x with result := false }) s
    exact .pos rfl (by simp [hr, hl, hu]) ⟨by rw [hv], hm, hctl⟩
  · exact .neg rfl (by simp [hu]) rfl
  · exact .pos rfl (by simp [hr, hv]) ⟨State.raise_sbox _ _, .after (by decide) (.set_sbox s _)⟩
  · refine .pos rfl (by simp [hr, ht, hc, hf]) ⟨?_, .after (by decide) (.set_sbox s _)⟩
    rw [State.raise_sbox]
    exact Tab.getD_put_self _ _ _ _
  · exact .pos rfl (by simp [hr, hg]) (svcFail_first hf)

end

section
/-! SUPPORT. Discrete inputs and outputs (R279, R280, R282, R510). -/

set_option Elab.async false

namespace Sys2Proof.Machine

open Sys2Proof

theorem KeepsBut.setChan {l : List Part} (s : State) (n : Nat) (x : Chan) (h : Part.chans ∈ l := by decide) : KeepsBut l s (s.setChan n x) :=
  (Moves.set_chans _ h (.refl l s)).keeps

theorem markChan_keeps (n k : Nat) (s : State) : KeepsBut [.bank, .chans] s (markChan n k s) := (markChan_moves n k (fun _ h => h) (.refl _ s)).keeps

theorem markChan_chan (n k : Nat) (s : State) : (markChan n k s).chan n = { s.chan n with kind := k } :=
  Tab.getD_update_self Chan.reset s.chans n fun x => { x with kind := k }

theorem markChan_kind (n : Nat) {k : Nat} (s : State) (h : k < 2 ^ 4) : (markChan n k s).get (Reg.CH_FAULT_KIND (n / 12) (n % 12)) = k := by
  unfold markChan
  rw [State.get_put_ne _ _ (by simp only [Fld.key, Reg.CH_FAULT_MAP_LOCATED, Reg.CH_FAULT_KIND]; omega),
    State.get_put_ne _ _ (by simp only [Fld.key, Reg.CH_FAULT_CLASS, Reg.CH_FAULT_KIND]; omega)]
  exact State.get_put_of_lt _ h

/-! The commands of the discrete channels, by their guard. -/

section

variable {ch : Fin 96} {s : State}

theorem exec_diInputEdge {c : ChanCfg} (hc : s.chanCfg ch = some c) (level : Bool) :
    exec (.diInputEdge ch level) s = .next (if s.chansRun && decide (c.mode = .di) && !c.pulsed && (s.chan ch).filtered != level then
      s.setChan ch (if c.debounce = 0 then { s.chan ch with filtered := level, edgeTs := s.ts, edgeUnsync := s.unsync, stateDi := level, debouncing := false }
        else { s.chan ch with filtered := level, edgeTs := s.ts, edgeUnsync := s.unsync, debouncing := (s.chan ch).stateDi != level })
      else s) := by
  show execDiInputEdge ch level s = _
  unfold execDiInputEdge
  simp only [hc]

theorem exec_diSampleWindow {c : ChanCfg} (hc : s.chanCfg ch = some c) (steady level : Bool) :
    exec (.diSampleWindow ch steady level) s = .next (if s.chansRun && decide (c.mode = .di) && c.pulsed && steady && (s.chan ch).stateDi != level then
      s.setChan ch { s.chan ch with stateDi := level, edgeTs := s.ts, edgeUnsync := s.unsync } else s) := by
  show execDiSampleWindow ch steady level s = _
  unfold execDiSampleWindow
  simp only [hc]

/-- A stage that shuts down on temperature, in the state x: the shutdown enters the list of the last 60 s. -/
def thermalChan (s : State) (n : Nat) (x : DoState) : Chan :=
  { s.chan n with
    retrying := false, lastHeld := if (s.chan n).limitHeld s.time.tick then some s.time.tick else (s.chan n).lastHeld, offPeriods := 0
    doState := x, thermals := recent60 s.time.tick (s.chan n).thermals ++ [s.time.tick], limitSince := none
    lastLimit := if (s.chan n).doState = .limit then some s.time.tick else (s.chan n).lastLimit }

theorem exec_doThermalEnter : exec (.doThermalEnter ch) s =
    .next (if s.isDo ch && (decide ((s.chan ch).doState = .on) || decide ((s.chan ch).doState = .limit)) && (s.chan ch).hot s.time.tick then
      if 8 ≤ (recent60 s.time.tick (s.chan ch).thermals ++ [s.time.tick]).length then
        markChan ch 4 (((s.setChan ch (thermalChan s ch .locked)).raise (Ev.CH_THERMAL_SHUTDOWN (ch / 12))).raise (Ev.CH_OUTPUT_LOCKED (ch / 12)))
      else (s.setChan ch (thermalChan s ch .thermal)).raise (Ev.CH_THERMAL_SHUTDOWN (ch / 12))
    else s) := rfl

end

end Sys2Proof.Machine

open Sys2Proof Sys2Proof.Machine

/-- Settles O33: each command moves its one channel under its guard; the eighth shutdown in 60 s locks the stage (`exec_doThermalEnter`). -/
theorem discreteChannels : Obligations.DiscreteChannels := by
  unfold Obligations.DiscreteChannels
  refine ⟨⟨fun ch level c s hr hc hm hp hf => ?_, fun ch s hr hd => ?_, fun ch level c s hr hc hm hp hf => ⟨?_, ?_⟩⟩,
    fun ch s hd => ⟨fun hs => ?_, fun hs => ?_, fun hs hh => ?_, fun hs hh hl => ?_, fun hs hh hl => ?_, fun hs hc ht => ?_, fun hs hc => ?_,
      fun hs hc hn => ?_, fun hs hc hn => ?_⟩⟩
  · refine .pos (exec_diInputEdge hc level) (by simp [hr, hm, hp, hf]) ⟨.setChan s _ _, fun n hn => State.chan_setChan_ne s _ hn, fun h => ?_, fun h => ?_⟩
    · rw [State.chan_setChan, if_pos h]
    · rw [State.chan_setChan, if_neg h]
  · exact .pos rfl (by simp [hr, hd]) ⟨State.chan_setChan _ _ _, .setChan s _ _⟩
  · exact .pos (exec_diSampleWindow hc true level) (by simp [hr, hm, hp, hf]) ⟨State.chan_setChan _ _ _, .setChan s _ _⟩
  · exact .neg (exec_diSampleWindow hc false level) (by simp) rfl
  · exact .pos rfl (by simp [hd, hs]) ⟨State.chan_setChan _ _ _, .setChan s _ _⟩
  · exact .pos rfl (by simp [hd, hs]) ⟨State.chan_setChan _ _ _, .setChan s _ _⟩
  · exact .neg exec_doThermalEnter (by simp [hh]) rfl
  · refine .of_eq (exec_doThermalEnter.trans (congrArg _ ((if_pos (by simp [hd, hs, hh])).trans (if_neg (by simp; omega))))) ?_
    rw [State.chan_congr (State.raise_chans _ _), State.chan_setChan]
    exact ⟨rfl, rfl, .after (ps := [.chans]) (show 4 < 16 by decide) (.setChan s _ _)⟩
  · refine .of_eq (exec_doThermalEnter.trans (congrArg _ ((if_pos (by simp [hd, hs, hh])).trans (if_pos (by simp; omega))))) ?_
    rw [markChan_chan, State.chan_congr ((State.raise_chans _ _).trans (State.raise_chans _ _)), State.chan_setChan]
    refine ⟨rfl, rfl, markChan_kind ch _ (by decide), ?_⟩
    have hkeep : KeepsBut [.bank, .chans, .net, .outbox] s (s.setChan ch (thermalChan s ch .locked)) := .setChan s _ _
    exact ((hkeep.trans ((State.raise_keeps _ _).mono (by decide))).trans ((State.raise_keeps _ _).mono (by decide))).trans ((markChan_keeps _ _ _).mono (by decide))
  · exact .pos rfl (by simp only [hd, hs, hc, ht]; rfl) ⟨State.chan_setChan _ _ _, .setChan s _ _⟩
  · exact .neg rfl (by simp [hc]) rfl
  · exact .neg rfl (by simp; omega) rfl
  · refine .pos rfl (by simp [hd, hs, hc, hn]) ⟨?_, markChan_kind ch _ (by decide), ?_⟩
    · rw [markChan_chan, State.chan_setChan]
    · exact KeepsBut.trans (.setChan s _ _) (markChan_keeps _ _ _)

end

section
/-! SUPPORT. Current outputs and inputs, and the localisation of a platform (R284 to R287, R292 to R295). -/

set_option Elab.async false

namespace Sys2Proof.Machine

open Sys2Proof

/-! The adaptive supply (R284). -/

/-- The voltage that a step of the adaptive supply leaves: at once up to its target, and down by at most 500 mV. -/
def supplyStepped (vt vmax mv : Nat) : Nat := min (if mv ≤ vt then vt else max vt (mv - 500)) (max vt vmax)

theorem supplyStepped_up {vt vmax mv : Nat} (h : mv ≤ vt) : supplyStepped vt vmax mv = vt := by
  rw [supplyStepped, if_pos h, Nat.min_eq_left (Nat.le_max_left _ _)]

theorem supplyStepped_down {vt vmax mv : Nat} (h : vt < mv) (hm : mv ≤ vmax) : supplyStepped vt vmax mv = max vt (mv - 500) := by
  rw [supplyStepped, if_neg (by omega)]
  omega

/-- A current output whose loop takes mv, after the step of its supply. -/
def adaptedChan (s : State) (ch mv : Nat) : Chan :=
  let vt := min (s.vmax ch) (max 4500 (mv + 2000))
  let v := supplyStepped vt (s.vmax ch) (s.chan ch).supplyMv
  { s.chan ch with loopMv := mv, supplyMv := v, levelMv := v, offSince := none, learned := (s.chan ch).learned || decide (v = vt) }

theorem exec_adaptiveSupplyStep {ch : Fin 96} {mv : Nat} {s : State} (hr : s.chansRun = true) (hm : s.chanMode ch = .ao) (hd : (s.chan ch).driven = true) :
    exec (.adaptiveSupplyStep ch mv) s =
      .next ((s.setChan ch { s.chan ch with loopMv := mv }).setChan ch (adaptedChan s ch mv)) := by
  refine congrArg Host.Outcome.next ((if_pos (by simp [hr, hm, hd])).trans ?_)
  simp only [State.vTarget, State.chan_setChan]
  rfl

/-! Shortfalls (R286). -/

theorem setShortfall_chan (n : Nat) (c o : Bool) (s : State) :
    (setShortfall n c o s).chan n = { s.chan n with compliance := c, openLoop := o, goodPeriods := 0 } := State.chan_setChan _ _ _

/-- A shortfall shown for a channel whose current was just measured, and its event. -/
theorem setShortfall_raised {e : EvBit} (hb : e.bit < 16) (n ua : Nat) (c o : Bool) (s : State)
    (hq : (Reg.CH_FAULT_MAP_SHORTFALL (n / 12)).key ≠ (⟨e.addr, 16, 16⟩ : Fld).key) :
    RaisedBut e [Reg.CH_FAULT_MAP_SHORTFALL (n / 12)] [.chans] s ((setShortfall n c o (s.setChan n { s.chan n with currUa := ua })).raise e) := by
  refine .of hb ?_ (State.get_put_ne _ _ hq) ⟨⟨[], by simp [setShortfall, State.setChan, State.put]⟩, rfl⟩ ?_
  · exact fun f hf => State.get_put_ne _ _ (hf _ (List.mem_singleton_self _))
  · exact ((KeepsBut.setChan s n _).trans (.setChan _ n _)).put _ _

/-! The end of a localisation run (R295). -/

/-- Whether a run finds a kind of class c. -/
def foundClass (kinds : List Nat) (c : Nat) : Bool := kinds.any fun k => decide (kindClass k = c)

/-- Whether the common fault of platform p stays unlocated. -/
def unlocated (p : Nat) (kinds : List Nat) (supplyBad : Bool) (s : State) : Bool :=
  decide (s.get (Reg.CH_STATUS_COMMON_FAULT p) = 1) && !(foundClass kinds 1 || foundClass kinds 3 || (supplyBad || foundClass kinds 2))

/-- Whether what a run finds is critical under the platform's mask. -/
def runCritical (p : Nat) (kinds : List Nat) (supplyBad : Bool) (s : State) : Bool :=
  ((foundClass kinds 1 || unlocated p kinds supplyBad s) && decide (s.critMask p % 2 = 1)) ||
    ((supplyBad || foundClass kinds 2) && decide (s.critMask p / 2 % 2 = 1)) || (foundClass kinds 3 && decide (s.critMask p / 4 % 2 = 1))

/-- The status flags that a run leaves. -/
def runFlags (p : Nat) (kinds : List Nat) (supplyBad : Bool) (s : State) : State :=
  ((((s.put (Reg.CH_STATUS_UNLOCATED p) (b2n (unlocated p kinds supplyBad s))).put (Reg.CH_STATUS_CLASS_INTERNAL p) (b2n (foundClass kinds 1))).put
    (Reg.CH_STATUS_CLASS_SUPPLY p) (b2n (supplyBad || foundClass kinds 2))).put (Reg.CH_STATUS_CLASS_FIELD p) (b2n (foundClass kinds 3))).put
      (Reg.CH_STATUS_CRITICAL p) (b2n (runCritical p kinds supplyBad s))

/-- The events of a run. -/
def runEvents (p : Nat) (kinds : List Nat) (supplyBad unloc : Bool) (s : State) : State :=
  (s.raiseIf (foundClass kinds 1 || foundClass kinds 3 || (supplyBad || foundClass kinds 2)) (Ev.CH_FAULT_LOCATED p)).raiseIf unloc (Ev.CH_FAULT_UNLOCATED p)

/-- An unlocated fault queues every channel of the platform for a visit. -/
def runVisits (p : Nat) (unloc : Bool) (s : State) : State :=
  if unloc then { s with conv := { s.conv with tts := Tab.update Turntable.reset s.conv.tts p (fun t => { t with queue := List.range 12 }) } } else s

/-- The state that a run leaves before what follows from CRITICAL. -/
def runShown (p : Nat) (kinds : List Nat) (supplyBad : Bool) (s : State) : State :=
  runVisits p (unlocated p kinds supplyBad s) (runEvents p kinds supplyBad (unlocated p kinds supplyBad s) (runFlags p kinds supplyBad s))

theorem locateEnd_eq (p : Nat) (kinds : List Nat) (supplyBad : Bool) (s : State) :
    locateEnd p kinds supplyBad s =
      if runCritical p kinds supplyBad s && decide ((runShown p kinds supplyBad s).mode = .active) then enterHalt 6 (runShown p kinds supplyBad s)
      else if runCritical p kinds supplyBad s && decide ((runShown p kinds supplyBad s).mode = .starting) then dropClaim (runShown p kinds supplyBad s)
      else runShown p kinds supplyBad s := rfl

theorem runVisits_keeps (p : Nat) (unloc : Bool) (s : State) : KeepsBut [.conv] s (runVisits p unloc s) := by
  unfold runVisits
  split
  · exact (Moves.set_conv _ (by decide) (.refl _ s)).keeps
  · exact .refl _ s

theorem runEvents_keeps (p : Nat) (kinds : List Nat) (b u : Bool) (s : State) : KeepsBut [.bank, .net, .outbox] s (runEvents p kinds b u s) :=
  (State.raiseIf_keeps s _ _).trans (State.raiseIf_keeps _ _ _)

theorem runFlags_keeps (p : Nat) (kinds : List Nat) (b : Bool) (s : State) : KeepsBut [.bank] s (runFlags p kinds b s) :=
  (((((KeepsBut.refl _ s).put _ _).put _ _).put _ _).put _ _).put _ _

theorem runShown_keeps (p : Nat) (kinds : List Nat) (b : Bool) (s : State) : KeepsBut [.bank, .net, .outbox, .conv] s (runShown p kinds b s) :=
  (((runFlags_keeps p kinds b s).mono (by decide)).trans ((runEvents_keeps p kinds b _ _).mono (by decide))).trans ((runVisits_keeps p _ _).mono (by decide))

theorem runEvents_get (p : Nat) (kinds : List Nat) (b u : Bool) (s : State) :
    (runEvents p kinds b u s).get (Reg.CH_STATUS_CRITICAL p) = s.get (Reg.CH_STATUS_CRITICAL p) := by
  unfold runEvents
  rw [State.raiseIf_get_ne _ _ (by simp only [Fld.key, Reg.CH_STATUS_CRITICAL, Ev.CH_FAULT_UNLOCATED]; omega)
      (by simp only [Fld.key, Reg.CH_STATUS_CRITICAL, Ev.CH_FAULT_UNLOCATED]; omega),
    State.raiseIf_get_ne _ _ (by simp only [Fld.key, Reg.CH_STATUS_CRITICAL, Ev.CH_FAULT_LOCATED]; omega)
      (by simp only [Fld.key, Reg.CH_STATUS_CRITICAL, Ev.CH_FAULT_LOCATED]; omega)]

theorem runShown_critical (p : Nat) (kinds : List Nat) (b : Bool) (s : State) :
    (runShown p kinds b s).get (Reg.CH_STATUS_CRITICAL p) = b2n (runCritical p kinds b s) := by
  unfold runShown
  rw [State.get_congr (runVisits_keeps p _ _).bank, runEvents_get]
  exact State.get_put_of_lt _ (b2n_lt _)

/-- Nothing is critical under an empty mask. -/
theorem locateEnd_uncritical {p : Nat} (kinds : List Nat) {b : Bool} {s : State} (hm : s.critMask p = 0) :
    (locateEnd p kinds b s).mode = s.mode ∧ (locateEnd p kinds b s).claim = s.claim ∧ (locateEnd p kinds b s).get (Reg.CH_STATUS_CRITICAL p) = 0 := by
  have hc : runCritical p kinds b s = false := by simp [runCritical, hm]
  rw [show locateEnd p kinds b s = runShown p kinds b s by rw [locateEnd_eq, hc]; rfl, runShown_critical, hc]
  exact ⟨(runShown_keeps p kinds b s).mode, (runShown_keeps p kinds b s).claim, rfl⟩

/-- A lost field supply that the mask calls critical takes an active module to HALT. -/
theorem locateEnd_supply_critical {p : Nat} (kinds : List Nat) {s : State} (hm : s.critMask p = 2) (ha : s.mode = .active) :
    (locateEnd p kinds true s).mode = .halt ∧ (locateEnd p kinds true s).claim.drive = false ∧ (locateEnd p kinds true s).mram.haltReason = 6 := by
  have hc : runCritical p kinds true s = true := by simp [runCritical, hm]
  have hact : (runShown p kinds true s).mode = .active := (runShown_keeps p kinds true s).mode.trans ha
  rw [locateEnd_eq, if_pos (by simp [hc, hact]), enterHalt_in_mram 6 (.inr (.inr hact))]
  exact ⟨enterHalt_in_mode 6 (.inr (.inr hact)), enterHalt_in_drive 6 (.inr (.inr hact)), rfl⟩

/-- A run marks its channels with the kinds that it finds, and ends. -/
theorem locateRun_ends (p : Nat) (s : State) : ∃ kinds u, locateRun p s = locateEnd p kinds (!s.fieldGood p) u ∧ KeepsBut [.bank, .chans] s u :=
  ⟨_, _, rfl, forEach_keeps (P := KeepsBut [.bank, .chans] s) (fun e x h => h.trans (markChan_keeps e.1 e.2 x)) _ (.refl _ s)⟩

theorem State.critMask_congr {s t : State} (h : t.start = s.start) (p : Nat) : t.critMask p = s.critMask p := by
  unfold State.critMask State.policy State.img
  rw [h]

theorem locateRun_supply_critical {p : Nat} {s : State} (ha : s.mode = .active) (hf : s.fieldGood p = false) (hm : s.critMask p = 2) :
    (locateRun p s).mode = .halt ∧ (locateRun p s).claim.drive = false ∧ (locateRun p s).mram.haltReason = 6 := by
  obtain ⟨kinds, u, hu, hk⟩ := locateRun_ends p s
  rw [hu, hf]
  exact locateEnd_supply_critical kinds ((State.critMask_congr hk.start p).trans hm) (hk.mode.trans ha)

theorem exec_liveZeroLost {ch : Fin 96} {c : ChanCfg} {s : State} (hc : s.chanCfg ch = some c) :
    exec (.liveZeroLost ch) s = .next (if s.chansRun && decide (c.mode = .ci) && c.liveZero && !(s.chan ch).liveZeroLost then
      (s.setChan ch { s.chan ch with liveZeroLost := true, goodPeriods := 0 }).raise (Ev.CH_LIVE_ZERO_LOST (ch / 12)) else s) := by
  show execLiveZeroLost ch s = _
  unfold execLiveZeroLost
  simp only [hc]

theorem powered_of_chansRun {s : State} (h : s.chansRun = true) : s.powered = true := ((Bool.and_eq_true _ _).mp h).2

end Sys2Proof.Machine

open Sys2Proof Sys2Proof.Machine

/-- Settles O34: the supply's step is arithmetic (`supplyStepped`), and a run ends in HALT where what it finds is critical (`locateEnd_eq`). -/
theorem analogueChannelsAndFaults : Obligations.AnalogueChannelsAndFaults := by
  unfold Obligations.AnalogueChannelsAndFaults
  refine ⟨⟨fun ch mv s hr hm hd => ?_, fun ch ua s hr hm hd => ⟨fun hv hu hc => ?_, fun hv hu hl hc => ?_⟩, fun ch c s hr hc hm hz hl => ?_⟩,
    fun p l s hr => ⟨.pos rfl hr rfl, fun hb => ⟨.pos rfl (by simp [hr, hb]) rfl, .pos rfl (by simp [hr, hb]) rfl⟩, fun hb => .neg rfl (by simp [hb]) rfl⟩,
    fun o p s hr ho => .pos rfl (powered_of_chansRun hr) ((if_pos ho).trans (if_pos hr)),
    fun p s hp ha hf hm => locateRun_supply_critical ha hf hm, fun p kinds s hp hm => locateEnd_uncritical kinds hm⟩
  · refine .of_eq (exec_adaptiveSupplyStep hr hm hd) ?_
    simp only [State.chan_setChan]
    refine ⟨rfl, (KeepsBut.setChan s _ _).trans (.setChan _ _ _), fun hu => ?_, fun hlt hle => supplyStepped_down hlt hle⟩
    simp [adaptedChan, supplyStepped_up hu]
  · refine .of_eq (congrArg Host.Outcome.next ((if_pos (by simp [hr, hm, hd])).trans (if_pos (by rw [State.chan_setChan]; exact ⟨hu, hv⟩)))) ?_
    rw [State.raiseIf_true _ _ (by simp [hc]), State.chan_congr (State.raise_chans _ _), setShortfall_chan, State.chan_setChan]
    exact ⟨rfl, setShortfall_raised (show 6 < 16 by decide) _ _ _ _ _ (by simp only [Fld.key, Reg.CH_FAULT_MAP_SHORTFALL, Ev.CH_COMPLIANCE]; omega)⟩
  · refine .of_eq (congrArg Host.Outcome.next ((if_pos (by simp [hr, hm, hd])).trans (if_pos (by rw [State.chan_setChan]; exact ⟨hu, hl, hv⟩)))) ?_
    rw [State.raiseIf_true _ _ (by simp [hc]), State.chan_congr (State.raise_chans _ _), setShortfall_chan, State.chan_setChan]
    exact ⟨rfl, setShortfall_raised (show 7 < 16 by decide) _ _ _ _ _ (by simp only [Fld.key, Reg.CH_FAULT_MAP_SHORTFALL, Ev.CH_OPEN_LOOP]; omega)⟩
  · refine .pos (exec_liveZeroLost hc) (by simp [hr, hm, hz, hl]) ?_
    rw [State.chan_congr (State.raise_chans _ _), State.chan_setChan]
    exact ⟨rfl, .after (ps := [.chans]) (show 8 < 16 by decide) (.setChan s _ _)⟩

end

section
/-! SUPPORT. The result queue, the fast stream and the converter period (R297 to R304). -/

set_option Elab.async false

namespace Sys2Proof.Machine

open Sys2Proof

/-! Words written into consecutive registers. -/

theorem forEach_put_get_ne {f : Nat → Fld} {g : Fld} (l : List (Word × Nat)) (s : State) (h : ∀ e ∈ l, (f e.2).key ≠ g.key) :
    (forEach l (fun e s => s.put (f e.2) e.1.toNat) s).get g = s.get g := by
  induction l generalizing s with
  | nil => rfl
  | cons e l ih => rw [forEach_cons, ih _ fun x hx => h x (List.mem_cons_of_mem _ hx), State.get_put_ne _ _ (h e List.mem_cons_self)]

theorem forEach_put_get {f : Nat → Fld} (hw : ∀ n, (f n).w = 32) (hf : ∀ m n, (f m).key = (f n).key → m = n) (l : List Word) (k : Nat) (s : State) {n : Nat}
    (h : n < l.length) :
    (forEach (l.zip (List.range' k l.length)) (fun e s => s.put (f e.2) e.1.toNat) s).get (f (k + n)) = (l.getD n 0#32).toNat := by
  induction l generalizing k n s with
  | nil => exact absurd h (Nat.not_lt_zero n)
  | cons w l ih =>
    rw [List.length_cons, List.range'_succ, List.zip_cons_cons, forEach_cons]
    cases n with
    | zero =>
      rw [forEach_put_get_ne]
      · exact State.get_put_of_lt _ (by show w.toNat < 2 ^ (f k).w; rw [hw]; exact w.isLt)
      · intro e he hk
        have hm := (List.mem_range'_1.mp (List.of_mem_zip he).2).1
        have := hf _ _ hk
        omega
    | succ n =>
      rw [show k + (n + 1) = k + 1 + n by omega]
      exact ih (k + 1) _ (Nat.lt_of_succ_lt_succ h)

theorem putWords_get {f : Nat → Fld} (hw : ∀ n, (f n).w = 32) (hf : ∀ m n, (f m).key = (f n).key → m = n) (l : List Word) (s : State) {n : Nat}
    (h : n < l.length) : (putWords f l s).get (f n) = (l.getD n 0#32).toNat := by
  have := forEach_put_get hw hf l 0 s h
  rwa [Nat.zero_add, ← List.range_eq_range'] at this

theorem putWords_keeps (f : Nat → Fld) (l : List Word) (s : State) : KeepsBut [.bank] s (putWords f l s) := (putWords_moves f l (fun _ h => h) (.refl _ s)).keeps

theorem leWords_length (n : Nat) (l : List Byte) : (leWords n l).length = n := by
  induction n generalizing l with
  | zero => rfl
  | succ n ih => rw [leWords, List.length_cons, ih]

theorem qWord_get (l : List Word) (s : State) {n : Nat} (h : n < l.length) :
    (putWords (fun n => Reg.CNV_Q_Wn_WORD n) l s).get (Reg.CNV_Q_Wn_WORD n) = (l.getD n 0#32).toNat :=
  putWords_get (f := fun n => Reg.CNV_Q_Wn_WORD n) (fun _ => rfl) (fun m n hk => by simp only [Fld.key, Reg.CNV_Q_Wn_WORD] at hk; omega) l s h

/-! The queue of results (R302 to R304). -/

theorem State.atLeast_keeps (s : State) (f : Fld) (v : Nat) : KeepsBut [.bank] s (s.atLeast f v) := by
  unfold State.atLeast
  split
  · exact (KeepsBut.refl _ s).put _ _
  · exact .refl _ s

theorem ite_inc_keeps (s : State) (c : Bool) (f : Fld) : KeepsBut [.bank] s (if c then s.inc f else s) := by
  split
  · exact (KeepsBut.refl _ s).put _ _
  · exact .refl _ s

/-- A result that finds room and of whose like none was lost before. -/
theorem enqueue_room {e : QEntry} {s : State} (hq : s.conv.queue.length < 4096) (hl : (e.channel, e.kind) ∉ s.conv.lostBefore) :
    (enqueue e s).conv.queue = s.conv.queue ++ [e] ∧ (enqueue e s).conv.entered = s.conv.entered + 1 ∧ KeepsBut [.bank, .conv] s (enqueue e s) := by
  simp only [enqueue, if_neg (Nat.not_le.mpr hq), decide_eq_false hl]
  refine ⟨?_, ?_, ?_⟩
  · rw [(State.atLeast_keeps _ _ _).conv, (ite_inc_keeps _ _ _).conv]
    rfl
  · rw [(State.atLeast_keeps _ _ _).conv, (ite_inc_keeps _ _ _).conv]
  · exact ((Moves.set_conv _ (by decide) (.refl _ s)).keeps.trans ((ite_inc_keeps _ _ _).mono (by decide))).trans ((State.atLeast_keeps _ _ _).mono (by decide))

theorem enqueue_full {e : QEntry} {s : State} (hq : 4096 ≤ s.conv.queue.length) :
    (enqueue e s).conv = { s.conv with lostBefore := addOnce (e.channel, e.kind) s.conv.lostBefore } ∧
      (enqueue e s).get Reg.CNV_QCOUNT_OVERRUNS = satInc Reg.CNV_QCOUNT_OVERRUNS.w (s.get Reg.CNV_QCOUNT_OVERRUNS) ∧
      (enqueue e s).get ⟨Ev.CNV_QUEUE_OVERRUN.addr, Ev.CNV_QUEUE_OVERRUN.bit, 1⟩ = 1 := by
  rw [enqueue, if_pos hq]
  refine ⟨State.raise_conv _ _, ?_, State.raise_get_bit _ (by decide)⟩
  rw [State.raise_get_ne _ (by decide) (by decide)]
  exact State.get_inc_self s _

theorem qpopWrite_next {e : QEntry} {s : State} (hm : s.conv.monitor < s.conv.entered)
    (he : s.conv.copy[s.conv.monitor + s.conv.copy.length - s.conv.entered]? = some e) :
    qpopWrite s = putWords (fun n => Reg.CNV_Q_Wn_WORD n) (leWords 4 (qBytes e)) { s with conv := { s.conv with monitor := s.conv.monitor + 1 } } := by
  simp only [qpopWrite, if_pos hm, he]

theorem qpopWrite_none {s : State} (hm : s.conv.entered ≤ s.conv.monitor) :
    qpopWrite s = putWords (fun n => Reg.CNV_Q_Wn_WORD n) [0#32, 0#32, 0#32, 0#32] s := by
  simp only [qpopWrite, if_neg (Nat.not_lt.mpr hm)]

theorem zeroWords_getD (n : Nat) : ([0#32, 0#32, 0#32, 0#32] : List Word).getD n 0#32 = 0#32 := by
  rcases n with _ | _ | _ | _ | _ <;> rfl

/-! The fast stream (R300): the samples move no part that the recorder stands on. -/

theorem fastResults_keeps (l : List RawSample) (s : State) : KeepsBut [.bank, .chans, .conv, .net, .outbox] s (forEach l fastResult s) :=
  forEach_keeps (P := KeepsBut _ s) (fun r x h => h.trans (fastResult_moves r (fun _ h => h) (.refl _ x)).keeps) l (.refl _ s)

theorem State.acqRuns_congr {s t : State} (ha : t.acq = s.acq) (hm : t.mode = s.mode) (hc : t.carrier = s.carrier) : t.acqRuns = s.acqRuns := by
  unfold State.acqRuns State.powered
  rw [ha, hm, hc]

theorem fastResults_acqRuns (l : List RawSample) (s : State) : (forEach l fastResult s).acqRuns = s.acqRuns :=
  State.acqRuns_congr (fastResults_keeps l s).acq (fastResults_keeps l s).mode (fastResults_keeps l s).carrier

theorem fastResults_defsNow (l : List RawSample) (s : State) : (forEach l fastResult s).defsNow = s.defsNow := by
  unfold State.defsNow
  rw [(fastResults_keeps l s).acq]

/-- Where the recorder takes no frame, the samples are results alone. -/
theorem exec_fastSample_results {l : List RawSample} {s : State} (hr : s.chansRun = true) (he : s.effectOver 5 = true)
    (h : s.acqRuns = false ∨ s.defsNow.filter (fun e => !e.2.sv) = []) : exec (.fastSample l) s = .next (forEach (inOrder l) fastResult s) := by
  show execFastSample l s = _
  unfold execFastSample
  rw [if_pos (by simp [hr, he])]
  simp only [fastResults_acqRuns, fastResults_defsNow]
  obtain h | h := h
  · rw [h]
    rfl
  · rw [h, forEach_nil, ite_self]

/-! The period in force and the one accepted for the next boundary (R298): nothing before the boundary's end moves them. -/

/-- The converter period in force, and the one that takes force at the next boundary. -/
def State.periods (s : State) : Nat × Option Nat := (s.conv.periodNs, s.conv.pendingNs)

theorem State.periods_congr {s t : State} (h : t.conv = s.conv) : t.periods = s.periods := by
  unfold State.periods
  rw [h]

theorem KeepsBut.periods {l : List Part} {s t : State} (h : KeepsBut l s t) (hp : Part.conv ∉ l := by decide) : t.periods = s.periods :=
  State.periods_congr (h.conv hp)

@[simp] theorem State.raise_periods (s : State) (e : EvBit) : (s.raise e).periods = s.periods := State.periods_congr (State.raise_conv s e)

theorem enqueue_periods (e : QEntry) (s : State) : (enqueue e s).periods = s.periods := by
  unfold enqueue
  split
  · exact State.raise_periods _ _
  · exact (State.atLeast_keeps _ _ _).periods.trans ((ite_inc_keeps _ _ _).periods.trans rfl)

theorem integratedResult_periods (r : RawSample) (s : State) : (integratedResult r s).periods = s.periods := by
  have htake (n : Nat) (x : DWord) (u : State) : (takeQuantity n x u).periods = u.periods := (takeQuantity_moves n x (fun _ h => h) (.refl _ u)).keeps.periods
  unfold integratedResult
  simp only []
  split
  · split
    · exact (htake _ _ _).trans (enqueue_periods _ _)
    · exact (htake _ _ _).trans (enqueue_periods _ _)
  · split
    · exact enqueue_periods _ _
    · rfl

theorem restoreCoef_periods (p : Nat) (s : State) : (restoreCoef p s).periods = s.periods := by
  unfold restoreCoef
  simp only []
  split <;> rfl

theorem endVisit_periods (p : Nat) (c : Option Nat) (s : State) : (endVisit p c s).periods = s.periods := by
  unfold endVisit
  simp only []
  split <;> split <;> rfl

theorem converterFault_periods (n : Nat) (s : State) : (converterFault n s).periods = s.periods :=
  (converterFault_moves n (fun _ h => h) (.refl _ s)).keeps.periods

theorem ttFault_periods (p : Nat) (s : State) : (ttFault p s).periods = s.periods := State.raise_periods _ _

theorem selfCheck_periods (c : Option Nat) (s : State) : (match c with | some c => converterFault c s | none => s).periods = s.periods := by
  cases c with
  | none => rfl
  | some c => exact converterFault_periods c s

theorem verdict_periods (c : Option Nat) (s : State) : (match c with | some c => s.put (Reg.CNV_CH_VISIT_VERDICT c) 4 | none => s).periods = s.periods := by
  cases c <;> rfl

theorem ttWindow_periods (p : Nat) (m : TtMeasure) (s : State) : (ttWindow p m s).periods = s.periods := by
  unfold ttWindow
  simp only []
  split
  · rfl
  · split
    · split
      · rfl
      · split
        · exact selfCheck_periods _ _
        · exact (ttFault_periods _ _).trans (verdict_periods _ _)
    · split
      · rfl
      · split
        · split
          · rfl
          · exact endVisit_periods _ _ _
        · split
          · rfl
          · split
            · split
              · rfl
              · exact (endVisit_periods _ _ _).trans (converterFault_periods _ _)
            · split
              · exact endVisit_periods _ _ _
              · exact (endVisit_periods _ _ _).trans (restoreCoef_periods _ _)

theorem abandonCal_periods (s : State) : (abandonCal s).periods = s.periods := by
  unfold abandonCal
  split
  · rfl
  · exact State.raise_periods _ _

theorem abandonVisit_periods (p : Nat) (s : State) : (abandonVisit p s).periods = s.periods := by
  unfold abandonVisit
  simp only []
  split
  · rfl
  · exact restoreCoef_periods p s

theorem ite_periods {c : Prop} [Decidable c] {s t u : State} (ht : t.periods = s.periods) (hu : u.periods = s.periods) :
    (if c then t else u).periods = s.periods := by
  split
  · exact ht
  · exact hu

theorem changeEnds_periods (n : Nat) (c : ChanCfg) (s : State) : (changeEnds n c s).periods = s.periods := by
  have hv : (if (s.tt (n / 12)).channel = n % 12 then abandonVisit (n / 12) s else s).periods = s.periods := ite_periods (abandonVisit_periods _ s) rfl
  exact ite_periods (ite_periods ((abandonCal_periods _).trans hv) hv) rfl

theorem calCommit_periods (s : State) : (calCommit s).periods = s.periods := by
  have hfail (r : Nat) : ((calResult r s).raise Ev.CNV_CAL_FAILED).periods = s.periods := State.raise_periods _ _
  exact ite_periods (hfail 2) (ite_periods (hfail 3) (ite_periods (hfail 4) (State.raise_periods _ _)))

theorem calAct_periods (ch cmd : Nat) (s : State) : (calAct ch cmd s).periods = s.periods := by
  unfold calAct
  simp only []
  refine ite_periods (ite_periods rfl rfl) (ite_periods (ite_periods rfl rfl) (ite_periods (ite_periods rfl rfl) (ite_periods (ite_periods ?_ ?_)
    (ite_periods (ite_periods rfl rfl) (ite_periods ?_ rfl)))))
  · exact calCommit_periods s
  · exact State.raise_periods _ _
  · exact abandonCal_periods s

theorem calStarted_periods (c : Prop) [Decidable c] (s : State) : (if c then setCal (fun c => { c with phase := .started }) s else s).periods = s.periods :=
  ite_periods rfl rfl

theorem calBoundary_periods (s : State) : (calBoundary s).periods = s.periods := by
  unfold calBoundary
  simp only []
  cases s.conv.cal.pending with
  | none => exact calStarted_periods _ s
  | some x => exact (calAct_periods _ _ _).trans (calStarted_periods _ s)

theorem chanPeriod_periods (n : Nat) (c : ChanCfg) (s : State) : (chanPeriod n c s).periods = s.periods :=
  (chanPeriod_moves n c (fun _ h => h) (.refl _ s)).keeps.periods

/-- What a window's end does before the period changes: results, visits, the calibration and the channels. -/
def windowEnds (l : List RawSample) (tt : List TtMeasure) (s : State) : State :=
  let s := calBoundary (forEach (tt.filter (fun m => decide (m.platform < 8))) (fun m s => ttWindow m.platform m s) (forEach (inOrder l) integratedResult s))
  forEach s.channels (fun e s => chanPeriod e.1 e.2 (changeEnds e.1 e.2 s)) s

theorem windowEnds_periods (l : List RawSample) (tt : List TtMeasure) (s : State) : (windowEnds l tt s).periods = s.periods := by
  unfold windowEnds
  simp only []
  rw [forEach_read State.periods fun e x => (chanPeriod_periods _ _ _).trans (changeEnds_periods _ _ x), calBoundary_periods,
    forEach_read State.periods fun m x => ttWindow_periods _ _ x, forEach_read State.periods fun r x => integratedResult_periods r x]

theorem windowEnds_keeps (l : List RawSample) (tt : List TtMeasure) (s : State) :
    KeepsBut [.bank, .chans, .mram, .conv, .net, .outbox] s (windowEnds l tt s) := by
  refine (Moves.forEach (fun e x h => ?_) (calBoundary_moves (by decide) (Moves.forEach (fun m x h => ?_) (Moves.forEach (fun r x h => ?_) (.refl _ s))))).keeps
  · exact chanPeriod_moves _ _ (by decide) (changeEnds_moves _ _ (by decide) h)
  · exact ttWindow_moves _ _ (by decide) h
  · exact integratedResult_moves _ (by decide) h

theorem exec_converterPeriodBoundary (l : List RawSample) (tt : List TtMeasure) (s : State) :
    exec (.converterPeriodBoundary l tt) s = .next (if s.chansRun then
      refreshOutputs { windowEnds l tt s with
        conv := { (windowEnds l tt s).conv with periodNs := (windowEnds l tt s).conv.pendingNs.getD (windowEnds l tt s).conv.periodNs, pendingNs := none } }
      else s) := rfl

/-! The measurement of the period (R299). -/

theorem measurePeriod_near {p : PeriodState} {inForce ns amp : Nat} (ha : 10 ≤ amp) (h1 : 1000000000 ≤ ns * 70) (h2 : ns * 40 ≤ 1000000000)
    (h3 : ns * 100 ≤ inForce * 105) (h4 : inForce * 95 ≤ ns * 100) : measurePeriod p inForce ns amp true = ⟨some ns, [], false⟩ := by
  simp [measurePeriod, ha, h1, h2, h3, h4]

theorem measurePeriod_bad (p : PeriodState) (inForce ns amp : Nat) :
    measurePeriod p inForce ns amp false = { p with lost := true, candidates := [] } := by
  simp [measurePeriod]

theorem choosePeriod_primary {s : State} {p : Nat} (hl : s.conv.primary.lost = false) (ha : s.conv.primary.accepted = some p) :
    choosePeriod s = { s with conv := { s.conv with src := 1, pendingNs := some p } } := by
  simp only [choosePeriod, hl, ha]

theorem choosePeriod_keeps (s : State) : KeepsBut [.conv] s (choosePeriod s) := (choosePeriod_moves (fun _ h => h) (.refl _ s)).keeps

theorem choosePeriod_sources (s : State) : (choosePeriod s).conv.primary = s.conv.primary := by
  unfold choosePeriod
  simp only []
  split
  · rfl
  · rfl
  · split
    · rfl
    · split <;> rfl

theorem exec_periodMeasurement {i : Image} {s : State} (hi : s.img = some i) (ns amp : Nat) (good : Bool) :
    exec (.periodMeasurement false ns amp good) s = .next (if s.chansRun && i.primary.isSome then
      (choosePeriod { s with conv := { s.conv with primary := measurePeriod s.conv.primary s.conv.periodNs ns amp good } }).raiseIf
        (!s.conv.primary.lost && (measurePeriod s.conv.primary s.conv.periodNs ns amp good).lost) Ev.CNV_PERIOD_SOURCE_LOST
      else s) := by
  show execPeriodMeasurement false ns amp good s = _
  unfold execPeriodMeasurement
  simp only [hi, Bool.false_eq_true, if_false]

theorem KeepsBut.set_conv {l : List Part} (s : State) (x : Conv) (h : Part.conv ∈ l := by decide) : KeepsBut l s { s with conv := x } :=
  (Moves.set_conv x h (.refl l s)).keeps

end Sys2Proof.Machine

open Sys2Proof Sys2Proof.Machine

/-- Settles O35: a boundary ends with the period that stood accepted before it, since nothing of the window's end moves it (`windowEnds_periods`). -/
theorem resultsAndPeriods : Obligations.ResultsAndPeriods := by
  unfold Obligations.ResultsAndPeriods
  refine ⟨⟨fun e s hq hl => enqueue_room hq hl, fun e s hq => enqueue_full hq, fun o s hp ho => ?_⟩,
    ⟨fun l s hr he hd => .of_eq (exec_fastSample_results hr he (.inr hd)) rfl,
      fun l s hr he ha => .of_eq (exec_fastSample_results hr he (.inl ha)) ⟨rfl, (fastResults_keeps _ s).acq⟩,
      fun l s he => .neg rfl (by simp [he]) rfl, fun l tt s hr => ?_⟩,
    fun ns amp i s hr hi hp ha h1 h2 h3 h4 => ?_, fun ns amp i s hr hi hp hl => ?_, fun s hr h1 h2 h3 => ?_⟩
  · refine .of_eq (t := qpopWrite s) (congrArg Host.Outcome.next ((if_pos hp).trans (if_pos ho))) ⟨fun e hm he => ?_, fun hm => ?_, ?_⟩
    · rw [qpopWrite_next hm he]
      exact ⟨(putWords_keeps _ _ _).conv, fun n hn => qWord_get _ _ (by rwa [leWords_length])⟩
    · rw [qpopWrite_none hm]
      exact ⟨(putWords_keeps _ _ _).conv, fun n hn => (qWord_get _ _ hn).trans (by rw [zeroWords_getD]; rfl)⟩
    · exact (qpopWrite_moves (fun _ h => h) (.refl _ s)).keeps
  · refine .pos (exec_converterPeriodBoundary l tt s) hr ?_
    have hper : (windowEnds l tt s).conv.periodNs = s.conv.periodNs ∧ (windowEnds l tt s).conv.pendingNs = s.conv.pendingNs :=
      Prod.mk.inj (windowEnds_periods l tt s)
    have hk := windowEnds_keeps l tt s
    generalize windowEnds l tt s = u at hper hk
    rw [(refreshOutputs_keeps _).conv, (refreshOutputs_keeps _).mode, (refreshOutputs_keeps _).ctl, (refreshOutputs_keeps _).sbox]
    refine ⟨rfl, fun p hp => ?_, fun hn => ?_, hk.mode, hk.ctl, hk.sbox⟩
    · simp only [hper.2, hp, Option.getD_some]
    · simp only [hper, hn, Option.getD_none]
  · refine .pos (exec_periodMeasurement hi ns amp true) (by simp [hr, hp]) ?_
    rw [measurePeriod_near ha h1 h2 h3 h4, State.raiseIf_false _ _ (by simp), choosePeriod_primary (p := ns) rfl rfl]
    exact ⟨rfl, .set_conv s _⟩
  · refine .pos (exec_periodMeasurement hi ns amp false) (by simp [hr, hp]) ?_
    rw [measurePeriod_bad, State.raiseIf_true _ _ (by simp [hl]), State.raise_conv, choosePeriod_sources]
    exact ⟨rfl, .after (by decide) ((KeepsBut.set_conv s _).trans (choosePeriod_keeps _))⟩
  · exact .pos rfl (by simp [hr, h1, h2, h3]) ⟨State.raise_conv _ _, .after (by decide) (.set_conv s _)⟩

end

section
/-! SUPPORT. System calibration (R310, R311). -/

set_option Elab.async false

namespace Sys2Proof.Machine

open Sys2Proof

theorem calCmdBy_accepted {o : Origin} {s : State} (hp : s.powered = true) (ho : serviceOk s o = true) {ch cmd : Nat} (hc : ch < 96 ∧ 1 ≤ cmd ∧ cmd ≤ 6) :
    calCmdBy o ch cmd s = setCal (fun c => { c with pending := some (ch, cmd) }) s := by
  have hacc : calCmdBy o ch cmd s = holdCal ch cmd s := (if_pos hp).trans (if_pos ho)
  exact hacc.trans (if_pos hc)

/-! A result that enters the queue moves neither the calibration nor its result register. -/

theorem enqueue_cal (e : QEntry) (s : State) : (enqueue e s).conv.cal = s.conv.cal := by
  unfold enqueue
  split
  · rw [State.raise_conv]
  · simp only []
    rw [(State.atLeast_keeps _ _ _).conv, (ite_inc_keeps _ _ _).conv]

theorem atLeast_result (s : State) (v : Nat) : (s.atLeast Reg.CNV_QUEUE_MAX v).get Reg.CNV_CAL_STATUS_RESULT = s.get Reg.CNV_CAL_STATUS_RESULT := by
  unfold State.atLeast
  split
  · exact State.get_put_ne _ _ (by decide)
  · rfl

theorem skipped_result (s : State) (c : Bool) :
    (if c then s.inc Reg.CNV_QCOUNT_MON_SKIPPED else s).get Reg.CNV_CAL_STATUS_RESULT = s.get Reg.CNV_CAL_STATUS_RESULT := by
  split
  · exact State.inc_get_ne _ (by decide)
  · rfl

theorem enqueue_result (e : QEntry) (s : State) : (enqueue e s).get Reg.CNV_CAL_STATUS_RESULT = s.get Reg.CNV_CAL_STATUS_RESULT := by
  unfold enqueue
  split
  · rw [State.raise_get_ne _ (by decide) (by decide)]
    exact State.inc_get_ne s (by decide)
  · exact (atLeast_result _ _).trans (skipped_result _ _)

/-! What a held command does at its boundary. -/

theorem calResult_get (s : State) {r : Nat} (h : r < 2 ^ Reg.CNV_CAL_STATUS_RESULT.w) : (calResult r s).get Reg.CNV_CAL_STATUS_RESULT = r :=
  State.get_put_of_lt s h

section

variable {ch : Nat} {s : State}

theorem calAct_start (hi : s.conv.cal.phase = .idle) (hw : (s.tt (ch / 12)).window = 0) :
    calAct ch 1 s = calResult 0 (setCal (fun c => { c with phase := .started, channel := ch, takes := [] }) s) := by
  have hw' : (Tab.getD s.conv.tts (ch / 12) Turntable.reset).window = 0 := hw
  simp [calAct, hi, hw']

theorem calAct_start_again (hi : s.conv.cal.phase ≠ .idle) : calAct ch 1 s = calResult 5 s := by
  simp [calAct, hi]

theorem calAct_zero (hc : s.conv.cal.channel = ch) (hp : s.conv.cal.phase = .started) :
    calAct ch 2 s = calResult 0 (setCal (fun c => { c with phase := .taking, takingSpan := false, takes := [], vZero := s.zeroVal }) s) := by
  simp [calAct, hc, hp]

theorem calAct_span_early (hp : s.conv.cal.phase = .started) : calAct ch 3 s = calResult 5 s := by
  simp [calAct, hp]

theorem calAct_commit_early (hp : s.conv.cal.phase = .started) : calAct ch 4 s = (calResult 5 s).raise Ev.CNV_CAL_FAILED := by
  simp [calAct, hp]

theorem calAct_end (hc : s.conv.cal.channel = ch) (hp : s.conv.cal.phase ≠ .idle) :
    calAct ch 5 s = calResult 0 (setCal (fun c => { c with phase := .idle }) s) := by
  simp [calAct, hc, hp]

theorem calAct_other {cmd : Nat} (hc : s.conv.cal.channel ≠ ch) (h2 : 2 ≤ cmd) (h4 : cmd ≠ 4) : calAct ch cmd s = calResult 5 s := by
  have h1 : cmd ≠ 1 := by omega
  simp [calAct, hc, h1, h4]

theorem abandonCal_idle : (abandonCal s).conv.cal.phase = .idle := by
  unfold abandonCal
  split
  · assumption
  · rw [State.raise_conv]

end

/-- The end of a take: the mean of its windows where they agree, else back to the phase before. -/
theorem exec_calTakeDone {s : State} (hr : s.chansRun = true) (hp : s.conv.cal.phase = .taking) (hl : s.conv.cal.takes.length = 16) :
    ∃ e, exec .calTakeDone s = .next (
      if (calMean (spanOf (s.variant s.conv.cal.channel)) s.conv.cal.takes).2 then
        enqueue e (calResult 0 (setCal (fun c =>
          if c.takingSpan then { c with phase := .spanTaken, mSpan := (calMean (spanOf (s.variant s.conv.cal.channel)) s.conv.cal.takes).1 }
          else { c with phase := .zeroTaken, mZero := (calMean (spanOf (s.variant s.conv.cal.channel)) s.conv.cal.takes).1 }) s))
      else calResult 1 (setCal (fun c => { c with phase := if s.conv.cal.takingSpan then .zeroTaken else .started }) s)) :=
  ⟨_, congrArg Host.Outcome.next (if_pos (by simp [hr, hp, hl]))⟩

end Sys2Proof.Machine

open Sys2Proof Sys2Proof.Machine

/-- Settles O36: the writes hold one command, and `calAct` runs it at the boundary, phase by phase. -/
theorem calibration : Obligations.Calibration := by
  unfold Obligations.Calibration
  refine ⟨⟨fun o ch s hp ho => ?_, fun s hr hp hl => ?_, fun s hr ht => .pos rfl (by simp [hr, ht]) ⟨rfl, abandonCal_idle⟩⟩,
    fun ch s hi hw => ?_, fun ch s hi => calAct_start_again hi, fun ch s hc hp => ?_, fun ch s hc hp => ?_, fun ch cmd s hc h2 h4 => calAct_other hc h2 h4⟩
  · exact ⟨.of_eq rfl (calCmdBy_accepted hp ho ⟨ch.isLt, by decide⟩), .of_eq rfl (calCmdBy_accepted hp ho ⟨ch.isLt, by decide⟩), .of_eq rfl (calCmdBy_accepted hp ho ⟨ch.isLt, by decide⟩),
      .of_eq rfl (calCmdBy_accepted hp ho ⟨ch.isLt, by decide⟩), .of_eq rfl (calCmdBy_accepted hp ho ⟨ch.isLt, by decide⟩), .of_eq rfl (calCmdBy_accepted hp ho ⟨ch.isLt, by decide⟩)⟩
  · obtain ⟨e, he⟩ := exec_calTakeDone hr hp hl
    refine .of_eq he ⟨fun hm hs => ?_, fun hm hs => ?_, fun hm => ?_⟩
    · rw [if_pos hm, enqueue_cal, enqueue_result]
      exact ⟨by simp [calResult, setCal, State.put, hs], calResult_get _ (by decide)⟩
    · rw [if_pos hm, enqueue_cal, enqueue_result]
      exact ⟨by simp [calResult, setCal, State.put, hs], calResult_get _ (by decide)⟩
    · rw [if_neg (by simp [hm])]
      exact ⟨rfl, calResult_get _ (by decide)⟩
  · rw [calAct_start hi hw]
    exact ⟨rfl, calResult_get _ (by decide)⟩
  · rw [calAct_zero hc hp, calAct_commit_early hp, State.raise_conv, State.raise_get_ne _ (by decide) (by decide)]
    exact ⟨rfl, calAct_span_early hp, rfl, calResult_get _ (by decide)⟩
  · rw [calAct_end hc hp]
    rfl

end

section
/-! SUPPORT. Triggers of the disturbance recorder (R325 to R335). -/

set_option Elab.async false

namespace Sys2Proof.Machine

open Sys2Proof

theorem powered_of_acqRuns {s : State} (h : s.acqRuns = true) : s.powered = true := by
  simp only [State.acqRuns, Bool.and_eq_true] at h
  exact h.1.1.2

/-! Where a trigger comes from. -/

section

variable {t : Nat} {c : TrigCfg} {s : State}

theorem exec_acqTrigger (hr : s.acqRuns = true) (hc : findKey (s.cfgList (·.triggers)) t = some c) (fine : Fin 32) (rising : Bool) :
    exec (.acqTrigger ⟨t, fine, rising⟩) s = .next (if c.kind = 1 then acmpEdge t c fine.val rising s else dueTrigger t c s) := by
  show execAcqTrigger ⟨t, fine, rising⟩ s = _
  unfold execAcqTrigger
  simp only [if_pos hr, hc]

theorem acmpEdge_taken {fine : Nat} {rising : Bool} (he : edgeTaken c rising = true) (ha : s.acmpTriggers c.source = true)
    (hd : s.edgeApart c.source (s.edgeInstant c.source fine) = true) :
    acmpEdge t c fine rising s =
      trigMask c.defMask ⟨t, 1, s.edgeInstant c.source fine⟩ { s with acq := { s.acq with edges := Tab.set s.acq.edges c.source (s.edgeInstant c.source fine) } } :=
  if_pos (by simp [he, ha, hd])

theorem acmpEdge_nothing {fine : Nat} {rising : Bool}
    (h : edgeTaken c rising = false ∨ s.acmpTriggers c.source = false ∨ s.edgeApart c.source (s.edgeInstant c.source fine) = false) :
    acmpEdge t c fine rising s = s := by
  refine if_neg fun hall => ?_
  simp only [Bool.and_eq_true] at hall
  obtain ⟨⟨h1, h2⟩, h3⟩ := hall
  simp [h1, h2, h3] at h

theorem dueTrigger_next {d : Stamp × Bool} {rest : List (Stamp × Bool)} (hd : (s.trig t).due = d :: rest) :
    dueTrigger t c s = trigMask c.defMask ⟨t, c.kind, d.1⟩ (s.setTrig t { s.trig t with due := rest }) := by
  simp only [dueTrigger, hd]

@[simp] theorem State.trig_setTrig (s : State) (t : Nat) (x : TrigState) : (s.setTrig t x).trig t = x := Tab.getD_put_self _ _ _ _

/-- A pair of samples that rises through the level of a trigger gives the interpolated instant. -/
theorem svTrigger_rise {rate : Nat} {i : Stamp} {v : Int} {x : Int × Stamp} (hc : (s.trig t).crossed = none) (hl : (s.trig t).last = some x)
    (h1 : x.1 < (s.svLevel t c).1) (h2 : (s.svLevel t c).1 ≤ v) (he : edgeTaken c true = true) :
    ((svTrigger rate i (some v) t c s).trig t).due = (s.trig t).due ++ [(crossing rate x.2 x.1 v (s.svLevel t c).1, true)] ∧
      ((svTrigger rate i (some v) t c s).trig t).last = some (v, i) := by
  simp [svTrigger, hc, hl, h1, h2, he, condMet]

theorem exec_acqTrig {o : Origin} (hr : s.acqRuns = true) (ho : serviceOk s o = true) (mask : BitVec 16) :
    exec (.acqTrig o mask) s = .next (acqTrigWrite o mask.toNat s) :=
  congrArg Host.Outcome.next ((if_pos (powered_of_acqRuns hr)).trans (if_pos ho))

theorem acqTrigWrite_lane {n task : Nat} (hr : s.acqRuns = true) (ht : (s.lane n).task = some task) (mask : Nat) :
    acqTrigWrite (.lane n) mask s = trigMask mask ⟨255, 5, (s.task task).freezeAt⟩ s := by
  simp only [acqTrigWrite, ht, softTrigger, if_pos hr]

theorem acqTrigWrite_other {o : Origin} (hr : s.acqRuns = true) (ho : isLane o = false) (mask : Nat) :
    acqTrigWrite o mask s = trigMask mask ⟨255, 6, s.now⟩ s := by
  cases o with
  | lane n => exact absurd ho (by simp [isLane])
  | mgmt n => exact if_pos hr
  | plant n => exact if_pos hr
  | svc n => exact if_pos hr

end

/-! A trigger meets a definition (R332 to R335). -/

theorem State.defState_congr {s t : State} (h : t.acq.defs = s.acq.defs) (d : Nat) : t.defState d = s.defState d := by
  unfold State.defState
  rw [h]

@[simp] theorem State.defState_setDef (s : State) (d : Nat) (x : DefState) : (s.setDef d x).defState d = x := Tab.getD_put_self _ _ _ _

@[simp] theorem State.raise_defState (s : State) (e : EvBit) (d : Nat) : (s.raise e).defState d = s.defState d := by
  unfold State.defState
  rw [State.raise_acq]

theorem segFrame_trigger (c : DefCfg) (q : Nat) (f : Frame) (g : Segment) : (segFrame c q f g).trigger = g.trigger := by
  unfold segFrame
  simp only []
  split
  · rfl
  · split
    · split <;> rfl
    · rfl

theorem segFrames_trigger (c : DefCfg) (q : Nat) (l : List Frame) (g : Segment) : (l.foldl (fun g f => segFrame c q f g) g).trigger = g.trigger := by
  induction l generalizing g with
  | nil => rfl
  | cons f l ih => rw [List.foldl_cons, ih, segFrame_trigger]

/-- The segment that a trigger opens: its own, with the ring before it where no frame of the ring is later. -/
theorem openSegment_def (d : Nat) (c : DefCfg) (e : TrigEvent) (s : State) :
    ∃ g, (openSegment d c e s).defState d = { s.defState d with seg := some g } ∧ g.trigger = e ∧
      (framesTo e.time (s.defState d).ring = (s.defState d).ring.length → g.raw = (s.defState d).ring ∧ g.rawNeed = (s.defState d).ring.length + c.post) := by
  refine ⟨_, State.defState_setDef _ _ _, segFrames_trigger _ _ _ _, fun h => ?_⟩
  rw [h, List.drop_length, List.take_length]
  exact ⟨rfl, rfl⟩

theorem openRecord_def (d : Nat) (c : DefCfg) (e : TrigEvent) (s : State) :
    (∃ r, (openRecord d c e s).defState d = { s.defState d with record := some r }) ∧ (openRecord d c e s).acq.nextId = s.acq.nextId + 1 :=
  ⟨⟨_, (State.raise_defState _ _ _).trans (State.defState_setDef _ _ _)⟩, congrArg Recorder.nextId (State.raise_acq _ _)⟩

theorem trigLost_def (d : Nat) (s : State) : ((trigLost d s).defState d).seg = (s.defState d).seg := by
  unfold trigLost
  simp only [State.raise_defState]
  show ((s.setDef d _).defState d).seg = _
  rw [State.defState_setDef]

theorem trigLost_count (d : Nat) (s : State) : (trigLost d s).get Reg.ACQ_LOST_TRIGGERS = satInc Reg.ACQ_LOST_TRIGGERS.w (s.get Reg.ACQ_LOST_TRIGGERS) := by
  unfold trigLost
  simp only []
  rw [State.raise_get_ne _ (by decide) (by decide), State.inc_get_ne _ (by simp only [Fld.key, Reg.ACQ_DEF_COUNT_LOST, Reg.ACQ_LOST_TRIGGERS]; omega), State.get_inc_self]
  rfl

/-- The state in which startSegment counts the records of this second. -/
def countedSecond (s : State) : State :=
  if s.acq.openSecond = s.second then s else { s with acq := { s.acq with openSecond := s.second, openCount := 0 } }

theorem countedSecond_defState (s : State) (d : Nat) : (countedSecond s).defState d = s.defState d := by
  unfold countedSecond
  split <;> rfl

theorem countedSecond_segsUsed (s : State) (d : Nat) : (countedSecond s).segsUsed d = s.segsUsed d := by
  unfold countedSecond
  split <;> rfl

theorem countedSecond_bank (s : State) : (countedSecond s).bank = s.bank := by
  unfold countedSecond
  split <;> rfl

section

variable {d : Nat} {c : DefCfg} {e : TrigEvent} {s : State}

theorem startSegment_full (h : defCapacity c ≤ s.segsUsed d) : startSegment d c e s = trigLost d (countedSecond s) :=
  if_pos (by rw [← countedSecond_segsUsed] at h; exact h)

theorem startSegment_room (h : s.segsUsed d < defCapacity c) (hs : s.acq.openSecond = s.second) (hn : s.acq.openCount < 100) :
    startSegment d c e s = if (s.defState d).record.isNone then openSegment d c e (openRecord d c e s) else openSegment d c e s := by
  unfold startSegment
  rw [if_pos hs]
  simp only [if_neg (Nat.not_le.mpr h), if_neg (Nat.not_le.mpr hn)]

/-- A definition with room opens a segment, and a record where none is open. -/
theorem startSegment_opens (h : s.segsUsed d < defCapacity c) (hs : s.acq.openSecond = s.second) (hn : s.acq.openCount < 100) :
    ∃ g, ((startSegment d c e s).defState d).seg = some g ∧ g.trigger = e ∧
      (framesTo e.time (s.defState d).ring = (s.defState d).ring.length → g.raw = (s.defState d).ring ∧ g.rawNeed = (s.defState d).ring.length + c.post) ∧
      ((s.defState d).record = none → ((startSegment d c e s).defState d).record.isSome = true ∧ (startSegment d c e s).acq.nextId = s.acq.nextId + 1) := by
  rw [startSegment_room h hs hn]
  split
  case isTrue hrec =>
    obtain ⟨g, hg, ht, hf⟩ := openSegment_def d c e (openRecord d c e s)
    obtain ⟨⟨r, hr⟩, hid⟩ := openRecord_def d c e s
    rw [hr] at hg hf
    exact ⟨g, by rw [hg], ht, hf, fun _ => ⟨by rw [hg]; rfl, hid⟩⟩
  case isFalse hrec =>
    obtain ⟨g, hg, ht, hf⟩ := openSegment_def d c e s
    exact ⟨g, by rw [hg], ht, hf, fun h => absurd h (by simpa using hrec)⟩

theorem trigDef_rearming (hc : s.defCfg d = some c) (ha : (s.defState d).armed = true) (hr : (s.defState d).rearming = true) :
    trigDef d e s = s.setDef d { s.defState d with held := (s.defState d).held ++ [e] } := by
  simp [trigDef, hc, ha, hr]

theorem trigDef_start (hc : s.defCfg d = some c) (ha : (s.defState d).armed = true) (hr : (s.defState d).rearming = false)
    (hs : (s.defState d).seg = none) (hl : (s.defState d).closing = none) : trigDef d e s = startSegment d c e s := by
  simp [trigDef, hc, ha, hr, hs, hl]

theorem trigDef_disarmed (ha : (s.defState d).armed = false) : trigDef d e s = s := by
  unfold trigDef
  split
  · rfl
  · simp [ha]

end

end Sys2Proof.Machine

open Sys2Proof Sys2Proof.Machine

/-- Settles O38: a trigger of each kind meets the definitions of its mask, and a definition with room opens a segment (`startSegment_opens`). -/
theorem recorderTriggers : Obligations.RecorderTriggers := by
  unfold Obligations.RecorderTriggers
  refine ⟨fun t fine rising c s hr hc => ⟨fun hk he ha hd => ?_, fun hk h => ?_, fun d rest hk hd => ?_⟩,
    fun rate t i v c x s hc hl h1 h2 he => svTrigger_rise hc hl h1 h2 he, fun o mask s hr ho => ⟨fun hl => ?_, fun n task hn ht => ?_⟩,
    fun d c e s hd hc ha => ⟨fun hr => ?_, fun hr hs hl hcap => ?_, fun hr hs hl hcap h1 h2 => ?_⟩, fun d e s ha => trigDef_disarmed ha⟩
  · exact .of_eq (exec_acqTrigger hr hc fine rising) ((if_pos hk).trans (acmpEdge_taken he ha hd))
  · exact .of_eq (exec_acqTrigger hr hc fine rising) ((if_pos hk).trans (acmpEdge_nothing h))
  · exact .of_eq (exec_acqTrigger hr hc fine rising) ((if_neg hk).trans (dueTrigger_next hd))
  · exact .of_eq (exec_acqTrig hr ho mask) (acqTrigWrite_other hr hl mask.toNat)
  · rw [hn] at ho ⊢
    exact .of_eq (exec_acqTrig hr ho mask) (acqTrigWrite_lane hr ht mask.toNat)
  · rw [trigDef_rearming hc ha hr, State.defState_setDef]
  · rw [trigDef_start hc ha hr hs hl, startSegment_full hcap, trigLost_def, trigLost_count, countedSecond_defState, State.get_congr (countedSecond_bank s)]
    exact ⟨hs, rfl⟩
  · rw [trigDef_start hc ha hr hs hl]
    exact startSegment_opens hcap h1 h2

end

section
/-! SUPPORT. Segments and records end, and the ring of records (R331 to R335, R340 to R342). -/

set_option Elab.async false

namespace Sys2Proof.Machine

open Sys2Proof

theorem KeepsBut.setDef {l : List Part} (s : State) (d : Nat) (x : DefState) (h : Part.acq ∈ l := by decide) : KeepsBut l s (s.setDef d x) :=
  (Moves.set_acq _ h (.refl l s)).keeps

theorem KeepsBut.set_acq {l : List Part} (s : State) (x : Recorder) (h : Part.acq ∈ l := by decide) : KeepsBut l s { s with acq := x } :=
  (Moves.set_acq x h (.refl l s)).keeps

/-! A segment closes, and the definition is armed again. -/

theorem exec_segmentClose {d : Fin 16} {g : Segment} {r : Record} {c : DefCfg} {s : State} (hs : (s.defState d).seg = some g)
    (hr : (s.defState d).record = some r) (hc : s.defCfg d = some c) (hl : (s.defState d).closing = none) (hm : segMissing g = 0)
    (hn : r.segments.length + 1 < c.segsPerRecord) :
    exec (.segmentClose d) s = .next (if s.acqRuns then
      if segDone g then s.setDef d { s.defState d with seg := none, record := some { r with segments := r.segments ++ [g] }, rearming := true } else s
      else s) := by
  show execSegmentClose d s = _
  unfold execSegmentClose
  have hfew : ¬ c.segsPerRecord ≤ (r.segments ++ [g]).length := by simp; omega
  simp only [hs, hr, hc, hl, hm, ne_eq, not_true_eq_false, decide_false, State.raiseIf_false, if_neg hfew]

/-! A record closes (R335). -/

theorem takeNewDef_toCommit (d : Nat) (s : State) : (takeNewDef d s).acq.toCommit = s.acq.toCommit := by
  unfold takeNewDef
  simp only []
  split <;> rfl

theorem takeNewDef_record {d : Nat} {s : State} (h : (s.defState d).record = none) : ((takeNewDef d s).defState d).record = none := by
  unfold takeNewDef
  simp only []
  split
  · rw [State.defState_setDef]
    rfl
  · exact h

theorem takeNewDef_same {d : Nat} {s : State} (h : (s.defState d).rearmAfterCommit = false) : takeNewDef d s = s := if_neg (by simp [h])

theorem acqApplyHeld_none {s : State} (h : s.heldWrites = []) : acqApplyHeld s = s := by
  unfold acqApplyHeld
  rw [h]
  rfl

/-- A record that closes leaves its definition and waits for its commit. -/
theorem closeRecord_waits {d reason : Nat} {r : Record} {s : State} (hr : (s.defState d).record = some r) (hh : s.heldWrites = []) :
    ((closeRecord d reason s).defState d).record = none ∧ (closeRecord d reason s).acq.toCommit = s.acq.toCommit ++ [{ r with closeReason := reason }] := by
  simp only [closeRecord, hr]
  rw [acqApplyHeld_none (by exact hh), takeNewDef_toCommit]
  refine ⟨takeNewDef_record ?_, rfl⟩
  show ((s.setDef d _).defState d).record = none
  rw [State.defState_setDef]

theorem closeWrite_busy {d : Nat} {r : Record} {s : State} (ha : s.acqRuns = true) (hr : (s.defState d).record = some r) (hs : (s.defState d).seg ≠ none) :
    closeWrite d s = s.setDef d { s.defState d with closing := some 2 } := by
  simp [closeWrite, ha, hr, Option.isSome_iff_ne_none.mpr hs]

theorem closeWrite_free {d : Nat} {r : Record} {s : State} (ha : s.acqRuns = true) (hr : (s.defState d).record = some r) (hs : (s.defState d).seg = none) :
    closeWrite d s = closeRecord d 2 s := by
  simp [closeWrite, ha, hr, hs]

/-! The ring of records (R340 to R342). -/

/-- The blocks that a record takes in the ring. -/
def recordBlocks (r : Record) : Nat := (recordLen r + 4079) / 4080

/-- The state in which the oldest closed record is in the ring. -/
def recordWritten (r : Record) (rest : List Record) (s : State) : State :=
  let s := writeBlocks (recordBlocks r) s
  { s with acq := { s.acq with
      toCommit := rest, stored := s.acq.stored ++ [⟨r, s.acq.blockSeq - recordBlocks r, recordBlocks r, false⟩], commitFrom := s.time.tick } }

theorem exec_recordCommit {r : Record} {rest : List Record} {s : State} (ha : s.acqRuns = true) (hc : s.acq.toCommit = r :: rest) :
    exec .recordCommit s = .next (if s.time.tick < s.acq.commitFrom + 8000 * recordBlocks r then s
      else (takeNewDef r.definition (recordWritten r rest s)).raise Ev.ACQ_RECORD_COMMITTED) := by
  show execRecordCommit s = _
  unfold execRecordCommit
  simp only [if_pos ha, hc]
  rfl

theorem recordWritten_def (r : Record) (rest : List Record) (s : State) (d : Nat) : (recordWritten r rest s).defState d = s.defState d := rfl

theorem recordWritten_keeps (r : Record) (rest : List Record) (s : State) : KeepsBut [.acq] s (recordWritten r rest s) := .set_acq s _

theorem recordWritten_stored (r : Record) (rest : List Record) (s : State) :
    ⟨r, s.acq.blockSeq, recordBlocks r, false⟩ ∈ (recordWritten r rest s).acq.stored := by
  have hfirst : s.acq.blockSeq + recordBlocks r - recordBlocks r = s.acq.blockSeq := Nat.add_sub_cancel _ _
  exact List.mem_append_right _ (List.mem_singleton.mpr (congrArg (StoredRec.mk r · _ _) hfirst.symm))

/-- The records whose whole the rebuilt index does not find. -/
def lostRecords (s : State) : List Nat :=
  (s.acq.stored.filter (fun r => r.opened && !(s.acq.stored.any (fun y => !y.opened && decide (y.rcd.id = r.rcd.id))) && !s.recordLive r.rcd.id)).map
    (fun r => r.rcd.id)

theorem mem_lostRecords (s : State) (id : Nat) :
    id ∈ lostRecords s ↔ ∃ x ∈ s.acq.stored, x.opened = true ∧ x.rcd.id = id ∧ s.recordLive id = false ∧
      ∀ y ∈ s.acq.stored, y.rcd.id = id → y.opened = true := by
  simp only [lostRecords, List.mem_map, List.mem_filter, Bool.and_eq_true, Bool.not_eq_true', List.any_eq_false, decide_eq_true_eq, not_and,
    Bool.not_eq_true, Bool.not_eq_false]
  constructor
  · rintro ⟨x, ⟨hx, ⟨ho, hy⟩, hl⟩, rfl⟩
    refine ⟨x, hx, ho, rfl, hl, fun y hm hid => ?_⟩
    by_contra hne
    exact hy y hm (by simpa using hne) hid
  · rintro ⟨x, hx, ho, rfl, hl, hy⟩
    exact ⟨x, ⟨hx, ⟨ho, fun y hm hn hid => by simp [hy y hm hid] at hn⟩, hl⟩, rfl⟩

theorem exec_recordIndexRebuild (s : State) : exec .recordIndexRebuild s = .next (if s.acqRuns && !s.acq.indexReady then
    forEach (lostRecords s) (fun _ s => (s.inc Reg.ACQ_LOST_RECORDS).raise Ev.ACQ_RECORD_LOST) { s with acq := { s.acq with indexReady := true, lostIds := lostRecords s } }
    else s) := rfl

theorem recordsLost_keeps (l : List Nat) (s : State) :
    KeepsBut [.bank, .net, .outbox] s (forEach l (fun _ s => (s.inc Reg.ACQ_LOST_RECORDS).raise Ev.ACQ_RECORD_LOST) s) :=
  forEach_keeps (P := KeepsBut [.bank, .net, .outbox] s) (fun _ x h => (h.put _ _).trans (State.raise_keeps _ _)) l (.refl _ s)

end Sys2Proof.Machine

open Sys2Proof Sys2Proof.Machine

/-- Settles O39: a complete segment joins its record, a record that closes waits for its commit, and the commit writes it whole (`recordWritten`). -/
theorem segmentsAndRecords : Obligations.SegmentsAndRecords := by
  unfold Obligations.SegmentsAndRecords
  refine ⟨⟨fun d g r c s ha hs hr hc hd hl hn hm => ?_, fun d s ha hr hh => ?_, fun d s ha hr => .pos rfl (by simp [ha, hr]) rfl,
    fun d r s ha hs hh hr => .pos rfl (by simp [ha, hs, hh]) rfl, fun d r s reason hr hh => closeRecord_waits hr hh,
    fun o d r s ha ho hr => ⟨fun hs => ?_, fun hs => ?_⟩⟩, fun r rest s ha hc => ⟨fun ht hd => ?_, fun ht => ?_⟩, fun s ha hi => ?_⟩
  · exact .of_eq ((exec_segmentClose hs hr hc hl hm hn).trans (congrArg Host.Outcome.next ((if_pos ha).trans (if_pos hd))))
      ⟨State.defState_setDef _ _ _, .setDef s _ _⟩
  · refine .pos rfl (by simp [ha, hr]) ?_
    rw [hh, forEach_nil, State.defState_setDef, ← hh]
    exact ⟨rfl, .setDef s _ _⟩
  · exact .pos rfl (powered_of_acqRuns ha) ((if_pos ho).trans (closeWrite_busy ha hr hs))
  · exact .pos rfl (powered_of_acqRuns ha) ((if_pos ho).trans (closeWrite_free ha hr hs))
  · refine .neg (exec_recordCommit ha hc) (Nat.not_lt.mpr ht) ?_
    rw [takeNewDef_same (by rwa [recordWritten_def]), State.raise_acq]
    exact ⟨rfl, rfl, rfl, recordWritten_stored r rest s, .after (by decide) (recordWritten_keeps r rest s)⟩
  · exact .pos (exec_recordCommit ha hc) ht rfl
  · refine .pos (exec_recordIndexRebuild s) (by simp [ha, hi]) ?_
    rw [(recordsLost_keeps _ _).acq]
    exact ⟨rfl, rfl, mem_lostRecords s, (KeepsBut.set_acq s _).trans ((recordsLost_keeps _ _).mono (by decide))⟩

end

section
/-! SUPPORT. The idle step and the exchange whose Qs has come (R151, R347). -/

set_option Elab.async false

namespace Sys2Proof.Machine

open Sys2Proof

/-- The idle step is a tick, after which an exchange whose Qs has come begins its mixed interval (R151). -/
theorem step_idle {s : State} (h : s.pending = []) : step s = .next (exchangeQuantum (tick s)) := by
  simp only [step, h, idleTick]

theorem beginMixed_standby (old new : Image) {s : State} (hm : s.mode = .standby) :
    beginMixed old new s = addNew old new { s with exch := { s.exch with mixed := true } } :=
  if_neg (by show ¬ s.mode = .active; simp [hm])

/-- At Qs a standby module's committed exchange becomes mixed. -/
theorem exchangeQuantum_mixed {a : Announcement} {new old : Image} {s : State} (ha : s.exch.announcement = some a) (hn : s.exch.image = some new)
    (ho : s.mram.running = some old) (hc : s.exchangeCommitted = true) (hx : s.exch.mixed = false) (hq : a.qs ≤ s.gridQuantum) (hm : s.mode = .standby) :
    (exchangeQuantum s).exch.mixed = true := by
  simp only [exchangeQuantum, ha, hn, ho]
  rw [if_pos (by simp [hc, hx, hq, hm]), beginMixed_standby old new hm]
  rfl

theorem tick_keeps (s : State) : KeepsBut [.standby, .conv, .time] s (tick s) := (tick_moves (fun _ h => h) (.refl _ s)).keeps

/-- A configuration image that declares nothing. -/
def bareImage : Image :=
  { magic := 0#32, format := 1, headerLen := 0, imageLen := 0, sectionCount := 0, projectId := 0#64, revision := 1, variant := 0, pairId := 0
    buildTime := 0#64, sigOffset := 0, sigLen := 0, sections := [], headerCrc := 0#32, body := [], digest := 0, projectCert := ⟨[], (0, 0), (0, 0)⟩
    ownerCert := ⟨[], (0, 0), (0, 0)⟩, sig := (0, 0), tasks := [], spares := 0, tags := [], units := [], roles := [], constants := [], objects := []
    equations := [], trips := [], acmps := [], svcs := [], gbits := [], channels := [], mains60 := false, primary := none, secondary := none
    net := ⟨false, [], [], [], 0, false, false⟩, can := [], defs := [], triggers := [], policy := ⟨0, 256, 60, 10, 168, []⟩, start := ⟨0, 0⟩ }

/-- A standby module with an empty queue, whose committed exchange to the image i was announced for quantum 0. -/
def atQs (i : Image) : State :=
  { State.reset with
    mode := .standby, exch := { Exchange.reset with progress := .committed, image := some i, announcement := some ⟨0, []⟩ }
    mram := { State.reset.mram with running := some i } }

theorem atQs_step_mixed (i : Image) : (exchangeQuantum (tick (atQs i))).exch.mixed = true := by
  have hk := tick_keeps (atQs i)
  have hexch : (tick (atQs i)).exch = (atQs i).exch := hk.exch
  refine exchangeQuantum_mixed (a := ⟨0, []⟩) (new := i) (old := i) (by rw [hexch]; rfl) (by rw [hexch]; rfl) (by rw [hk.mram]; rfl) ?_
    (by rw [hexch]; rfl) (Nat.zero_le _) (by rw [hk.mode]; rfl)
  unfold State.exchangeCommitted
  rw [hexch]
  rfl

theorem atQs_tick_unmixed (i : Image) : (tick (atQs i)).exch.mixed = false := by
  rw [(tick_keeps (atQs i)).exch]
  rfl

end Sys2Proof.Machine

open Sys2Proof Sys2Proof.Machine

/-- Refutes O40: a step on an empty queue is not always one tick. Where a committed exchange has reached its Qs, the idle step also begins the mixed
interval (`step_idle`), which the tick alone does not. -/
theorem not_tickOfTheTimebase : ¬ Obligations.TickOfTheTimebase := by
  intro h
  obtain ⟨hidle, -⟩ := h
  have htick : exchangeQuantum (tick (atQs bareImage)) = tick (atQs bareImage) := Host.Outcome.next.inj ((step_idle rfl).symm.trans (hidle (atQs bareImage) rfl))
  have hmixed := atQs_step_mixed bareImage
  rw [htick, atQs_tick_unmixed] at hmixed
  exact Bool.false_ne_true hmixed

end

section
/-! SUPPORT. Time steps, the time latch and the servo's declarations (R118, R349 to R353). -/

set_option Elab.async false

namespace Sys2Proof.Machine

open Sys2Proof

/-! A step of the main counter (R349, R351). -/

theorem Stamp.ofFine_fine {n : Nat} (h : n < 2 ^ 48 * 1000000000 * 2 ^ 32) : (Stamp.ofFine n).fine = n := by
  simp only [Stamp.ofFine, Stamp.fine, Stamp.nsTotal]
  omega

/-- The instant that a step of ns nanoseconds and frac of 2^-16 ns leads to, within the counter's range. -/
def steppedFine (ns : Int) (frac : Nat) (c : Stamp) : Int :=
  ((c.fine : Int) + ns * 2 ^ 32 + (frac : Int) * 65536) % (2 ^ 48 * 1000000000 * 2 ^ 32 : Int)

theorem steppedFine_toNat (ns : Int) (frac : Nat) (c : Stamp) :
    ((Stamp.ofFine (steppedFine ns frac c).toNat).fine : Int) = steppedFine ns frac c := by
  have h0 : 0 ≤ steppedFine ns frac c := Int.emod_nonneg _ (by decide)
  have h1 : steppedFine ns frac c < 2 ^ 48 * 1000000000 * 2 ^ 32 := Int.emod_lt_of_pos _ (by decide)
  rw [Stamp.ofFine_fine (by omega)]
  exact Int.toNat_of_nonneg h0

/-- The event of a slewing grid, where the grid slews. -/
def slewStarted (slews : Bool) (ns : Int) (s : State) : State := if slews then s.raiseIf (decide (ns ≠ 0)) Ev.EXEC_SLEW_STARTED else s

theorem slewStarted_keeps (slews : Bool) (ns : Int) (s : State) : KeepsBut [.bank, .net, .outbox] s (slewStarted slews ns s) := by
  unfold slewStarted
  split
  · exact State.raiseIf_keeps _ _ _
  · exact .refl _ s

theorem slewStarted_get (slews : Bool) (ns : Int) (s : State) : (slewStarted slews ns s).get Reg.TIME_STEPS_COUNT = s.get Reg.TIME_STEPS_COUNT := by
  unfold slewStarted
  split
  · exact State.raiseIf_get_ne _ _ (by decide) (by decide)
  · rfl

/-- The state of a step before the slewing event and the new quantum. -/
def stepCounted (ns : Int) (frac : Nat) (slews : Bool) (s : State) : State :=
  acqStepped ((({ s with time := { s.time with
    counter := Stamp.ofFine (steppedFine ns frac s.time.counter).toNat, slewNs := if slews then s.time.slewNs + ns else s.time.slewNs } } : State).inc
      Reg.TIME_STEPS_COUNT).raise Ev.TIME_STEPPED)

theorem stepCounter_eq (ns : Int) (frac : Nat) (s : State) : ∃ q,
    stepCounter ns frac s =
      { slewStarted (decide (s.mode = .standby) || decide (s.mode = .active)) ns (stepCounted ns frac (decide (s.mode = .standby) || decide (s.mode = .active)) s) with
        time := { (slewStarted (decide (s.mode = .standby) || decide (s.mode = .active)) ns
          (stepCounted ns frac (decide (s.mode = .standby) || decide (s.mode = .active)) s)).time with lastQuantum := q } } := ⟨_, rfl⟩

theorem stepCounted_time (ns : Int) (frac : Nat) (slews : Bool) (s : State) :
    (stepCounted ns frac slews s).time =
      { s.time with counter := Stamp.ofFine (steppedFine ns frac s.time.counter).toNat, slewNs := if slews then s.time.slewNs + ns else s.time.slewNs } :=
  State.raise_time _ _

theorem stepCounted_get (ns : Int) (frac : Nat) (slews : Bool) (s : State) :
    (stepCounted ns frac slews s).get Reg.TIME_STEPS_COUNT = satInc Reg.TIME_STEPS_COUNT.w (s.get Reg.TIME_STEPS_COUNT) := by
  show State.get (State.raise _ _) _ = _
  rw [State.raise_get_ne _ (by decide) (by decide)]
  exact State.get_inc_self _ _

/-- What a step leaves in the time base, and in the count of the steps. -/
theorem stepCounter_time (ns : Int) (frac : Nat) (s : State) :
    (stepCounter ns frac s).time.counter = Stamp.ofFine (steppedFine ns frac s.time.counter).toNat ∧ (stepCounter ns frac s).time.inc = s.time.inc ∧
      (stepCounter ns frac s).time.tick = s.time.tick ∧
      (stepCounter ns frac s).time.slewNs = (if decide (s.mode = .standby) || decide (s.mode = .active) then s.time.slewNs + ns else s.time.slewNs) ∧
      (stepCounter ns frac s).get Reg.TIME_STEPS_COUNT = satInc Reg.TIME_STEPS_COUNT.w (s.get Reg.TIME_STEPS_COUNT) := by
  obtain ⟨q, hq⟩ := stepCounter_eq ns frac s
  generalize (decide (s.mode = .standby) || decide (s.mode = .active)) = b at hq ⊢
  have ht : (slewStarted b ns (stepCounted ns frac b s)).time = _ := (slewStarted_keeps b ns _).time.trans (stepCounted_time ns frac b s)
  have hg := (slewStarted_get b ns _).trans (stepCounted_get ns frac b s)
  rw [hq, ht]
  exact ⟨rfl, rfl, rfl, rfl, hg⟩

theorem stepCounter_keeps (ns : Int) (frac : Nat) (s : State) : KeepsBut [.bank, .time, .acq, .net, .outbox] s (stepCounter ns frac s) :=
  (stepCounter_moves (L := [.bank, .time, .acq, .net, .outbox]) ns frac (by decide) (.refl _ s)).keeps

/-! The latch (R350). -/

theorem latch_get {s : State} (l : List Nat) {n : Nat} (h : n < l.length) :
    (putWords (fun n => Reg.TIME_SNAP_n_WORD n) (l.map (BitVec.ofNat 32)) s).get (Reg.TIME_SNAP_n_WORD n) = l[n] % 2 ^ 32 := by
  rw [putWords_get (f := fun n => Reg.TIME_SNAP_n_WORD n) (fun _ => rfl)
    (fun m n hk => by simp only [Fld.key, Reg.TIME_SNAP_n_WORD] at hk; omega) _ s (by simpa using h), List.getD_eq_getElem _ _ (by simpa using h),
    List.getElem_map, BitVec.toNat_ofNat]

/-! The quality (R352, R353). -/

theorem setQuality_time (q : Nat) (s : State) :
    (setQuality q s).time = { s.time with quality := q, lockedOnce := s.time.lockedOnce || decide (q = 0) } := by
  unfold setQuality
  simp only [State.raiseIf_time]

theorem setQuality_get (q : Nat) (s : State) {f : Fld} (hf : f.key = Reg.TIME_SERVO_QUALITY.key ∨ f.key = Reg.TIME_SERVO_SOURCE.key ∨ f.key = Reg.TIME_SERVO_ERR_NS.key) :
    (setQuality q s).get f = s.get f := by
  have hle : Reg.TIME_SERVO_QUALITY.key ≤ f.key := by obtain h | h | h := hf <;> rw [h] <;> decide
  have hne {n : Nat} (hn : n < Reg.TIME_SERVO_QUALITY.key) : n ≠ f.key := Nat.ne_of_lt (Nat.lt_of_lt_of_le hn hle)
  unfold setQuality
  simp only []
  rw [State.raiseIf_get_ne _ _ (hne (by decide)) (hne (by decide)), State.raiseIf_get_ne _ _ (hne (by decide)) (hne (by decide))]
  rfl

theorem setQuality_locks {s : State} (h : s.time.quality ≠ 0) : (setQuality 0 s).get ⟨Ev.TIME_LOCKED.addr, Ev.TIME_LOCKED.bit, 1⟩ = 1 := by
  unfold setQuality
  simp only []
  rw [State.raiseIf_false _ _ (by simp), State.raiseIf_true _ _ (by simp [h])]
  exact State.raise_get_bit _ (by decide)

theorem setQuality_loses {q : Nat} {s : State} (h : s.time.quality = 0) (hq : q ≠ 0) :
    (setQuality q s).get ⟨Ev.TIME_LOCK_LOST.addr, Ev.TIME_LOCK_LOST.bit, 1⟩ = 1 := by
  unfold setQuality
  simp only []
  rw [State.raiseIf_true _ _ (by simp [h, hq])]
  exact State.raise_get_bit _ (by decide)

theorem setQuality_quiet {q : Nat} {s : State} (h : s.time.quality ≠ 0) (hq : q ≠ 0) :
    setQuality q s = { s with time := { s.time with quality := q, lockedOnce := s.time.lockedOnce || decide (q = 0) } } := by
  unfold setQuality
  simp only []
  rw [State.raiseIf_false _ _ (by simp [h]), State.raiseIf_false _ _ (by simp [hq])]

/-- The registers that a declaration writes. -/
def servoRegs (q src port err : Nat) (s : State) : State :=
  (((s.put Reg.TIME_SERVO_QUALITY q).put Reg.TIME_SERVO_SOURCE src).put Reg.TIME_SERVO_PTP_PORT port).put Reg.TIME_SERVO_ERR_NS err

theorem servoRegs_get {q src err : Nat} (hq : q < 4) (hs : src < 4) (he : err < 65536) (port : Nat) (s : State) :
    (servoRegs q src port err s).get Reg.TIME_SERVO_QUALITY = q ∧ (servoRegs q src port err s).get Reg.TIME_SERVO_SOURCE = src ∧
      (servoRegs q src port err s).get Reg.TIME_SERVO_ERR_NS = err := by
  unfold servoRegs
  refine ⟨?_, ?_, State.get_put_of_lt _ he⟩
  · rw [State.get_put_ne _ _ (by decide), State.get_put_ne _ _ (by decide), State.get_put_ne _ _ (by decide)]
    exact State.get_put_of_lt _ hq
  · rw [State.get_put_ne _ _ (by decide), State.get_put_ne _ _ (by decide)]
    exact State.get_put_of_lt _ hs

theorem portChanged_get (c : Bool) (s : State) {f : Fld} (hf : f = Reg.TIME_SERVO_QUALITY ∨ f = Reg.TIME_SERVO_SOURCE ∨ f = Reg.TIME_SERVO_ERR_NS) :
    (s.raiseIf c Ev.TIME_PORT_CHANGED).get f = s.get f := by
  obtain rfl | rfl | rfl := hf <;> exact State.raiseIf_get_ne _ _ (by decide) (by decide)

/-- A declaration of quality q, of which eff takes force: the registers, the port's event, and the quality. -/
theorem servoDeclare_eq (q src port err : Nat) (s : State) {eff : Nat}
    (he : (if (decide (q = 1) || decide (q = 2)) && decide (s.time.quality = 3) then 3 else q) = eff) :
    ∃ p c a, servoDeclare q src port err s = setQuality eff { (servoRegs q src p err s).raiseIf c Ev.TIME_PORT_CHANGED with
      time := { ((servoRegs q src p err s).raiseIf c Ev.TIME_PORT_CHANGED).time with
        source := src, port := p
        holdoverSince := if eff = 1 ∨ eff = 2 then some (s.time.holdoverSince.getD s.time.tick) else none
        lastLockedInc := if ((servoRegs q src p err s).raiseIf c Ev.TIME_PORT_CHANGED).time.quality = 0 ∧ eff ≠ 0 then
          ((servoRegs q src p err s).raiseIf c Ev.TIME_PORT_CHANGED).time.inc
          else ((servoRegs q src p err s).raiseIf c Ev.TIME_PORT_CHANGED).time.lastLockedInc
        announcing := a } } := by
  subst he
  exact ⟨_, _, _, rfl⟩

/-- A declaration of LOCKED. -/
theorem servoDeclare_locked {src err : Nat} (hs : src < 4) (he : err < 65536) (port : Nat) (s : State) :
    (servoDeclare 0 src port err s).time.quality = 0 ∧ (servoDeclare 0 src port err s).time.lockedOnce = true ∧ (servoDeclare 0 src port err s).time.source = src ∧
      (servoDeclare 0 src port err s).time.holdoverSince = none ∧ (servoDeclare 0 src port err s).time.inc = s.time.inc ∧
      (servoDeclare 0 src port err s).get Reg.TIME_SERVO_QUALITY = 0 ∧ (servoDeclare 0 src port err s).get Reg.TIME_SERVO_SOURCE = src ∧
      (servoDeclare 0 src port err s).get Reg.TIME_SERVO_ERR_NS = err ∧
      (s.time.quality ≠ 0 → (servoDeclare 0 src port err s).get ⟨Ev.TIME_LOCKED.addr, Ev.TIME_LOCKED.bit, 1⟩ = 1) := by
  obtain ⟨p, c, a, h⟩ := servoDeclare_eq 0 src port err s (eff := 0) (by simp)
  obtain ⟨g1, g2, g3⟩ := servoRegs_get (q := 0) (by decide) hs he p s
  have ht : ((servoRegs 0 src p err s).raiseIf c Ev.TIME_PORT_CHANGED).time = s.time := State.raiseIf_time _ _ _
  rw [h, setQuality_time, setQuality_get _ _ (.inl rfl), setQuality_get _ _ (.inr (.inl rfl)), setQuality_get _ _ (.inr (.inr rfl))]
  refine ⟨rfl, by simp, rfl, rfl, (congrArg TimeBase.inc ht :), (portChanged_get c _ (.inl rfl)).trans g1, (portChanged_get c _ (.inr (.inl rfl))).trans g2,
    (portChanged_get c _ (.inr (.inr rfl))).trans g3, fun hq => setQuality_locks ?_⟩
  rw [ht]
  exact hq

/-- A declaration of HOLDOVER by a locked module. -/
theorem servoDeclare_holdover {s : State} (src port err : Nat) (hq : s.time.quality = 0) :
    (servoDeclare 1 src port err s).time.quality = 1 ∧
      (servoDeclare 1 src port err s).time.holdoverSince = some (s.time.holdoverSince.getD s.time.tick) ∧
      (servoDeclare 1 src port err s).time.lastLockedInc = s.time.inc ∧
      (servoDeclare 1 src port err s).get ⟨Ev.TIME_LOCK_LOST.addr, Ev.TIME_LOCK_LOST.bit, 1⟩ = 1 := by
  obtain ⟨p, c, a, h⟩ := servoDeclare_eq 1 src port err s (eff := 1) (by simp [hq])
  have ht : ((servoRegs 1 src p err s).raiseIf c Ev.TIME_PORT_CHANGED).time = s.time := State.raiseIf_time _ _ _
  rw [h, setQuality_time, ht]
  exact ⟨rfl, rfl, if_pos ⟨hq, by decide⟩, setQuality_loses hq (by decide)⟩

theorem exec_holdoverExpired (s : State) : exec .holdoverExpired s =
    .next (if s.powered && s.time.holdoverSince.any (fun t => decide (t + ticksOfMs 5000 ≤ s.time.tick)) then
      (setQuality 3 { s with time := { s.time with holdoverSince := none, announcing := 187 } }).raise Ev.TIME_HOLDOVER_EXPIRED else s) := rfl

theorem any_due {o : Option Nat} {h : Nat} (ho : o = some h) (k n : Nat) : o.any (fun t => decide (t + k ≤ n)) = decide (h + k ≤ n) := by
  rw [ho]
  rfl

/-- The end of a holdover that began at h. -/
theorem exec_holdoverExpired_since {s : State} {h : Nat} (hp : s.powered = true) (hs : s.time.holdoverSince = some h) : exec .holdoverExpired s =
    .next (if h + ticksOfMs 5000 ≤ s.time.tick then
      (setQuality 3 { s with time := { s.time with holdoverSince := none, announcing := 187 } }).raise Ev.TIME_HOLDOVER_EXPIRED else s) := by
  rw [exec_holdoverExpired, hp, Bool.true_and, any_due hs]
  simp only [decide_eq_true_eq]

theorem KeepsBut.set_time {l : List Part} (s : State) (x : TimeBase) (h : Part.time ∈ l := by decide) : KeepsBut l s { s with time := x } := by
  intro p hp
  cases p <;> first | rfl | exact absurd h hp

end Sys2Proof.Machine

open Sys2Proof Sys2Proof.Machine

/-- Settles O42: a step moves the counter by its amount modulo the counter's range (`steppedFine_toNat`), and a declaration takes force as a quality. -/
theorem stepsLatchAndServo : Obligations.StepsLatchAndServo := by
  unfold Obligations.StepsLatchAndServo
  refine ⟨⟨fun o fr s hp ho => ?_, fun o b fr s hp ho => ⟨.pos rfl hp (if_neg (by simp [ho])), .pos rfl hp (if_neg (by simp [ho]))⟩⟩,
    fun o s hp ho => ?_, fun o src port err s hp ho => ?_, fun o src port err s hp ho hq => ?_, fun h s hp hs hq => ⟨fun ht => ?_, fun ht => ?_⟩⟩
  · refine .of_eq (t := stepWrite fr.toNat s) (congrArg Host.Outcome.next ((if_pos hp).trans (if_pos ho))) ?_
    unfold stepWrite
    generalize signed 64 (s.get Reg.TIME_STEP_HI_STEP_HI * 2 ^ 32 + s.get Reg.TIME_STEP_LO_STEP_LO) = ns
    obtain ⟨hc, hi, ht, hs, hn⟩ := stepCounter_time ns fr.toNat s
    refine ⟨hn, ?_, hi, ht, fun hm => ?_, fun h1 h2 => ?_, stepCounter_keeps ns fr.toNat s⟩
    · rw [hc, steppedFine_toNat, steppedFine]
    · rw [hs, if_pos (by simpa using hm)]
    · rw [hs, if_neg (by simp [h1, h2])]
  · refine .of_eq (t := latchWrite s) (congrArg Host.Outcome.next ((if_pos hp).trans (if_pos ho))) ?_
    unfold latchWrite
    exact ⟨latch_get _ (by simp), latch_get _ (by simp), latch_get _ (by simp), latch_get _ (by simp), latch_get _ (by simp),
      latch_get _ (by simp), putWords_keeps _ _ _⟩
  · exact .of_eq (t := servoDeclare 0 src port err.toNat s) (congrArg Host.Outcome.next ((if_pos hp).trans (if_pos ho)))
      (servoDeclare_locked src.isLt err.isLt port s)
  · exact .of_eq (t := servoDeclare 1 src port err.toNat s) (congrArg Host.Outcome.next ((if_pos hp).trans (if_pos ho)))
      (servoDeclare_holdover src port err.toNat hq)
  · refine .pos (exec_holdoverExpired_since hp hs) ht ?_
    rw [setQuality_quiet (by exact hq) (by decide), State.raise_time]
    exact ⟨by simp, .after (by decide) (.set_time s _)⟩
  · exact .neg (exec_holdoverExpired_since hp hs) (Nat.not_le.mpr ht) rfl

end

section
/-! SUPPORT. The oscillator model and PTP (R354 to R359, R361 to R365). -/

set_option Elab.async false

namespace Sys2Proof.Machine

open Sys2Proof

/-! The increment, kept within R348. -/

theorem clampInc_bounds (n : Int) : incLo ≤ clampInc n ∧ clampInc n ≤ incHi := by
  have hlohi : incLo ≤ incHi := by decide
  unfold clampInc clampI
  by_cases h1 : n < (incLo : Int)
  · rw [if_pos h1]
    exact ⟨Nat.le_refl _, hlohi⟩
  · rw [if_neg h1]
    by_cases h2 : (incHi : Int) < n
    · rw [if_pos h2]
      exact ⟨hlohi, Nat.le_refl _⟩
    · rw [if_neg h2]
      omega

theorem setInc_time {inc : Nat} (h : inc < 2 ^ 40) (s : State) : (setInc inc s).time = { s.time with inc := inc } := by
  show { s.time with inc := inc % 2 ^ 40 } = _
  rw [Nat.mod_eq_of_lt h]

theorem clampInc_lt (n : Int) : clampInc n < 2 ^ 40 := Nat.lt_of_le_of_lt (clampInc_bounds n).2 (by decide)

theorem servoSteer_time (s : State) : ∃ v, incLo ≤ v ∧ v ≤ incHi ∧ (servoSteer s).time = { s.time with inc := v } := by
  have hmod : (Config.freeValue s.freeCount).toNat % (incHi - incLo + 1) < incHi - incLo + 1 := Nat.mod_lt _ (by decide)
  have hlt : incLo + (Config.freeValue s.freeCount).toNat % (incHi - incLo + 1) ≤ incHi := by
    simp only [incHi, incLo] at hmod ⊢
    omega
  exact ⟨_, Nat.le_add_right _ _, hlt, setInc_time (Nat.lt_of_le_of_lt hlt (by decide)) s.free.2⟩

/-! The oscillator's samples and its model (R364, R365). -/

theorem oscSlot_older {a b : OscSlot} {s : State} (h : s.mram.osc = [(0, a), (1, b)]) : s.oscSlot = 0 ↔ a.generation < b.generation := by
  have ha : Tab.get? s.mram.osc 0 = some a := by rw [h]; rfl
  have hb : Tab.get? s.mram.osc 1 = some b := by rw [h]; rfl
  simp only [State.oscSlot, ha, hb]
  split
  case isTrue hlt => simp [hlt]
  case isFalse hlt => simp [hlt]

/-- The slot of the oscillator model that a write leaves. -/
def modelSlot (s : State) : OscSlot :=
  ⟨s.time.bins, s.time.lockedSamples, s.time.qualified || decide (modelSamples ≤ s.time.lockedSamples), (s.mram.osc.map (fun e => e.2.generation)).foldl max 0 + 1,
    s.fmtAt 4 s.oscSlot, true⟩

/-- A write of the model: the older slot, and the qualification. -/
def modelWritten (s : State) : State :=
  { s with
    time := { s.time with qualified := s.time.qualified || decide (modelSamples ≤ s.time.lockedSamples) }
    mram := { s.mram with osc := Tab.set s.mram.osc s.oscSlot (modelSlot s) } }

theorem raiseIf_same_parts (s : State) (c : Bool) (e : EvBit) :
    (s.raiseIf c e).time = s.time ∧ (s.raiseIf c e).mram = s.mram ∧ (s.raiseIf c e).upd = s.upd ∧ (s.raiseIf c e).start = s.start := by
  simp only [State.raiseIf_time, State.raiseIf_mram, State.raiseIf_upd, State.raiseIf_start, and_self]

theorem exec_oscillatorModelWrite {s : State} (hp : s.powered = true) :
    exec .oscillatorModelWrite s =
      .next (modelWritten (s.raiseIf (decide (modelSamples ≤ s.time.lockedSamples) && !s.time.qualified) Ev.TIME_MODEL_QUALIFIED)) := by
  show execOscillatorModelWrite s = _
  unfold execOscillatorModelWrite modelWritten modelSlot
  rw [if_pos hp]
  simp only [State.raiseIf_time, State.raiseIf_mram]

theorem modelWritten_keeps (s : State) : KeepsBut [.time, .mram] s (modelWritten s) := .fields

theorem RaisedBut.trans_keeps {e : EvBit} {l : List Fld} {ps : List Part} {s t u : State} (h : RaisedBut e l ps s t) (hk : KeepsBut ps t u)
    (h1 : Part.bank ∉ ps := by decide) (h2 : Part.outbox ∉ ps := by decide) (h3 : Part.net ∉ ps := by decide) : RaisedBut e l ps s u := by
  obtain ⟨⟨hbit, hseq⟩, hr, ho, hk'⟩ := h
  have hb := hk.bank h1
  exact ⟨⟨(State.get_congr hb _).trans hbit, (State.get_congr hb _).trans hseq⟩, hr.trans (.of_bank hb), ho.trans (.of_eq (hk.outbox h2) (hk.net h3)),
    hk'.trans (hk.mono fun _ h => List.mem_append_right _ h)⟩

theorem RaisedBut.mono_parts {e : EvBit} {l : List Fld} {ps qs : List Part} {s t : State} (h : RaisedBut e l ps s t) (hs : ∀ p ∈ ps, p ∈ qs) :
    RaisedBut e l qs s t := by
  obtain ⟨h1, h2, h3, h4⟩ := h
  refine ⟨h1, h2, h3, h4.mono fun p hp => ?_⟩
  rcases List.mem_append.mp hp with hp | hp
  · exact List.mem_append_left _ hp
  · exact List.mem_append_right _ (hs p hp)

/-- The increment that a holdover steers by. -/
theorem exec_holdoverSteer {temp : Int} {s : State} (hp : s.powered = true) (he : s.get Reg.TIME_CTRL_SERVO_EN = 1) (hh : s.time.holdoverSince ≠ none) :
    exec (.holdoverSteer temp) s = .next (match if s.time.qualified then modelOffset s.time.bins temp else none with
      | some off => setInc (clampInc ((incNominal : Int) + off)) (setQuality 1 (s.put Reg.TIME_OSC_TEMP (twos 16 temp)))
      | none => setInc s.time.lastLockedInc (setQuality 2 (s.put Reg.TIME_OSC_TEMP (twos 16 temp)))) := by
  show execHoldoverSteer temp s = _
  unfold execHoldoverSteer
  rw [if_pos (by simp [hp, he, Option.isSome_iff_ne_none.mpr hh])]
  rfl

/-! PTP messages (R354, R358, R361). -/

theorem receiveStamp_keeps (p : Port) (x : PortStamp) (v : Bool) (s : State) : KeepsBut [.net] s (receiveStamp p x v s) :=
  (receiveStamp_moves p x v (fun _ h => h) (.refl _ s)).keeps

theorem receiveStamp_rx (p : Port) (x : PortStamp) (s : State) :
    Tab.get? (receiveStamp p x false s).net.rx (portCode p) = some ⟨(ingressStamp p x).1, (ingressStamp p x).2, none⟩ := Tab.get?_set_self _ _ _

theorem ptpPort_congr {s t : State} (h : t.time = s.time) (p : Nat) : t.ptpPort p = s.ptpPort p := by
  unfold State.ptpPort
  rw [h]

@[simp] theorem ptpPort_setPtpPort (s : State) (p : Nat) (x : PtpPort) : (s.setPtpPort p x).ptpPort p = x := Tab.getD_put_self _ _ _ _

theorem setPtpPort_twice_port (s : State) (p : Nat) (x y : PtpPort) : ((s.setPtpPort p x).setPtpPort p y).ptpPort p = y := Tab.getD_put_self _ _ _ _

theorem portCode_lt {p : Port} (h : p ≠ .svc) : portCode p < 4 := by
  cases p with
  | svc => exact absurd rfl h
  | _ => decide

section

variable {m : PtpMsg} {i : Image} {s : State}

/-- A message that is stamped and no more. -/
theorem exec_ptpMessage_foreign (hp : s.powered = true) (hi : s.img = some i) (hu : m.port ∈ s.net.up) (hs : m.port ≠ .svc) (hd : m.domain ≠ i.net.ptpDomain) :
    exec (.ptpMessage m) s = .next (receiveStamp m.port m.stamp false s) := by
  show execPtpMessage m s = _
  unfold execPtpMessage
  simp only [hi]
  rw [if_pos (by simp [hp, hu, hs])]
  exact congrArg Host.Outcome.next (if_pos (.inl hd))

/-- A message of the own domain at a port whose role it does not change. -/
theorem exec_ptpMessage_own (hp : s.powered = true) (hi : s.img = some i) (hu : m.port ∈ s.net.up) (hs : m.port ≠ .svc) (hd : m.domain = i.net.ptpDomain)
    (hr : s.mpu.restarting = false) (hx : (s.ptpPort (portCode m.port)).slave = m.slave) :
    exec (.ptpMessage m) s = .next (ptpTake m.port (ingressStamp m.port m.stamp).1 m.body
      ((receiveStamp m.port m.stamp false s).setPtpPort (portCode m.port)
        { s.ptpPort (portCode m.port) with slave := m.slave, good := if m.slave then (s.ptpPort (portCode m.port)).good else 0 })) := by
  show execPtpMessage m s = _
  unfold execPtpMessage
  simp only [hi]
  rw [if_pos (by simp [hp, hu, hs])]
  have hk := receiveStamp_keeps m.port m.stamp false s
  have hx' : ((receiveStamp m.port m.stamp false s).ptpPort (portCode m.port)) = s.ptpPort (portCode m.port) := ptpPort_congr hk.time _
  have hr' : (receiveStamp m.port m.stamp false s).mpu.restarting = false := by rw [hk.mpu, hr]
  simp only [hx', hr', hd, hx, ne_eq, not_true_eq_false, Bool.false_eq_true, or_self, if_false, Bool.and_not_self]

end

/-- A measured offset at a port that is not slave moves nothing but the port's own record. -/
theorem ptpOffset_master {p : Nat} {d : Int} {s : State} (h : (s.ptpPort p).slave = false) :
    ptpOffset p d s = s.setPtpPort p { s.ptpPort p with good := if d.natAbs ≤ 1000 * 65536 then min 16 ((s.ptpPort p).good + 1) else 0 } :=
  if_pos (.inr (by simp [h]))

theorem ptpSync_master {p arrival origin : Nat} {corr : Int} {s : State} (h : (s.ptpPort p).slave = false) :
    ∃ l, ptpSync p arrival origin corr s = { s with time := { s.time with ports := l } } := by
  unfold ptpSync
  simp only []
  rw [ptpOffset_master (by rw [ptpPort_setPtpPort]; exact h)]
  exact ⟨_, rfl⟩

/-- The port that the servo follows, where it is locked. -/
theorem lockPort_followed {s : State} (hs : (s.ptpPort s.time.port).slave = true) (hg : 16 ≤ (s.ptpPort s.time.port).good) : s.lockPort = some s.time.port := by
  unfold State.lockPort
  exact if_pos (by simp [hs, hg])

theorem servoDeclare_port {p : Nat} (hp : p < 4) (q src err : Nat) (s : State) : (servoDeclare q src p err s).time.port = p := by
  unfold servoDeclare
  simp only []
  rw [setQuality_time]
  exact if_neg (by omega)

theorem servoDeclare_counter (q src p err : Nat) (s : State) : (servoDeclare q src p err s).time.counter = s.time.counter := by
  unfold servoDeclare
  simp only []
  rw [setQuality_time]
  exact (congrArg TimeBase.counter (State.raiseIf_time _ _ _) :)

theorem servoFollow_near {d : Int} {s : State} (hl : s.time.lockedOnce = true) (hd : d.natAbs ≤ 1000 * 65536) : servoFollow d s = servoSteer s :=
  if_neg (by rw [hl]; simp; omega)

/-- The sixteenth measurement within 1 µs at the slave port followed: the servo locks on it, and steers the increment within R348. -/
theorem ptpOffset_locks {p : Nat} {d : Int} {s : State} (hp : p < 4) (hs : (s.ptpPort p).slave = true) (hg : (s.ptpPort p).good = 15)
    (hd : d.natAbs ≤ 1000 * 65536) (he : s.get Reg.TIME_CTRL_SERVO_EN = 1) (hr : s.mpu.restarting = false) (ht : s.time.port = p) :
    (ptpOffset p d s).time.quality = 0 ∧ (ptpOffset p d s).time.source = 1 ∧ (ptpOffset p d s).time.port = p ∧ incLo ≤ (ptpOffset p d s).time.inc ∧
      (ptpOffset p d s).time.inc ≤ incHi ∧ (ptpOffset p d s).time.counter = s.time.counter := by
  let u := s.setPtpPort p { s.ptpPort p with good := if d.natAbs ≤ 1000 * 65536 then min 16 ((s.ptpPort p).good + 1) else 0 }
  have hport : u.ptpPort p = { s.ptpPort p with good := if d.natAbs ≤ 1000 * 65536 then min 16 ((s.ptpPort p).good + 1) else 0 } := ptpPort_setPtpPort _ _ _
  have hruns : u.servoRuns = true := by
    show (decide (s.get Reg.TIME_CTRL_SERVO_EN = 1) && !s.mpu.restarting) = true
    simp [he, hr]
  have hut : u.time.port = p := ht
  have hlock : u.lockPort = some p := by
    rw [← hut]
    refine lockPort_followed ?_ ?_
    · rw [hut, hport]
      exact hs
    · rw [hut, hport]
      simp [hd, hg]
  have hsel : servoSelect u = servoDeclare 0 1 p (u.get Reg.TIME_SERVO_ERR_NS) u := by
    unfold servoSelect
    simp only [hruns, hlock, Bool.not_true, Bool.false_eq_true, if_false]
  have hoff : ptpOffset p d s = servoSteer (servoSelect u) := by
    refine Eq.trans (b := if !u.servoRuns ∨ !(s.ptpPort p).slave then u else if (servoSelect u).time.port = p ∨
      ((servoSelect u).time.source ≠ 1 ∧ (servoSelect u).time.source ≠ 2) then servoFollow d (servoSelect u) else servoSelect u) rfl ?_
    rw [if_neg (by simp [hruns, hs]), hsel, if_pos (.inl (servoDeclare_port hp _ _ _ u)), servoFollow_near _ hd]
    rw [(servoDeclare_eq 0 1 p _ u (eff := 0) (by simp)).choose_spec.choose_spec.choose_spec, setQuality_time]
    simp
  obtain ⟨v, hlo, hhi, hv⟩ := servoSteer_time (servoSelect u)
  obtain ⟨x, c, a, hdec⟩ := servoDeclare_eq 0 1 p (u.get Reg.TIME_SERVO_ERR_NS) u (eff := 0) (by simp)
  rw [hoff, hv]
  refine ⟨?_, ?_, ?_, hlo, hhi, ?_⟩
  · rw [hsel, hdec, setQuality_time]
  · rw [hsel, hdec, setQuality_time]
  · rw [hsel]
    exact servoDeclare_port hp _ _ _ u
  · rw [hsel]
    exact servoDeclare_counter _ _ _ _ u

theorem slavePort_same {x : PtpPort} {b : Bool} (h : x.slave = true) (hb : b = true) : { x with slave := b, good := if b then x.good else 0 } = x := by
  subst hb
  cases x
  simp only at h
  subst h
  rfl

/-! What a module sends at its interval (R358, R359). -/

theorem sendOn_outbox (p : Port) (m : Msg) (s : State) : (sendOn p m s).outbox = s.outbox ++ [m] := rfl

theorem sendOn_keeps (p : Port) (m : Msg) (s : State) : KeepsBut [.net, .outbox] s (sendOn p m s) := (sendOn_moves p m (fun _ h => h) (.refl _ s)).keeps

theorem delayRequest_outbox (p : Port) (s : State) : (delayRequest false p s).outbox = s.outbox ++ [.ptp p (.delayReq s.net.ptpSeq)] := rfl

theorem append_three {α : Type} (l : List α) (a b c : α) : ((l ++ [a]) ++ [b]) ++ [c] = l ++ [a, b, c] := by simp

theorem masterSends_outbox (g : GmSet) (p : Port) (s : State) : ∃ out : Nat, (masterSends g p s).outbox = s.outbox ++
    [.ptp p (.sync s.net.ptpSeq true 0 0), .ptp p (.followUp s.net.ptpSeq (out / 65536) ((out % 65536 : Nat) : Int)), .ptp p (.announce g)] :=
  ⟨_, append_three _ _ _ _⟩

/-- The state in which the messages of an interval are sent. -/
def nextPtpSeq (s : State) : State := { s with net := { s.net with ptpSeq := (s.net.ptpSeq + 1) % 2 ^ 16 } }

theorem nextPtpSeq_keeps (s : State) : KeepsBut [.net] s (nextPtpSeq s) := (Moves.set_net _ (by decide) (.refl _ s)).keeps

theorem up_filter {s : State} {p : Port} (hu : s.net.up = [p]) (hp : p ≠ .svc) : s.net.up.filter (fun p => decide (p ≠ .svc)) = [p] := by
  rw [hu]
  simp [hp]

section

variable {i : Image} {p : Port} {s : State}

theorem exec_syncInterval_slave (hw : s.powered = true) (hr : s.mpu.restarting = false) (hi : s.img = some i) (hu : s.net.up = [p]) (hp : p ≠ .svc)
    (hpeer : i.net.ptpPeer = false) (hb : i.net.ptpBoundary = false) (hs : (s.ptpPort (portCode p)).slave = true) :
    exec .syncInterval s = .next (delayRequest false p (nextPtpSeq s)) := by
  show execSyncInterval s = _
  unfold execSyncInterval
  simp only [hi, hpeer, hb, up_filter hu hp, Bool.false_or]
  rw [if_pos (by simp [hw, hr])]
  have hs' : ((nextPtpSeq s).ptpPort (portCode p)).slave = true := hs
  simp only [Bool.false_eq_true, if_false]
  exact congrArg Host.Outcome.next (by
    show forEach ([p].filter fun p => ((nextPtpSeq s).ptpPort (portCode p)).slave) (delayRequest false) (nextPtpSeq s) = _
    simp only [List.filter_cons, hs', if_true, List.filter_nil]
    rfl)

theorem exec_syncInterval_master {g : GmSet} (hw : s.powered = true) (hr : s.mpu.restarting = false) (hi : s.img = some i) (hu : s.net.up = [p]) (hp : p ≠ .svc)
    (hpeer : i.net.ptpPeer = false) (hb : i.net.ptpBoundary = true) (hs : (s.ptpPort (portCode p)).slave = false) (hg : s.announced = some g)
    (ht : portCode p ≠ s.time.port) : exec .syncInterval s = .next (masterSends g p (nextPtpSeq s)) := by
  show execSyncInterval s = _
  unfold execSyncInterval
  simp only [hi, hpeer, hb, up_filter hu hp, Bool.false_or]
  rw [if_pos (by simp [hw, hr])]
  have hs' : ¬ ((nextPtpSeq s).ptpPort (portCode p)).slave = true := by
    show ¬ (s.ptpPort (portCode p)).slave = true
    simp [hs]
  have hnone : forEach ([p].filter fun p => ((nextPtpSeq s).ptpPort (portCode p)).slave) (delayRequest false) (nextPtpSeq s) = nextPtpSeq s := by
    simp only [List.filter_cons, if_neg hs', List.filter_nil]
    rfl
  have hg' : (nextPtpSeq s).announced = some g := hg
  have hmine : (!((nextPtpSeq s).ptpPort (portCode p)).slave && decide (portCode p ≠ (nextPtpSeq s).time.port)) = true := by
    rw [Bool.eq_false_of_not_eq_true hs']
    exact decide_eq_true ht
  simp only [if_true]
  rw [show ({ s with net := { s.net with ptpSeq := (s.net.ptpSeq + 1) % 2 ^ 16 } } : State) = nextPtpSeq s from rfl, hnone]
  simp only [hg', List.filter_cons, hmine, if_true, List.filter_nil]
  rfl

end

end Sys2Proof.Machine

open Sys2Proof Sys2Proof.Machine

/-- Settles O43: the model steers within R348 (`clampInc`), and the sixteenth good measurement locks the servo (`ptpOffset_locks`). -/
theorem oscillatorAndPtp : Obligations.OscillatorAndPtp := by
  unfold Obligations.OscillatorAndPtp
  refine ⟨⟨fun temp s hp hq hs => ?_, fun temp s hp hq => ?_, fun s hp => ⟨fun hl hn => ?_, fun hl => ?_, ?_⟩, fun a b s h => oscSlot_older h,
      fun temp s hp he hh => ⟨fun off hq ho => ?_, fun hq hl => ?_⟩, fun s hp hq hs => ?_⟩,
    fun m s h => ?_, fun m i s hp hi hu hs hd => .of_eq (exec_ptpMessage_foreign hp hi hu hs hd) ⟨rfl, receiveStamp_rx _ _ _⟩,
    fun m i s hp hi hu hs hd hr => ⟨fun q origin corr hm hx hb => ?_, fun q hm hx hb => ?_, fun q origin corr hm hx hb he ht hg ho => ?_⟩,
    fun i p s hw hr hi hu hp hpeer => ⟨fun hs hb => ?_, fun g hs hb hg ht => ?_⟩⟩
  · refine .of_eq (congrArg Host.Outcome.next ((if_pos hp).trans (if_pos (by show (decide (s.time.quality = 0) && decide (s.time.source = 1)) = true; simp [hq, hs])))) ?_
    refine ⟨State.get_put_self s _ _, rfl, ?_⟩
    exact .fields
  · refine .of_eq (congrArg Host.Outcome.next ((if_pos hp).trans (if_neg (by show ¬ (decide (s.time.quality = 0) && decide (s.time.source = 1)) = true; simp [hq])))) ?_
    exact ⟨rfl, (KeepsBut.refl _ s).put _ _⟩
  · refine .of_eq (exec_oscillatorModelWrite hp) ?_
    rw [State.raiseIf_true _ _ (by simp [modelSamples, hl, hn])]
    refine ⟨?_, ((RaisedBut.raise (by decide) s).mono_parts (by simp)).trans_keeps (modelWritten_keeps _)⟩
    simp [modelWritten, modelSamples, hl, hn]
  · refine .of_eq (exec_oscillatorModelWrite hp) ?_
    have hfew : decide (modelSamples ≤ s.time.lockedSamples) = false := decide_eq_false (Nat.not_le.mpr hl)
    rw [State.raiseIf_false _ _ (by simp [hfew])]
    have ht : (modelWritten s).time = s.time := by simp [modelWritten, hfew]
    refine ⟨ht, fun p hp => ?_⟩
    cases p with
    | time => exact ht.symm
    | mram => exact absurd (by decide) hp
    | _ => rfl
  · refine .of_eq (exec_oscillatorModelWrite hp) ?_
    obtain ⟨ht, hm, -, -⟩ := raiseIf_same_parts s (decide (modelSamples ≤ s.time.lockedSamples) && !s.time.qualified) Ev.TIME_MODEL_QUALIFIED
    generalize s.raiseIf _ Ev.TIME_MODEL_QUALIFIED = u at ht hm
    have hslot : u.oscSlot = s.oscSlot := by
      unfold State.oscSlot
      rw [hm]
    rw [← hslot, ← ht, ← hm]
    exact ⟨modelSlot u, Tab.get?_set_self _ _ _, rfl, rfl, rfl, rfl, fun k hk => Tab.get?_set_ne _ _ hk⟩
  · refine .of_eq (exec_holdoverSteer hp he hh) ?_
    simp only [hq, if_true, ho]
    rw [setInc_time (clampInc_lt _), setQuality_time]
    exact ⟨rfl, rfl, rfl, rfl⟩
  · have hnone : (if s.time.qualified then modelOffset s.time.bins temp else none) = none := by
      obtain h | h := hq
      · simp [h]
      · rw [h, ite_self]
    refine .of_eq (exec_holdoverSteer hp he hh) ?_
    simp only [hnone]
    rw [setInc_time hl, setQuality_time]
    exact ⟨rfl, rfl, rfl⟩
  · refine .pos rfl (by simp [hp, hq, hs]) ⟨rfl, rfl, .fields⟩
  · refine .neg rfl (fun hall => ?_) rfl
    simp only [Bool.and_eq_true, decide_eq_true_eq] at hall
    obtain ⟨⟨h1, h2⟩, h3⟩ := hall
    simp [h1, h2, h3] at h
  · refine .of_eq (exec_ptpMessage_own hp hi hu hs hd hr (hx.trans hm.symm)) ?_
    rw [hb]
    obtain ⟨l, hl⟩ := ptpSync_master (p := portCode m.port) (arrival := (ingressStamp m.port m.stamp).1) (origin := origin) (corr := corr)
      (s := (receiveStamp m.port m.stamp false s).setPtpPort (portCode m.port)
        { s.ptpPort (portCode m.port) with slave := m.slave, good := if m.slave then (s.ptpPort (portCode m.port)).good else 0 })
      (by rw [ptpPort_setPtpPort]; exact hm)
    rw [show ptpTake m.port (ingressStamp m.port m.stamp).1 (.sync q false origin corr) _ = _ from hl]
    exact ⟨rfl, rfl, rfl, rfl⟩
  · refine .of_eq (exec_ptpMessage_own hp hi hu hs hd hr (hx.trans hm.symm)) ?_
    rw [hb, ptpTake]
    simp only [ptpPort_setPtpPort, hm, Bool.false_eq_true, if_false]
    exact ⟨rfl, rfl, rfl⟩
  · refine .of_eq (exec_ptpMessage_own hp hi hu hs hd hr (hx.trans hm.symm)) ?_
    rw [hb]
    have hgood : ({ s.ptpPort (portCode m.port) with slave := m.slave, good := if m.slave then (s.ptpPort (portCode m.port)).good else 0 } : PtpPort) =
        s.ptpPort (portCode m.port) :=
      slavePort_same hx hm
    rw [hgood]
    simp only [ptpTake, Bool.false_eq_true, if_false, ptpSync, ptpPort_setPtpPort]
    exact ptpOffset_locks (portCode_lt hs) (by rw [ptpPort_setPtpPort]; exact hx) (by rw [ptpPort_setPtpPort]; exact hg) ho he hr ht
  · refine .of_eq (exec_syncInterval_slave hw hr hi hu hp hpeer hb hs) ⟨rfl, ?_⟩
    exact ((nextPtpSeq_keeps s).mono (by decide)).trans (delayRequest_moves false p (fun _ h => h) (.refl _ _)).keeps
  · obtain ⟨out, ho⟩ := masterSends_outbox g p (nextPtpSeq s)
    exact .of_eq (exec_syncInterval_master hw hr hi hu hp hpeer hb hs hg ht)
      ⟨out, ho, ((nextPtpSeq_keeps s).mono (by decide)).trans (masterSends_moves g p (fun _ h => h) (.refl _ _)).keeps⟩

end

section
/-! SUPPORT. Ports, redundancy and sampled-value subscriptions (R367 to R371, R379). -/

set_option Elab.async false

namespace Sys2Proof.Machine

open Sys2Proof

/-! Ports (R367, R368). -/

theorem not_mem_filter_ne (p : Port) (l : List Port) : p ∉ l.filter (fun q => decide (q ≠ p)) := by simp

theorem portDown_plant {p : Port} {s : State} (hu : p ∈ s.net.up) (ha : p ≠ .pba) (hb : p ≠ .pbb) :
    portDown p s = State.raise { s with net := { s.net with up := s.net.up.filter (fun q => decide (q ≠ p)) } } Ev.PLNT_LINK_DOWN :=
  (if_pos hu).trans (if_neg (by simp [ha, hb]))

theorem portDown_bus {p : Port} {i : Image} {s : State} (hu : p ∈ s.net.up) (hp : p = .pba ∨ p = .pbb) (hi : s.img = some i) :
    portDown p s = (State.raise { s with net := { s.net with up := s.net.up.filter (fun q => decide (q ≠ p)) } } Ev.PBUS_LINK_DOWN).raiseIf i.net.hsr
      Ev.PBUS_RING_BROKEN := by
  have hi' (u : State) (h : u.start = s.start) : (match u.img with | some i => i.net.hsr | none => false) = i.net.hsr := by
    rw [show u.img = some i by unfold State.img at hi ⊢; rw [h, hi]]
  unfold portDown
  rw [if_pos hu]
  simp only [if_pos hp]
  exact congrArg (fun c => State.raiseIf _ c _) (hi' _ rfl)

theorem linkDown_bit (c : Bool) (s : State) : ((s.raise Ev.PBUS_LINK_DOWN).raiseIf c Ev.PBUS_RING_BROKEN).get ⟨Ev.PBUS_LINK_DOWN.addr, Ev.PBUS_LINK_DOWN.bit, 1⟩ = 1 := by
  rw [State.raiseIf_get_ne _ _ (by decide) (by decide)]
  exact State.raise_get_bit _ (by decide)

/-! A frame and its copy (R367). -/

theorem State.netBase_seen {s t : State} (h : t.netBase = s.netBase) : t.net.seen = s.net.seen := (congrArg Net.seen h :)

theorem State.netBase_sv {s t : State} (h : t.netBase = s.netBase) (k : Nat) : t.sv k = s.sv k := by
  have hv : t.net.sv = s.net.sv := (congrArg Net.sv h :)
  unfold State.sv
  rw [hv]

/-- The count and the event of a frame that came on the other LAN. -/
def wrongLanNoted (f : FrameId) (s : State) : State :=
  if f.wrongLan then (s.inc (Reg.PBUS_PORT_ERR_WRONG_LAN (if f.port = .pbb then 1 else 0))).raise Ev.PBUS_PRP_WRONG_LAN else s

theorem wrongLanNoted_seen (f : FrameId) (s : State) : (wrongLanNoted f s).net.seen = s.net.seen ∧ (wrongLanNoted f s).time = s.time := by
  unfold wrongLanNoted
  split
  · exact ⟨State.netBase_seen (State.raise_netBase _ _), State.raise_time _ _⟩
  · exact ⟨rfl, rfl⟩

/-- The frames seen within 400 ms. -/
def recentFrames (s : State) : List (Nat × Nat) := s.net.seen.filter (fun e => decide (s.time.tick ≤ e.2 + ticksOfMs 400))

theorem recentFrames_noted (f : FrameId) (s : State) : recentFrames (wrongLanNoted f s) = recentFrames s := by
  unfold recentFrames
  rw [(wrongLanNoted_seen f s).1, (wrongLanNoted_seen f s).2]

theorem receive_eq (f : FrameId) (s : State) : receive f s =
    if (recentFrames (wrongLanNoted f s)).any (fun e => decide (e.1 = frameKey f)) then
      (false, { wrongLanNoted f s with net := { (wrongLanNoted f s).net with seen := recentFrames (wrongLanNoted f s) } })
    else (true, { wrongLanNoted f s with
      net := { (wrongLanNoted f s).net with seen := recentFrames (wrongLanNoted f s) ++ [(frameKey f, (wrongLanNoted f s).time.tick)] } }) := rfl

theorem receive_copy {f : FrameId} {t0 : Nat} {s : State} (hs : (frameKey f, t0) ∈ s.net.seen) (ht : s.time.tick ≤ t0 + ticksOfMs 400) :
    (receive f s).1 = false := by
  have hmem : (frameKey f, t0) ∈ recentFrames s := List.mem_filter.mpr ⟨hs, decide_eq_true ht⟩
  rw [receive_eq, recentFrames_noted, if_pos (List.any_eq_true.mpr ⟨_, hmem, decide_eq_true rfl⟩)]

theorem recentFrames_fresh {f : FrameId} {s : State} (hs : ∀ e ∈ s.net.seen, e.1 ≠ frameKey f) :
    ¬ (recentFrames s).any (fun e => decide (e.1 = frameKey f)) = true := by
  rw [List.any_eq_true]
  rintro ⟨e, he, hk⟩
  exact hs e (List.mem_filter.mp he).1 (of_decide_eq_true hk)

theorem receive_first {f : FrameId} {s : State} (hs : ∀ e ∈ s.net.seen, e.1 ≠ frameKey f) : (receive f s).1 = true := by
  rw [receive_eq, recentFrames_noted, if_neg (recentFrames_fresh hs)]

theorem receive_wrongLan {f : FrameId} {s : State} (hw : f.wrongLan = true) :
    (receive f s).2.get ⟨Ev.PBUS_PRP_WRONG_LAN.addr, Ev.PBUS_PRP_WRONG_LAN.bit, 1⟩ = 1 := by
  have hbit : (wrongLanNoted f s).get ⟨Ev.PBUS_PRP_WRONG_LAN.addr, Ev.PBUS_PRP_WRONG_LAN.bit, 1⟩ = 1 := by
    rw [wrongLanNoted, if_pos hw]
    exact State.raise_get_bit _ (by decide)
  rw [receive_eq]
  split
  · exact (State.get_congr rfl _).trans hbit
  · exact (State.get_congr rfl _).trans hbit

/-! What is sent on the ports (R368, R379). -/

theorem reportsSent_keeps (l : List Port) (s : State) : KeepsBut [.net] s (forEach l reportSent s) :=
  forEach_keeps (P := KeepsBut [.net] s) (fun p x h => h.trans (Moves.set_net _ (by decide) (.refl _ x)).keeps) l (.refl _ s)

theorem sendPorts_keeps (l : List Port) (m : Msg) (s : State) : KeepsBut [.net, .outbox] s (sendPorts l m s) :=
  (sendPorts_moves l m (fun _ h => h) (.refl _ s)).keeps

theorem sendPorts_outbox (l : List Port) (m : Msg) (s : State) : (sendPorts l m s).outbox = s.outbox ++ [m] := by
  show (forEach _ reportSent s).outbox ++ [m] = _
  rw [(reportsSent_keeps _ s).outbox]

theorem pbusBoundary_keeps (s : State) : KeepsBut [.heldWrites, .net] s (pbusBoundary s) := (pbusBoundary_moves (fun _ h => h) (.refl _ s)).keeps

theorem pbusBoundary_net (s : State) : ∃ b, (pbusBoundary s).net = { s.net with testMode := b } := by
  unfold pbusBoundary
  cases Tab.get? s.heldWrites 0x120004 with
  | none => exact ⟨_, rfl⟩
  | some v => exact ⟨_, rfl⟩

/-- The end of a repeat's wait: 100 ms for the first repeat, 500 ms for the second. -/
def repeatDue (s : State) : Bool :=
  (decide (s.pair.pairRepeats = 0) && decide (s.pair.pairSince + ticksOfMs 100 ≤ s.time.tick)) ||
    (decide (s.pair.pairRepeats = 1) && decide (s.pair.pairSince + ticksOfMs 500 ≤ s.time.tick))

theorem ticksOfMs_mono {a b : Nat} (h : a ≤ b) : ticksOfMs a ≤ ticksOfMs b := by
  unfold ticksOfMs
  omega

theorem repeatDue_early {s : State} (h : 2 ≤ s.pair.pairRepeats ∨ s.time.tick < s.pair.pairSince + ticksOfMs 100) : repeatDue s = false := by
  have hle : ticksOfMs 100 ≤ ticksOfMs 500 := ticksOfMs_mono (by decide)
  unfold repeatDue
  generalize ticksOfMs 100 = a at h hle
  generalize ticksOfMs 500 = b at hle
  simp only [Bool.or_eq_false_iff, Bool.and_eq_false_iff, decide_eq_false_iff_not]
  omega

theorem exec_pairAddressRepeat (s : State) : exec .pairAddressRepeat s =
    .next (if s.pair.pairAddr && repeatDue s then sendPorts [.pla, .plb] .pairAddress { s with pair := { s.pair with pairRepeats := s.pair.pairRepeats + 1 } } else s) := rfl

theorem pairRepeated {n : Nat} {s : State} (h : s.pair.pairRepeats = n) :
    (sendPorts [.pla, .plb] .pairAddress { s with pair := { s.pair with pairRepeats := s.pair.pairRepeats + 1 } }).outbox = s.outbox ++ [.pairAddress] ∧
      (sendPorts [.pla, .plb] .pairAddress { s with pair := { s.pair with pairRepeats := s.pair.pairRepeats + 1 } }).pair = { s.pair with pairRepeats := n + 1 } ∧
      KeepsBut [.pair, .net, .outbox] s (sendPorts [.pla, .plb] .pairAddress { s with pair := { s.pair with pairRepeats := s.pair.pairRepeats + 1 } }) := by
  rw [sendPorts_outbox, (sendPorts_keeps _ _ _).pair, ← h]
  exact ⟨rfl, rfl, (KeepsBut.set_pair s _).trans ((sendPorts_keeps _ _ _).mono (by decide))⟩

/-! Sampled values (R369 to R371). -/

/-- The state in which a frame of the process bus is taken: stamped, and noted as seen. -/
def busTaken (sv : Bool) (f : FrameId) (s : State) : State :=
  { receiveStamp f.port f.stamp sv (pbusBoundary s) with net := { (receiveStamp f.port f.stamp sv (pbusBoundary s)).net with
    seen := s.net.seen.filter (fun e => decide (s.time.tick ≤ e.2 + ticksOfMs 400)) ++ [(frameKey f, s.time.tick)] } }

theorem busTaken_keeps (sv : Bool) (f : FrameId) (s : State) : KeepsBut [.heldWrites, .net] s (busTaken sv f s) :=
  ((pbusBoundary_keeps s).trans ((receiveStamp_keeps f.port f.stamp sv _).mono (by decide))).trans (Moves.set_net _ (by decide) (.refl _ _)).keeps

theorem State.cfgList_congr {α : Type} {s t : State} (h : t.start = s.start) (f : Image → List α) : t.cfgList f = s.cfgList f := by
  unfold State.cfgList State.img
  rw [h]

theorem onBus_taken (sv : Bool) {f : FrameId} (g : State → State) {s : State} (hr : s.netRuns = true) (hp : f.port = .pba ∨ f.port = .pbb)
    (hu : f.port ∈ s.net.up) (hw : f.wrongLan = false) (hs : ∀ e ∈ s.net.seen, e.1 ≠ frameKey f) : onBus sv f g s = g (busTaken sv f s) := by
  obtain ⟨b, hb⟩ := pbusBoundary_net s
  have hk := ((pbusBoundary_keeps s).mono (m := [.heldWrites, .net]) (by decide)).trans ((receiveStamp_keeps f.port f.stamp sv _).mono (by decide))
  have hseen : (receiveStamp f.port f.stamp sv (pbusBoundary s)).net.seen = s.net.seen := (congrArg Net.seen hb :)
  have hnote (u : State) : wrongLanNoted f u = u := if_neg (by simp [hw])
  have hrec (u : State) (h1 : u.net.seen = s.net.seen) (h2 : u.time = s.time) : receive f u = (true, { u with net := { u.net with
      seen := s.net.seen.filter (fun e => decide (s.time.tick ≤ e.2 + ticksOfMs 400)) ++ [(frameKey f, s.time.tick)] } }) := by
    have hfresh : ¬ (recentFrames u).any (fun e => decide (e.1 = frameKey f)) = true := recentFrames_fresh (by rw [h1]; exact hs)
    rw [receive_eq, hnote, if_neg hfresh]
    simp only [recentFrames, h1, h2]
  unfold onBus
  rw [if_pos (by simpa [hr, hu] using hp), hrec _ hseen hk.time]
  rfl

/-- A frame of sampled values that is taken. -/
theorem exec_svFrame_taken {f : SvFrame} {s : State} (hr : s.netRuns = true) (hp : f.id.port = .pba ∨ f.id.port = .pbb) (hu : f.id.port ∈ s.net.up)
    (hw : f.id.wrongLan = false) (hs : ∀ e ∈ s.net.seen, e.1 ≠ frameKey f.id) :
    exec (.svFrame f) s = .next (forEach (s.cfgList (·.net.svSubs)) (fun e s => svTake f e.1 e.2 s) (busTaken true f.id s)) := by
  show Host.Outcome.next (onBus true f.id _ s) = _
  rw [onBus_taken true _ hr hp hu hw hs, State.cfgList_congr (busTaken_keeps true f.id s).start]

theorem State.sv_setSv (s : State) (k : Nat) (x : SvState) : (s.setSv k x).sv k = x := Tab.getD_put_self _ _ _ _

theorem svAsdu_repeated {k : Nat} {c : SvSub} {a : Asdu} {s : State} (hl : (s.sv k).last = some a.smpCnt) (he : (s.sv k).expired = false) (hc : 0 < c.rate) :
    svAsdu k c a s = s := by
  have hmax : max 1 c.rate = c.rate := by omega
  have hmod : (a.smpCnt + c.rate - a.smpCnt % c.rate) % c.rate = 0 := by
    have hsub : a.smpCnt + c.rate - a.smpCnt % c.rate = c.rate * (a.smpCnt / c.rate) + c.rate := by
      have := Nat.div_add_mod a.smpCnt c.rate
      omega
    rw [hsub, Nat.add_mod_right, Nat.mul_mod_right]
  unfold svAsdu
  simp only [hl, he, hmax, hmod, Bool.false_eq_true, if_false, true_or, if_true]

theorem svAsdu_first {k : Nat} {c : SvSub} {a : Asdu} {s : State} (hl : (s.sv k).last = none) (hc : 2 < c.rate) (hs : a.smpSynch = 2) :
    svAsdu k c a s = takeAsdu k c a s := by
  have hwrap : ¬ (1 = 0 ∨ max 1 c.rate ≤ 2 * 1) := by omega
  unfold svAsdu
  simp only [hl, if_neg hwrap, hs]
  simp

theorem exec_svHoldExpiry {k : Fin 512} {c : SvSub} {s : State} (hr : s.netRuns = true) (hc : s.svSub k = some c) (he : (s.sv k).expired = false)
    (hl : (s.sv k).last ≠ none) :
    exec (.svHoldExpiry k) s = .next (if (s.sv k).goodAt + ticksOfMs c.holdMs ≤ s.time.tick then
      (s.setSv k { s.sv k with expired := true, state := if (s.sv k).state = 3 then 3 else 2 }).raise Ev.PBUS_SV_LOST else s) := by
  show execSvHoldExpiry k s = _
  unfold execSvHoldExpiry
  simp only [hr, hc, he, Option.isSome_iff_ne_none.mpr hl, Option.isSome_some, Bool.not_false, Bool.and_self, Bool.true_and, decide_eq_true_eq]

theorem KeepsBut.setSv {l : List Part} (s : State) (k : Nat) (x : SvState) (h : Part.net ∈ l := by decide) : KeepsBut l s (s.setSv k x) :=
  (Moves.set_net _ h (.refl l s)).keeps

/-! A stream that differs (R370): what is missing moves no subscription. -/

theorem svcFail_netBase (c : Nat) (s : State) : (svcFail c s).netBase = s.netBase := by
  unfold svcFail
  simp only []
  split
  · rfl
  · exact State.raise_netBase _ _

theorem svcMissing_netBase (c : Nat) (s : State) : (svcMissing c s).netBase = s.netBase := by
  unfold svcMissing
  simp only []
  split
  · exact svcFail_netBase c _
  · rfl

theorem svGap_netBase (k n : Nat) (s : State) : (if n = 0 then s else acqSvGap k s).netBase = s.netBase := by
  split
  · rfl
  · exact State.netBase_congr (acqSvGap_moves k (fun _ h => h) (.refl _ s)).keeps.net

theorem svMissing_netBase (k n : Nat) (s : State) : (svMissing k n s).netBase = s.netBase := by
  unfold svMissing
  refine (forEach_read State.netBase (fun _ x => ?_) _ _).trans (svGap_netBase k n _)
  exact forEach_read State.netBase (fun e y => svcMissing_netBase _ y) _ x

theorem svTake_mismatch {f : SvFrame} {k : Nat} {c : SvSub} {s : State} (hd : f.dest = c.dest) (ha : f.appid = c.appid) (hi : f.svId ≠ c.svId) :
    ((svTake f k c s).sv k).state = 3 := by
  have ht : svTake f k c s = (svMissing k f.asdus.length (s.setSv k { s.sv k with state := 3 })).raiseIf (decide ((s.sv k).state ≠ 3)) Ev.PBUS_SV_MISMATCH :=
    (if_neg (by simp [hd, ha])).trans (if_neg (by simp [hi]))
  rw [ht, State.netBase_sv ((State.raiseIf_netBase _ _ _).trans (svMissing_netBase _ _ _)), State.sv_setSv]

end Sys2Proof.Machine

open Sys2Proof Sys2Proof.Machine

/-- Settles O44: a frame is taken once in 400 ms (`receive_eq`), and what a subscription makes of it is read off its state. -/
theorem portsAndSampledValues : Obligations.PortsAndSampledValues := by
  unfold Obligations.PortsAndSampledValues
  refine ⟨⟨fun p s hp hu ha hb => ?_, fun p i s hp hu hb hi => ?_, fun f t0 s hw hs ht => receive_copy hs ht, fun f s hs => receive_first hs,
      fun f s hw => receive_wrongLan hw, fun s hr hu => ?_, fun s ha => ⟨fun hn ht => ?_, fun hn ht => ?_, fun h => ?_⟩⟩,
    fun f s hr hp hu hw hs => .of_eq (exec_svFrame_taken hr hp hu hw hs) rfl, fun f k c s hd ha hi => svTake_mismatch hd ha hi,
    fun k c a s hl he hc => svAsdu_repeated hl he hc, fun k c a s hl hc hs => svAsdu_first hl hc hs, fun k c s hr hc he hl => ⟨fun ht => ?_, fun ht => ?_⟩⟩
  · refine .pos rfl hp ?_
    rw [portDown_plant hu ha hb, State.raise_up]
    exact ⟨not_mem_filter_ne p _, .raise (by decide) _⟩
  · refine .pos rfl hp ?_
    rw [portDown_bus hu hb hi, State.raiseIf_up, State.raise_up]
    refine ⟨not_mem_filter_ne p _, linkDown_bit _ _, fun hh => ?_, ?_⟩
    · rw [State.raiseIf_true _ _ hh]
      exact State.raise_get_bit _ (by decide)
    · have hnet : KeepsBut [.bank, .net, .outbox] s { s with net := { s.net with up := s.net.up.filter (fun q => decide (q ≠ p)) } } :=
        (Moves.set_net _ (by decide) (.refl _ s)).keeps
      exact (hnet.trans (State.raise_keeps _ _)).trans (State.raiseIf_keeps _ _ _)
  · refine .pos rfl ?_ ?_
    · have hmem : Port.pla ∈ s.net.up.filter (fun p => decide (p ≠ .svc)) := List.mem_filter.mpr ⟨hu, by decide⟩
      simp only [hr, Bool.true_and, decide_eq_true_eq]
      exact List.ne_nil_of_mem hmem
    · rw [sendPorts_outbox, (pbusBoundary_keeps s).outbox]
      exact ⟨rfl, ((pbusBoundary_keeps s).mono (by decide)).trans ((sendPorts_keeps _ _ _).mono (by decide))⟩
  · exact .pos (exec_pairAddressRepeat s) (by simp [ha, repeatDue, hn, ht]) (pairRepeated hn)
  · exact .pos (exec_pairAddressRepeat s) (by simp [ha, repeatDue, hn, ht]) (pairRepeated hn)
  · exact .neg (exec_pairAddressRepeat s) (by simp [repeatDue_early h]) rfl
  · exact .neg (exec_svHoldExpiry hr hc he hl) (Nat.not_le.mpr ht) rfl
  · refine .pos (exec_svHoldExpiry hr hc he hl) ht ?_
    rw [State.netBase_sv (State.raise_netBase _ _), State.sv_setSv]
    exact ⟨rfl, State.raise_get_bit _ (by decide), (KeepsBut.setSv s _ _).trans (State.raise_keeps _ _)⟩

end

section
/-! SUPPORT. GOOSE subscriptions, publications and the test mode (R264, R372 to R377). -/

set_option Elab.async false

namespace Sys2Proof.Machine

open Sys2Proof

theorem forEach_congr_list {α σ : Type} {l m : List α} (h : l = m) (f : α → σ → σ) (s : σ) : forEach l f s = forEach m f s := by rw [h]

theorem b2n_inj {a b : Bool} (h : b2n a = b2n b) : a = b := by
  revert h
  cases a <;> cases b <;> decide

/-! Subscriptions (R264, R372, R373). -/

theorem State.goose_setGoose (s : State) (g : Nat) (x : GooseState) : (s.setGoose g x).goose g = x := Tab.getD_put_self _ _ _ _

theorem State.netBase_goose {s t : State} (h : t.netBase = s.netBase) (g : Nat) : t.goose g = s.goose g := by
  have hg : t.net.goose = s.net.goose := (congrArg Net.goose h :)
  unfold State.goose
  rw [hg]

theorem gbitSet_netBase (b : Nat) (v : Option Bool) (s : State) : (gbitSet b v s).netBase = s.netBase := State.raiseIf_netBase _ _ _

theorem gbitsFail_netBase (g : Nat) (s : State) : (gbitsFail g s).netBase = s.netBase := forEach_read State.netBase (fun _ x => gbitSet_netBase _ none x) _ s

theorem gbitsFail_keeps (g : Nat) (s : State) : KeepsBut [.bank, .sbox, .net, .outbox] s (gbitsFail g s) := (gbitsFail_moves g (fun _ h => h) (.refl _ s)).keeps

theorem KeepsBut.setGoose {l : List Part} (s : State) (g : Nat) (x : GooseState) (h : Part.net ∈ l := by decide) : KeepsBut l s (s.setGoose g x) :=
  (Moves.set_net _ h (.refl l s)).keeps

section

variable {m : GooseMsg} {s : State}

/-- What a message does that is taken: of another test mode, of a subscription, or of none. -/
theorem exec_gooseMessage_taken (hr : s.netRuns = true) (hp : m.id.port = .pba ∨ m.id.port = .pbb) (hu : m.id.port ∈ s.net.up)
    (hw : m.id.wrongLan = false) (hs : ∀ e ∈ s.net.seen, e.1 ≠ frameKey m.id) :
    exec (.gooseMessage m) s = .next (
      if m.test ≠ (busTaken false m.id s).net.testMode then
        forEach ((s.cfgList (·.net.gooseSubs)).filter (fun e => gooseMatches m e.2)) (fun e s => gbitsFail e.1 s) (busTaken false m.id s)
      else if (s.cfgList (·.net.gooseSubs)).filter (fun e => gooseMatches m e.2) = [] then gooseMismatch m (busTaken false m.id s)
      else forEach ((s.cfgList (·.net.gooseSubs)).filter (fun e => gooseMatches m e.2)) (fun e s => gooseTake m e.1 s) (busTaken false m.id s)) := by
  show Host.Outcome.next (onBus false m.id _ s) = _
  rw [onBus_taken false _ hr hp hu hw hs]
  simp only [State.cfgList_congr (busTaken_keeps false m.id s).start]

theorem gooseTake_new {g : Nat} (hn : m.ndsCom = false) (h : (s.goose g).state ≠ 1 ∨ m.stNum ≠ (s.goose g).stNum) (hb : s.gbitsOf g = []) :
    gooseTake m g s = s.setGoose g { s.goose g with
      state := 1, stNum := m.stNum, sqNum := m.sqNum, tal := m.tal, arrived := s.time.tick, members := m.members, ts := m.eventTime, unsync := s.unsync,
      holdOver := false } := by
  unfold gooseTake
  simp only [hn, Bool.false_eq_true, if_false, if_pos h]
  exact (forEach_congr_list (m := []) hb _ _).trans (forEach_nil _ _)

end

section

variable {g : Fin 1024} {c : GooseSub} {s : State}

/-- The time allowed to live of a valid subscription is over. -/
def gooseExpired (g : Nat) (c : GooseSub) (s : State) : GooseState :=
  { s.goose g with state := if c.holdMs = 0 then 2 else 4, holdOver := decide (c.holdMs = 0), expiredAt := s.time.tick }

theorem exec_gooseExpiry (hc : s.gooseSub g = some c) (hr : s.netRuns = true) (hv : (s.goose g).state = 1) (hm : (s.goose g).members ≠ [])
    (hh : (s.goose g).holdOver = false) :
    exec (.gooseExpiry g) s = .next (if (s.goose g).arrived + ticksOfMs (s.goose g).tal ≤ s.time.tick then
      gbitsFail g ((s.setGoose g (gooseExpired g c s)).raise Ev.PBUS_GOOSE_LOST) else s) := by
  show execGooseExpiry g s = _
  unfold execGooseExpiry gooseExpired
  have hm' : decide ((s.goose g).members ≠ []) = true := decide_eq_true hm
  simp only [hc, hr, hv, hm', hh, decide_true, Bool.true_or, Bool.and_true, Bool.not_false, Bool.true_and, decide_eq_true_eq]
  rfl

theorem exec_gooseHoldExpiry (hc : s.gooseSub g = some c) (hr : s.netRuns = true) (hv : (s.goose g).state = 4)
    (ht : (s.goose g).expiredAt + ticksOfMs c.holdMs ≤ s.time.tick) :
    exec (.gooseHoldExpiry g) s = .next (s.setGoose g { s.goose g with state := 2, holdOver := true }) := by
  show execGooseHoldExpiry g s = _
  unfold execGooseHoldExpiry
  simp only [hc, hr, hv, decide_eq_true ht, decide_true, Bool.and_self, if_true]

theorem gooseExpired_after (g : Nat) (c : GooseSub) (s : State) :
    (gbitsFail g ((s.setGoose g (gooseExpired g c s)).raise Ev.PBUS_GOOSE_LOST)).goose g = gooseExpired g c s := by
  rw [State.netBase_goose ((gbitsFail_netBase _ _).trans (State.raise_netBase _ _)), State.goose_setGoose]

theorem gooseExpired_keeps (g : Nat) (c : GooseSub) (s : State) :
    KeepsBut [.bank, .net, .outbox, .sbox] s (gbitsFail g ((s.setGoose g (gooseExpired g c s)).raise Ev.PBUS_GOOSE_LOST)) :=
  ((KeepsBut.setGoose s g _).trans ((State.raise_keeps _ _).mono (by decide))).trans ((gbitsFail_keeps g _).mono (by decide))

end

/-! Publications (R375). -/

theorem sendPorts_pub (l : List Port) (m : Msg) (s : State) (p : Nat) : (sendPorts l m s).pub p = s.pub p := by
  have hpubs (l : List Port) (u : State) : (forEach l reportSent u).net.pubs = u.net.pubs := forEach_read (f := reportSent) (fun u : State => u.net.pubs) (fun _ _ => rfl) l u
  unfold State.pub
  show Tab.getD (forEach _ reportSent s).net.pubs p PubState.reset = _
  rw [hpubs]

theorem State.pub_setPub (s : State) (p : Nat) (x : PubState) : (s.setPub p x).pub p = x := Tab.getD_put_self _ _ _ _

/-- A publication repeated with the number sq and the next interval. -/
def pubRepeated (p : Nat) (sq next : Nat) (s : State) : State :=
  sendPorts [.pba, .pbb] (.goose p (s.pub p).stNum sq (2 * next) (pbusBoundary s).net.testMode (s.pub p).values)
    ((pbusBoundary s).setPub p { s.pub p with sqNum := sq, intervalMs := next })

theorem pubRepeated_pub (p sq next : Nat) (s : State) : (pubRepeated p sq next s).pub p = { s.pub p with sqNum := sq, intervalMs := next } := by
  unfold pubRepeated
  rw [sendPorts_pub, State.pub_setPub]

theorem pubRepeated_outbox (p sq next : Nat) (s : State) : (pubRepeated p sq next s).outbox =
    s.outbox ++ [.goose p (s.pub p).stNum sq (2 * next) (pbusBoundary s).net.testMode (s.pub p).values] := by
  unfold pubRepeated
  rw [sendPorts_outbox]
  exact congrArg (· ++ _) (pbusBoundary_keeps s).outbox

theorem pubRepeated_keeps (p sq next : Nat) (s : State) : KeepsBut [.heldWrites, .net, .outbox] s (pubRepeated p sq next s) :=
  (((pbusBoundary_keeps s).mono (by decide)).trans (Moves.set_net _ (by decide) (.refl _ _)).keeps).trans ((sendPorts_keeps _ _ _).mono (by decide))

section

variable {p : Fin 256} {c : PubCfg} {s : State}

theorem exec_gooseRetransmit (hc : s.pubCfg p = some c) (hf : s.claim.confirmed = true) (hn : (s.pub p).lastNew ≠ none) :
    exec (.gooseRetransmit p) s = .next (pubRepeated p (((s.pub p).sqNum + 1) % 2 ^ 32)
      (min c.tMaxMs (if (s.pub p).sqNum = 0 then 2 else 2 * (s.pub p).intervalMs)) s) := by
  show execGooseRetransmit p s = _
  unfold execGooseRetransmit pubRepeated
  simp only [hc, hf, Option.isSome_iff_ne_none.mpr hn, Bool.and_self, if_true]

theorem exec_gooseDeferredSend (hc : s.pubCfg p = some c) (hd : (s.pub p).deferred = true) :
    exec (.gooseDeferredSend p) s = .next (if (s.pub p).lastNew.any (fun t => decide (s.time.tick < t + ticksOfUs 20)) then s
      else if s.claim.confirmed then pubSendNew p 1 c s else s.setPub p { s.pub p with deferred := false }) := by
  show execGooseDeferredSend p s = _
  unfold execGooseDeferredSend
  simp only [hc, hd, Bool.not_true, Bool.false_eq_true, false_or]

theorem notYet_of_recent {n : Nat} (hn : (s.pub p).lastNew = some n) (ht : s.time.tick < n + ticksOfUs 20) :
    (s.pub p).lastNew.any (fun t => decide (s.time.tick < t + ticksOfUs 20)) = true := by
  rw [hn]
  exact decide_eq_true ht

theorem due_of_old (h : ∀ n, (s.pub p).lastNew = some n → n + ticksOfUs 20 ≤ s.time.tick) :
    ¬ (s.pub p).lastNew.any (fun t => decide (s.time.tick < t + ticksOfUs 20)) = true := by
  rw [Option.any_eq_true]
  rintro ⟨n, hn, ht⟩
  exact Nat.not_lt.mpr (h n hn) (of_decide_eq_true ht)

end

/-! The test mode (R377). -/

/-- The word that asks for a test mode, with the multi-word mode as it stands. -/
def testWord (s : State) (b : Bool) : Word := BitVec.ofNat 32 (s.get ⟨0x120004, 0, 1⟩ + 2 * b2n b)

theorem testWord_bits {s : State} (h : s.get ⟨0x120004, 0, 1⟩ < 2) (b : Bool) :
    bitsOf (testWord s b).toNat 0 1 = s.get ⟨0x120004, 0, 1⟩ ∧ bitsOf (testWord s b).toNat 1 1 = b2n b ∧ (testWord s b &&& 2#32).getLsbD 1 = b := by
  unfold testWord
  generalize s.get ⟨0x120004, 0, 1⟩ = x at h ⊢
  obtain rfl | rfl : x = 0 ∨ x = 1 := by omega
  · cases b <;> decide
  · cases b <;> decide

theorem exec_testMode {o : Origin} {b : Bool} {s : State} (hp : s.powered = true) (hm : s.mode ≠ .terminus) :
    exec (.testMode o b) s = .next (if s.writeAllowed o 0x120004 (testWord s b) then regEffect o 0x120004 (testWord s b) s else refuseOrigin o 0x120004 s) := by
  refine congrArg Host.Outcome.next ((if_pos hp).trans ?_)
  unfold writeBy
  rw [if_neg (by decide), if_neg (by simp [hm])]
  rfl

theorem writeAllowed_testMode (o : Origin) (v : Word) (s : State) :
    s.writeAllowed o 0x120004 v = (serviceOk s o && (isSvc o || decide (bitsOf v.toNat 1 1 = b2n s.net.testMode))) := rfl

theorem setMultiword_same {n a : Nat} {on : Bool} {s : State} (ha : modeAddr n = some a) (h : s.get ⟨a, 0, 1⟩ = b2n on) : setMultiword n on s = s := by
  simp only [setMultiword, ha, h, if_true]

/-- A write that leaves the multi-word mode holds the test mode for the next boundary. -/
theorem regEffect_testMode {o : Origin} {b : Bool} {s : State} (h : s.get ⟨0x120004, 0, 1⟩ < 2) :
    regEffect o 0x120004 (testWord s b) s = hold 0x120004 (testWord s b &&& 2#32) s := by
  have hsame : s.get ⟨0x120004, 0, 1⟩ = b2n (decide (bitsOf (testWord s b).toNat 0 1 = 1)) := by
    rw [(testWord_bits h b).1]
    obtain h0 | h1 : s.get ⟨0x120004, 0, 1⟩ = 0 ∨ s.get ⟨0x120004, 0, 1⟩ = 1 := by omega
    · rw [h0]
      rfl
    · rw [h1]
      rfl
  show hold 0x120004 (testWord s b &&& 2#32) (setMultiword 18 _ s) = _
  rw [setMultiword_same (a := 0x120004) rfl hsame]

theorem pbusBoundary_held (v : Word) (s : State) : (pbusBoundary (hold 0x120004 v s)).net.testMode = v.getLsbD 1 := by
  unfold pbusBoundary hold
  simp only [Tab.get?_set_self]

end Sys2Proof.Machine

open Sys2Proof Sys2Proof.Machine

/-- Settles O45: a message is taken as a frame of the process bus is (`onBus_taken`), and TEST_MODE is a held write of the control register. -/
theorem gooseAndTestMode : Obligations.GooseAndTestMode := by
  unfold Obligations.GooseAndTestMode
  refine ⟨⟨fun m s hr hp hu hw hs => ?_, fun m g s hn h hb => ?_, fun g c s hc hr hv hm hh => ⟨fun ht => ?_, fun ht => ?_⟩, fun g c s hc hr hv ht => ?_,
      fun p c s hc hf hn => ?_, fun p c s hc hd => ⟨fun n hn ht => ?_, fun h => ⟨fun hf => ?_, fun hf => ?_⟩⟩⟩,
    fun k b s hp hm hx ho => ?_, fun o b s hp hm hx ho hb => ?_⟩
  · exact .of_eq (exec_gooseMessage_taken hr hp hu hw hs) ⟨fun ht => if_pos ht, fun ht hn => (if_neg (not_not_intro ht)).trans (if_neg hn),
      fun ht hn => (if_neg (not_not_intro ht)).trans (if_pos hn)⟩
  · rw [gooseTake_new hn h hb, State.goose_setGoose]
  · exact .neg (exec_gooseExpiry hc hr hv hm hh) (Nat.not_le.mpr ht) rfl
  · refine .pos (exec_gooseExpiry hc hr hv hm hh) ht ?_
    rw [gooseExpired_after]
    exact ⟨fun h0 => ⟨if_pos h0, decide_eq_true h0⟩, fun h0 => ⟨if_neg h0, decide_eq_false h0⟩, gooseExpired_keeps _ _ _⟩
  · exact .of_eq (exec_gooseHoldExpiry hc hr hv ht) ⟨State.goose_setGoose _ _ _, .setGoose s _ _⟩
  · exact .of_eq (exec_gooseRetransmit hc hf hn) ⟨pubRepeated_pub _ _ _ s, pubRepeated_outbox _ _ _ s, pubRepeated_keeps _ _ _ s⟩
  · exact .pos (exec_gooseDeferredSend hc hd) (notYet_of_recent hn ht) rfl
  · exact .neg (exec_gooseDeferredSend hc hd) (due_of_old h) (if_pos hf)
  · exact .neg (exec_gooseDeferredSend hc hd) (due_of_old h) (if_neg (by simp [hf]))
  · refine .pos (exec_testMode hp hm) (by rw [writeAllowed_testMode, ho]; rfl) ?_
    rw [regEffect_testMode hx, pbusBoundary_held]
    refine ⟨rfl, (testWord_bits hx b).2.2, ?_⟩
    exact .fields
  · refine .neg (exec_testMode hp hm) ?_ rfl
    rw [writeAllowed_testMode, ho, (testWord_bits hx b).2.1]
    have hne : b2n b ≠ b2n s.net.testMode := fun h => hb (b2n_inj h)
    simp [hne]

end

section
/-! SUPPORT. Sessions and repeated requests (R367, R378 to R383). -/

set_option Elab.async false

namespace Sys2Proof.Machine

open Sys2Proof

/-! A request that is served again, or not at all (R380, R381). -/

section

variable {kind : Nat} {r : Req} {f : Session → State → State} {x : Session} {s : State}

theorem serve_repeated {e : Nat × Reply} (hx : Tab.get? s.net.sessions r.session = some x) (ha : s.answersSession x = true) (hk : dppOk kind r = true)
    (he : x.replies.find? (fun (e : Nat × Reply) => decide (e.1 = r.reqId)) = some e) :
    serve kind r f s = (heard r.session x s).send (.reply r.session r.reqId e.2) := by
  unfold serve
  rw [hx]
  simp only [ha, hk, Bool.not_true, Bool.or_self, Bool.false_eq_true, if_false, he] <;> rfl

theorem serve_discarded (h : Tab.get? s.net.sessions r.session = none ∨ dppOk kind r = false) : serve kind r f s = s := by
  unfold serve
  split
  case h_1 x hx =>
    have hk : dppOk kind r = false := h.resolve_left (by simp [hx])
    rw [if_pos (by simp [hk])]
  case h_2 => rfl

theorem serve_unanswered (hx : Tab.get? s.net.sessions r.session = some x) (ha : s.answersSession x = false) : serve kind r f s = s := by
  unfold serve
  rw [hx]
  exact if_pos (by simp [ha])

end

theorem heard_keeps (k : Nat) (x : Session) (s : State) : KeepsBut [.net] s (heard k x s) := (Moves.set_net _ (by decide) (.refl _ s)).keeps

theorem heard_session (k : Nat) (x : Session) (s : State) : Tab.get? (heard k x s).net.sessions k = some { x with lastHeard := s.time.tick } := Tab.get?_set_self _ _ _

theorem reply_of_session {k : Nat} {x : Session} {s : State} (hx : Tab.get? s.net.sessions k = some x) (reqId : Nat) (y : Reply) :
    ∃ z, reply k reqId y s = (State.send { s with net := { s.net with sessions := Tab.set s.net.sessions k z } } (.reply k reqId y)) := by
  unfold reply
  rw [hx]
  exact ⟨_, rfl⟩

theorem reply_keeps (k reqId : Nat) (y : Reply) (s : State) : KeepsBut [.net, .outbox] s (reply k reqId y s) := (reply_moves k reqId y (fun _ h => h) (.refl _ s)).keeps

theorem reply_outbox {k : Nat} {x : Session} {s : State} (hx : Tab.get? s.net.sessions k = some x) (reqId : Nat) (y : Reply) :
    (reply k reqId y s).outbox = s.outbox ++ [.reply k reqId y] := by
  obtain ⟨z, hz⟩ := reply_of_session hx reqId y
  rw [hz]
  rfl

theorem reply_session {k : Nat} {x : Session} {s : State} (hx : Tab.get? s.net.sessions k = some x) (reqId : Nat) (y : Reply) :
    ∃ z, Tab.get? (reply k reqId y s).net.sessions k = some z := by
  obtain ⟨z, hz⟩ := reply_of_session hx reqId y
  exact ⟨z, by rw [hz]; exact Tab.get?_set_self _ _ _⟩

theorem reply_netBase {k : Nat} {x : Session} {s : State} (hx : Tab.get? s.net.sessions k = some x) (reqId : Nat) (y : Reply) :
    (reply k reqId y s).netBase = s.netBase := by
  obtain ⟨z, hz⟩ := reply_of_session hx reqId y
  rw [hz]
  rfl

/-! The end of a session and its subscriptions (R382). -/

theorem lostTransfers_net (x : Session) (s : State) : (lostTransfers x s).net = s.net := (lostTransfers_moves x (fun _ h => h) (.refl _ s)).keeps.net

theorem endSession_subs {k : Nat} {x : Session} {s : State} (hx : Tab.get? s.net.sessions k = some x) : ∀ e ∈ (endSession k s).net.subs, e.2.session ≠ k := by
  intro e he
  simp only [endSession, hx] at he
  exact of_decide_eq_true (List.mem_filter.mp he).2

/-! The association and OPEN (R378, R379, R383). -/

theorem plantFrame_keeps (p : Port) (w : Bool) (s : State) : KeepsBut [.bank, .net, .outbox] s (plantFrame p w s) := State.raiseIf_keeps _ _ _

theorem State.clientOk_congr {s t : State} (hm : t.mode = s.mode) (hr : t.mram = s.mram) (hf : t.fixed = s.fixed) (c : ClientChain) :
    t.clientOk c = s.clientOk c := by
  unfold State.clientOk
  rw [hm, hr, hf]

theorem plantFrame_clientOk (p : Port) (w : Bool) (c : ClientChain) (s : State) : (plantFrame p w s).clientOk c = s.clientOk c :=
  State.clientOk_congr (plantFrame_keeps p w s).mode (plantFrame_keeps p w s).mram (plantFrame_keeps p w s).fixed c

theorem plantFrame_chain (p : Port) (w : Bool) (s : State) : (plantFrame p w s).chain = s.chain := by
  unfold State.chain
  rw [(plantFrame_keeps p w s).mram]

section

variable {p : Port} {w : Bool} {s : State}

theorem exec_dtlsHandshake_known {d : ClientChain} (ha : s.answers p = true) (hd : s.clientOk d = true) :
    exec (.dtlsHandshake ⟨p, w⟩ (some d)) s = .next (({ plantFrame p w s with
      net := { (plantFrame p w s).net with handshakes := (plantFrame p w s).net.handshakes ++ [⟨p, d.role⟩] } } : State).send (.certificates s.chain)) := by
  refine congrArg Host.Outcome.next ((if_pos ha).trans ((if_pos ?_).trans ?_))
  · exact (plantFrame_clientOk p w d s).trans hd
  · rw [← plantFrame_chain p w s]

theorem exec_dtlsHandshake_unknown {c : Option ClientChain} (ha : s.answers p = true) (hc : ∀ d, c = some d → s.clientOk d = false) :
    exec (.dtlsHandshake ⟨p, w⟩ c) s = .next ((plantFrame p w s).raise Ev.PLNT_AUTH_FAILED) := by
  refine congrArg Host.Outcome.next ((if_pos ha).trans ?_)
  cases c with
  | none => rfl
  | some d => exact if_neg (by simp only [plantFrame_clientOk]; simp [hc d rfl])

end

section

variable {r : Req} {k client : Nat} {p : Port} {pa ev : Bool} {s : State}

theorem exec_openSession_roleless (hh : s.net.handshakes[k]? = some ⟨p, none⟩) (ha : s.answers p = true) (hk : dppOk 0x01 r = true) (hp : pa = false) :
    exec (.openSession r k pa client ev) s = .next ((s.send (.reply 0 r.reqId ⟨1, 0xB, 0, []⟩)).raise Ev.PLNT_SESSION_REFUSED) := by
  show execOpenSession r k pa client ev s = _
  unfold execOpenSession
  simp only [hh, ha, hk, hp, Bool.not_true, Bool.or_self, Bool.false_and, Bool.false_eq_true, if_false]

/-- OPEN by a client with a role, none of whose sessions is open. -/
theorem exec_openSession_role {role : ClientRole} (hh : s.net.handshakes[k]? = some ⟨p, some role⟩) (ha : s.answers p = true) (hk : dppOk 0x01 r = true)
    (hp : pa = true → s.pair.pairAddr = true ∧ p ≠ .svc) (hm : s.mode ≠ .terminus) (hc : s.sessionOfClient client = none) :
    exec (.openSession r k pa client ev) s = .next (
      if (if p = .svc then decide (4 ≤ s.sessionsOn true) else decide (64 ≤ s.sessionsOn false)) then
        (s.send (.reply 0 r.reqId ⟨1, 0xC, 0, []⟩)).raise Ev.PLNT_SESSION_REFUSED
      else newSession p r.reqId client role pa ev s) := by
  have hpair : (pa && (!s.pair.pairAddr || decide (p = .svc))) = false := by
    cases pa with
    | false => rfl
    | true => simp [(hp rfl).1, (hp rfl).2]
  show execOpenSession r k pa client ev s = _
  unfold execOpenSession
  simp only [hh, ha, hk, hpair, hm, hc, false_and, Bool.not_true, Bool.or_self, Bool.false_eq_true, if_false]

theorem opened_of_full (h : if p = .svc then 4 ≤ s.sessionsOn true else 64 ≤ s.sessionsOn false) :
    (if p = .svc then decide (4 ≤ s.sessionsOn true) else decide (64 ≤ s.sessionsOn false)) = true := by
  split at h
  case isTrue hp => rw [if_pos hp]; exact decide_eq_true h
  case isFalse hp => rw [if_neg hp]; exact decide_eq_true h

theorem opened_of_room (h : if p = .svc then s.sessionsOn true < 4 else s.sessionsOn false < 64) :
    ¬ (if p = .svc then decide (4 ≤ s.sessionsOn true) else decide (64 ≤ s.sessionsOn false)) = true := by
  split at h
  case isTrue hp => rw [if_pos hp]; simpa using h
  case isFalse hp => rw [if_neg hp]; simpa using h

end

/-- The new session entered, before its reply. -/
def sessionEntered (port : Port) (client : Nat) (role : ClientRole) (viaPair events : Bool) (s : State) : State :=
  let x : Session := { port := port, clientId := client, role := role, events := events, replies := [], files := [], eventSecond := s.second, eventCount := 0,
                       eventDropped := 0, viaPair := viaPair, lastHeard := s.time.tick }
  { s with net := { s.net with sessions := Tab.set s.net.sessions s.net.nextSession x, nextSession := nextNumber s.net.nextSession } }

/-- The body of the reply to OPEN. -/
def openBody (client : Nat) (s : State) : List Byte :=
  leBytes 4 s.net.nextSession ++ leBytes 8 (s.clientHigh client) ++ leBytes 4 s.policy.clientWindow ++ leBytes 1 (modeCode s.mode) ++
    leBytes 1 (b2n s.carrier.slotB) ++ leBytes 16 s.pairId ++ hashBytes s.digest

theorem newSession_eq (port : Port) (reqId client : Nat) (role : ClientRole) (viaPair events : Bool) (s : State) :
    newSession port reqId client role viaPair events s =
      (reply s.net.nextSession reqId ⟨1, 0, 0, openBody client s⟩ (sessionEntered port client role viaPair events s)).raise Ev.PLNT_SESSION_OPENED := rfl

theorem EventsOnly.mem_outbox {s t : State} {m : Msg} (h : EventsOnly s t) (hm : m ∈ s.outbox) : m ∈ t.outbox := by
  obtain ⟨⟨l, hl⟩, -⟩ := h
  rw [hl.1]
  exact List.mem_append_left _ hm

theorem sessionEntered_session (port : Port) (client : Nat) (role : ClientRole) (viaPair events : Bool) (s : State) :
    ∃ x, Tab.get? (sessionEntered port client role viaPair events s).net.sessions s.net.nextSession = some x := ⟨_, Tab.get?_set_self _ _ _⟩

/-- What OPEN leaves: the next number, the reply, and the event. -/
theorem newSession_opens (port : Port) (reqId client : Nat) (role : ClientRole) (viaPair events : Bool) (s : State) :
    (newSession port reqId client role viaPair events s).net.nextSession = nextNumber s.net.nextSession ∧
      .reply s.net.nextSession reqId ⟨1, 0, 0, openBody client s⟩ ∈ (newSession port reqId client role viaPair events s).outbox ∧
      (newSession port reqId client role viaPair events s).get ⟨Ev.PLNT_SESSION_OPENED.addr, Ev.PLNT_SESSION_OPENED.bit, 1⟩ = 1 := by
  obtain ⟨x, hx⟩ := sessionEntered_session port client role viaPair events s
  rw [newSession_eq]
  refine ⟨?_, ?_, State.raise_get_bit _ (by decide)⟩
  · exact (congrArg Net.nextSession ((State.raise_netBase _ _).trans (reply_netBase hx _ _)) :)
  · refine (State.raise_only _ _).mem_outbox ?_
    rw [reply_outbox hx]
    exact List.mem_append_right _ (List.mem_singleton_self _)

end Sys2Proof.Machine

open Sys2Proof Sys2Proof.Machine

/-- Settles O46: a request is served once and its reply repeated (`serve_repeated`); OPEN is decided by the association's role and the room on its port. -/
theorem sessions : Obligations.Sessions := by
  unfold Obligations.Sessions
  refine ⟨⟨fun kind r f x e s hx ha hk he => serve_repeated hx ha hk he, fun kind r f s h => serve_discarded h, fun kind r f x s hx ha => serve_unanswered hx ha,
      fun r x kind code detail body s hx => ⟨reply_outbox hx _ _, reply_keeps _ _ _ s⟩⟩,
    fun p w c s ha => ⟨fun d hd hc => ?_, fun hc => .of_eq (exec_dtlsHandshake_unknown ha hc) rfl⟩,
    fun r k p pa client ev s hh ha hk hp => .of_eq (exec_openSession_roleless hh ha hk hp) ⟨rfl, (congrArg Net.nextSession (State.raise_netBase _ _) :)⟩,
    fun r k p role pa client ev s hh ha hk hp hm hc => ⟨fun hr => ?_, fun hf => .pos (exec_openSession_role hh ha hk hp hm hc) (opened_of_full hf) rfl⟩,
    fun r x s ha => ?_, fun k x s hx => ⟨fun ht => ?_, fun ht => ?_⟩, fun r x s hx ha hk => ?_⟩
  · rw [hd]
    exact .of_eq (exec_dtlsHandshake_known ha hc) rfl
  · exact .neg (exec_openSession_role hh ha hk hp hm hc) (opened_of_room hr) ⟨rfl, newSession_opens p r.reqId client role pa ev s⟩
  · obtain ⟨z, hz⟩ := reply_session (heard_session r.session x s) r.reqId ⟨2, 0, 0, []⟩
    exact .of_asks rfl ha fun _ => ⟨rfl, endSession_subs hz⟩
  · refine .of_eq (t := endSession k (s.send (.closed k))) ?_ ⟨rfl, endSession_subs (x := x) hx⟩
    show execSessionTimeout k s = _
    unfold execSessionTimeout
    simp only [hx, if_pos ht]
  · refine .of_eq (t := s) ?_ rfl
    show execSessionTimeout k s = _
    unfold execSessionTimeout
    simp only [hx, if_neg (Nat.not_le.mpr ht)]
  · refine .of_eq (t := heard r.session x s) ?_ ⟨rfl, heard_session _ _ _, heard_keeps _ _ _⟩
    show execKeepalive r s = _
    unfold execKeepalive
    simp only [hx, ha, hk, Bool.and_self, if_true]

end

section
/-! SUPPORT. Queries and tag reads (R388, R507). -/

set_option Elab.async false

namespace Sys2Proof.Machine

open Sys2Proof

theorem leBytes_length (k n : Nat) : (leBytes k n).length = k := by
  induction k generalizing n with
  | zero => rfl
  | succ k ih => rw [leBytes, List.length_cons, ih]

theorem tagBytes_length (g : Tag) : (tagBytes g).length = 32 := by
  simp only [tagBytes, List.length_append, leBytes_length, zeros, List.length_replicate]

/-- A query, by the state of the module and the client's window. -/
theorem exec_query {r : Req} {x : Session} {q : Nat} {s : State} (ha : Asks 0x12 r x s) : exec (.query r q) s = .next (
    if s.limited then answer r 0x12 0xB 0 [] (heard r.session x s)
    else if s.mode = .starting then answer r 0x12 9 s.partnerCode [] (heard r.session x s)
    else if q + s.policy.clientWindow ≤ s.clientHigh x.clientId then answer r 0x12 6 0 [] (heard r.session x s)
    else answer r 0x12 0 0 (s.queryBody x.clientId q) (heard r.session x s)) :=
  congrArg Host.Outcome.next (serve_of_asks ha _)

/-- A read of tags, by the state of the module, the shed level and the count. -/
theorem exec_tagRead {r : Req} {x : Session} {tags : List Nat} {s : State} (ha : Asks 0x20 r x s) : exec (.tagRead r tags) s = .next (
    if s.limited then answer r 0x20 0xB 0 [] (heard r.session x s)
    else if decide (4 ≤ s.shed) && decide (x.role ≠ .operator) then answer r 0x20 3 0 [] ((heard r.session x s).inc Reg.MPU_LOAD_BUSY_REPLIES)
    else if s.mode = .starting then answer r 0x20 9 s.partnerCode [] (heard r.session x s)
    else if tags = [] ∨ 32 < tags.length then answer r 0x20 2 0 [] (heard r.session x s)
    else answer r 0x20 0 0 (tags.flatMap s.tagAnswer) (heard r.session x s)) :=
  congrArg Host.Outcome.next (serve_of_asks ha _)

theorem limited_of_terminus {s : State} (h : s.mode = .terminus) : s.limited = true := decide_eq_true h

theorem not_limited {s : State} (h : s.mode ≠ .terminus) : ¬ s.limited = true := fun h' => h (of_decide_eq_true h')

theorem not_readShed {x : Session} {s : State} (h : x.role = .operator ∨ s.shed < 4) : ¬ (decide (4 ≤ s.shed) && decide (x.role ≠ .operator)) = true := by
  simp only [Bool.and_eq_true, decide_eq_true_eq, not_and_or, Nat.not_le, not_not]
  exact h.symm

end Sys2Proof.Machine

open Sys2Proof Sys2Proof.Machine

/-- Settles O47: a request that is served runs its body once (`serve_of_asks`), and the body decides by the state, the shed level and the count. -/
theorem queriesAndTagReads : Obligations.QueriesAndTagReads := by
  unfold Obligations.QueriesAndTagReads
  refine ⟨fun r x q s ha => ⟨fun hm => .pos (exec_query ha) (limited_of_terminus hm) rfl, fun hm => ?_, fun hm hs hw => ?_, fun hm hs hw => ?_⟩,
    fun r x tags s ha hm => ⟨fun hs hr hn hl => ?_, fun hs hr hn => ?_, fun hs hr => ?_, fun hr hs => ?_⟩, tagBytes_length⟩
  · exact .neg (exec_query ha) (not_limited (by rw [hm]; decide)) (if_pos hm)
  · exact .neg (exec_query ha) (not_limited hm) ((if_neg hs).trans (if_pos hw))
  · exact .neg (exec_query ha) (not_limited hm) ((if_neg hs).trans (if_neg (Nat.not_le.mpr hw)))
  · exact .neg (exec_tagRead ha) (not_limited hm) ((if_neg (not_readShed hr)).trans ((if_neg hs).trans (if_neg (not_or.mpr ⟨hn, Nat.not_lt.mpr hl⟩))))
  · exact .neg (exec_tagRead ha) (not_limited hm) ((if_neg (not_readShed hr)).trans ((if_neg hs).trans (if_pos hn)))
  · exact .neg (exec_tagRead ha) (not_limited hm) ((if_neg (not_readShed hr)).trans (if_pos hs))
  · exact .neg (exec_tagRead ha) (not_limited hm) (if_pos (by simp [hs, hr]))

end

section
/-! SUPPORT. Subscriptions, notices and events (R79, R381, R389, R390). -/

set_option Elab.async false

namespace Sys2Proof.Machine

open Sys2Proof

/-- A subscription entered under the next number. -/
def subEntered (session ms : Nat) (tags : List Nat) (s : State) : State :=
  State.setSub { s with net := { s.net with nextSub := nextNumber s.net.nextSub } } s.net.nextSub ⟨session, ms, tags.map (fun t => (t, neverNotified)), 0, none⟩

section

variable {r : Req} {x : Session} {s : State}

theorem exec_subscribe {ms : Nat} {tags : List Nat} (ha : Asks 0x21 r x s) : exec (.subscribe r ms tags) s = .next (
    if s.limited then answer r 0x21 0xB 0 [] (heard r.session x s)
    else if 5 ≤ s.shed then shedReply r 0x21 (heard r.session x s)
    else if ms < 10 ∨ 60000 < ms then answer r 0x21 2 0 [] (heard r.session x s)
    else if tags.any (fun t => (s.tagDecl t).isNone) then answer r 0x21 0xD 0 [] (heard r.session x s)
    else if 16384 < s.subscribed (some r.session) + tags.length ∨ 65536 < s.subscribed none + tags.length then answer r 0x21 3 0 [] (heard r.session x s)
    else answer r 0x21 0 0 (leBytes 4 s.net.nextSub) (subEntered r.session ms tags (heard r.session x s))) :=
  congrArg Host.Outcome.next (serve_of_asks ha _)

theorem exec_unsubscribe {n : Nat} (ha : Asks 0x22 r x s) : exec (.unsubscribe r n) s = .next (
    if s.limited then answer r 0x22 0xB 0 [] (heard r.session x s)
    else if s.ownSub r n then answer r 0x22 0 0 [] { heard r.session x s with net := { (heard r.session x s).net with subs := Tab.erase s.net.subs n } }
    else answer r 0x22 2 0 [] (heard r.session x s)) :=
  congrArg Host.Outcome.next (serve_of_asks ha _)

theorem exec_resend {n : Nat} (ha : Asks 0x24 r x s) : exec (.resend r n) s = .next (
    if s.limited then answer r 0x24 0xB 0 [] (heard r.session x s)
    else if s.ownSub r n then
      notifyBatch n (match s.sub n with | some x => x.tags.map (·.1) | none => []) (answer r 0x24 0 0 [] (heard r.session x s))
    else answer r 0x24 2 0 [] (heard r.session x s)) :=
  congrArg Host.Outcome.next ((serve_of_asks ha _).trans rfl)

end

theorem State.netBase_subs {s t : State} (h : t.netBase = s.netBase) (n : Nat) : t.sub n = s.sub n := by
  have hs : t.net.subs = s.net.subs := (congrArg Net.subs h :)
  unfold State.sub
  rw [hs]

/-- A reply on a session that is open: it is sent, and nothing but the session's cache moves. -/
theorem answer_of_session {r : Req} {x : Session} {s : State} (hx : Tab.get? s.net.sessions r.session = some x) (kind code detail : Nat) (body : List Byte) :
    (answer r kind code detail body s).outbox = s.outbox ++ [.reply r.session r.reqId ⟨kind, code, detail, body⟩] ∧
      (answer r kind code detail body s).netBase = s.netBase ∧ KeepsBut [.net, .outbox] s (answer r kind code detail body s) :=
  ⟨reply_outbox hx _ _, reply_netBase hx _ _, reply_keeps _ _ _ s⟩

theorem subEntered_sub (session ms : Nat) (tags : List Nat) (s : State) :
    (subEntered session ms tags s).sub s.net.nextSub = some ⟨session, ms, tags.map (fun t => (t, neverNotified)), 0, none⟩ := Tab.get?_set_self _ _ _

theorem neverNotified_tags (tags : List Nat) : (tags.map (fun t => (t, neverNotified))).map (·.1) = tags := by
  rw [List.map_map]
  exact List.map_id tags

theorem Tab.get?_erase_self {α : Type} (t : Tab α) (i : Nat) : Tab.get? (Tab.erase t i) i = none := Tab.get?_filter_none t _ i fun _ => by simp

theorem Tab.get?_erase_ne {α : Type} (t : Tab α) {i k : Nat} (h : k ≠ i) : Tab.get? (Tab.erase t i) k = Tab.get? t k := Tab.get?_filter t _ k fun _ => by simpa using h

theorem notifyBatch_nil (n : Nat) (s : State) : notifyBatch n [] s = s := rfl

theorem exec_notify {n : Nat} {y : Subscription} {s : State} (hy : s.sub n = some y) (hp : s.powered = true) (hr : s.mpu.restarting = false) :
    exec (.notify n) s = .next (if y.sentAt.all (fun t => decide (t + ticksOfMs y.minMs ≤ s.time.tick)) then
      notifyBatch n ((y.tags.filter (fun e => decide (s.noted e.1 ≠ e.2))).map (·.1)) s else s) := by
  show execNotify n s = _
  unfold execNotify
  simp only [hy, hp, hr, Bool.not_false, Bool.and_self, Bool.true_and]

theorem interval_over {y : Subscription} {now : Nat} (h : ∀ u, y.sentAt = some u → u + ticksOfMs y.minMs ≤ now) :
    y.sentAt.all (fun t => decide (t + ticksOfMs y.minMs ≤ now)) = true := by
  rw [Option.all_eq_true]
  exact fun u hu => decide_eq_true (h u hu)

theorem interval_running {y : Subscription} {now u : Nat} (hu : y.sentAt = some u) (h : now < u + ticksOfMs y.minMs) :
    ¬ y.sentAt.all (fun t => decide (t + ticksOfMs y.minMs ≤ now)) = true := by
  rw [Option.all_eq_true]
  exact fun hall => Nat.not_le.mpr h (of_decide_eq_true (hall u hu))

end Sys2Proof.Machine

open Sys2Proof Sys2Proof.Machine

/-- Settles O48: a subscription is entered under the next number (`subEntered`), and a notice carries the tags whose CHANGE differs. -/
theorem subscriptionsNotify : Obligations.SubscriptionsNotify := by
  unfold Obligations.SubscriptionsNotify
  refine ⟨fun r x ms tags s ha hm hs => ⟨fun h1 h2 hd h3 h4 => ?_, fun h => ?_⟩,
    fun r x n s hm => ⟨fun ho => ⟨fun ha => ?_, fun y ha hy => ?_⟩, fun ho => ⟨fun ha => ?_, fun ha => ?_⟩⟩,
    fun n y s hy hp hr => ⟨fun h => .pos (exec_notify hy hp hr) (interval_over h) rfl, fun u hu ht => .neg (exec_notify hy hp hr) (interval_running hu ht) rfl,
      fun h => ?_⟩, fun base offset bit s hp he => .pos rfl (by simp [hp, he]) (.raise bit.isLt s)⟩
  · have hint : ¬ (ms < 10 ∨ 60000 < ms) := by omega
    have hroom : ¬ (16384 < s.subscribed (some r.session) + tags.length ∨ 65536 < s.subscribed none + tags.length) := by omega
    have htags : ¬ tags.any (fun t => (s.tagDecl t).isNone) = true := by
      rw [List.any_eq_true]
      rintro ⟨g, hg, hn⟩
      exact absurd (hd g hg) (by simpa using hn)
    obtain ⟨ho, hb, -⟩ := answer_of_session (r := r) (s := subEntered r.session ms tags (heard r.session x s)) (heard_session r.session x s) 0x21 0 0
      (leBytes 4 s.net.nextSub)
    refine .neg (exec_subscribe ha) (not_limited hm) ?_
    rw [if_neg (Nat.not_le.mpr hs), if_neg hint, if_neg htags, if_neg hroom]
    refine ⟨_, (State.netBase_subs hb _).trans (subEntered_sub _ _ _ (heard r.session x s)), rfl, rfl, neverNotified_tags tags, rfl,
      (congrArg Net.nextSub hb :), ho⟩
  · exact .neg (exec_subscribe ha) (not_limited hm) ((if_neg (Nat.not_le.mpr hs)).trans (if_pos h))
  · refine .neg (exec_unsubscribe ha) (not_limited hm) ?_
    rw [if_pos ho]
    obtain ⟨hout, hb, hk⟩ := answer_of_session (r := r) (s := { heard r.session x s with net := { (heard r.session x s).net with subs := Tab.erase s.net.subs n } })
      (heard_session r.session x s) 0x22 0 0 []
    refine ⟨(State.netBase_subs hb n).trans (Tab.get?_erase_self _ n), fun k hne => (State.netBase_subs hb k).trans (Tab.get?_erase_ne _ hne), hout, ?_⟩
    have hnet : KeepsBut [.net, .outbox] s { heard r.session x s with net := { (heard r.session x s).net with subs := Tab.erase s.net.subs n } } :=
      (Moves.set_net _ (by decide) (.refl _ s)).keeps
    exact hnet.trans hk
  · refine .neg (exec_resend ha) (not_limited hm) ?_
    rw [if_pos ho, hy]
  · exact .neg (exec_unsubscribe ha) (not_limited hm) (if_neg (by simp [ho]))
  · exact .neg (exec_resend ha) (not_limited hm) (if_neg (by simp [ho]))
  · refine .of_eq (exec_notify hy hp hr) ?_
    have hnone : (y.tags.filter (fun e => decide (s.noted e.1 ≠ e.2))).map (·.1) = [] := by
      rw [List.map_eq_nil_iff, List.filter_eq_nil_iff]
      exact fun e he => by simp [h e he]
    rw [hnone, notifyBatch_nil, ite_self]

end

section
/-! SUPPORT. The exports that a session's request counts (R342, R392). -/

set_option Elab.async false

namespace Sys2Proof.Machine

open Sys2Proof

/-- FILE_OPEN of a file that is busy. -/
theorem exec_fileOpen_busy {r : Req} {x : Session} {name : FileName} {w : Bool} {s : State} (ha : Asks 0x50 r x s) (hr : x.role ≠ .operator)
    (hm : s.mode ≠ .terminus) (hf : x.files.length < 4) (hc : (heard r.session x s).openRefusal name w = (3, 0)) (hs : s.shed < 2) :
    exec (.fileOpen r name w) s = .next (answer r 0x50 3 0 [] (heard r.session x s)) := by
  refine congrArg Host.Outcome.next ((serve_of_asks ha _).trans ((if_neg ?_).trans ((if_neg (Nat.not_le.mpr hf)).trans ?_)))
  · rintro (h | ⟨h, -⟩)
    · exact hr h
    · exact not_limited hm h
  · simp only [hc]
    rw [if_pos (by decide), if_neg]
    exact fun h => Nat.not_le.mpr hs h.2

/-- Settings of a definition that takes nothing. -/
def bareDef : DefCfg :=
  { sv := false, rate := 1, channels := [], tags := [], pre := 0, post := 0, extendMax := 0, reduceN := 0, reduceCount := 0, tagEntries := 0, segsPerRecord := 1,
    gapMs := 0, allotMib := 0, armed := false, name := [], labels := [] }

/-- Record 7, stored whole. -/
def storedRecord : StoredRec := ⟨⟨7, 0, Stamp.zero, 0, [], 0, 1, bareDef, [], 0#64, false⟩, 0, 1, false⟩

/-- A SERVICE session on the service port, with the given files open. -/
def serviceSession (files : List OpenFile) : Session :=
  { port := .svc, clientId := 1, role := .service, events := false, replies := [], files := files, eventSecond := 0, eventCount := 0, eventDropped := 0,
    viaPair := false, lastHeard := 0 }

/-- Session 3 reads record 7 through two files. -/
def exportingSession : Session := serviceSession [⟨1, .record 7 false, false, []⟩, ⟨2, .record 7 false, false, []⟩]

/-- A module in STANDBY whose table of sessions lists session 3 after session 5, out of its order. -/
def unsortedSessions : State :=
  { State.reset with
    mode := .standby, acq := { Recorder.reset with indexReady := true, stored := [storedRecord] }
    net := { Net.reset with up := [.svc], sessions := [(5, serviceSession []), (3, exportingSession)] } }

/-- FILE_OPEN on session 3. -/
def openRequest : Req :=
  { magic := 0x50445244#32, version := 1, kind := 0x50, session := 3, reqId := 1, reply := 0, detail := 0, payload := []
    crc := dppCrc (0x50445244#32 : Word).toNat 1 0x50 3 1 0 0 [] }

theorem openRequest_asks : Asks 0x50 openRequest exportingSession unsortedSessions :=
  ⟨rfl, rfl, by simp [dppOk, openRequest], rfl⟩

theorem unsortedSessions_opens : unsortedSessions.openRefusal (.record 7 false) false = (0, 0) := rfl

/-- The session is listed a second time as it is heard, and its two exports count twice. -/
theorem unsortedSessions_busy : (heard openRequest.session exportingSession unsortedSessions).openRefusal (.record 7 false) false = (3, 0) := rfl

theorem exec_fileOpen_unsorted : exec (.fileOpen openRequest (.record 7 false) false) unsortedSessions =
    .next (answer openRequest 0x50 3 0 [] (heard openRequest.session exportingSession unsortedSessions)) :=
  exec_fileOpen_busy openRequest_asks (by decide) (by decide) (by decide) unsortedSessions_busy (by decide)

end Sys2Proof.Machine

open Sys2Proof Sys2Proof.Machine

/-- Refutes O49: its fileOpen clause asks in the state before the request whether the file opens, but the request's own time of hearing is entered first. In a
state of the model's type whose session table is not in its order, that lists the session twice; its exports then count twice, and the file is busy. -/
theorem not_sessionRegistersAndFiles : ¬ Obligations.SessionRegistersAndFiles := by
  intro h
  obtain ⟨-, hopen, -⟩ := h
  obtain ⟨t, he, -, -, hout⟩ := (hopen openRequest exportingSession (.record 7 false) false unsortedSessions openRequest_asks (by decide) (by decide)).2 (by decide)
    unsortedSessions_opens
  obtain rfl : _ = t := Host.Outcome.next.inj (exec_fileOpen_unsorted.symm.trans he)
  rw [answer, reply_outbox (heard_session openRequest.session exportingSession unsortedSessions)] at hout
  have hreply := List.append_cancel_left hout
  simp at hreply

end

section
/-! SUPPORT. The field bus ports (R395 to R408): the record of a port, what a frame and an outcome leave there, and the monitor's entries. -/

set_option Elab.async false

namespace Sys2Proof.Machine

open Sys2Proof

/-! The record of a port. -/

theorem State.canPort_setCanPort (s : State) (p : Nat) (x : CanPort) : (s.setCanPort p x).canPort p = x := by
  unfold State.canPort State.setCanPort
  split <;> rfl

theorem State.canPort_congr {s t : State} (h0 : t.can0 = s.can0) (h1 : t.can1 = s.can1) (p : Nat) : t.canPort p = s.canPort p := by
  unfold State.canPort
  rw [h0, h1]

theorem KeepsBut.canPort {l : List Part} {s t : State} (h : KeepsBut l s t) (p : Nat) (h0 : Part.can0 ∉ l := by decide) (h1 : Part.can1 ∉ l := by decide) :
    t.canPort p = s.canPort p := State.canPort_congr (h.can0 h0) (h.can1 h1) p

theorem State.setCanPort_ports (s : State) (p : Nat) (x : CanPort) : KeepsBut [.can0, .can1] s (s.setCanPort p x) :=
  (State_setCanPort_moves p x (fun _ h => h) (.refl _ s)).keeps

/-- The extremes that a part of the port's record is compared with (R489). -/
theorem State.canExt_setCanExt (s : State) (p : Nat) (x : CanExt) : (s.setCanExt p x).canExt p = x := by
  unfold State.canExt State.setCanExt
  split <;> rfl

theorem State.setCanExt_keeps (s : State) (p : Nat) (x : CanExt) : KeepsBut [.mil] s (s.setCanExt p x) :=
  (State_setCanExt_moves p x (fun _ h => h) (.refl _ s)).keeps

/-! A frame received. -/

theorem getLast?_lastN {α : Type} {n : Nat} (h : 0 < n) (l : List α) (a : α) : (lastN n (l ++ [a])).getLast? = some a := by
  unfold lastN
  rw [List.drop_append_of_le_length (by rw [List.length_append, List.length_singleton]; omega)]
  exact List.getLast?_concat

theorem canReceive_port (p : Nat) (f : CanFrame) (own : Bool) (sof : Nat) (s : State) :
    ((canReceive p f own sof s).canPort p).seq = (s.canPort p).seq + 1 ∧
      ((canReceive p f own sof s).canPort p).ring.getLast? = some ⟨(s.canPort p).seq + 1, sof, f, own, s.unsync⟩ ∧
      ((canReceive p f own sof s).canPort p).held = (s.canPort p).held := by
  unfold canReceive
  simp only [State.canPort_setCanPort]
  refine ⟨trivial, (getLast?_lastN (by decide) _ _).trans ?_, trivial⟩
  split <;> rfl

/-- A frame on the bus moves the error count only. -/
theorem canHeard_port (p : Nat) (s : State) :
    ((canHeard p s).canPort p).seq = (s.canPort p).seq ∧ ((canHeard p s).canPort p).held = (s.canPort p).held := by
  simp only [canHeard]
  split
  · exact ⟨rfl, rfl⟩
  · split
    · rw [State.canPort_setCanPort]
      exact ⟨rfl, rfl⟩
    · rw [State.canPort_setCanPort]
      exact ⟨rfl, rfl⟩

theorem canHeard_keeps (p : Nat) (s : State) : KeepsBut [.can0, .can1, .freeCount] s (canHeard p s) := (canHeard_moves p (fun _ h => h) (.refl _ s)).keeps

theorem canSaid_port (p : Nat) (s : State) :
    ((canSaid p s).canPort p).seq = (s.canPort p).seq ∧ ((canSaid p s).canPort p).held = (s.canPort p).held := by
  simp only [canSaid]
  split
  · exact ⟨rfl, rfl⟩
  · rw [State.canPort_setCanPort]
    exact ⟨rfl, rfl⟩

theorem State.unsync_congr {s t : State} (h : t.time = s.time) : t.unsync = s.unsync := by unfold State.unsync; rw [h]

/-! The outcome of a transmit request. -/

theorem canOutcome_keeps (p task handle outcome sof : Nat) (late : Bool) (s : State) :
    KeepsBut [.bank, .tasks, .net, .outbox] s (canOutcome p task handle outcome sof late s) :=
  (canOutcome_moves p task handle outcome sof late (fun _ h => h) (.refl _ s)).keeps

theorem canOutcome_task (p task handle outcome sof : Nat) (late : Bool) (s : State) :
    ((canOutcome p task handle outcome sof late s).task task).canOutcomes = (s.task task).canOutcomes ++ [(handle, outcome, sof, late)] := by
  have h := congrArg Task.canOutcomes (State.task_setTask s task { s.task task with canOutcomes := (s.task task).canOutcomes ++ [(handle, outcome, sof, late)] })
  simp only [canOutcome]
  split
  · exact h
  · split
    · exact h
    · exact (congrArg Task.canOutcomes (State.task_congr (State.raise_tasks _ _) _)).trans h

/-- An outcome counts in the port's transmit counts and no other register of counts. -/
theorem canOutcome_busOffCount (p q task handle outcome sof : Nat) (late : Bool) (s : State) :
    (canOutcome p task handle outcome sof late s).get (Reg.CAN_ERR_BUSOFF_COUNT q) = s.get (Reg.CAN_ERR_BUSOFF_COUNT q) := by
  simp only [canOutcome]
  split
  · rw [State.inc_get_ne _ (by simp only [Fld.key, Reg.CAN_TX_COUNTS_SENT, Reg.CAN_ERR_BUSOFF_COUNT]; omega)]
    exact State.get_congr rfl _
  · split
    · exact State.get_congr rfl _
    · rw [State.raise_get_ne _ (by simp only [Fld.key, Ev.CAN_TX_FAILED, Reg.CAN_ERR_BUSOFF_COUNT]; omega)
        (by simp only [Fld.key, Ev.CAN_TX_FAILED, Reg.CAN_ERR_BUSOFF_COUNT]; omega),
        State.inc_get_ne _ (by simp only [Fld.key, Reg.CAN_TX_COUNTS_FAILED, Reg.CAN_ERR_BUSOFF_COUNT]; omega)]
      exact State.get_congr rfl _

/-- The port without its foremost request, which has its outcome. -/
def canEnded (p : Nat) (h : CanHeld) (rest : List CanHeld) (code sof : Nat) (s : State) : State :=
  canOutcome p h.task h.req.handle code sof h.cancelLate (s.setCanPort p { s.canPort p with held := rest })

theorem canEnded_port (p : Nat) (h : CanHeld) (rest : List CanHeld) (code sof : Nat) (s : State) :
    (canEnded p h rest code sof s).canPort p = { s.canPort p with held := rest } :=
  ((canOutcome_keeps _ _ _ _ _ _ _).canPort p).trans (State.canPort_setCanPort _ _ _)

theorem canEnded_task (p : Nat) (h : CanHeld) (rest : List CanHeld) (code sof : Nat) (s : State) :
    ((canEnded p h rest code sof s).task h.task).canOutcomes = (s.task h.task).canOutcomes ++ [(h.req.handle, code, sof, h.cancelLate)] := by
  rw [canEnded, canOutcome_task, State.task_congr (State.setCanPort_ports s p _).tasks]

theorem canEnded_keeps (p : Nat) (h : CanHeld) (rest : List CanHeld) (code sof : Nat) (s : State) :
    KeepsBut [.bank, .tasks, .net, .can0, .can1, .outbox] s (canEnded p h rest code sof s) :=
  ((State.setCanPort_ports s p _).mono (by decide)).trans ((canOutcome_keeps _ _ _ _ _ _ _).mono (by decide))

/-- The outcome code of an attempt (R403). -/
def canEndCode : CanEnd → Nat
  | .sent => 0
  | .lostArbitration => 1
  | .error => 2

theorem exec_canTxEnd_sent {p : Fin 2} {sof : Nat} {h : CanHeld} {rest : List CanHeld} {s : State} (hh : (s.canPort p).held = h :: rest)
    (hm : s.canMode p = 2 ∨ h.started = true) :
    exec (.canTxEnd p .sent h.req.handle sof) s =
      .next (canReceive p ((s.canPort p).frameOf h.req) true sof (canSaid p (canEnded p h rest 0 sof s))) := by
  show execCanTxEnd p .sent h.req.handle sof s = _
  unfold execCanTxEnd
  simp only [hh]
  rw [if_pos ⟨trivial, hm⟩]
  rfl

theorem exec_canTxEnd_failed {p : Fin 2} {e : CanEnd} {sof : Nat} {h : CanHeld} {rest : List CanHeld} {s : State} (he : e ≠ .sent)
    (hh : (s.canPort p).held = h :: rest) (hm : s.canMode p = 2 ∨ h.started = true) :
    exec (.canTxEnd p e h.req.handle sof) s =
      .next (canEnded p h rest (canEndCode e) sof s) := by
  show execCanTxEnd p e h.req.handle sof s = _
  unfold execCanTxEnd
  simp only [hh]
  rw [if_pos ⟨trivial, hm⟩]
  cases e
  · exact absurd rfl he
  · rfl
  · rfl

theorem exec_canTxTimeout {p : Fin 2} {n : Nat} {h : CanHeld} {s : State} (hf : (s.canPort p).held.find? (fun h => decide (h.req.handle = n)) = some h) :
    exec (.canTxTimeout p n) s = .next (if h.started = true ∨ s.time.tick < h.since + s.canTimeout p then s
      else canOutcome p h.task n 5 0 h.cancelLate (s.setCanPort p { s.canPort p with held := (s.canPort p).held.erase h })) := by
  show execCanTxTimeout p n s = _
  unfold execCanTxTimeout
  simp only [hf]

theorem canMaybeStart_nil {p : Nat} {s : State} (h : (s.canPort p).held = []) : canMaybeStart p s = s := by
  unfold canMaybeStart
  rw [h]

theorem canCancelAt_nil {p n : Nat} {s : State} (h : (s.canPort p).held = []) : canCancelAt p n s = s := by
  unfold canCancelAt
  simp only [h, List.find?_nil]

/-- A request that waits alone and never started ends at once. -/
theorem canCancelAt_waiting {p : Nat} {h : CanHeld} {s : State} (hh : (s.canPort p).held = [h]) (hs : h.started = false) :
    canCancelAt p h.req.handle s = canOutcome p h.task h.req.handle 3 0 false (s.setCanPort p { s.canPort p with held := [] }) := by
  unfold canCancelAt
  simp only [hh, List.find?_cons_of_pos (p := fun g : CanHeld => decide (g.req.handle = h.req.handle)) (decide_eq_true rfl), hs, List.erase_cons_head]
  rfl

/-! Errors and bus off (R407, R408). -/

theorem canErr_port (p tec recv err : Nat) (s : State) : (canErr p tec recv err s).canPort p = { s.canPort p with tec := tec, rxErr := recv, errState := err } :=
  State.canPort_setCanPort _ _ _

theorem canErr_keeps (p tec recv err : Nat) (s : State) : KeepsBut [.can0, .can1] s (canErr p tec recv err s) := State.setCanPort_ports _ _ _

/-- A port of errState 0 whose counts reach 128 turns passive. -/
theorem exec_canFrameError_passive {p : Fin 2} {tec recv : Nat} {s : State} (hm : s.canMode p ≠ 0) (he : (s.canPort p).errState = 0) (ht : tec ≤ 511)
    (hr : recv ≤ 255) (h : 128 ≤ tec ∨ 128 ≤ recv) :
    exec (.canFrameError p tec recv) s = .next ((canErr p tec recv 1
      (s.setCanExt p { s.canExt p with passive := satInc 32 (s.canExt p).passive })).raise (Ev.CAN_ERROR_PASSIVE p)) := by
  show execCanFrameError p tec recv s = _
  unfold execCanFrameError
  simp only [Nat.min_eq_left ht, Nat.min_eq_left hr, if_pos h, he, decide_true, Bool.and_self, if_true]
  rw [if_neg (by rintro (h | h); exacts [hm h, absurd h (by decide)])]
  rfl

theorem exec_canFrameError_active {p : Fin 2} {tec recv : Nat} {s : State} (hm : s.canMode p ≠ 0) (he : (s.canPort p).errState = 0)
    (ht : tec < 128) (hr : recv < 128) : exec (.canFrameError p tec recv) s = .next (canErr p tec recv 0 s) := by
  show execCanFrameError p tec recv s = _
  unfold execCanFrameError
  simp only [Nat.min_eq_left (show tec ≤ 511 by omega), Nat.min_eq_left (show recv ≤ 255 by omega), if_neg (show ¬ (128 ≤ tec ∨ 128 ≤ recv) by omega), he]
  rw [if_neg (by rintro (h | h); exacts [hm h, absurd h (by decide)])]
  rfl

/-- Every request of the port ends, the ones that started too. -/
theorem canEndWaiting_all (p outcome : Nat) (s : State) :
    ((canEndWaiting p outcome false s).canPort p).held = [] ∧ ((canEndWaiting p outcome false s).canPort p).errState = (s.canPort p).errState := by
  unfold canEndWaiting
  rw [forEach_read (fun x => State.canPort x p) fun h x => ?_, State.canPort_setCanPort]
  · exact ⟨by simp, rfl⟩
  · show (canOutcome _ _ _ _ _ _ _).canPort p = _
    rw [(canOutcome_keeps _ _ _ _ _ _ _).canPort p]
    split <;> rfl

theorem canEndWaiting_busOffCount (p q outcome : Nat) (keep : Bool) (s : State) :
    (canEndWaiting p outcome keep s).get (Reg.CAN_ERR_BUSOFF_COUNT q) = s.get (Reg.CAN_ERR_BUSOFF_COUNT q) := by
  unfold canEndWaiting
  rw [forEach_read (fun x => State.get x (Reg.CAN_ERR_BUSOFF_COUNT q)) fun h x => ?_]
  · exact State.get_congr (State.setCanPort_ports s p _).bank _
  · show (canOutcome _ _ _ _ _ _ _).get _ = _
    rw [canOutcome_busOffCount]
    split
    · exact State.get_congr rfl _
    · rfl

theorem exec_canMappingHoldExpiry {p : Fin 2} {m : Nat} {twice : Bool} {c : CanCfg} {mp : CanMap} {s : State} (hc : s.canCfg p = some c)
    (hm : c.maps[m]? = some mp) :
    exec (.canMappingHoldExpiry p m twice) s = .next (if s.canMode p ≠ 0 ∧ s.mapSilent p mp twice = true then
      s.setCanPort p { s.canPort p with expired := (s.canPort p).expired.filter (fun e => decide (e.1 ≠ m)) ++ [(m, twice)] } else s) := by
  show execCanMappingHoldExpiry p m twice s = _
  unfold execCanMappingHoldExpiry
  simp only [hc, Option.bind_some, hm]

/-! The monitor's next entry (R400). -/

theorem canRxWord_get (p : Nat) (l : List Word) (s : State) {n : Nat} (h : n < l.length) :
    (putWords (fun n => Reg.CAN_RX_Wn_WORD p n) l s).get (Reg.CAN_RX_Wn_WORD p n) = (l.getD n 0#32).toNat :=
  putWords_get (f := fun n => Reg.CAN_RX_Wn_WORD p n) (fun _ => rfl) (fun m n hk => by simp only [Fld.key, Reg.CAN_RX_Wn_WORD] at hk; omega) l s h

theorem rxpopWrite_next {p : Nat} {e : CanEntry} {rest : List CanEntry} {s : State}
    (h : (s.canPort p).ring.filter (fun e => decide ((s.canPort p).monitor + 1 ≤ e.seq)) = e :: rest) :
    (rxpopWrite p s).canPort p = { s.canPort p with monitor := e.seq } ∧
      ∀ n, n < 24 → (rxpopWrite p s).get (Reg.CAN_RX_Wn_WORD p n) = ((leWords 24 (canEntryBytes e)).getD n 0#32).toNat := by
  unfold rxpopWrite
  simp only [h]
  refine ⟨?_, fun n hn => canRxWord_get _ _ _ (by rwa [leWords_length])⟩
  rw [(putWords_keeps _ _ _).canPort, State.canPort_setCanPort, State.canPort_congr (State.raiseIf_can0 _ _ _) (State.raiseIf_can1 _ _ _)]
  rfl

theorem rxpopWrite_none {p : Nat} {s : State} (h : (s.canPort p).ring.filter (fun e => decide ((s.canPort p).monitor + 1 ≤ e.seq)) = []) :
    (rxpopWrite p s).canPort p = s.canPort p ∧ ∀ n, n < 24 → (rxpopWrite p s).get (Reg.CAN_RX_Wn_WORD p n) = 0 := by
  unfold rxpopWrite
  simp only [h]
  refine ⟨(putWords_keeps _ _ _).canPort p, fun n hn => (canRxWord_get _ _ _ (by rwa [List.length_replicate])).trans ?_⟩
  rw [List.getD_replicate _ hn]
  rfl

/-! The extremes of the error counts (R489). -/

/-- The extremes with a port's counts taken in. -/
def CanExt.take (e : CanExt) (x : CanPort) (at_ : Nat) : CanExt :=
  let e := if e.tecMax < x.tec then { e with tecMax := x.tec, tecAt := at_ } else e
  if e.recMax < x.rxErr then { e with recMax := x.rxErr, recAt := at_ } else e

theorem CanExt.take_max (e : CanExt) (x : CanPort) (at_ : Nat) : (e.take x at_).tecMax = max e.tecMax x.tec ∧ (e.take x at_).recMax = max e.recMax x.rxErr := by
  by_cases ht : e.tecMax < x.tec <;> by_cases hr : e.recMax < x.rxErr <;> simp only [CanExt.take, ht, hr, if_true, if_false] <;> omega

/-- What CAN_ERR_READ does for one port. -/
def canErrTaken (p : Nat) (s : State) : State := if s.canMode p = 0 then s else s.setCanExt p ((s.canExt p).take (s.canPort p) s.mram.opMinutes)

theorem exec_canErrRead (s : State) : exec .canErrRead s = .next (canErrTaken 1 (canErrTaken 0 s)) := rfl

theorem canErrTaken_keeps (p : Nat) (s : State) : KeepsBut [.mil] s (canErrTaken p s) := by
  unfold canErrTaken
  split
  · exact .refl _ s
  · exact State.setCanExt_keeps s p _

theorem State.canMode_congr {s t : State} (h : KeepsBut [.mil] s t) (p : Nat) : t.canMode p = s.canMode p := by
  unfold State.canMode State.canCfg
  rw [State.cfgList_congr h.start, h.start, h.mode, h.claim, h.canPort p]

theorem canErrTaken_on {p : Nat} {s : State} (h : s.canMode p ≠ 0) :
    ((canErrTaken p s).canExt p).tecMax = max (s.canExt p).tecMax (s.canPort p).tec ∧
      ((canErrTaken p s).canExt p).recMax = max (s.canExt p).recMax (s.canPort p).rxErr := by
  rw [canErrTaken, if_neg h, State.canExt_setCanExt]
  exact CanExt.take_max _ _ _

theorem canErrTaken_off {p : Nat} {s : State} (h : s.canMode p = 0) : canErrTaken p s = s := if_pos h

/-- Port 1 leaves the extremes of port 0. -/
theorem canErrTaken_one_can0 (s : State) : (canErrTaken 1 s).mil.now.can0 = s.mil.now.can0 := by
  unfold canErrTaken
  split <;> rfl

theorem canErrTaken_zero_can1 (s : State) : (canErrTaken 0 s).mil.now.can1 = s.mil.now.can1 := by
  unfold canErrTaken
  split <;> rfl

end Sys2Proof.Machine

open Sys2Proof Sys2Proof.Machine

/-- Settles O50: a received frame and an outcome each write the port's record once (`canReceive_port`, `canEnded_port`), and the monitor's entry and the
extremes are read from that record. -/
theorem fieldBusPorts : Obligations.FieldBusPorts := by
  unfold Obligations.FieldBusPorts
  refine ⟨⟨fun p f sof s hm => ?_, fun p f sof s hm => .pos rfl hm rfl, fun p e sof h rest s hh hm => ?_, fun p n h s hf => ⟨fun hs => ?_, fun hs ht => ?_⟩,
    fun p n s => ?_, fun p n h s hp hh hn hs => ?_⟩,
    fun p tec recv s hm he ht hr => ⟨fun h => ?_, fun h1 h2 => ?_⟩, fun p s hm he => ?_, fun p s hm he => ?_,
    fun p m twice c s hc hm mp hmp => ⟨fun hs => ?_, fun hs => ?_⟩, fun o p s hp ho => ?_, fun s => ?_⟩
  · refine .neg rfl hm ?_
    have hk := canHeard_keeps p s
    obtain ⟨hseq, hheld⟩ := canHeard_port p s
    obtain ⟨h1, h2, h3⟩ := canReceive_port p f false sof (canHeard p s)
    rw [hseq] at h1 h2
    rw [State.unsync_congr hk.time] at h2
    exact ⟨h1, h2, h3.trans hheld, (hk.mono (by decide)).trans ((canReceive_moves p f false sof (by decide) (.refl _ _)).keeps)⟩
  · have hport := fun code => canEnded_port p h rest code sof s
    by_cases he : e = .sent
    · subst he
      refine .of_eq (exec_canTxEnd_sent hh hm) ?_
      have hk := canEnded_keeps p h rest 0 sof s
      have hk2 : KeepsBut [.can0, .can1] (canEnded p h rest 0 sof s) (canSaid p (canEnded p h rest 0 sof s)) :=
        (canSaid_moves p (fun _ h => h) (.refl _ _)).keeps
      have hk3 : KeepsBut [.bank, .can0, .can1] _ (canReceive p ((s.canPort p).frameOf h.req) true sof (canSaid p (canEnded p h rest 0 sof s))) :=
        (canReceive_moves _ _ _ _ (fun _ h => h) (.refl _ _)).keeps
      obtain ⟨hseq, hheld⟩ := canSaid_port p (canEnded p h rest 0 sof s)
      obtain ⟨-, h2, h3⟩ := canReceive_port p ((s.canPort p).frameOf h.req) true sof (canSaid p (canEnded p h rest 0 sof s))
      rw [hport] at hseq hheld
      rw [hseq, State.unsync_congr (hk2.time.trans hk.time)] at h2
      refine ⟨h3.trans hheld, (hk.trans (hk2.mono (by decide))).trans (hk3.mono (by decide)), fun _ => h2, fun hne => absurd rfl hne, ?_⟩
      rw [State.task_congr (hk3.tasks.trans hk2.tasks)]
      exact canEnded_task p h rest 0 sof s
    · refine .of_eq (exec_canTxEnd_failed he hh hm) ⟨?_, canEnded_keeps _ _ _ _ _ _, fun h => absurd h he, fun _ => ?_, ?_⟩
      · rw [hport]
      · rw [hport]
      · rw [canEnded_task]
        cases e <;> rfl
  · exact .pos (exec_canTxTimeout hf) hs rfl
  · exact .neg (exec_canTxTimeout hf) (by simp [hs, ht]) rfl
  · refine .of_eq rfl ⟨rfl, fun hh => ?_⟩
    rw [canMaybeStart_nil hh, canCancelAt_nil hh]
  · subst hn
    rw [canCancelAt_waiting hh hs, (canOutcome_keeps _ _ _ _ _ _ _).canPort, State.canPort_setCanPort, canOutcome_task,
      State.task_congr (State.setCanPort_ports s p _).tasks]
    exact ⟨rfl, rfl⟩
  · refine .of_eq (exec_canFrameError_passive hm he ht hr h) ?_
    have hk := State.setCanExt_keeps s p { s.canExt p with passive := satInc 32 (s.canExt p).passive }
    rw [State.canPort_congr (State.raise_can0 _ _) (State.raise_can1 _ _), canErr_port, hk.canPort]
    exact ⟨rfl, .after (show 2 < 16 by decide) ((hk.mono (by decide)).trans ((canErr_keeps _ _ _ _ _).mono (by decide)))⟩
  · exact .of_eq (exec_canFrameError_active hm he h1 h2) ⟨canErr_port _ _ _ _ _, canErr_keeps _ _ _ _ _⟩
  · refine .neg rfl (by rintro (h | h); exacts [hm h, he h]) ?_
    set u := canEndWaiting p 4 false (canErr p (s.canPort p).tec (s.canPort p).rxErr 2 s) with hu
    have hport := canEndWaiting_all p 4 (canErr p (s.canPort p).tec (s.canPort p).rxErr 2 s)
    rw [← hu, canErr_port] at hport
    have hk := State.setCanExt_keeps u p { u.canExt p with busOff := satInc 32 (u.canExt p).busOff, busOffAt := u.mram.opMinutes }
    have hcount : u.get (Reg.CAN_ERR_BUSOFF_COUNT p) = s.get (Reg.CAN_ERR_BUSOFF_COUNT p) :=
      (canEndWaiting_busOffCount _ _ _ _ _).trans (State.get_congr (canErr_keeps _ _ _ _ _).bank _)
    rw [State.canPort_congr (State.raise_can0 _ _) (State.raise_can1 _ _), State.raise_get_ne, State.get_inc_self, State.get_congr hk.bank, hcount]
    · refine ⟨?_, ?_, rfl, State.raise_get_bit _ (show 0 < 16 by decide)⟩
      · exact (congrArg CanPort.errState (hk.canPort p)).trans hport.2
      · exact (congrArg CanPort.held (hk.canPort p)).trans hport.1
    · simp only [Fld.key, Ev.CAN_BUS_OFF, Reg.CAN_ERR_BUSOFF_COUNT]; omega
    · simp only [Fld.key, Ev.CAN_BUS_OFF, Reg.CAN_ERR_BUSOFF_COUNT]; omega
  · refine .pos rfl (by simp [hm, he]) ?_
    rw [State.canPort_congr (State.raise_can0 _ _) (State.raise_can1 _ _), canErr_port]
    exact ⟨rfl, .after (show 1 < 16 by decide) (canErr_keeps _ _ _ _ _)⟩
  · exact .neg (exec_canMappingHoldExpiry hc hmp) (by simp [hs]) rfl
  · exact .pos (exec_canMappingHoldExpiry hc hmp) ⟨hm, hs⟩ ⟨State.canPort_setCanPort _ _ _, State.setCanPort_ports _ _ _⟩
  · exact .of_eq (t := rxpopWrite p s) (congrArg Host.Outcome.next ((if_pos hp).trans (if_pos ho))) ⟨fun e rest h => rxpopWrite_next h, rxpopWrite_none⟩
  · have h0 := canErrTaken_keeps 0 s
    have h1 := canErrTaken_keeps 1 (canErrTaken 0 s)
    have hmode := State.canMode_congr h0 1
    refine .of_eq (exec_canErrRead s) ⟨fun hm => ?_, fun hm => ?_, fun hm => ?_, h0.trans h1⟩
    · rw [canErrTaken_one_can0]
      exact canErrTaken_on hm
    · have := canErrTaken_on (hmode ▸ hm)
      rw [h0.canPort 1] at this
      exact (congrArg CanExt.tecMax (canErrTaken_zero_can1 s)) ▸ (congrArg CanExt.recMax (canErrTaken_zero_can1 s)) ▸ this
    · rw [canErrTaken_one_can0, canErrTaken_off hm]

end

section
/-! SUPPORT. Register writes that the origin rules refuse (R411, R413), and the multi-word values (R420 to R422). -/

set_option Elab.async false

namespace Sys2Proof.Machine

open Sys2Proof

/-! A write by its origin. -/

theorem writeBy_refusedOrigin {o : Origin} {a : Nat} {v : Word} {s : State} (hs : shapeOk a = true)
    (hm : s.mode = .terminus → blockNum a = 0 ∨ blockNum a = 0x17) (hw : s.writeAllowed o a v = false) :
    writeBy o a v s = refuseOrigin o a s := by
  have hresponds : ¬(s.mode = .terminus ∧ blockNum a ≠ 0 ∧ blockNum a ≠ 0x17) :=
    fun ⟨ht, h0, h17⟩ => (hm ht).elim h0 h17
  rw [writeBy, if_neg (by simp [hs]), if_neg hresponds, if_neg (by simp [hw])]

/-- In TERMINUS a block other than ID and UPD takes no write (R467). -/
theorem writeBy_terminus {o : Origin} {a : Nat} {v : Word} {s : State} (hs : shapeOk a = true) (hm : s.mode = .terminus)
    (h0 : blockNum a ≠ 0) (h17 : blockNum a ≠ 0x17) : writeBy o a v s = s := by
  rw [writeBy, if_neg (by simp [hs]), if_pos ⟨hm, h0, h17⟩]

theorem refuseOrigin_get_origin (o : Origin) (a : Nat) (s : State) :
    (refuseOrigin o a s).get Reg.ID_REFUSED_ORIGIN = satInc Reg.ID_REFUSED_ORIGIN.w (s.get Reg.ID_REFUSED_ORIGIN) := by
  rw [refuseOrigin, State.raise_get_ne _ (by decide) (by decide), recordRefused_regs o a 1 true _ _ (by decide), State.get_inc_self]

theorem refuseOrigin_get_event (o : Origin) (a : Nat) (s : State) :
    (refuseOrigin o a s).get ⟨Ev.ID_WRITE_REFUSED.addr, Ev.ID_WRITE_REFUSED.bit, 1⟩ = 1 := State.raise_get_bit _ (by decide)

theorem refuseOrigin_keeps (o : Origin) (a : Nat) (s : State) : KeepsBut [.bank, .net, .outbox] s (refuseOrigin o a s) :=
  (refuseOrigin_moves o a (fun _ h => h) (.refl _ s)).keeps

/-- A session of another role than SERVICE counts for no register (R383). -/
theorem serviceOk_of_role {k : Nat} {x : Session} {s : State} (hx : Tab.get? s.net.sessions k = some x) (hr : x.role ≠ .service) :
    serviceOk s (.plant k) = false := by
  unfold serviceOk
  simp only [sessionOf, hx, decide_eq_false hr]

theorem writeAllowed_of_role {k a : Nat} {v : Word} {x : Session} {s : State} (hx : Tab.get? s.net.sessions k = some x) (hr : x.role ≠ .service) :
    s.writeAllowed (.plant k) a v = false := by
  have hs := serviceOk_of_role hx hr
  simp only [State.writeAllowed, timeOrigin, updOrigin, hs, isSvc, isMgmt, isLane, Bool.false_and, Bool.and_false, Bool.or_false, ite_self]

/-- A register of the control set answers a lane alone. -/
theorem writeAllowed_signalBox {o : Origin} {a : Nat} {v : Word} {s : State} (hl : isLane o = false) (hr : (regIndex a 0x7000C 0x80 512).isSome = true)
    (ha : a ≠ 0x30014) (hn : blockNum a = 6) : s.writeAllowed o a v = false := by
  simp only [State.writeAllowed, if_neg ha, if_pos hn, hr, Bool.or_true, if_true, hl]

/-! Multi-word values. -/

theorem setMultiword_get {n a : Nat} (on : Bool) (s : State) (ha : modeAddr n = some a) : (setMultiword n on s).get ⟨a, 0, 1⟩ = b2n on := by
  simp only [setMultiword, ha]
  split
  · assumption
  · exact (State.get_congr rfl _).trans ((State.get_put_self s ⟨a, 0, 1⟩ _).trans (Nat.mod_eq_of_lt (b2n_lt on)))

/-- A change of the mode empties every shadow of the block (R421). -/
theorem setMultiword_shadows {n a : Nat} {on : Bool} {s : State} (ha : modeAddr n = some a) (h : s.get ⟨a, 0, 1⟩ ≠ b2n on) :
    ∀ e ∈ (setMultiword n on s).shadows, blockNum e.2.1 ≠ n := by
  simp only [setMultiword, ha, if_neg h]
  exact fun e he => of_decide_eq_true (List.mem_filter.mp he).2

/-- A management core may write the mode bit of every block that has one. -/
theorem multiwordMode_mgmt {n a : Nat} {block : Fin 27} (s : State) (ha : modeAddr block.val = some a) :
    (s.writeAllowed (.mgmt n) a 0#32 || (decide (block.val = 18) && serviceOk s (.mgmt n))) = true := by
  fin_cases block <;> cases ha <;> try rfl
  -- PBUS_CTRL asks for the port's rights; the command's own rule admits the core
  exact Bool.or_true _

/-- In mode 1 a read of a low word latches the high word for its reader. -/
theorem readBy_latches {o : Origin} {a m : Nat} {s : State} (hs : shapeOk a = true) (hl : lowWord a = true) (hm : modeAddr (blockNum a) = some m)
    (h : s.get ⟨m, 0, 1⟩ = 1) :
    readBy o a s = (s.readWord a, 
      { s with shadows := s.shadows.filter (fun e => !(decide (e.1 = o) && decide (blockNum e.2.1 = blockNum a))) ++ [(o, a + 4, s.readWord (a + 4))] }) := by
  simp only [readBy, hs, if_true, readReg, hm, hl, h, decide_true, Bool.and_self]

theorem readBy_plain {o : Origin} {a m : Nat} {s : State} (hs : shapeOk a = true) (hm : modeAddr (blockNum a) = some m)
    (h : s.get ⟨m, 0, 1⟩ = 0) (hn : s.shadows = []) : readBy o a s = (s.readWord a, s) := by
  simp [readBy, hs, readReg, hm, h, hn]

end Sys2Proof.Machine

open Sys2Proof Sys2Proof.Machine

/-- Settles O52: the write is `regEffect` or `refuseOrigin` as its origin is accepted or not, and the identity in TERMINUS beside ID and UPD. -/
theorem registerWrites : Obligations.RegisterWrites := by
  unfold Obligations.RegisterWrites
  refine ⟨fun o a v s hp hm ha hlt => ⟨fun hw => ?_, fun hw => ?_⟩, fun n v s hp hm => ?_, fun o a v s hp hm ha hlt h0 h17 => ?_,
    fun k x a v s hx hr => writeAllowed_of_role hx hr, fun o a v s hl hr ha hn => writeAllowed_signalBox hl hr ha hn⟩
  · exact .pos rfl hp (writeBy_accepted ((shapeOk_eq_true_iff a).2 ⟨ha, hlt⟩) hm hw)
  · refine .pos rfl hp ?_
    have h := writeBy_refusedOrigin ((shapeOk_eq_true_iff a).2 ⟨ha, hlt⟩) hm hw
    rw [h]
    exact ⟨rfl, refuseOrigin_get_origin o a s, refuseOrigin_get_event o a s, refuseOrigin_keeps o a s⟩
  · exact .pos rfl hp ((writeBy_accepted (by decide) (fun h => absurd h hm) rfl).trans rfl)
  · exact .pos rfl hp (writeBy_terminus ((shapeOk_eq_true_iff a).2 ⟨ha, hlt⟩) hm h0 h17)

/-- Settles O54: a management core's write of a mode bit is accepted for every block, and a read takes or latches by `readBy_latches` and `readBy_plain`. -/
theorem multiwordReads : Obligations.MultiwordReads := by
  unfold Obligations.MultiwordReads
  refine ⟨fun k v s hp hm => ?_, fun n block on a s hp ha => ?_, fun o block on s ha => ?_, fun o a m s hp ha hlt hl hm h => ?_,
    fun o a m s hp ha hlt hl hm h hn => ?_⟩
  · refine .pos rfl (by simp [hp]) ((writeBy_accepted (by decide) (fun h => absurd h hm) rfl).trans rfl)
  · refine .of_eq (t := setMultiword block on s) ?_ ⟨rfl, setMultiword_get on s ha, setMultiword_shadows ha, (setMultiword_moves _ on (fun _ h => h) (.refl _ s)).keeps⟩
    show execMultiwordMode (.mgmt n) block on s = _
    rw [execMultiwordMode, if_pos hp]
    simp only [ha]
    rw [byOrigin, if_pos (multiwordMode_mgmt s ha)]
  · refine .of_eq ?_ rfl
    show execMultiwordMode o block on s = _
    rw [execMultiwordMode, ha, ite_self]
  · have hr := readBy_latches (o := o) ((shapeOk_eq_true_iff a).2 ⟨ha, hlt⟩) hl hm h
    refine .pos rfl hp ?_
    rw [hr]
    exact ⟨List.mem_append_right _ (List.mem_singleton_self _), rfl, (Moves.set_shadows _ (by decide) (.refl _ s)).keeps⟩
  · have hr := readBy_plain (o := o) ((shapeOk_eq_true_iff a).2 ⟨ha, hlt⟩) hm h hn
    refine .pos rfl hp ?_
    rw [hr]
    exact ⟨rfl, rfl⟩

end

section
/-! SUPPORT. Protection units (R432 to R443): which region refuses an access, the two sets of a unit, arming and the swap. -/

set_option Elab.async false

namespace Sys2Proof.Machine

open Sys2Proof

/-! The check of an access (R433). -/

/-- A region refuses an access when it covers one of its bytes and does not permit its kind. -/
def refuses (x : Unit36) (set : Nat) (a : MemAccess) (r : Nat) : Bool :=
  (List.range (min a.len 64)).any (fun i => covers (regionOf x set r) (a.addr + i)) && !permits (regionOf x set r) a.kind

theorem refusing_eq (x : Unit36) (set : Nat) (a : MemAccess) : refusing x set a = (List.range 16).find? (refuses x set a) := rfl

theorem refuses_eq_false_iff {x : Unit36} {set : Nat} {a : MemAccess} {r : Nat} :
    refuses x set a r = false ↔ ∀ i, i < min a.len 64 → covers (regionOf x set r) (a.addr + i) = true → permits (regionOf x set r) a.kind = true := by
  simp only [refuses, Bool.and_eq_false_iff, List.any_eq_false, List.mem_range, Bool.not_eq_false']
  constructor
  · rintro (h | h) i hi hc
    · exact absurd hc (h i hi)
    · exact h
  · intro h
    by_cases hp : permits (regionOf x set r) a.kind = true
    · exact .inr hp
    · exact .inl fun i hi hc => hp (h i hi hc)

theorem refuses_eq_true {x : Unit36} {set : Nat} {a : MemAccess} {r : Nat} (h : refuses x set a r = true) :
    permits (regionOf x set r) a.kind = false ∧ ∃ i, i < min a.len 64 ∧ covers (regionOf x set r) (a.addr + i) = true := by
  obtain ⟨hc, hp⟩ := Bool.and_eq_true_iff.mp h
  obtain ⟨i, hi, hci⟩ := List.any_eq_true.mp hc
  exact ⟨by simpa using hp, i, List.mem_range.mp hi, hci⟩

/-! A unit and its sets (R438 to R441). -/

theorem State.unit_setUnit (s : State) (u : Nat) (x : Unit36) : (s.setUnit u x).unit u = x := Tab.getD_put_self _ _ _ _

theorem State.unit_congr {s t : State} (h : t.mpu = s.mpu) (u : Nat) : t.unit u = s.unit u := by unfold State.unit; rw [h]

theorem State.setUnit_mpu (s : State) (u : Nat) (x : Unit36) : KeepsBut [.mpu] s (s.setUnit u x) := (State_setUnit_moves u x (fun _ h => h) (.refl _ s)).keeps

theorem mpuOrigin_mgmt (n : Nat) {u : Fin 36} (h : 32 ≤ u.val) : mpuOrigin (.mgmt n) u.val = true := by
  simp [mpuOrigin, isMgmt, h]

theorem mpuOrigin_other {o : Origin} (u : Nat) (h : isMgmt o = false) : mpuOrigin o u = false := by
  simp [mpuOrigin, h]

theorem byOrigin_ok {ok : Bool} (h : ok = true) (o : Origin) (a : Nat) (f : State → State) (s : State) : byOrigin ok o a f s = f s := if_pos h

theorem byOrigin_refused {ok : Bool} (h : ok = false) (o : Origin) (a : Nat) (f : State → State) (s : State) : byOrigin ok o a f s = refuseOrigin o a s :=
  if_neg (by simp [h])

theorem armEnd_unit (u : Nat) (x : Unit36) (st r : Nat) (s : State) : (armEnd u x st r s).unit u = { x with armStatus := st, armRegion := r } :=
  (State.unit_congr (State.raiseIf_mpu _ _ _) u).trans (State.unit_setUnit _ _ _)

/-- An arm or a swap that ends OK raises nothing. -/
theorem armEnd_ok (u : Nat) (x : Unit36) (r : Nat) (s : State) : armEnd u x 0 r s = s.setUnit u { x with armStatus := 0, armRegion := r } :=
  State.raiseIf_false _ _ rfl

theorem armWrite_busy {u : Nat} {s : State} (h : (s.unit u).swapPending = true) : armWrite u s = armEnd u (s.unit u) 4 0 s := if_pos h

theorem armWrite_accepted {u : Nat} {s : State} (h : (s.unit u).swapPending = false) (hc : armCheck (s.unit u) (1 - (s.unit u).active) = (0, 0)) :
    armWrite u s = s.setUnit u { s.unit u with armed := true, armStatus := 0, armRegion := 0 } := by
  simp only [armWrite, h, Bool.false_eq_true, if_false, hc, decide_true, armEnd_ok]

theorem swapWrite_armed {u : Nat} {s : State} (h : (s.unit u).armed = true) :
    swapWrite u s = s.setUnit u { s.unit u with active := 1 - (s.unit u).active, swapPending := true, armStatus := 0, armRegion := 0 } :=
  (if_pos h).trans (armEnd_ok _ _ _ _)

theorem swapWrite_unarmed {u : Nat} {s : State} (h : (s.unit u).armed = false) : swapWrite u s = armEnd u (s.unit u) 3 0 s := if_neg (by simp [h])

theorem regionWrite_active {u set : Nat} (r w v : Nat) {s : State} (h : (s.unit u).active = set) :
    regionWrite u set r w v s = s.raise Ev.MPU_ACTIVE_WRITE := if_pos h

theorem regionWrite_other {u set : Nat} (r w v : Nat) {s : State} (h : (s.unit u).active ≠ set) :
    regionWrite u set r w v s = s.setUnit u { s.unit u with
      armed := false, regions := Tab.put Region.reset (s.unit u).regions (16 * set + r) (regionWord w v (regionOf (s.unit u) set r)) } := if_neg h

/-- A set that passes the check of R439 has no two enabled regions in common. -/
theorem armCheck_disjoint {x : Unit36} {set : Nat} (h : armCheck x set = (0, 0)) {r q : Nat} (hr : r < 16) (hq : q < 16) (hrq : r < q) :
    disjoint (regionOf x set r) (regionOf x set q) = true := by
  simp only [armCheck] at h
  split at h
  · cases h
  · split at h
    · cases h
    · rename_i hn
      have h1 := List.find?_eq_none.mp hn r (List.mem_range.mpr hr)
      simp only [List.any_eq_true, not_exists, not_and, List.mem_range] at h1
      have h2 := h1 q hq
      simpa [hrq] using h2

theorem covers_iff {g : Region} {a : Nat} : covers g a = true ↔ g.en = true ∧ g.base ≤ a ∧ a < g.base + 2 ^ g.size := by
  simp only [covers, Bool.and_eq_true, decide_eq_true_eq, and_assoc]

theorem not_covers_both {g k : Region} (h : disjoint g k = true) (a : Nat) : ¬(covers g a = true ∧ covers k a = true) := by
  rintro ⟨h1, h2⟩
  obtain ⟨he1, hlo1, hhi1⟩ := covers_iff.mp h1
  obtain ⟨he2, hlo2, hhi2⟩ := covers_iff.mp h2
  simp only [disjoint, he1, he2, Bool.not_true, Bool.false_or, Bool.or_eq_true, decide_eq_true_eq] at h
  omega

end Sys2Proof.Machine

open Sys2Proof Sys2Proof.Machine

/-- Settles O55: `refusing` is the first region that refuses, each command writes its unit once, and an armed set has passed the check of overlap. -/
theorem protectionSets : Obligations.ProtectionSets := by
  unfold Obligations.ProtectionSets
  refine ⟨⟨fun x set a => ?_, fun x set r a h => ?_⟩, fun n u set g w v s hp hu => ⟨fun ha => ?_, fun ha => ?_⟩,
    fun n u s hp hu => ⟨fun hs => ?_, fun hs hc => ?_, fun ha => ?_, fun ha => ?_, ?_⟩, fun o u s hp ho => ⟨?_, ?_⟩,
    fun x set hc r q hr hq hrq _ _ a => not_covers_both (armCheck_disjoint hc hr hq hrq) a⟩
  · rw [refusing_eq, List.find?_eq_none]
    simp only [List.mem_range, Bool.not_eq_true, refuses_eq_false_iff]
  · rw [refusing_eq, List.find?_range_eq_some] at h
    obtain ⟨hr, hmem, hbefore⟩ := h
    obtain ⟨hp, hc⟩ := refuses_eq_true hr
    exact ⟨List.mem_range.mp hmem, hp, hc, fun q hq => refuses_eq_false_iff.mp (by simpa using hbefore q hq)⟩
  · refine .pos rfl hp ?_
    rw [byOrigin_ok (mpuOrigin_mgmt n hu), regionWrite_active _ _ _ ha]
    exact RaisedBut.raise (by decide) s
  · refine .pos rfl hp ?_
    rw [byOrigin_ok (mpuOrigin_mgmt n hu), regionWrite_other _ _ _ ha, State.unit_setUnit]
    exact ⟨rfl, Tab.getD_put_self _ _ _ _, rfl, State.setUnit_mpu _ _ _⟩
  · refine .pos rfl hp ?_
    rw [byOrigin_ok (mpuOrigin_mgmt n hu), armWrite_busy hs, armEnd_unit, armEnd, State.raiseIf_true _ _ (show decide (4 ≠ 0) = true from rfl)]
    exact ⟨rfl, rfl, State.raise_get_bit _ (by decide)⟩
  · refine .pos rfl hp ?_
    rw [byOrigin_ok (mpuOrigin_mgmt n hu), armWrite_accepted hs hc]
    exact ⟨State.unit_setUnit _ _ _, State.setUnit_mpu _ _ _⟩
  · refine .pos rfl hp ?_
    rw [byOrigin_ok (mpuOrigin_mgmt n hu), swapWrite_armed ha]
    exact ⟨State.unit_setUnit _ _ _, State.setUnit_mpu _ _ _⟩
  · refine .pos rfl hp ?_
    rw [byOrigin_ok (mpuOrigin_mgmt n hu), swapWrite_unarmed ha, armEnd_unit]
    exact ⟨rfl, rfl⟩
  · exact .pos rfl hp ⟨State.unit_setUnit _ _ _, State.setUnit_mpu _ _ _⟩
  · exact .pos rfl hp (byOrigin_refused (mpuOrigin_other _ ho) _ _ _ _)
  · exact .pos rfl hp (byOrigin_refused (mpuOrigin_other _ ho) _ _ _ _)

end

section
/-! SUPPORT. Notices of the protection units and the management processor (R435 to R437, R443 to R446). -/

set_option Elab.async false

namespace Sys2Proof.Machine

open Sys2Proof

/-! A refused access. -/

theorem exec_protectionException {a : MemAccess} {r : Nat} {s : State} (hp : s.powered = true) (h1 : 32 ≤ a.unit) (h2 : a.unit < 36)
    (hr : refusing (s.unit a.unit) (s.unit a.unit).active a = some r) :
    exec (.protectionException a) s = .next ((countRefused a.unit s).raise Ev.MPU_PROT_FAULT_MGMT) :=
  congrArg Host.Outcome.next (if_pos (by simp [hp, h1, h2, hr]))

theorem countRefused_get_ne {u : Nat} {f : Fld} (s : State) (h : (Reg.MPU_UNIT_STAT_REFUSED u).key ≠ f.key) : (countRefused u s).get f = s.get f :=
  State.inc_get_ne s h

theorem countRefused_keeps (u : Nat) (s : State) : KeepsBut [.bank] s (countRefused u s) := (KeepsBut.refl _ s).put _ _

/-- The count of a unit stands above every register of the notices. -/
theorem unitStat_key_ne (u : Nat) {f : Fld} (h : f.key < 32 * 0x161000) : (Reg.MPU_UNIT_STAT_REFUSED u).key ≠ f.key := by
  simp only [Fld.key, Reg.MPU_UNIT_STAT_REFUSED] at *
  omega

/-- The first notice, latched with its address and region (R437). -/
def noticeLatched (addr unit set r : Nat) (s : State) : State :=
  let s := { s with mpu := { s.mpu with noticeHeld := true } }
  let s := (s.put Reg.MPU_NOTICE_ADDR_LO_ADDR_LO addr).put Reg.MPU_NOTICE_ADDR_HI_ADDR_HI (addr / 2 ^ 32)
  (((s.put Reg.MPU_NOTICE_INFO_UNIT unit).put Reg.MPU_NOTICE_INFO_SET set).put Reg.MPU_NOTICE_INFO_REGION r).put Reg.MPU_NOTICE_INFO_LOST_NOTICES 0

theorem noticeLatched_get {unit set r : Nat} (addr : Nat) (s : State) (hu : unit < 64) (hs : set < 2) (hr : r < 16) :
    (noticeLatched addr unit set r s).get Reg.MPU_NOTICE_ADDR_LO_ADDR_LO = addr % 2 ^ Reg.MPU_NOTICE_ADDR_LO_ADDR_LO.w ∧
      (noticeLatched addr unit set r s).get Reg.MPU_NOTICE_INFO_UNIT = unit ∧ (noticeLatched addr unit set r s).get Reg.MPU_NOTICE_INFO_SET = set ∧
      (noticeLatched addr unit set r s).get Reg.MPU_NOTICE_INFO_REGION = r ∧ (noticeLatched addr unit set r s).get Reg.MPU_NOTICE_INFO_LOST_NOTICES = 0 := by
  refine ⟨?_, ?_, ?_, ?_, State.get_put_self _ _ _⟩
  · simp only [noticeLatched]
    rw [State.get_put_ne _ _ (by decide), State.get_put_ne _ _ (by decide), State.get_put_ne _ _ (by decide), State.get_put_ne _ _ (by decide),
      State.get_put_ne _ _ (by decide), State.get_put_self]
  · simp only [noticeLatched]
    rw [State.get_put_ne _ _ (by decide), State.get_put_ne _ _ (by decide), State.get_put_ne _ _ (by decide)]
    exact State.get_put_of_lt _ hu
  · simp only [noticeLatched]
    rw [State.get_put_ne _ _ (by decide), State.get_put_ne _ _ (by decide)]
    exact State.get_put_of_lt _ hs
  · simp only [noticeLatched]
    rw [State.get_put_ne _ _ (by decide)]
    exact State.get_put_of_lt _ hr

theorem noticeLatched_keeps (addr unit set r : Nat) (s : State) : KeepsBut [.bank, .mpu] s (noticeLatched addr unit set r s) :=
  ((((((Moves.set_mpu _ (by decide) (.refl _ s)).keeps.put _ _).put _ _).put _ _).put _ _).put _ _).put _ _

theorem exec_impreciseNotice {a : MemAccess} {set : Fin 2} {r : Nat} {s : State} (hp : s.powered = true) (h1 : 32 ≤ a.unit) (h2 : a.unit < 36)
    (hs : set.val = (s.unit a.unit).active ∨ (s.unit a.unit).swapPending = true) (hr : refusing (s.unit a.unit) set { a with kind := 1 } = some r) :
    exec (.impreciseNotice a set) s = .next ((if (countRefused a.unit s).mpu.noticeHeld then (countRefused a.unit s).inc Reg.MPU_NOTICE_INFO_LOST_NOTICES
      else noticeLatched a.addr a.unit set r (countRefused a.unit s)).raise Ev.MPU_IMPRECISE_NOTICE) := by
  have hs' : (decide (set.val = (s.unit a.unit).active) || (s.unit a.unit).swapPending) = true := by simpa using hs
  show execImpreciseNotice a set s = _
  unfold execImpreciseNotice
  simp only [hr, hp, h1, h2, hs', decide_true, Bool.and_self, if_true]
  rfl

/-! The management processor's restart (R445). -/

theorem forEach_of_nil {α σ : Type} {l : List α} (h : l = []) (f : α → σ → σ) (s : σ) : forEach l f s = s := by rw [h, forEach_nil]

theorem State.raise_noSessions {s : State} (e : EvBit) (h : s.net.sessions = []) : (s.raise e).net.sessions = [] :=
  (congrArg (fun x : State => x.net.sessions) (forEach_of_nil h _ _)).trans h

theorem State.raiseIf_noSessions {s : State} (c : Bool) (e : EvBit) (h : s.net.sessions = []) : (s.raiseIf c e).net.sessions = [] := by
  unfold State.raiseIf
  split
  · exact State.raise_noSessions e h
  · exact h

theorem setQuality_noSessions (q : Nat) {s : State} (h : s.net.sessions = []) : (setQuality q s).net.sessions = [] :=
  State.raiseIf_noSessions _ _ (State.raiseIf_noSessions _ _ h)

theorem servoDeclare_noSessions (q src port err : Nat) {s : State} (h : s.net.sessions = []) : (servoDeclare q src port err s).net.sessions = [] :=
  setQuality_noSessions _ (State.raiseIf_noSessions _ _ h)

/-- The restart before the servo gives up its lock and the event is raised. -/
def mgmtStopped (s : State) : State :=
  let s := closeSessions s
  { s with mpu := { s.mpu with restarting := true, mgmtRestarts := lastN 8 (s.mpu.mgmtRestarts ++ [s.time.tick]) }
           panel := { s.panel with frozen := true }
           mil := { s.mil with now := { s.mil.now with mgmtRestarts := satInc 32 s.mil.now.mgmtRestarts } } }

/-- The servo, which stops with the management processor. -/
def servoStopped (s : State) : State :=
  if s.time.quality = 0 then servoDeclare (if s.time.qualified then 1 else 2) 3 7 (s.get Reg.TIME_SERVO_ERR_NS) s else s

theorem mgmtRestart_eq (s : State) : mgmtRestart s = (servoStopped (mgmtStopped s)).raise Ev.MPU_MGMT_RESTARTED := rfl

theorem servoStopped_keeps (s : State) : KeepsBut [.bank, .time, .net, .outbox] s (servoStopped s) := by
  unfold servoStopped
  split
  · exact (servoDeclare_moves _ _ _ _ (fun _ h => h) (.refl _ s)).keeps
  · exact .refl _ s

theorem servoStopped_netBase (s : State) : (servoStopped s).netBase = s.netBase := by
  unfold servoStopped
  split
  · exact servoDeclare_netBase _ _ _ _ s
  · rfl

theorem servoStopped_noSessions {s : State} (h : s.net.sessions = []) : (servoStopped s).net.sessions = [] := by
  unfold servoStopped
  split
  · exact servoDeclare_noSessions _ _ _ _ h
  · exact h

theorem mgmtRestart_net (s : State) : (mgmtRestart s).net.sessions = [] ∧ (mgmtRestart s).net.subs = [] ∧ (mgmtRestart s).net.handshakes = [] := by
  have hb : (mgmtRestart s).netBase = (mgmtStopped s).netBase := by
    rw [mgmtRestart_eq, State.raise_netBase, servoStopped_netBase]
  exact ⟨State.raise_noSessions _ (servoStopped_noSessions rfl), congrArg Net.subs hb, congrArg Net.handshakes hb⟩

theorem mgmtRestart_keeps (s : State) : KeepsBut [.bank, .jrn, .time, .net, .mpu, .upd, .panel, .mil, .outbox] s (mgmtRestart s) :=
  (mgmtRestart_moves (fun _ h => h) (.refl _ s)).keeps

theorem mgmtRestart_mpu (s : State) : (mgmtRestart s).mpu = (mgmtStopped s).mpu := by
  rw [mgmtRestart_eq, State.raise_mpu, (servoStopped_keeps _).mpu]

theorem mgmtRestart_panel (s : State) : (mgmtRestart s).panel = (mgmtStopped s).panel := by
  rw [mgmtRestart_eq, State.raise_panel, (servoStopped_keeps _).panel]

/-- The restart aborts transfers and leaves the regions (R445, R466). -/
theorem mgmtRestart_fwRegion (s : State) (r : Nat) : (mgmtRestart s).fwRegion r = s.fwRegion r := by
  have hsent : (forEach s.net.sessions (fun x s => s.send (.closed x.1)) s).upd = s.upd :=
    forEach_read (fun x => State.upd x) (f := fun (e : Nat × Session) s => s.send (.closed e.1)) (fun _ _ => rfl) _ s
  unfold State.fwRegion
  rw [mgmtRestart_eq, State.raise_upd, (servoStopped_keeps _).upd]
  exact (congrArg (fun u : Update => Tab.getD u.regions r RegionRec.reset) hsent :)

/-- What falls back after two restarts within its ten minutes (R463). -/
def fallsBackAt (r : Nat) (s : State) : Bool :=
  match (s.fwRegion r).effectTick with
  | some e => (s.fwRegion r).trial && decide (2 ≤ (s.mpu.mgmtRestarts.filter (fun t => decide (e < t) && decide (t < e + ticksOfMs 600000))).length)
  | none => false

/-- A region that has its automatic return due returns. -/
def autoFallBack (r : Nat) (s : State) : State := if fallsBackAt r s then (fallBack r s).raise Ev.UPD_FALLBACK_AUTO else s

theorem exec_mgmtWatchdogRestart {s : State} (hp : s.powered = true) : exec .mgmtWatchdogRestart s = .next (autoFallBack 1 (autoFallBack 0 (mgmtRestart s))) :=
  congrArg Host.Outcome.next (if_pos hp)

theorem autoFallBack_confirmed {r : Nat} {s : State} (h : (s.fwRegion r).trial = false) : autoFallBack r s = s := by
  refine if_neg ?_
  unfold fallsBackAt
  split
  · rw [h, Bool.false_and]
    exact Bool.false_ne_true
  · exact Bool.false_ne_true

/-! The shed level (R446). -/

/-- The registers of a load window. -/
def loadShown (b level : Nat) (s : State) : State :=
  ((s.put Reg.MPU_STATUS_LOAD_PCT b).atLeast Reg.MPU_LOAD_MAX_PCT b).put Reg.MPU_STATUS_SHED_LEVEL level |>.atLeast Reg.MPU_LOAD_MAX_LEVEL level

theorem State.atLeast_get_ne (s : State) {f g : Fld} (v : Nat) (h : f.key ≠ g.key) : (s.atLeast f v).get g = s.get g := by
  unfold State.atLeast
  split
  · exact State.get_put_ne _ _ h
  · rfl

theorem loadShown_get {b level : Nat} (s : State) (hb : b < 128) (hl : level < 8) :
    (loadShown b level s).get Reg.MPU_STATUS_LOAD_PCT = b ∧ (loadShown b level s).get Reg.MPU_STATUS_SHED_LEVEL = level := by
  unfold loadShown
  rw [State.atLeast_get_ne _ _ (by decide), State.get_put_ne _ _ (by decide), State.atLeast_get_ne _ _ (by decide), State.atLeast_get_ne _ _ (by decide)]
  exact ⟨State.get_put_of_lt _ hb, State.get_put_of_lt _ hl⟩

theorem loadShown_keeps (b level : Nat) (s : State) : KeepsBut [.bank] s (loadShown b level s) :=
  ((((KeepsBut.refl _ s).put _ _).trans (State.atLeast_keeps _ _ _)).put _ _).trans (State.atLeast_keeps _ _ _)

/-- The level after a window, from the runs of high and of low windows. -/
def nextShed (hi lo old : Nat) : Nat := if hi = 3 then min 6 (old + 1) else if lo = 10 then old - 1 else old

theorem nextShed_near (hi lo : Nat) {old : Nat} (h : old ≤ 6) : nextShed hi lo old ≤ old + 1 ∧ old ≤ nextShed hi lo old + 1 ∧ nextShed hi lo old ≤ 6 := by
  unfold nextShed
  split
  · omega
  · split <;> omega

theorem nextShed_low {hi : Nat} (h : hi ≠ 3) (old : Nat) : nextShed hi 10 old = old - 1 := if_neg h

theorem nextShed_steady {hi lo : Nat} (h : hi ≠ 3) (hl : lo ≠ 10) (old : Nat) : nextShed hi lo old = old := (if_neg h).trans (if_neg hl)

theorem exec_loadWindow (b : Fin 101) {s : State} (hp : s.powered = true) {hi lo : Nat} (hhi : (if 85 < b.val then min 3 (s.mpu.highWindows + 1) else 0) = hi)
    (hlo : (if b.val < 70 then min 10 (s.mpu.lowWindows + 1) else 0) = lo) :
    exec (.loadWindow b) s = .next ((loadShown b (nextShed hi lo s.shed) { s with mpu := { s.mpu with highWindows := hi, lowWindows := lo } }).raiseIf
      (decide (nextShed hi lo s.shed ≠ s.shed)) Ev.MPU_SHED_CHANGED) := by
  subst hhi hlo
  exact congrArg Host.Outcome.next (if_pos hp)

end Sys2Proof.Machine

open Sys2Proof Sys2Proof.Machine

/-- Settles O56: a refusal is counted and raised, the first notice stands until RELEASE (`noticeLatched`), a restart of the management processor closes what
`closeSessions` closes and starts no fall-back of a confirmed image, and the level follows `nextShed`. -/
theorem protectionReportsAndManagement : Obligations.ProtectionReportsAndManagement := by
  unfold Obligations.ProtectionReportsAndManagement
  refine ⟨⟨fun a r s hp h1 h2 hr => ?_, fun a set r s hp h1 h2 hs hr => ⟨fun hn => ?_, fun hn => ?_⟩, fun n s hp => .pos rfl hp rfl⟩,
    fun s hp h0 h1 => ?_, fun s hp hr => .pos rfl (by simp [hp, hr]) rfl, fun b s hp hs => ?_⟩
  · refine .of_eq (exec_protectionException hp h1 h2 hr) ⟨?_, ?_⟩
    · refine (State.raise_get_ne _ ?_ ?_).trans (State.get_inc_self s _)
      · exact (unitStat_key_ne _ (f := ⟨0x160008, 0, 1⟩) (by decide)).symm
      · exact (unitStat_key_ne _ (f := ⟨0x160008, 16, 16⟩) (by decide)).symm
    · exact .of (by decide) (.inc s _ (List.mem_singleton_self _)) (countRefused_get_ne s (unitStat_key_ne _ (by decide))) (.of_eq rfl rfl)
        ((countRefused_keeps _ s).mono (by decide))
  · refine .of_eq (exec_impreciseNotice hp h1 h2 hs hr) ?_
    have hm : (countRefused a.unit s).mpu = s.mpu := (countRefused_keeps _ s).mpu
    have hlt : r < 16 := List.mem_range.mp (List.mem_of_find?_eq_some hr)
    obtain ⟨g1, g2, g3, g4, g5⟩ := noticeLatched_get a.addr (countRefused a.unit s) (show a.unit < 64 by omega) set.isLt hlt
    rw [hm, hn, if_neg Bool.false_ne_true, State.raise_mpu]
    refine ⟨congrArg (fun m : Mpu => { m with noticeHeld := true }) hm, ?_, ?_, ?_, ?_, ?_, ?_⟩
    · exact (State.raise_get_ne _ (by decide) (by decide)).trans g1
    · exact (State.raise_get_ne _ (by decide) (by decide)).trans g2
    · exact (State.raise_get_ne _ (by decide) (by decide)).trans g3
    · exact (State.raise_get_ne _ (by decide) (by decide)).trans g4
    · exact (State.raise_get_ne _ (by decide) (by decide)).trans g5
    · exact (((countRefused_keeps _ s).mono (by decide)).trans ((noticeLatched_keeps _ _ _ _ _).mono (by decide))).trans
        ((State.raise_keeps _ _).mono (by decide))
  · refine .of_eq (exec_impreciseNotice hp h1 h2 hs hr) ?_
    have hm : (countRefused a.unit s).mpu = s.mpu := (countRefused_keeps _ s).mpu
    rw [hm, hn, if_pos rfl, State.raise_mpu, State.raise_get_ne _ (by decide) (by decide), State.raise_get_ne _ (by decide) (by decide),
      State.inc_get_ne _ (by decide), State.get_inc_self, countRefused_get_ne s (unitStat_key_ne _ (by decide)),
      countRefused_get_ne s (unitStat_key_ne _ (by decide))]
    exact ⟨hm, rfl, rfl⟩
  · refine .of_eq (exec_mgmtWatchdogRestart hp) ?_
    have ht : ∀ r, (s.fwRegion r).trial = false → ((mgmtRestart s).fwRegion r).trial = false := fun r h => by rw [mgmtRestart_fwRegion, h]
    rw [autoFallBack_confirmed (ht 0 h0), autoFallBack_confirmed (ht 1 h1), mgmtRestart_mpu, mgmtRestart_panel, (mgmtRestart_keeps s).mode,
      (mgmtRestart_keeps s).claim]
    obtain ⟨n1, n2, n3⟩ := mgmtRestart_net s
    exact ⟨n1, n2, n3, rfl, rfl, rfl, rfl, State.raise_get_bit _ (by decide)⟩
  · obtain ⟨hi, hhi⟩ : ∃ hi, (if 85 < b.val then min 3 (s.mpu.highWindows + 1) else 0) = hi := ⟨_, rfl⟩
    obtain ⟨lo, hlo⟩ : ∃ lo, (if b.val < 70 then min 10 (s.mpu.lowWindows + 1) else 0) = lo := ⟨_, rfl⟩
    refine .of_eq (exec_loadWindow b hp hhi hlo) ?_
    obtain ⟨hup, hdown, hmax⟩ := nextShed_near hi lo hs
    obtain ⟨g1, g2⟩ := loadShown_get (level := nextShed hi lo s.shed) { s with mpu := { s.mpu with highWindows := hi, lowWindows := lo } }
      (show b.val < 128 by omega) (show nextShed hi lo s.shed < 8 by omega)
    have hshed : State.shed ((loadShown b (nextShed hi lo s.shed) { s with mpu := { s.mpu with highWindows := hi, lowWindows := lo } }).raiseIf
        (decide (nextShed hi lo s.shed ≠ s.shed)) Ev.MPU_SHED_CHANGED) = nextShed hi lo s.shed :=
      (State.raiseIf_get_ne _ _ (by decide) (by decide)).trans g2
    rw [hshed, State.raiseIf_get_ne _ _ (by decide) (by decide)]
    refine ⟨g1, hup, hdown, hmax, fun h1 h2 => ?_, fun h1 h2 => ?_, fun h1 h2 => ?_, ?_⟩
    · rw [if_pos h1, Nat.min_eq_left (by omega)] at hhi
      subst hhi
      rfl
    · rw [if_pos h1, Nat.min_eq_left (by omega)] at hlo
      rw [if_neg (by omega)] at hhi
      subst hlo hhi
      exact nextShed_low (by decide) _
    · rw [if_neg (by omega)] at hhi hlo
      subst hlo hhi
      exact nextShed_steady (by decide) (by decide) _
    · exact (((Moves.set_mpu _ (by decide) (.refl _ s)).keeps).trans ((loadShown_keeps _ _ _).mono (by decide))).trans ((State.raiseIf_keeps _ _ _).mono (by decide))

end

section
/-! SUPPORT. Firmware update (R455 to R463): the command's result, a region's record, and the commands by the state of their session. -/

set_option Elab.async false

namespace Sys2Proof.Machine

open Sys2Proof

/-! The result of a command (R458). -/

theorem cmdEnd_keeps (cmd result : Nat) (s : State) : KeepsBut [.bank] s (cmdEnd cmd result s) := (cmdEnd_moves cmd result (fun _ h => h) (.refl _ s)).keeps

theorem cmdEnd_result (cmd : Nat) {result : Nat} (s : State) (h : result < 16) : (cmdEnd cmd result s).get Reg.UPD_CMD_STATUS_RESULT = result := by
  rw [cmdEnd, State.inc_get_ne _ (by decide)]
  exact State.get_put_of_lt _ h

theorem cmdEnd_lastCmd {cmd : Nat} (result : Nat) (s : State) (h : cmd < 16) : (cmdEnd cmd result s).get Reg.UPD_CMD_STATUS_LAST_CMD = cmd := by
  rw [cmdEnd, State.inc_get_ne _ (by decide), State.get_put_ne _ _ (by decide)]
  exact State.get_put_of_lt _ h

/-- The result of a command touches no event. -/
theorem cmdEnd_get_event (cmd result : Nat) (s : State) {e : EvBit} (ha : e.addr = 0x170008) (hb : e.bit < 32) :
    (cmdEnd cmd result s).get ⟨e.addr, e.bit, 1⟩ = s.get ⟨e.addr, e.bit, 1⟩ := by
  rw [cmdEnd, State.inc_get_ne, State.get_put_ne, State.get_put_ne] <;>
    (simp only [Fld.key, Reg.UPD_CMD_STATUS_COUNT, Reg.UPD_CMD_STATUS_RESULT, Reg.UPD_CMD_STATUS_LAST_CMD]; omega)

theorem updBy_ok {o : Origin} {ok : Bool} (f : State → State) {s : State} (hp : s.powered = true) (h : ok = true) : updBy o ok f s = f s :=
  (if_pos hp).trans (byOrigin_ok h _ _ _ _)

theorem updBy_refused {o : Origin} {ok : Bool} (f : State → State) {s : State} (hp : s.powered = true) (h : ok = false) :
    updBy o ok f s = refuseOrigin o 0x17000C s := (if_pos hp).trans (byOrigin_refused h _ _ _ _)

theorem updOrigin_mgmt (k : Nat) (s : State) : updOrigin s (.mgmt k) = true := rfl

theorem updOrigin_lane (l : Nat) (s : State) : updOrigin s (.lane l) = false := rfl

/-! The records of regions and sessions. -/

theorem State.fwRegion_setRegion (s : State) (r : Nat) (x : RegionRec) : (s.setRegion r x).fwRegion r = x := by
  simp only [State.fwRegion, State.setRegion, Tab.getD, Tab.get?_set_self, Option.getD_some]

theorem State.updSession_setUpdSession (s : State) (n : Nat) (x : UpdSession) : (s.setUpdSession n x).updSession n = x := Tab.getD_put_self _ _ _ _

theorem State.setUpdSession_keeps (s : State) (n : Nat) (x : UpdSession) : KeepsBut [.upd] s (s.setUpdSession n x) :=
  (State_setUpdSession_moves n x (fun _ h => h) (.refl _ s)).keeps

theorem State.updSession_congr {s t : State} (h : t.upd = s.upd) (n : Nat) : t.updSession n = s.updSession n := by unfold State.updSession; rw [h]

theorem State.fwRegion_congr {s t : State} (h : t.upd = s.upd) (r : Nat) : t.fwRegion r = s.fwRegion r := by unfold State.fwRegion; rw [h]

/-- The slot that a region's record makes active holds what was written there. -/
theorem activeFw_putSlot (g : RegionRec) (slot : Nat) (f : Option FwImage) : slotImage (putSlot g slot f) slot = f := by
  unfold slotImage putSlot
  by_cases h : slot = 0
  · rw [if_pos h, if_pos h]
  · rw [if_neg h, if_neg h]

/-! The check of an image (R455). -/

theorem ite_ne_zero {c : Prop} [Decidable c] {k m : Nat} (hk : k ≠ 0) (hm : m ≠ 0) : (if c then k else m) ≠ 0 := by
  split
  · exact hk
  · exact hm

theorem checkFw_unsigned {s : State} {r : Nat} {d : Bool} {f : FwImage}
    (h : ecdsaVerify f.cert.key f.digest f.ecdsaSig = false ∨ lmsVerify s.fixed.vendorLms (hashBytes f.digest) f.lmsSig = false) : s.checkFw r d f ≠ 0 := by
  have hsig : (if !(certOk s.fixed.vendorKey f.cert && f.signingUse && f.certSpelled && ecdsaVerify f.cert.key f.digest f.ecdsaSig) then 0x17
      else if !lmsVerify s.fixed.vendorLms (hashBytes f.digest) f.lmsSig then 0x18 else 0 : Nat) ≠ 0 := by
    rcases h with h | h
    · rw [h, Bool.and_false, if_pos (by decide)]
      decide
    · rw [h, Bool.not_false, if_pos rfl]
      split <;> decide
  exact ite_ne_zero (by decide) <| ite_ne_zero (by decide) <| ite_ne_zero (by decide) <| ite_ne_zero (by decide) <| ite_ne_zero (by decide) <|
    ite_ne_zero (by decide) <| ite_ne_zero (by decide) hsig

theorem exec_verifyComplete_failed {n : Fin 2} {bad : Bool} {s : State} (hp : s.powered = true) (hs : (s.updSession n).state = 2)
    (hc : s.checkSiding (s.updSession n) bad ≠ 0) : exec (.verifyComplete n bad) s = .next ((s.setUpdSession n
      { s.updSession n with state := s.checkSiding (s.updSession n) bad, opened := false }).raise Ev.UPD_VERIFY_FAILED) :=
  congrArg Host.Outcome.next ((if_pos (by simp [hp, hs])).trans (if_neg hc))

theorem exec_verifyComplete_verified {n : Fin 2} {bad : Bool} {s : State} (hp : s.powered = true) (hs : (s.updSession n).state = 2)
    (hc : s.checkSiding (s.updSession n) bad = 0) (hm : s.mode ≠ .terminus) :
    exec (.verifyComplete n bad) s = .next ((s.setUpdSession n { s.updSession n with state := 3 }).raise Ev.UPD_VERIFIED) :=
  congrArg Host.Outcome.next ((if_pos (by simp [hp, hs])).trans ((if_pos hc).trans (if_neg (by rw [State.raise_mode]; exact hm))))

/-! Activation (R459). -/

theorem activateCmd_unverified {n : Nat} {bad : Bool} {s : State} (h : (s.updSession n).state ≠ 3) : activateCmd n bad s = cmdEnd 1 1 s := if_pos h

theorem activateCmd_recent {n : Nat} {bad : Bool} {s : State} (h : (s.updSession n).state = 3) (hr : s.recent10 s.mram.fwWrittenAt = true) :
    activateCmd n bad s = cmdEnd 1 2 s := (if_neg (not_not_intro h)).trans (if_pos (by rw [hr, Bool.true_or]))

theorem activateCmd_failed {n : Nat} {bad : Bool} {s : State} (h : (s.updSession n).state = 3) (hr : s.recent10 s.mram.fwWrittenAt = false)
    (h5 : (s.updSession n).region ≠ 5) (hc : s.checkSiding (s.updSession n) bad ≠ 0) :
    activateCmd n bad s = cmdEnd 1 0 ((s.setUpdSession n { s.updSession n with state := 0x19, opened := false }).raise Ev.UPD_VERIFY_FAILED) :=
  (if_neg (not_not_intro h)).trans ((if_neg (by simp [hr, h5])).trans (if_pos hc))

/-- The record of a region whose image waits for its time. -/
def activatedRegion (g : RegionRec) (f : Option FwImage) : RegionRec :=
  { putSlot g (1 - g.activeSlot) f with activeSlot := 1 - g.activeSlot, prevUsable := true, trial := true, attempts := 0, waiting := true, bad := false }

/-- The state with a verified image activated that waits for its time. -/
def activated (n : Nat) (s : State) : State :=
  let x := s.updSession n
  let t := s.setRegion x.region (activatedRegion (s.fwRegion x.region) x.siding)
  { t with mram := { s.mram with fwWrittenAt := some s.sbyNow } }.setUpdSession n { x with state := 5 }

theorem activateCmd_waits {n : Nat} {bad : Bool} {s : State} (h : (s.updSession n).state = 3) (hr : s.recent10 s.mram.fwWrittenAt = false)
    (h5 : (s.updSession n).region ≠ 5) (hc : s.checkSiding (s.updSession n) bad = 0) (he : s.effectNow (s.updSession n).region = false) :
    activateCmd n bad s = cmdEnd 1 0 (activated n s) := by
  simp only [activateCmd, h, decide_eq_false h5, Bool.false_and, hr, Bool.or_false, Bool.false_eq_true, if_false, hc, he, Bool.not_false, ne_eq,
    not_true_eq_false]
  rfl

theorem activated_fwRegion (n : Nat) (s : State) :
    (activated n s).fwRegion (s.updSession n).region = activatedRegion (s.fwRegion (s.updSession n).region) (s.updSession n).siding :=
  State.fwRegion_setRegion _ _ _

theorem activated_updSession (n : Nat) (s : State) : (activated n s).updSession n = { s.updSession n with state := 5 } := State.updSession_setUpdSession _ n _

/-! Confirmation and the return (R462, R463). -/

/-- The record of a region whose trial CONFIRM ends. -/
def confirmedRegion (g : RegionRec) (f : FwImage) : RegionRec :=
  { g with trial := false, rollbackMin := f.rollback, prevUsable := match prevFw g with
    | some p => decide (p.formats = f.formats) && decide (f.rollback ≤ p.rollback)
    | none => false }

/-- The state with a trial confirmed. -/
def confirmed (n : Nat) (f : FwImage) (s : State) : State :=
  let x := s.updSession n
  let t := s.setRegion x.region (confirmedRegion (s.fwRegion x.region) f)
  { t with mram := { s.mram with fwWrittenAt := some s.sbyNow } }.setUpdSession n { x with state := 7, opened := false }

theorem confirmCmd_tried {n : Nat} {f : FwImage} {s : State} (h : (s.updSession n).state = 6) (hr : s.recent10 s.mram.fwWrittenAt = false)
    (h5 : (s.updSession n).region ≠ 5) (hf : activeFw (s.fwRegion (s.updSession n).region) = some f) :
    confirmCmd n s = cmdEnd 2 0 ((confirmed n f s).raise Ev.UPD_CONFIRMED) := by
  simp only [confirmCmd, h, decide_eq_false h5, Bool.false_and, hr, Bool.or_false, Bool.false_eq_true, if_false, ne_eq, not_true_eq_false, hf]
  refine congrArg (fun t : State => cmdEnd 2 0 (t.raise Ev.UPD_CONFIRMED)) ?_
  cases hp : prevFw (s.fwRegion (s.updSession n).region) <;> simp only [confirmed, confirmedRegion, hp] <;> rfl

theorem confirmed_fwRegion (n : Nat) (f : FwImage) (s : State) :
    (confirmed n f s).fwRegion (s.updSession n).region = confirmedRegion (s.fwRegion (s.updSession n).region) f := State.fwRegion_setRegion _ _ _

theorem confirmed_updSession (n : Nat) (f : FwImage) (s : State) : (confirmed n f s).updSession n = { s.updSession n with state := 7, opened := false } :=
  State.updSession_setUpdSession _ n _

theorem confirmCmd_untried {n : Nat} {s : State} (h : (s.updSession n).state ≠ 6) : confirmCmd n s = cmdEnd 2 1 s := if_pos h

theorem fallbackCmd_untried {n : Nat} {s : State} (h : (s.updSession n).state ≠ 6) : fallbackCmd n s = cmdEnd 3 1 s := if_pos h

theorem fallbackCmd_tried {n : Nat} {s : State} (h : (s.updSession n).state = 6) :
    fallbackCmd n s = cmdEnd 3 0 ((fallBack (s.updSession n).region s).raise Ev.UPD_FALLBACK) := if_neg (not_not_intro h)

theorem abortCmd_running {n : Nat} {s : State} (h : (s.updSession n).state = 1 ∨ (s.updSession n).state = 2 ∨ (s.updSession n).state = 3) :
    abortCmd n s = cmdEnd 4 0 (s.setUpdSession n { s.updSession n with state := 9, opened := false }) := if_pos h

theorem fallBack_waits {r : Nat} {s : State} (he : s.effectNow r = false) (hs : s.sessionOfRegion r 6 = none) :
    fallBack r s = s.setRegion r { s.fwRegion r with activeSlot := 1 - (s.fwRegion r).activeSlot, trial := false, prevUsable := false, waiting := true } := by
  have hs' : (s.setRegion r { s.fwRegion r with activeSlot := 1 - (s.fwRegion r).activeSlot, trial := false, prevUsable := false, waiting := true }).sessionOfRegion r 6 = none := hs
  simp only [fallBack, he, Bool.not_false, hs', Bool.false_eq_true, if_false]

end Sys2Proof.Machine

open Sys2Proof Sys2Proof.Machine
/-- Settles O57: each command runs one branch by the state of its session, the siding is checked by `checkFw`, which no image without both signatures
passes, and a fall-back that waits writes its region once. -/
theorem firmwareUpdate : Obligations.FirmwareUpdate := by
  unfold Obligations.FirmwareUpdate
  refine ⟨⟨fun n bad s hp hs => ⟨fun hc hm => ?_, fun hc => ?_⟩, fun k n bad s hp => ⟨fun hs => ?_, fun hs hr h5 => ⟨fun hc => ?_, fun hc he => ?_⟩, fun hs hr => ?_⟩,
    fun n s hp hw => ⟨fun he => .pos rfl (by simp [hp, hw, he]) rfl, fun he => .neg rfl (by simp [he]) rfl⟩, fun s r d f h => checkFw_unsigned h⟩,
    fun k n f s hp => ⟨fun hs hr h5 hf => ?_, fun hs => ⟨?_, ?_⟩, fun hs => ?_, fun hs => ?_⟩, fun l n s hp => ⟨?_, ?_⟩, fun r s he hs => ?_,
    fun r s => ⟨s.free.1.toNat % (s.effectBound r + 1), ?_, ?_, ?_⟩⟩
  · refine .of_eq (exec_verifyComplete_verified hp hs hc hm) ⟨?_, .after (by decide) (State.setUpdSession_keeps _ _ _)⟩
    rw [State.updSession_congr (State.raise_upd _ _), State.updSession_setUpdSession]
  · refine .of_eq (exec_verifyComplete_failed hp hs hc) ⟨?_, .after (by decide) (State.setUpdSession_keeps _ _ _)⟩
    rw [State.updSession_congr (State.raise_upd _ _), State.updSession_setUpdSession]
  · exact .of_eq (congrArg Host.Outcome.next (updBy_ok _ hp (updOrigin_mgmt k s))) (activateCmd_unverified hs)
  · refine .of_eq (congrArg Host.Outcome.next (updBy_ok _ hp (updOrigin_mgmt k s))) ?_
    rw [activateCmd_failed hs hr h5 hc, State.updSession_congr (cmdEnd_keeps _ _ _).upd, (cmdEnd_keeps _ _ _).upd,
      State.updSession_congr (State.raise_upd _ _), State.raise_upd, State.updSession_setUpdSession, cmdEnd_get_event _ _ _ rfl (by decide)]
    exact ⟨rfl, rfl, cmdEnd_result _ _ (by decide), State.raise_get_bit _ (by decide)⟩
  · refine .of_eq (congrArg Host.Outcome.next (updBy_ok _ hp (updOrigin_mgmt k s))) ?_
    have hu := (cmdEnd_keeps 1 0 (activated n s)).upd
    rw [activateCmd_waits hs hr h5 hc he, State.fwRegion_congr hu, State.updSession_congr hu, activated_fwRegion, activated_updSession,
      (cmdEnd_keeps _ _ _).mram]
    exact ⟨activeFw_putSlot _ _ _, rfl, rfl, rfl, rfl, cmdEnd_result _ _ (by decide), cmdEnd_lastCmd _ _ (by decide)⟩
  · exact .of_eq (congrArg Host.Outcome.next (updBy_ok _ hp (updOrigin_mgmt k s))) (activateCmd_recent hs hr)
  · refine .of_eq (congrArg Host.Outcome.next (updBy_ok _ hp (updOrigin_mgmt k s))) ?_
    have hu := (cmdEnd_keeps 2 0 ((confirmed n f s).raise Ev.UPD_CONFIRMED)).upd.trans (State.raise_upd _ _)
    rw [confirmCmd_tried hs hr h5 hf, State.fwRegion_congr hu, State.updSession_congr hu, confirmed_fwRegion, confirmed_updSession,
      (cmdEnd_keeps _ _ _).mram, State.raise_mram]
    exact ⟨rfl, rfl, rfl, rfl, cmdEnd_result _ _ (by decide)⟩
  · exact .of_eq (congrArg Host.Outcome.next (updBy_ok _ hp (updOrigin_mgmt k s))) (confirmCmd_untried hs)
  · exact .of_eq (congrArg Host.Outcome.next (updBy_ok _ hp (updOrigin_mgmt k s))) (fallbackCmd_untried hs)
  · exact .of_eq (congrArg Host.Outcome.next (updBy_ok _ hp (updOrigin_mgmt k s))) (fallbackCmd_tried hs)
  · refine .of_eq (congrArg Host.Outcome.next (updBy_ok _ hp (updOrigin_mgmt k s))) ?_
    rw [abortCmd_running hs, State.updSession_congr (cmdEnd_keeps _ _ _).upd, State.updSession_setUpdSession]
    exact ⟨rfl, cmdEnd_result _ _ (by decide), cmdEnd_lastCmd _ _ (by decide),
      ((State.setUpdSession_keeps _ _ _).mono (by decide)).trans ((cmdEnd_keeps _ _ _).mono (by decide))⟩
  · exact .of_eq (congrArg Host.Outcome.next (updBy_refused _ hp (updOrigin_lane l s))) rfl
  · exact .of_eq (congrArg Host.Outcome.next (updBy_refused _ hp (updOrigin_lane l s))) rfl
  · rw [fallBack_waits he hs, State.fwRegion_setRegion]
    exact ⟨rfl, rfl, rfl⟩
  · exact Nat.le_of_lt_succ (Nat.mod_lt _ (Nat.succ_pos _))
  · exact congrArg RegionRec.effectEnd (State.fwRegion_setRegion _ _ _)
  · exact congrArg RegionRec.effectTick (State.fwRegion_setRegion _ _ _)

end

section
/-! SUPPORT. The owner anchor and attestation (R470 to R476). -/

set_option Elab.async false

namespace Sys2Proof.Machine

open Sys2Proof

/-! The owner anchor (R471). -/

theorem anchorOrigin_svc {k : Nat} {s : State} (h : serviceOk s (.svc k) = true) : (isSvc (.svc k) && serviceOk s (.svc k)) = true := by
  rw [h]
  rfl

theorem anchorClearCmd_state {s : State} (h : s.carrier.leverOpen = false ∨ s.mode = .active) : anchorClearCmd s = cmdEnd 5 3 s :=
  if_pos (by simpa using h)

theorem anchorClearCmd_token {s : State} (hl : s.carrier.leverOpen = true) (hm : s.mode ≠ .active) (ht : s.tokenOk s.tokenBytes = false) :
    anchorClearCmd s = cmdEnd 5 4 s := (if_neg (by simp [hl, hm])).trans (if_pos (by rw [ht]; rfl))

theorem anchorClearCmd_accepted {s : State} (hl : s.carrier.leverOpen = true) (hm : s.mode ≠ .active) (ht : s.tokenOk s.tokenBytes = true) :
    anchorClearCmd s = cmdEnd 5 0 (State.raise
      { s with mram := { s.mram with anchorEpoch := (s.mram.anchorEpoch + 1) % 2 ^ 32, clearPending := true } } Ev.UPD_ANCHOR_CLEAR_ACCEPTED) :=
  (if_neg (by simp [hl, hm])).trans (if_neg (by rw [ht]; exact Bool.false_ne_true))

/-- What a token that is taken names and proves. -/
theorem tokenOk_parts {s : State} {b : List Byte} (h : s.tokenOk b = true) :
    leNat (b.take 8) = s.fixed.serial.toNat ∧ leNat ((b.drop 8).take 4) = s.mram.anchorEpoch ∧ s.mram.anchor = some (sha384 ((b.drop 0x10).take 97)) ∧
      ecdsaVerify (tokenKey b) (sha384 (b.take 0x74)) (beNat ((b.drop 0x74).take 48), beNat ((b.drop 0xA4).take 48)) = true := by
  obtain ⟨h, hsig⟩ := Bool.and_eq_true_iff.mp h
  obtain ⟨h, hanchor⟩ := Bool.and_eq_true_iff.mp h
  obtain ⟨h, -⟩ := Bool.and_eq_true_iff.mp h
  obtain ⟨hserial, hepoch⟩ := Bool.and_eq_true_iff.mp h
  exact ⟨of_decide_eq_true hserial, of_decide_eq_true hepoch, of_decide_eq_true hanchor, hsig⟩

/-! Attestation (R475, R476). -/

/-- The count of the reports of this second (R475). -/
def countedUpd (s : State) : Update := if s.upd.signedSecond = s.second then s.upd else { s.upd with signedSecond := s.second, signedCount := 0 }

theorem countedUpd_free {s : State} (h : s.upd.signedSecond ≠ s.second ∨ s.upd.signedCount < 10) : (countedUpd s).signedCount < 10 := by
  unfold countedUpd
  split
  · next hs => exact h.resolve_left (not_not_intro hs)
  · exact Nat.zero_lt_succ 9

theorem countedUpd_signing (s : State) : (countedUpd s).signing = s.upd.signing := by
  unfold countedUpd
  split <;> rfl

theorem countedUpd_treeReady (s : State) : { s with upd := countedUpd s }.treeReady = s.treeReady := by
  unfold State.treeReady countedUpd
  split <;> rfl

/-- A GO that is neither busy nor too early. -/
theorem attestWrite_served {s : State} (hs : s.upd.signing = false) (hc : s.upd.signedSecond ≠ s.second ∨ s.upd.signedCount < 10)
    (ht : s.start.startTick + ticksOfMs 120000 ≤ s.time.tick) :
    attestWrite s = if !s.treeReady then { s with upd := countedUpd s }.put Reg.UPD_ATT_STATUS_STATE 5
      else { s with upd := { countedUpd s with signing := true } }.put Reg.UPD_ATT_STATUS_STATE 1 := by
  have hbusy : ¬ ((countedUpd s).signing = true ∨ 10 ≤ (countedUpd s).signedCount) := by
    rw [countedUpd_signing, hs]
    exact fun h => h.elim Bool.false_ne_true (Nat.not_le.mpr (countedUpd_free hc))
  rw [← countedUpd_treeReady]
  exact (if_neg hbusy).trans (if_neg (Nat.not_lt.mpr ht))

/-- The state of the report while it is signed: the reservation covers its leaf, which is used up. -/
def reportHeld (randomiser : Nat) (s : State) : State :=
  let q := s.upd.leaf
  let limit := if s.upd.limit ≤ q then (q / 1024 + 1) * 1024 else s.upd.limit
  let s := { s with upd := { s.upd with limit := limit, reportSeq := (s.upd.reportSeq + 1) % 2 ^ 32 } }
  { s with upd := { s.upd with words := signedReport randomiser s, signing := false, signedCount := s.upd.signedCount + 1, leaf := q + 1 } }

theorem reportHeld_leaf (c : Nat) (s : State) : (reportHeld c s).upd.leaf = s.upd.leaf + 1 ∧ (reportHeld c s).upd.leaf ≤ (reportHeld c s).upd.limit := by
  refine ⟨rfl, ?_⟩
  show s.upd.leaf + 1 ≤ if s.upd.limit ≤ s.upd.leaf then (s.upd.leaf / 1024 + 1) * 1024 else s.upd.limit
  split <;> omega

theorem reportHeld_words (c : Nat) (s : State) : (reportHeld c s).upd.words.length = 1585 := leWords_length _ _

theorem reportHeld_keeps (c : Nat) (s : State) : KeepsBut [.upd] s (reportHeld c s) := (Moves.set_upd _ (by decide) (.refl _ s)).keeps

theorem exec_reportSigned (c : Nat) {s : State} (hp : s.powered = true) (hs : s.upd.signing = true) :
    exec (.reportSigned c) s = .next ((((reportHeld c s).put Reg.UPD_ATT_STATUS_STATE 2).put Reg.UPD_ATT_STATUS_REPORT_SEQ
      (reportHeld c s).upd.reportSeq).raise Ev.UPD_REPORT_READY) :=
  congrArg Host.Outcome.next (if_pos (by rw [hp, hs]; rfl))

theorem exec_nextTreeBuilt {n : Nat} {s : State} (hp : s.powered = true) (hn : s.treeBuilding = some n) :
    exec .nextTreeBuilt s = .next { s with upd := { s.upd with trees := n :: s.upd.trees } } := by
  show execNextTreeBuilt s = _
  unfold execNextTreeBuilt
  simp only [hn]
  rw [if_pos hp]

theorem exec_nextTreeBuilt_none {s : State} (hn : s.treeBuilding = none) : exec .nextTreeBuilt s = .next s := by
  show execNextTreeBuilt s = _
  unfold execNextTreeBuilt
  simp only [hn]

end Sys2Proof.Machine

open Sys2Proof Sys2Proof.Machine

/-- Settles O58: the anchor's command and GO run one branch each by the state, and a signed report reserves, holds and uses up its leaf in `reportHeld`. -/
theorem anchorAndAttestation : Obligations.AnchorAndAttestation := by
  unfold Obligations.AnchorAndAttestation
  refine ⟨fun k n s hp ho => ⟨fun h => ?_, fun hl hm ht => ?_, fun hl hm ht => ?_⟩, fun b s h => ?_, fun o n s hp ho => ?_,
    fun k s hp hs hc ht => ⟨fun hr => ?_, fun hr => ?_⟩, fun c s hp hs => ?_, fun n s hp hn => .of_eq (exec_nextTreeBuilt hp hn) rfl,
    fun s hn => .of_eq (exec_nextTreeBuilt_none hn) rfl⟩
  · exact .of_eq (congrArg Host.Outcome.next (updBy_ok _ hp (anchorOrigin_svc ho))) (anchorClearCmd_state h)
  · exact .of_eq (congrArg Host.Outcome.next (updBy_ok _ hp (anchorOrigin_svc ho))) (anchorClearCmd_token hl hm ht)
  · refine .of_eq (congrArg Host.Outcome.next (updBy_ok _ hp (anchorOrigin_svc ho))) ?_
    rw [anchorClearCmd_accepted hl hm ht, (cmdEnd_keeps _ _ _).mram, State.raise_mram, cmdEnd_get_event _ _ _ rfl (by decide)]
    exact ⟨rfl, cmdEnd_result _ _ (by decide), State.raise_get_bit _ (by decide)⟩
  · obtain ⟨hserial, hepoch, hanchor, hsig⟩ := tokenOk_parts h
    exact ⟨Option.ne_none_iff_exists.mpr ⟨_, hanchor.symm⟩, hserial, hepoch, hanchor, hsig⟩
  · exact .of_eq (congrArg Host.Outcome.next (updBy_refused _ hp (by rw [ho, Bool.false_and]))) rfl
  · refine .pos rfl hp ?_
    rw [byOrigin_ok (updOrigin_mgmt k s), attestWrite_served hs hc ht, hr, if_neg (by decide)]
    exact ⟨rfl, State.get_put_of_lt _ (by decide), (Moves.set_upd _ (by decide) (.refl _ s)).keeps.put _ _⟩
  · refine .pos rfl hp ?_
    rw [byOrigin_ok (updOrigin_mgmt k s), attestWrite_served hs hc ht, hr, if_pos (by decide)]
    exact ⟨(countedUpd_signing s).trans hs, State.get_put_of_lt _ (by decide)⟩
  · refine .of_eq (exec_reportSigned c hp hs) ?_
    obtain ⟨hleaf, hlimit⟩ := reportHeld_leaf c s
    rw [State.raise_upd, State.raise_get_ne _ (by decide) (by decide), State.get_put_ne _ _ (by decide)]
    exact ⟨hleaf, hlimit, rfl, rfl, reportHeld_words c s, State.get_put_of_lt _ (by decide),
      ((((reportHeld_keeps c s).mono (by decide)).put _ _).put _ _).trans ((State.raise_keeps _ _).mono (by decide))⟩

end
